-- ==== Sys2Proof/Word.lean ====
section
/-!
DEFINITION. Word.lean: the word types of the model and their plainest arithmetic.
Register contents are bit vectors. Counts, addresses, indices, times and byte counts are natural numbers, because the
spec adds and compares them as numbers.
-/

namespace Sys2Proof

/-- One byte of device memory. -/
abbrev Byte := BitVec 8

/-- The contents of one 32-bit register (R20). -/
abbrev Word := BitVec 32

/-- A device physical address (48 bits, R81) kept as the number it is. -/
abbrev Addr := Nat

/-- A point of device time in nanoseconds (R60). -/
abbrev Ns := Nat

end Sys2Proof
end

