-- ==== Sys2Proof/Machine/Types.lean ====
section
/-! DEFINITION. The data types of the state and of the commands' operands, chapter by chapter. Plain data throughout. -/

namespace Sys2Proof.Machine

/-- The three ordering codes (00_scope, R4 to R10). -/
inductive Part
  | yvs1152
  | yvs768
  | yvs576
  deriving DecidableEq, Repr

/-- What fuses fix at manufacture (R4, R6 to R10, R512, R624, R647). No step changes them (R11). -/
structure Fuses where
  part : Part
  revision : Nat
  serial : Nat
  linkDomain : Nat
  deriving DecidableEq, Repr

/-- Device memory: the bytes that hold a value other than what an unlisted byte reads as, at strictly rising addresses;
and the ranges whose contents belong to an earlier tenant epoch and have not been written since (R636, R638). -/
structure Memory where
  cells : List Host.Cell
  stale : List (Nat × Nat)
  deriving DecidableEq, Repr

/-- One memory effect of a command: `store` writes `len` little-endian bytes (R20); `zero` clears [lo, hi);
`stale` marks [lo, hi) as written under an earlier epoch key (R636). -/
inductive MemOp
  | store (addr len val : Nat)
  | zero (lo hi : Nat)
  | stale (lo hi : Nat)
  deriving DecidableEq, Repr

/-- Status codes (R25). -/
inductive Status
  | DONE | DONE_DEGRADED | DONE_PARTIAL
  | REFUSED_CAPACITY | REFUSED_STATE | REFUSED_RESOURCE
  | CANCELLED | GRAMMAR_DEAD | STOPPED
  | FAULT_MEDIA | FAULT_UNIT | FAULT_TIMEOUT | FAULT_LINK | NOT_PRESENT
  deriving DecidableEq, Repr

/-- How a PCIe request that HP receives is answered (R17, R46, R720). -/
inductive Cpl
  | success | unsupportedRequest | completerAbort | requestRetry
  deriving DecidableEq, Repr

/-- Power and reset domains of the register blocks (R85). -/
inductive Domain
  | control | quad (n : Nat) | die0 | die1 | rcl | cvfGroup (g : Nat) | belt
  deriving DecidableEq, Repr

/-- The identity of a fetched command: its SQ, its CMD_ID and USER, its opcode and its flags (R524). -/
structure Cmd where
  sq : Nat
  cmdId : Nat
  user : Nat
  opcode : Nat
  fence : Bool
  irqNow : Bool
  deriving DecidableEq, Repr

/-- Answers of the MCTP control and PLDM responder (R546, R547). -/
inductive McAnswer
  | endpointSet (eid : Nat)
  | endpointId (eid : Nat)
  | uuid (serial : Nat)
  | versions (msgType : Nat) (supported : Bool)
  | messageTypes (types : List Nat)
  | unsupportedCmd (cmd : Nat)
  | tidSet
  | tid (t : Nat)
  | pldmVersion (typ : Nat) (supported : Bool)
  | pldmTypes (types : List Nat)
  | pldmCommands (typ : Nat) (names : List String)
  | receiverSet
  | pdrInfo (records : Nat)
  | pdr (record : Nat) (sensor : Nat) (numeric : Bool) (unit : String) (next : Nat)
  | pdrInvalidHandle
  | sensorReading (sensor : Nat) (value : Nat)
  | sensorState (sensor : Nat) (state : Nat)
  | invalidSensor (sensor : Nat)
  | unsupportedPldm (typ cmd : Nat)
  | platformEvent (sensor : Nat) (value : Nat)
  deriving DecidableEq, Repr

/-- Who reaches a mailbox word. -/
inductive MboxId
  | m (n : Nat)
  | recovery
  deriving DecidableEq, Repr

/-- The output pins that the model drives (R620, R658, R661, ch. 17). -/
inductive OutPin
  | alertN | thermtripN | gpio (n : Nat) | mchOut | mch2Out
  deriving DecidableEq, Repr

/-- One thing the device sends out. The list of these in State is in the order of sending. -/
inductive Out
  | msix (vector : Nat)
  | cpl (status : Cpl) (data : Nat) (poisoned : Bool)
  | mctp (a : McAnswer)
  | chain (second : Bool) (frame : List Nat)
  | cvfFlit (port : Nat) (kind : String) (fields : List Nat)
  | cvfFrame (port : Nat) (cls : Nat) (bytes : List Nat)
  | hpRecord (channel : Nat) (bytes : List Nat)
  | pin (p : OutPin) (level : Bool)
  | pool (write : Bool) (addr bytes : Nat)
  | answer (values : List Nat)
  deriving DecidableEq, Repr

/-- An HBM 64 B word or an SRAM 8 B word whose check word is wrong (R674, R691); `held` while the device keeps the check
word from before an injection. -/
structure BadWord where
  addr : Addr
  uncorrectable : Bool
  injected : Bool
  held : Bool
  deriving DecidableEq, Repr

/-! ### Host interface (chapter 11) -/

/-- A submission queue (R523 to R525, R531): fetch head, doorbell tail, entries waiting, priority, bound CQ, composition. -/
structure Sq where
  offset : Nat
  sizeLog2 : Nat
  high : Bool
  cq : Nat
  composition : Nat
  head : Nat
  tail : Nat
  waiting : Nat
  deleting : Option Cmd
  deriving DecidableEq, Repr

/-- A completion queue (R523, R526 to R530): next index to post, its PHASE, the head doorbell, and the entries posted and not
consumed. -/
structure Cq where
  offset : Nat
  sizeLog2 : Nat
  vector : Option Nat
  tail : Nat
  phase : Bool
  head : Nat
  live : Nat
  deriving DecidableEq, Repr

/-- The host request queue (R523, R538). -/
structure Hrq where
  offset : Nat
  sizeLog2 : Nat
  vector : Nat
  tail : Nat
  phase : Bool
  head : Nat
  live : Nat
  deriving DecidableEq, Repr

/-- What a T4 request serves, so that its STORE_DONE reaches the operation (R538 ORIGIN, R539). -/
inductive T4Owner
  | park (idx target : Nat)
  | revive (idx target : Nat)
  | evacuation (idx target : Nat)
  | ckptShard (idx part : Nat)
  | ckptCatalogue (target : Nat)
  | restore (target : Nat)
  | areaRelease
  deriving DecidableEq, Repr

/-- A T4 request that is outstanding (R538, R540). `posted` tells whether the HRQ had room for its entry. -/
structure HostReq where
  reqId : Nat
  op : Nat
  origin : Nat
  object : Nat
  objOffset : Nat
  devAddr : Addr
  bytes : Nat
  owner : T4Owner
  since : Ns
  retries : Nat
  posted : Bool
  deriving DecidableEq, Repr

/-- The coalescing state of one MSI-X vector (R536): items counted since the last raise, and when the oldest came. -/
structure VecState where
  count : Nat
  oldest : Ns
  deriving DecidableEq, Repr

/-- A fetched command that has not posted its FINAL entry; `posts` is how many CQ entries it can still post (R530). -/
structure Flight where
  cmd : Cmd
  posts : Nat
  deriving DecidableEq, Repr

/-- One mailbox direction (R541, R542). -/
structure MboxWord where
  data : Nat
  full : Bool
  collide : Bool
  deriving DecidableEq, Repr

/-- A mailbox: host-to-device word, device-to-host word, interrupt enable (R541). -/
structure Mbox where
  h2d : MboxWord
  d2h : MboxWord
  irqEn : Bool
  deriving DecidableEq, Repr

/-- PCIe configuration state of HP that a configuration request can write and the spec gives an effect (R512, R513). -/
structure HpConfig where
  bme : Bool
  d3hot : Bool
  bar2SizeLog2 : Nat
  ptmEnable : Bool
  msixEnable : Bool
  functionMask : Bool
  raw : List (Nat × Nat)
  deriving DecidableEq, Repr

/-- The host interface. `fetchTurn` holds the SQ visited last among HIGH and among NORMAL queues (R525). -/
structure Hif where
  sqs : List (Nat × Sq)
  cqs : List (Nat × Cq)
  hrq : Option Hrq
  flights : List Flight
  fetchTurn : Nat × Nat
  highVisits : Nat
  nextReqId : Nat
  requests : List HostReq
  vecs : List (Nat × VecState)
  mboxes : List (Nat × Mbox)
  recovery : Mbox
  hp : HpConfig
  ppUp : Bool
  ppSerials : List Nat
  eid : Nat
  tid : Nat
  eventReceiver : Option Nat
  sensors : List (Nat × Nat)
  meterCarry : List (Nat × Nat)
  deriving DecidableEq, Repr

/-! ### Errors (chapter 16) -/

/-- A report on its way to a log, or the reports merged into it while it waited (R681, R687). -/
structure Report where
  source : Nat
  type : Nat
  sev : Nat
  level : Nat
  injected : Bool
  info : Nat
  stamp : Ns
  lastStamp : Ns
  count : Nat
  deriving DecidableEq, Repr

/-- A log entry (R683). -/
structure LogEntry where
  first : Ns
  lastOfs : Nat
  count : Nat
  source : Nat
  type : Nat
  sev : Nat
  level : Nat
  injected : Bool
  seq : Nat
  info : Nat
  deriving DecidableEq, Repr

/-- One error log: the first 2,048 entries, the ring with the index of its oldest entry, and the intake queue (R686,
R687). The ring is listed oldest first. -/
structure ErrLog where
  fixed : List LogEntry
  ring : List LogEntry
  oldest : Nat
  seqNext : Nat
  queue : List Report
  deriving DecidableEq, Repr

/-- The error logs and what counts reports; `deadStacks` the stacks whose controller has failed (R696). -/
structure Err where
  logs : List ErrLog
  bad : List BadWord
  lastVec0 : Option Ns
  vec0Deferred : Bool
  lineCe : List (Nat × Nat)
  deadStacks : List Nat
  retiredLines : List Nat
  quadResets : List (Nat × Ns)
  warnWin : Ns
  warnCount : Nat
  secWin : Ns
  secCount : Nat
  secPrev : Nat
  deriving DecidableEq, Repr

/-! ### Time (chapter 1) -/

/-- A timekeeper: the rate correction in parts per billion that it holds, whether it is aligned, its count over the last
25,000 reference periods (R62, R63, R68, R69), the error in ns that it has gathered in holdover, and whether it is in holdover (R66). -/
structure Timekeeper where
  trimPpb : Int
  aligned : Bool
  counted : Nat
  debt : Int
  held : Bool
  deriving DecidableEq, Repr

/-- One PTM correlation pair (R71). -/
structure PtmPair where
  dev : Nat
  host : Nat
  linkDly : Nat
  deriving DecidableEq, Repr

/-- The time of the chip. -/
structure TimeSt where
  chip : Timekeeper
  quads : List Timekeeper
  sourceLost : Bool
  ptmLast : PtmPair
  ptmLastAt : Option Ns
  ptmRunning : Bool
  deriving DecidableEq, Repr

/-! ### Cells and the Ecliptic (chapter 1) -/

/-- The arbiter of one cell (R34, R35): its block, as the offset of the block's PACE register, and its number there; the requester that
has the grant, the one that had it last, the others that wait, and the requesters whose handshake has been raised again, each with the time (R74). -/
structure CellArb where
  block : Nat
  cell : Nat
  granted : Option Nat
  last : Nat
  waiting : List Nat
  again : List (Nat × Ns)
  deriving DecidableEq, Repr

/-- The operation that a transfer over the Ecliptic belongs to: a request's image on its way into staging, the pages and the partials of a work
tile, or a stream of base-die work by the index or number of its owner (1 a park or revive, 3 a shard of a checkpoint). -/
inductive EclOp
  | layerImage (req : Nat)
  | tailImage (req : Nat)
  | pages (req tile : Nat)
  | partials (req tile : Nat)
  | stream (kind owner : Nat)
  deriving DecidableEq, Repr

/-- A transfer that waits at an Ecliptic port (R36 to R45): source and destination port, class (0 CONTROL, 1 DEADLINE, 2 BULK), bytes whose
segments have not arrived, the block that sends, whether the segment in front is its second copy, and the operation. -/
structure EclXfer where
  src : Nat
  dst : Nat
  cls : Nat
  left : Nat
  block : Nat
  again : Bool
  op : EclOp
  deriving DecidableEq, Repr

/-- The arbiters of cells and of Ecliptic ports. `xfers` lists the transfers in the order in which they were sent; `turns` the source served
last, by destination and class (R41); `eighths` counts the segments of the present eight at a port while BULK waits, and the BULK ones among
them (R40); `control` holds source and destination of CONTROL segments whose first copy failed (R44). -/
structure ArbSt where
  cells : List CellArb
  xfers : List EclXfer
  turns : List (Nat × Nat)
  eighths : List (Nat × Nat × Nat)
  control : List (Nat × Nat)
  deriving DecidableEq, Repr

/-! ### Sessions (chapter 2) -/

/-- STATE of a descriptor (R94). -/
inductive SState
  | void | hot | idle | parked | transit | reviving | closing
  deriving DecidableEq, Repr

/-- SUBSTATE of a descriptor (R94). -/
inductive SSub
  | none | parking | movingOut | movingIn
  deriving DecidableEq, Repr

/-- A session descriptor (R94). Each field has the width of R94; FW_AREA is one number of 96 bytes. CRC is computed when
the descriptor is written out (R95). -/
structure Desc where
  state : SState
  sub : SSub
  gen : Nat
  variant : Nat
  composition : Nat
  ptRoot : Nat
  batch : Nat
  commitLen : Nat
  stepSeq : Nat
  ckptEpoch : Nat
  tier : Nat
  image : Bool
  stripeN : Nat
  locAddr : Nat
  grammar : Nat
  gstate : Nat
  gsp : Nat
  deadAction : Nat
  gstackAddr : Nat
  escapeToken : Nat
  gstackTop : Nat
  temp : Nat
  topP : Nat
  minP : Nat
  topK : Nat
  hook : Nat
  rngKey : Nat
  rngCtr : Nat
  pendBytes : Nat
  pendN : Nat
  errBudget : Nat
  prefixId : Nat
  listsAddr : Nat
  lastStamp : Nat
  fwArea : Nat
  deriving DecidableEq, Repr

/-- A resource of the ledger (R126). -/
inductive Res
  | ae (q : Nat) | merge (q : Nat) | hbm (s : Nat) | score (s : Nat)
  | eclQuad (q : Nat) | eclHif | eclCvf (g : Nat) | eclTail | dieCut
  | mask | topk | sampler | text | egress (port cls : Nat)
  deriving DecidableEq, Repr

/-- The units and rates that the ledger uses for a batch (R126, R135, R303), fixed when the batch opens: per quadrant the
online AEs, their summed rate and the merge rate; per fitted stack four times its usable pseudo-channels, three times at CRIT_C; per compute stack its score
rate; the summed rates of mask, top-k, sampler and text units; TB_RATE times the lanes of a port's class, by 8·port + class; and the rates that ring members have sent, by
ring and position (R231). Rates are per microsecond. -/
structure Figures where
  aeCount : List Nat
  aePool : List Nat
  merge : List Nat
  stackPcs : List (Nat × Nat)
  score : List (Nat × Nat)
  mask : Nat
  topk : Nat
  sampler : Nat
  text : Nat
  egress : List (Nat × Nat)
  rings : List (Nat × Nat × List (Res × Nat))
  deriving DecidableEq, Repr

/-- An open step batch (R108, R113, R114); members in the order in which they joined. -/
structure Batch where
  id : Nat
  winStart : Ns
  winEnd : Ns
  layers : Nat
  members : List Nat
  figures : Figures
  deriving DecidableEq, Repr

/-- A booking of the ledger (R125, R126, R131, R141): remaining demand per session and resource. `deadline` is the one the
test uses before L_r is taken off. -/
structure Booking where
  id : Nat
  deadline : Ns
  latNs : Nat
  prefill : Bool
  demand : List (Nat × List (Res × Nat))
  deriving DecidableEq, Repr

/-- What a tail entry leaves for the commit (R117): automaton state, generator counter, held-back bytes; and for the
lifecycle record, its token, DEAD_BY and STOP_CAUSE (R583). -/
structure TailLeft where
  gstate : Nat
  gsp : Nat
  gstackTop : Nat
  rngCtr : Nat
  pendBytes : Nat
  pendN : Nat
  token : Nat
  deadBy : Nat
  stopCause : Nat
  deriving DecidableEq, Repr

/-- What a HOT session's step has done so far (R116 to R118, R139, R199, R200): rows per layer, layers that a request has
named, layers whose rows have been received, whether a tail entry has been taken, bytes of text streamed, the deadline of its last
accepted layer request (R119), and what the tail left. -/
structure StepRec where
  idx : Nat
  rows : Option Nat
  named : List Nat
  layersGot : List Nat
  hasTail : Bool
  streamed : Nat
  lastDl : Ns
  left : Option TailLeft
  deriving DecidableEq, Repr

/-- Session table, descriptor cache, batches, ledger. A descriptor that `table` does not list holds the void pattern, with
GEN 0 and LAST_STAMP 0, or after a tenant switch with the GEN and LAST_STAMP of `voided` (R636, R725). `cache` holds the cached indices, most recently used first (R98 to R101). `leaked` counts the pages
and KiB of closed sessions whose descriptor had failed its check (R96). -/
structure Sess where
  table : List (Nat × Desc)
  voided : Option (Nat × Ns)
  lastAlloc : Nat
  cache : List Nat
  batches : List Batch
  steps : List StepRec
  bookings : List Booking
  nextBooking : Nat
  leaked : Nat × Nat
  deriving DecidableEq, Repr

/-! ### KV pages, prefixes, the page pool and the areas of R723 (chapters 3 and 5) -/

/-- The resident model (R2, R435): layers, KV heads per layer, query heads per KV head, head dimension, vocabulary, and
the 64 B shape record with its identifier. -/
structure Shape where
  layers : Nat
  hkv : Nat
  g : Nat
  d : Nat
  vocab : Nat
  shapeId : Nat
  record : Nat
  layerBase : Nat
  deriving DecidableEq, Repr

/-- KIND of a page header (R150). -/
inductive PKind
  | empty | coma | full | closed | pfx | pfxComa
  deriving DecidableEq, Repr

/-- KFMT or VFMT of a page header (R150). -/
inductive KvFmt
  | fp8 | k4s | k3s | k2s
  deriving DecidableEq, Repr

/-- Who owns a page: a session, by descriptor index, or a shared prefix. -/
inductive POwner
  | sess (idx : Nat)
  | pfx (id : Nat)
  deriving DecidableEq, Repr

/-- The logical coordinates of a page (R147). -/
structure PKey where
  owner : POwner
  layer : Nat
  head : Nat
  page : Nat
  deriving DecidableEq, Repr

/-- A page header (R150). LAYER, KV_HEAD, TOKEN_BASE and HDIM follow from the key and the shape. FP32 fields hold bit
patterns. Payload and meta bytes lie in device memory at the frames. -/
structure Page where
  kind : PKind
  kfmt : KvFmt
  vfmt : KvFmt
  fadeStop : Bool
  mediaBad : Bool
  nonfinite : Bool
  rows : Nat
  srSeed : Nat
  payload : Addr
  payload2 : Addr
  meta1 : Addr
  kPscale : Nat
  vPscale : Nat
  kSscale : Nat
  vSscale : Nat
  kOutCh : Nat
  vOutCh : Nat
  kOutN : Nat
  vOutN : Nat
  kErr : Nat
  vErr : Nat
  kEn : Nat
  vEn : Nat
  vNmax : Nat
  closeStamp : Ns
  prefixId : Nat
  deriving DecidableEq, Repr

/-- One tile (R265): the header of a page with its meta and payload bytes as little-endian numbers. -/
structure Tile where
  key : PKey
  header : Page
  metaLen : Nat
  metaVal : Nat
  payLen : Nat
  payVal : Nat
  deriving DecidableEq, Repr

/-- A shared prefix (R178 to R181, R259 to R263). -/
structure Prefix where
  id : Nat
  len : Nat
  refs : Nat
  loadRef : Bool
  pinned : Bool
  pinnedAt : Ns
  composition : Nat
  deriving DecidableEq, Repr

/-- A compression pass, queued or running (R167 to R170). -/
structure CompPass where
  key : PKey
  running : Option Addr
  deriving DecidableEq, Repr

/-- A fade trial in progress or its swap on the way to SESS (R171 to R173). -/
structure FadeTrial where
  key : PKey
  target : KvFmt
  slot : Addr
  done : Option Page
  metaVal : Nat
  payVal : Nat
  deriving DecidableEq, Repr

/-- One target area of a parked session (R268). -/
structure Target where
  location : Nat
  tbytes : Nat
  tier : Nat
  loan : Nat
  deriving DecidableEq, Repr

/-- Frames, areas and target areas to release one block timeout after a swap, a park or a move (R167 step 5, R272 step 5, R282 step 5). -/
structure FrameRelease where
  owner : POwner
  slots : List Addr
  areas : List Addr
  targets : List Target
  at_ : Ns
  deriving DecidableEq, Repr

/-- A PREFIX_CAPTURE that waits for its compressions (R178). -/
structure CaptureOp where
  idx : Nat
  prefixId : Nat
  cmd : Cmd
  deriving DecidableEq, Repr

/-- A KV_IMPORT or KV_EXPORT in progress (R183 to R185). -/
structure ImpExp where
  idx : Nat
  import_ : Bool
  rows : Nat
  fmtK : Nat
  fmtV : Nat
  start : Nat
  buf : Addr
  cmd : Cmd
  deriving DecidableEq, Repr

/-- A staged KV row of a step that is not yet in its coma page (R199, R724): layer, head, row number in the session, and
the row in its FP8 form with its meta fields (R162 to R164). -/
structure FpRow where
  kExp : Nat
  vExp : Nat
  k : List Nat
  v : List Nat
  kNorm : Nat
  kRerr : Nat
  vNorm : Nat
  vRerr : Nat
  nonfinite : Bool
  deriving DecidableEq, Repr

structure StagedRow where
  idx : Nat
  layer : Nat
  head : Nat
  row : Nat
  data : FpRow
  deriving DecidableEq, Repr

/-- A slot in use (R250): its address and the page it belongs to. -/
structure SlotUse where
  addr : Addr
  key : PKey
  deriving DecidableEq, Repr

/-- A retired slot (R301 to R304, R691). `listed` tells whether the flash list holds it. -/
structure RetiredSlot where
  addr : Addr
  listed : Bool
  deriving DecidableEq, Repr

/-- The page pool (R250 to R254) and slot retirement. `reserved` holds
the outstanding reservations of a session as (index, stack, slots). `ce` counts corrected errors per slot with the start
of the slot's window (R301); `injected` names the slots whose last error was an injected one (R691). -/
structure Pool where
  used : List SlotUse
  retired : List RetiredSlot
  retiredPcs : List Nat
  retiring : List Addr
  reserved : List (Nat × Nat × Nat)
  reservedBlocks : List (Nat × Nat)
  ce : List (Nat × Ns × Nat)
  injected : List Addr
  deriving DecidableEq, Repr

/-- What an allocation in an area of R723 is: a page-table root, a layer directory, a header block (of a layer, head and block
number), a grammar stack area or a list block. -/
inductive AreaKind
  | root | dir (layer : Nat) | hdr (layer head block : Nat) | gstack | lists
  deriving DecidableEq, Repr

/-- One allocation in an area of R723. `step` marks a header block that belongs to a step not yet committed (R118, R180). -/
structure AreaUse where
  addr : Addr
  bytes : Nat
  owner : POwner
  kind : AreaKind
  step : Bool
  deriving DecidableEq, Repr

/-- Pages, prefixes, passes and storage. -/
structure Kv where
  shape : Option Shape
  pages : List (PKey × Page)
  prefixes : List Prefix
  passes : List CompPass
  deferred : List PKey
  withdrawn : List PKey
  fades : List FadeTrial
  releases : List FrameRelease
  captures : List CaptureOp
  impexp : List ImpExp
  staged : List StagedRow
  stepPages : List (Nat × PKey)
  pool : Pool
  gsl : List AreaUse
  pta : List AreaUse
  deriving DecidableEq, Repr

/-! ### Tiers, parking, moving and lending (chapter 5) -/

/-- A park manifest (R268). -/
structure Manifest where
  image : Bool
  inPlace : Bool
  lost : Bool
  flat : Bool
  lostMap : Nat
  tiles : Nat
  bytes : Nat
  commitLen : Nat
  parkStamp : Ns
  targets : List Target
  imgCrc : Nat
  deriving DecidableEq, Repr

/-- What a park has written to its target areas: the descriptor copy, grammar stack and list block, and the tiles (R264).
The bytes at the targets are ciphertext of this content. -/
structure ParkedImage where
  desc : Desc
  gstack : List Nat
  lists : Option Nat
  tiles : List Tile
  deriving DecidableEq, Repr

/-- A park or demotion in progress (R272, R273, R290, R291), or the park that a move-in writes (R282 step 4). `waits` counts the transfers not yet
acknowledged, for each area as (target, tier, transfers). -/
structure ParkOp where
  idx : Nat
  cmd : Option Cmd
  demotion : Bool
  image : Bool
  first : Nat
  last : Nat
  stripeN : Nat
  storeBase : Nat
  targets : List Target
  content : ParkedImage
  waits : List (Nat × Nat × Nat)
  ring : Option Nat
  deriving DecidableEq, Repr

/-- A revive in progress (R276 to R278). -/
structure ReviveOp where
  idx : Nat
  cmd : Option Cmd
  reserved : Bool
  slots : List SlotUse
  areas : List AreaUse
  landed : List Nat
  reread : List Nat
  ring : Option Nat
  deriving DecidableEq, Repr

/-- Ring information of a move-in (R280, R288). -/
structure MoveRing where
  ringId : Nat
  rsn : Nat
  deriving DecidableEq, Repr

/-- A MOVE_OFFER (R282): the descriptor, the shape, tile count and byte count, and the way the session travels. -/
structure MoveOffer where
  tag : Nat
  src : Nat
  desc : Desc
  shapeRecord : Nat
  tiles : Nat
  bytes : Nat
  image : Bool
  flat : Bool
  prefixLen : Nat
  parked : Bool
  ringSession : Option (Nat × Nat × Nat)
  deriving DecidableEq, Repr

/-- A move out in progress (R282, R285, R286). -/
structure MoveOut where
  idx : Nat
  cmd : Option Cmd
  tag : Nat
  dest : Nat
  image : Bool
  flat : Bool
  prior : SState
  sentAll : Bool
  accepted : Bool
  sentAt : Ns
  cancel : Option (Cmd × Ns)
  unresolved : Bool
  ring : Option Nat
  deriving DecidableEq, Repr

/-- A move in, waiting or receiving (R281, R282): `targets` is the place that a parked copy has been given, `former` the generation of the index and the
index allocated last before the command, for a command that is refused (R26). -/
structure MoveIn where
  idx : Nat
  cmd : Cmd
  tag : Nat
  src : Nat
  chain : Nat
  stripeN : Nat
  composition : Nat
  storeBase : Nat
  ring : Option MoveRing
  since : Ns
  offer : Option MoveOffer
  got : List Tile
  gstack : List Nat
  lists : Option Nat
  reread : List Nat
  held : Bool
  targets : List Target
  former : Nat × Nat
  deriving DecidableEq, Repr

/-- What a session that a ring record revived was parked as, kept until its ring operation has ended (R275). -/
structure RevivedFrom where
  idx : Nat
  manifest : Manifest
  image : Option ParkedImage
  deriving DecidableEq, Repr

/-- A loan, lent or borrowed (R293 to R298): the peer's fabric address, the loan number, and per unit whether it is still
held. -/
structure Loan where
  peer : Nat
  number : Nat
  units : List Nat
  slots : List (Nat × List Addr)
  revoking : Option (Nat × Ns)
  reachable : Bool
  deriving DecidableEq, Repr

/-- A target area on its way out of a revoked loan unit (R296): its session and number, its new place, and the transfers that are still
to be answered; `writing` once its bytes have been read. -/
structure Evac where
  idx : Nat
  target : Nat
  dest : Target
  pending : Nat
  writing : Bool
  deriving DecidableEq, Repr

/-- The copy of a prefix page in the T0 region of its quadrant (R259 to R261): the page, its place, its bytes, and when its prefix lost the pin. -/
structure PinCopy where
  key : PKey
  addr : Addr
  bytes : Nat
  gone : Option Ns
  deriving DecidableEq, Repr

/-- Tiers, parks, revives, moves and loans. `t2` lists the areas in loans as (address, bytes, loan, unit), `t3` those in the pool as (address,
extents, 0); `pins` the pinned copies; `undo` what ring records have revived; `offers` the units that lenders have offered, as (lender, units), `offeredAt` the time of
the last OFFER of this device; `voided` the loans that a restart ended, as (borrower, loan), until their borrower is next in contact (R298). -/
structure Tier where
  manifests : List (Nat × Manifest)
  images : List (Nat × ParkedImage)
  parks : List ParkOp
  revives : List ReviveOp
  movesOut : List MoveOut
  movesIn : List MoveIn
  offersWaiting : List (MoveOffer × Ns)
  outcomes : List (Nat × Bool)
  t3 : List (Addr × Nat × Nat)
  t2 : List (Nat × Nat × Nat × Nat)
  lent : List Loan
  borrowed : List Loan
  lendList : List Nat
  evacuating : List Evac
  pins : List PinCopy
  reviveWaiters : List Nat
  undo : List RevivedFrom
  offers : List (Nat × Nat)
  offeredAt : Ns
  voided : List (Nat × Nat)
  deriving DecidableEq, Repr

/-! ### Attention and the orbit ring (chapter 4) -/

/-- Where a request came from and where its answers go (R120, R213): an HP entry, or a message over a CVF port. -/
inductive ReqPath
  | hp (cmd : Cmd)
  | cvf (port src : Nat)
  | ring (ringId : Nat)
  deriving DecidableEq, Repr

/-- A partial of one query head (R194); FP32 fields hold bit patterns. -/
structure Partial where
  o : List Nat
  m : Nat
  l : Nat
  kEn : Nat
  vEn : Nat
  vNmax : Nat
  n : Nat
  nonfinite : Bool
  media : Bool
  deriving DecidableEq, Repr

/-- What a tile reads: a run of pages (decode, R196), or one page or one staged run for a group of query rows (R206). The
last decode tile also reads the rows that the step stages. -/
inductive TileSpan
  | decode (pageLo pageN : Nat) (withStaged : Bool)
  | prefillPage (qLo qN page : Nat)
  | prefillRun (qLo qN rowLo rowN : Nat)
  deriving DecidableEq, Repr

/-- What the lanes of an AE hold for one query slot (R188, R195): its query elements in the format in which they arrived, and in FP32 the accumulators
o, m and l of the online softmax. -/
structure Lane where
  query : List Nat
  o : List Nat
  m : Nat
  l : Nat
  deriving DecidableEq, Repr

/-- A work tile of a layer request (R196, R206): the quadrant it was given to (R198), the demand it still books, the AE it runs on with what its lanes
hold, the headers its first run read (R168) and the pages whose scores a score engine forms (R210). -/
structure WorkTile where
  quad : Nat
  entry : Nat
  idx : Nat
  head : Nat
  order : Nat
  span : TileSpan
  demand : List (Res × Nat)
  ae : Option (Nat × Nat)
  lanes : List Lane
  snap : List (Nat × Page)
  offload : List Nat
  scored : List Nat
  reissued : Bool
  done : Bool
  partials : List Partial
  delivered : Bool
  deriving DecidableEq, Repr

/-- One session's part of a running partial (R234): the RSN, the worst status so far, ROWS_WRITTEN, and the partials. -/
structure RunEntry where
  rsn : Nat
  status : Status
  rowsWritten : Bool
  ps : List Partial
  deriving DecidableEq, Repr

/-- A member's finished outputs for a session in KV form (R235): their rows' status, detail, bound and output patterns, and whether
the member wrote the last of the step's rows. -/
structure MemberOut where
  rsn : Nat
  status : Status
  detail : Nat
  bound : Nat
  rowsWritten : Bool
  outs : List Nat
  deriving DecidableEq, Repr

/-- One entry of a layer request and its state (R214, R217). `base` counts the tokens before its first row, of the whole ring for a ring
session; `off` is the first token that this device's segment holds (0 but at a ring member). `outs` holds the finished output bit
patterns. -/
structure AttnEntry where
  handle : Nat
  idx : Nat
  rows : Nat
  dataOff : Nat
  base : Nat
  off : Nat
  status : Option Status
  detail : Nat
  bound : Nat
  outs : List Nat
  deriving DecidableEq, Repr

/-- An accepted layer request, until its response is sent (R124, R201, R213). `img` is the staged image as one
little-endian number. A ring member's leg is held in the same form with path `ring`, its tag the head's number. `kvTop` is, in KV form,
the highest position that holds query rows (R235); `memberOuts` what positions have sent to the head; `pinned` the prefixes that were pinned at the
decision (R261). -/
structure LayerReq where
  id : Nat
  path : ReqPath
  tag : Nat
  batch : Nat
  layer : Nat
  qfmt : Nat
  kvfmt : Nat
  ofmt : Nat
  scale : Nat
  deadline : Ns
  respAddr : Addr
  img : Nat
  imgBytes : Nat
  share : List (Nat × Nat)
  entries : List AttnEntry
  tiles : List WorkTile
  booking : Nat
  prefill : Bool
  ring : Option Nat
  running : Option (List RunEntry)
  kvTop : Option Nat
  memberOuts : List (Nat × List MemberOut)
  pinned : List Nat
  deriving DecidableEq, Repr

/-- STATE of a ring (R225, R240, R245). -/
inductive RingState
  | closed | forming | up | broken
  deriving DecidableEq, Repr

/-- A ring binding and, at the head, its ring map record (R226, R227). -/
structure RingBinding where
  rsn : Nat
  idx : Nat
  globalLen : Nat
  stepSeq : Nat
  deriving DecidableEq, Repr

/-- What a HELLO reports (R225, R231, R240), with the fabric address that it came from (R288). -/
structure Hello where
  addr : Nat
  pos : Nat
  tag : Nat
  seg : Nat
  cap0 : Nat
  rates : List (Res × Nat)
  lens : List (Nat × Nat)
  deriving DecidableEq, Repr

/-- A ring operation of the head that waits for the members' reports (R275, R288). Kinds: 1 a park, 2 a revive, 3 a move into the ring, 4 a park that
pressure started (R290). -/
structure RingOp where
  rsn : Nat
  kind : Nat
  cmd : Option Cmd
  reports : List (Nat × Status)
  since : Ns
  result : Nat
  deriving DecidableEq, Repr

/-- A ring as this device knows it (R224, R225). -/
structure Ring where
  id : Nat
  m : Nat
  pos : Nat
  nextPort : Nat
  prevPort : Nat
  seg : Nat
  tag : Nat
  headAddr : Nat
  state : RingState
  bindings : List RingBinding
  hellos : List Hello
  shadow : List (Nat × List Booking)
  lostPos : Nat
  reopening : Bool
  cmd : Option Cmd
  since : Ns
  ops : List RingOp
  deriving DecidableEq, Repr

/-- A SESS_CANCEL at a ring's head whose CANCEL records have not all returned (R238): its command, its result, the sessions it waits for as (ring, RSN),
and when the records went out. -/
structure CancelWait where
  cmd : Cmd
  result : Nat
  waits : List (Nat × Nat)
  since : Ns
  deriving DecidableEq, Repr

/-- Attention: requests in flight, tiles waiting and running, rings. `aeBad` lists AEs offline with their cause (1
software, 2 fault, 3 timeout); `mergeServer` gives the quadrant that merges for each index class (R221). -/
structure Attn where
  reqs : List LayerReq
  nextReq : Nat
  aeOffline : List (Nat × Nat × Nat)
  aePendingOffline : List (Nat × Nat)
  mergeOffline : List Nat
  scoreOffline : List Nat
  rings : List Ring
  cancels : List CancelWait
  deriving DecidableEq, Repr

/-! ### The session tail (chapter 6) -/

/-- A loaded variant or grammar image (R319, R323, R324, R330): where its shadow lies and its size. The tail store holds
the same bytes; `lostQuads` marks the quadrants whose share of the store is lost and not yet refilled (R322). -/
structure TailImage where
  id : Nat
  addr : Addr
  bytes : Nat
  units : Nat
  deriving DecidableEq, Repr

/-- The key of a cached mask (R328). -/
structure MaskKey where
  grammar : Nat
  gstate : Nat
  topc : Nat
  full : Bool
  deriving DecidableEq, Repr

/-- A delta tile (R321): the quadrant it was given to (R198), variant, delta rows and entries that it covers, the AE it runs on, and its sums once done
as (entry, token, FP32 delta). -/
structure DeltaTile where
  quad : Nat
  variant : Nat
  rowLo : Nat
  rowN : Nat
  entries : List Nat
  demand : List (Res × Nat)
  ae : Option (Nat × Nat)
  done : Bool
  reissued : Bool
  sums : List (Nat × Nat × Nat)
  deriving DecidableEq, Repr

/-- Where a tail entry stands (R307, R318, R345). -/
inductive TailStage
  | waiting | running (pipe : Nat) | hook (pipe : Nat) (since : Ns) (dead : Bool) (builtin : Nat) | done
  deriving DecidableEq, Repr

/-- One entry of a tail request and, once done, its response fields (R312, R314). -/
structure TailEntry where
  handle : Nat
  idx : Nat
  lfmt : Nat
  hfmt : Nat
  hid : Bool
  retK : Nat
  dataOff : Nat
  stage : TailStage
  status : Option Status
  detail : Nat
  detail2 : Nat
  cause : Nat
  token : Nat
  nValid : Nat
  logprob : Nat
  textBytes : Nat
  list : List (Nat × Nat)
  deriving DecidableEq, Repr

/-- An accepted tail request (R311). -/
structure TailReq where
  id : Nat
  path : ReqPath
  tag : Nat
  batch : Nat
  deadline : Ns
  respAddr : Addr
  img : Nat
  imgBytes : Nat
  share : List (Nat × Nat)
  entries : List TailEntry
  deltas : List DeltaTile
  booking : Nat
  deriving DecidableEq, Repr

/-- A tail pipe: offline cause (0 none) and whether it goes offline after its entry (R309, R351, R223). -/
structure Pipe where
  cause : Nat
  offline : Bool
  pendingOff : Bool
  deriving DecidableEq, Repr

/-- The tail. `prefetch` holds queued mask prefetches, oldest first; `masks` the cached mask keys, most recently used
first; `hookReplies` replies that reached the sampler. -/
structure TailSt where
  reqs : List TailReq
  nextReq : Nat
  pipes : List Pipe
  variants : List TailImage
  grammars : List TailImage
  masks : List MaskKey
  prefetch : List MaskKey
  lostShare : List Nat
  deriving DecidableEq, Repr

/-! ### Text (chapter 7) -/

/-- An open input stream (R361): its carry and the automaton state at the start of the carry. -/
structure Stream where
  carry : List Nat
  dfa : Nat
  deriving DecidableEq, Repr

/-- A TEXT_TOKENISE or TEXT_CTRL_INSERT is one step, so no stream command is ever half done. -/
inductive ChanKind
  | off | hp | cvf
  deriving DecidableEq, Repr

/-- An output channel (R377, R382, R383): its kind, ring or address, and its backlog of records, each with the time at which it
was queued. `lost` holds the bytes dropped, with the handle, step and sequence of the first dropped record. -/
structure Channel where
  kind : ChanKind
  vector : Nat
  ringLog2 : Nat
  addr : Addr
  tag : Nat
  wr : Nat
  backlog : List (Ns × List Nat)
  lost : Option (Nat × Nat × Nat × Nat)
  deriving DecidableEq, Repr

/-- A session's output binding (R378): channel, RAW, CTRL_AS_TEXT, and the next record SEQ. -/
structure Binding where
  idx : Nat
  channel : Nat
  raw : Bool
  ctrlAsText : Bool
  seq : Nat
  deriving DecidableEq, Repr

/-- The loaded tokenizer (R357, R360): where its shadow lies and its size, and the quadrants whose copy is present. -/
structure Tokenizer where
  addr : Addr
  bytes : Nat
  copies : List Nat
  deriving DecidableEq, Repr

/-- The text unit (R351, R386). `late` lists the CANCEL records that wait for their channel to be set again after a warm reset, as (channel,
handle, step, bytes) (R617). -/
structure TextSt where
  engines : List Pipe
  tokenizer : Option Tokenizer
  streams : List (Nat × Stream)
  channels : List (Nat × Channel)
  bindings : List Binding
  late : List (Nat × Nat × Nat × Nat)
  deriving DecidableEq, Repr

/-! ### Recall (chapter 8) -/

/-- STATE of an index (R394). -/
inductive IndexState
  | building | ready | dropping
  deriving DecidableEq, Repr

/-- A row of an index (R395): its attributes, VID, insert sequence, element and scale bytes as one number, where it lies,
and whether its tombstone bit is set. `id` numbers rows over the life of the index. -/
structure Row where
  id : Nat
  attr : Nat
  vid : Nat
  insSeq : Nat
  elems : Nat
  addr : Addr
  tomb : Bool
  deriving DecidableEq, Repr

/-- A pending delete (R401). -/
structure PendDel where
  row : Nat
  delSeq : Nat
  deriving DecidableEq, Repr

/-- An index (R394). Lists hold row ids in row order; `rows` also holds rows that only queries in progress still see. `extents` lists (key,
address): key list·2^26 + j for extent j of a list, 2^50 + j for a structure, 2^54 + n for one freed by the publication at which query n was the next. An index that no entry names is FREE. -/
structure Index where
  state : IndexState
  efmt : Nat
  metric : Nat
  assign2 : Bool
  cache : Bool
  dim : Nat
  lists : Nat
  capacity : Nat
  sideMax : Nat
  commitSeq : Nat
  floorSeq : Nat
  sideStart : Nat
  sideEnd : Nat
  rowsUsed : Nat
  publish : Nat
  commitStamp : Ns
  rowBytes : Nat
  headerAddr : Addr
  dirAddr : Addr
  centAddr : Addr
  nextRow : Nat
  rows : List Row
  main : List (Nat × List Nat)
  side : List Nat
  pending : List PendDel
  extents : List (Nat × Addr)
  idAddr : Addr
  deriving DecidableEq, Repr

/-- A partial or merged result entry (R408 to R410). -/
structure Hit where
  score : Nat
  vid : Nat
  attr : Nat
  probe : Nat
  rowNo : Nat
  deriving DecidableEq, Repr

/-- One query of a RECALL_QUERY in progress (R405 to R411). `lists` are the ranked probe lists; `todo` lists what the
current round still waits for, 0x1_0000 standing for the side list. -/
structure Query where
  tag : Nat
  k : Nat
  nprobe : Nat
  widenMax : Nat
  widenStep : Nat
  terms : List (Nat × Nat × Nat)
  snap : Nat
  resAddr : Addr
  vec : Nat
  ranked : List Nat
  todo : List (Nat × Nat)
  scanned : Nat
  hits : List Hit
  rowsScanned : Nat
  matched : Nat
  badRows : Nat
  unit : Bool
  media : Bool
  widened : Bool
  status : Option Status
  deriving DecidableEq, Repr

/-- A RECALL_QUERY in progress: its queries, the rows of the lists and of the side list as the captured header gives them, its engine and its
start. -/
structure QueryCmd where
  id : Nat
  path : ReqPath
  index : Nat
  lists : List (Nat × List Nat)
  side : List Nat
  qe : Nat
  queries : List Query
  since : Ns
  deriving DecidableEq, Repr

/-- A compaction pass, waiting or started (R404): the side rows taken, the lists rewritten and, when a RECALL_COMPACT waits for it, its
command. -/
structure Compaction where
  index : Nat
  started : Bool
  take : List Nat
  rewrite : List Nat
  cmd : Option Cmd
  deriving DecidableEq, Repr

/-- Recall. -/
structure RecallSt where
  engines : List Pipe
  scanOffline : List Nat
  indexes : List (Nat × Index)
  used : List Addr
  queries : List QueryCmd
  nextQuery : Nat
  compactions : List Compaction
  dropWait : List (Nat × Cmd)
  deriving DecidableEq, Repr

/-! ### Checkpoints (chapter 9) -/

/-- A close-journal record (R423). -/
structure JRec where
  owner : Nat
  pfx : Bool
  layer : Nat
  head : Nat
  page : Nat
  stamp : Ns
  deriving DecidableEq, Repr

/-- One target of a checkpoint store (R436). -/
structure StoreTarget where
  tier : Nat
  loan : Nat
  location : Nat
  deriving DecidableEq, Repr

/-- A checkpoint store (R436). -/
structure CkStore where
  defKeep : Nat
  targets : List StoreTarget
  deriving DecidableEq, Repr

/-- A shard (R433, R434): its header bytes and payload bytes as little-endian numbers, and for KIND 0x1 to 0x3 the
content that the payload spells. -/
structure Shard where
  kind : Nat
  target : Nat
  epoch : Nat
  base : Nat
  owner : Nat
  pfx : Bool
  layer : Nat
  head : Nat
  tokenFirst : Nat
  tokenEnd : Nat
  stepSeq : Nat
  commitLen : Nat
  shapeId : Nat
  rsn : Nat
  headEpoch : Nat
  cut : Ns
  tiles : List Tile
  desc : Option Desc
  gstack : List Nat
  lists : Option Nat
  pfxLen : Nat
  pfxRefs : Nat
  crcOk : Bool
  deriving DecidableEq, Repr

/-- What a store target holds: where it lies (a device address, or for T4 an offset in the epoch's object), its bytes, and the item. -/
structure Stored (α : Type) where
  target : StoreTarget
  place : Nat
  bytes : Nat
  item : α
  deriving DecidableEq, Repr

/-- Whether the place is gone with the unit of a loan: T2 begins above address 0 (R81). -/
def Stored.lost {α : Type} (s : Stored α) : Bool := s.target.tier == 2 && s.place == 0

/-- A catalogue (R436): per target the shards and bytes of the epoch. -/
structure Catalogue where
  epoch : Nat
  base : Nat
  full : Bool
  cut : Ns
  shapeId : Nat
  n : Nat
  counts : List (Nat × Nat)
  sessions : Nat
  tombs : Nat
  prefixes : Nat
  deriving DecidableEq, Repr

/-- An epoch that was committed to the present store. -/
structure EpochRec where
  epoch : Nat
  base : Nat
  full : Bool
  cut : Ns
  counts : List (Nat × Nat)
  deriving DecidableEq, Repr

/-- An owner waiting in the dirty set of a run: a descriptor index or PREFIX_ID, whether it needs a whole capture, and, at a ring member, the
epoch of the head's run and the STEP_SEQ to capture (R425, R426, R446). -/
structure DirtyOwner where
  owner : Nat
  pfx : Bool
  whole : Bool
  ring : Option (Nat × Nat)
  deriving DecidableEq, Repr

/-- The owner being captured: its descriptor D and its shards not yet acknowledged, each with its retries (R427, R431). -/
structure Capturing where
  owner : Nat
  pfx : Bool
  outstanding : List (Nat × Nat)
  deriving DecidableEq, Repr

/-- A capture run in progress (R418 to R437). -/
structure CkRun where
  epoch : Nat
  base : Nat
  full : Bool
  trigger : Nat
  cut : Ns
  since : Ns
  cmd : Option Cmd
  dirty : List DirtyOwner
  cur : Option Capturing
  counts : List (Nat × Nat)
  sessions : Nat
  tombs : Nat
  prefixes : Nat
  catalogues : List (Nat × Nat)
  deriving DecidableEq, Repr

/-- The checkpoint state of the device (R418 to R447). `shards` and `cats` hold what the present store's targets hold,
`journal` the half being written and `heldJournal` the half a run reads (R423, R424); `schedAt` the last scheduled start that was due. -/
structure CkptSt where
  store : Option CkStore
  shards : List (Stored Shard)
  cats : List (Stored Catalogue)
  lastUsed : Nat
  epoch : Nat
  full : Nat
  epochs : List EpochRec
  run : Option CkRun
  journal : List JRec
  heldJournal : List JRec
  schedAt : Ns
  deltasSinceFull : Nat
  cutPrev : Ns
  warnStart : Option Ns
  warnedWin : Option Nat
  deriving DecidableEq, Repr

/-- An S7-format shard (R444): the FP8 rows of one session, model layer and KV head from token `first`. -/
structure S7Shard where
  epoch : Nat
  owner : Nat
  layer : Nat
  head : Nat
  first : Nat
  rows : List FpRow
  ok : Bool
  deriving DecidableEq, Repr

/-- An S7 session record (R444). -/
structure S7Session where
  epoch : Nat
  owner : Nat
  commitLen : Nat
  stepSeq : Nat
  temp : Nat
  topP : Nat
  topK : Nat
  rngKey : Nat
  rngCtr : Nat
  deriving DecidableEq, Repr

/-- The shards and catalogues that a scan or restore finds in T4 objects, which the host holds (R440, R443), with the S7-format ones, whose
shape is given as KV heads, head dimension and vocabulary (R444). -/
structure T4Store where
  shards : List Shard
  cats : List (Nat × Catalogue)
  s7Shards : List S7Shard
  s7Sessions : List S7Session
  s7Cats : List (Nat × Catalogue)
  s7Shape : Nat × Nat × Nat
  deriving DecidableEq, Repr

/-! ### The Belt (chapter 12) -/

/-- The user-visible registers of a hart (R559, R567, R576). The list `v` holds v0 to v31, 512 bits each. -/
structure HartRegs where
  pc : Nat
  x : List Nat
  f : List Nat
  fcsr : Nat
  vstart : Nat
  vl : Nat
  vtype : Nat
  vcsr : Nat
  v : List Nat
  retired : Nat
  deriving DecidableEq, Repr, Inhabited

/-- Whose work a task is (R573, R580, R583, R563): a submitted task's command, a sampler hook of a tail entry, a lifecycle
record, or a bt.submit task. -/
inductive TaskOwner
  | cmd (c : Cmd)
  | hook (req entry : Nat) (deadline : Ns)
  | life (composition : Nat)
  | thread (composition : Nat)
  deriving DecidableEq, Repr

/-- A task: the 64 B payload as a little-endian number, its queue and its owner. -/
structure Task where
  queue : Nat
  entry : Nat
  payload : Nat
  owner : TaskOwner
  since : Ns
  deriving DecidableEq, Repr

/-- A TASK-mode queue that is enabled (R570). -/
structure BeltQueue where
  slots : Nat
  taskUs : Nat
  entry : Nat
  waiting : List Task
  deriving DecidableEq, Repr

/-- What a hart runs: a task or a job hart, its registers, its first start, the running time before the last start or resume, that
start, and a bt.wait in progress as (rd, address, value, start). -/
structure HartWork where
  task : Option Task
  jobIndex : Nat
  regs : HartRegs
  started : Ns
  ranNs : Nat
  since : Ns
  wait : Option (Nat × Nat × Nat × Ns)
  deriving DecidableEq, Repr

/-- A job of a partition (R566 to R569). `exits` holds the exit code of each job hart that has executed bt.exit. -/
structure Job where
  cmd : Cmd
  suspended : Bool
  entry : Nat
  harts : Nat
  limitMs : Nat
  ranNs : Nat
  since : Ns
  placed : List (Nat × Nat)
  exits : List (Nat × Nat)
  deriving DecidableEq, Repr

/-- A partition of the Belt. -/
structure BeltPart where
  job : Option Job
  queues : List (Nat × BeltQueue)
  rotor : Nat
  deriving DecidableEq, Repr

/-- The Belt. `harts` lists the harts that run something, `saved` the contexts in the save slots (R576, R577), `hooks` the registrations as (HOOK_ID, partition, queue) (R579), `life` the lifecycle
registration (R583), `reservations` the LR reservations of harts. -/
structure BeltSt where
  parts : List BeltPart
  harts : List (Nat × HartWork)
  saved : List (Nat × HartWork)
  hooks : List (Nat × Nat × Nat)
  life : Option (Nat × Nat × Nat)
  reservations : List (Nat × Addr)
  deriving DecidableEq, Repr

/-! ### The Clalvaum fabric (chapter 10) -/

/-- What a message this device sent belongs to, so that its failure reaches the operation (R470, R506). -/
inductive MsgOwner
  | none
  | response (port tag : Nat)
  | record (channel : Nat)
  | move (idx tag tile : Nat)
  | park (idx target tier : Nat)
  | revive (idx target : Nat)
  | evac (idx target : Nat)
  | shard (part : Nat)
  | catalogue (target : Nat)
  | ring (ringId : Nat)
  | rcl (id : Nat)
  deriving DecidableEq, Repr

/-- A message this device sends (R466 to R469): `fields` holds its bytes where the spec lays it out, else the values its
record carries. Time fields that T0_OFF and T1_OFF name are in `fields` at `t0` and `t1`. -/
structure Msg where
  id : Nat
  dst : Nat
  kind : Nat
  cls : Nat
  name : String
  bytes : Nat
  fields : List Nat
  deadline : Option Ns
  qsel : Nat
  owner : MsgOwner
  deriving DecidableEq, Repr

/-- A frame waiting in an egress queue: its message, offset and size, and when it was queued. A forwarded frame carries its
own source and remaining hops (R480). -/
structure EgFrame where
  msg : Msg
  src : Nat
  hops : Nat
  offset : Nat
  size : Nat
  last : Bool
  enq : Ns
  deriving DecidableEq, Repr

/-- Shaper state of one class (R489 to R497): tokens in bytes, the refill remainder in thousandths of a byte, the deadline
lane, DRR queues, deficits, the queue being visited and whether its visit has begun; and the charged bytes sent and payload bytes received
beyond whole KiB. -/
structure ClassQ where
  tokens : Int
  carry : Nat
  lane : List EgFrame
  queues : List (List EgFrame)
  deficits : List Nat
  visit : Nat
  inVisit : Bool
  txRem : Nat
  rxRem : Nat
  deriving DecidableEq, Repr

/-- A policer bucket (R498, R499). -/
structure PolBucket where
  tokens : Nat
  carry : Nat
  deriving DecidableEq, Repr

/-- A SHAPE_SET or POLICE_SET waiting for the port's next refill (R502, R503): its entry bytes. -/
structure PendingShape where
  cmd : Cmd
  police : Bool
  bytes : BitVec 512
  deriving DecidableEq, Repr

/-- One egress shaper: classes in order, the rank-4 rotation, the refill ticks (R490) and sampling ticks (R504) that have been taken, and settings that wait. -/
structure Shaper where
  classes : List ClassQ
  turn : Nat
  tick : Nat
  sampled : Nat
  pendingSets : List PendingShape
  deriving DecidableEq, Repr

/-- A message being reassembled (R469): received ranges and bytes, keyed by source, class and MSG_ID. -/
structure Reasm where
  src : Nat
  cls : Nat
  id : Nat
  kind : Nat
  total : Nat
  ranges : List (Nat × Nat)
  data : List (Nat × Nat)
  discarded : Bool
  deriving DecidableEq, Repr

/-- A message that arrived whole and waits for the command that takes it. -/
structure Arrived where
  port : Nat
  src : Nat
  cls : Nat
  kind : Nat
  bytes : List (Nat × Nat)
  total : Nat
  deriving DecidableEq, Repr

/-- A sequenced flit in the retry buffer (R461): its SEQ and the message that its frame belongs to. -/
structure SentFlit where
  seq : Nat
  msg : Option Nat
  deriving DecidableEq, Repr

/-- A width change in progress (R463, R464). -/
structure WidthChange where
  since : Ns
  mask : Nat
  deriving DecidableEq, Repr

/-- A port of the fabric (R450 to R507). `unc` counts uncorrectable codewords per lane with the start of the window. -/
structure Port where
  fecLock : Bool
  initDone : Bool
  peerEnc : Nat
  peerMask : Nat
  credits : List Nat
  held : List Nat
  owed : List Nat
  rxExpect : Nat
  rxHold : Bool
  txSeq : Nat
  retry : List SentFlit
  lastAdvance : Ns
  replaySeq : Nat
  replays : Nat
  bringUps : Nat
  keys : Option (Nat × Nat)
  txCount : Nat
  rxCount : Nat
  tagFails : List Ns
  ofs : Int
  prevOfs : Int
  exchangeAt : Ns
  prevAt : Ns
  linkDly : Nat
  timeT1 : Option Ns
  timeAt : Ns
  unc : List (Nat × Ns × Nat)
  retired : Nat
  change : Option WidthChange
  retryAt : Option Ns
  shaper : Shaper
  policers : List PolBucket
  reasm : List Reasm
  deriving DecidableEq, Repr

/-- The fabric: ports, the HP shaper of R505, message numbering, messages sent and not yet finished, and messages that arrived. -/
structure CvfSt where
  ports : List Port
  hp : Shaper
  nextMsg : Nat
  sent : List (Nat × Msg)
  arrived : List Arrived
  deriving DecidableEq, Repr

/-! ### Security (chapter 14) -/

/-- A measurement log entry (R640). -/
structure MEntry where
  mr : Nat
  event : Nat
  stamp : Ns
  id : Nat
  digest : Nat
  deriving DecidableEq, Repr

/-- The security core (R624 to R647). `epoch` is the 64-bit tenant epoch; `mrs` the eight measurement registers;
`zeroing` the stacks that background zeroing has not finished; `zeroDone` when the last one finished. -/
structure SecSt where
  epoch : Nat
  tenant : Nat
  storeKey : Option Nat
  debugLevel : Nat
  svnFloor : Nat
  mrs : List Nat
  mlog : List MEntry
  mcount : Nat
  mOvf : Bool
  debugUsed : Bool
  zeroing : List Nat
  zeroDone : Ns
  deriving DecidableEq, Repr

/-! ### Power and temperature (chapter 15) -/

/-- A PWR_GATE or PWR_WAKE in progress (R668, R669): its domain, command, start and the batches it waits for. -/
structure GateOp where
  domain : Nat
  cmd : Cmd
  since : Ns
  batches : List Nat
  drained : Bool
  wakes : List Cmd
  deriving DecidableEq, Repr

/-- PMC state beside its registers (R650 to R671). Temperatures are in 1/16 degree Celsius. -/
structure PmcSt where
  boostUntil : List Ns
  tjs : List Int
  deepIdle : Bool
  stackHist : List (Nat × List (Ns × Int))
  slowSince : List (Nat × Ns)
  stackHot : Nat
  stackCrit : Nat
  failedSensors : List Nat
  pendingLimit : Option Nat
  pendingMode : Option Nat
  gating : List GateOp
  waking : List GateOp
  tripped : Bool
  overSince : Option Ns
  railMv : List Nat
  bulkStop : List Nat
  deriving DecidableEq, Repr

/-! ### Start-up, reset, flash and the management chain (chapter 13) -/

/-- A quadrant reset in progress (R618): 1 draining, 2 forced, waiting for power-good, 3 aligning and refilling. -/
structure QuadReset where
  quad : Nat
  stage : Nat
  since : Ns
  deriving DecidableEq, Repr

/-- A block reset in progress (R619): the block's PACE offset, its cause, and when IDLE_REQ was raised. -/
structure BlockReset where
  block : Nat
  cause : Nat
  since : Ns
  deriving DecidableEq, Repr

/-- A WRITE of the recovery mailbox in progress (R621): the sector and the words received. -/
structure FlashWrite where
  sector : Nat
  words : List Nat
  deriving DecidableEq, Repr

/-- The values that decide HBM_KEPT (R616). -/
structure KeptKey where
  shapeRecord : Nat
  bases : List Nat
  deriving DecidableEq, Repr

/-- Start-up state. `cause` is LAST_RESET of the reset in progress; `strapIn` the strap balls; `chain` the frames that
arrived in the last 100 microseconds as (second chain, bytes, time). `image` and `bundle` are what this start runs from, as (bytes, value); `poolGib` what the image's
PP decoders map; `recoveryOut` the answers of the recovery mailbox that wait for the word to be read. Flash is listed by address where it differs from 0xFF. -/
structure BootSt where
  heldPerst : Bool
  heldWarm : Bool
  railsOut : Bool
  strapIn : Nat
  started : Ns
  stageAt : Ns
  testMode : Bool
  cold : Bool
  posAssigned : Bool
  chainMode : Bool
  chain2 : Bool
  bootServe : Bool
  chain : List (Bool × List Nat × Ns)
  image : Option (Nat × Nat)
  bundle : Option (Nat × Nat)
  bootRam : List (Nat × Nat)
  pushBundle : Bool
  pushImage : Bool
  bundleVer : Nat
  kept : Option KeptKey
  quadResets : List QuadReset
  blockResets : List BlockReset
  quadOffline : List Nat
  flash : List (Nat × Nat)
  flashWrite : Option FlashWrite
  poolGib : Nat
  recoveryOut : List Nat
  belowTwice : List (Nat × Bool)
  deriving DecidableEq, Repr

/-! ### Operands of commands -/

/-- A 64 B submission entry (R524) and the SQ it stands in. Byte k of the entry is bits 8k+7 to 8k. -/
structure Entry where
  sq : Nat
  bytes : BitVec 512
  deriving DecidableEq, Repr

/-- Where a layer request, tail request or Recall query comes from (R120, R405): a submission entry, or a message of `len`
bytes that arrived on a CVF port. -/
inductive ReqSrc
  | hp (e : Entry)
  | cvf (port src len val : Nat)
  deriving DecidableEq, Repr

/-- One entry of a ring leg (R232): the RSN, the head's step, its rows, GLOBAL_LEN before them, and the data block of the request
with its query rows and new K and V rows, as bytes and a little-endian number. -/
structure LegEntry where
  rsn : Nat
  stepSeq : Nat
  rows : Nat
  globalLen : Nat
  len : Nat
  block : Nat
  deriving DecidableEq, Repr

/-- A leg of a ring attention (R232, R233, R237): the forwarded part of a layer request; `kvTop` as in LayerReq. -/
structure RingLeg where
  leg : Nat
  batch : Nat
  layer : Nat
  qfmt : Nat
  kvfmt : Nat
  ofmt : Nat
  scale : Nat
  deadline : Ns
  kvTop : Option Nat
  entries : List LegEntry
  deriving DecidableEq, Repr

/-- What a ring record asks of a member's local session (R275): to park with the head's fields, to revive, to close, or, at the positions that it names,
to return to the state before a park (kinds 1 and 4) or a revive (kind 2). -/
inductive RingTask
  | park (image : Bool) (first last stripeN store : Nat) | revive | close | undo (kind : Nat) (who : List Nat)
  deriving DecidableEq, Repr

/-- What one message of a move carries (R282 to R284): a tile, the grammar stack and list block, or a stripe of an
image; and, back to the source, the request for a tile once more. -/
inductive MoveItem
  | tile (n : Nat) (t : Tile) (ok : Bool)
  | extras (gstack : List Nat) (lists : Option Nat)
  | stripe (n : Nat) (image : ParkedImage) (ok : Bool)
  | again (n : Nat)
  deriving DecidableEq, Repr

/-- An INIT flit (R453). -/
structure InitFlit where
  addr : Nat
  kind : Nat
  mask : Nat
  credits : List Nat
  enc : Nat
  pmd : Nat
  nonce : Nat
  deriving DecidableEq, Repr

/-- A frame as it arrives (R456, R467): the class and sequence numbers of its flits, whether every flit decoded, the frame
header's fields, its payload and its tag. Under SM4-GCM `tagOk` tells whether the tag holds (R471). -/
structure FrameIn where
  cls : Nat
  seq : Nat
  flits : Nat
  flitsOk : Bool
  dst : Nat
  src : Nat
  kind : Nat
  flags : Nat
  hops : Nat
  qsel : Nat
  msgId : Nat
  msgBytes : Nat
  offset : Nat
  frameBytes : Nat
  t0 : Nat
  t1 : Nat
  tKind : Nat
  payload : Nat
  tagOk : Bool
  fec : List (Nat × Nat × Nat)
  deriving DecidableEq, Repr

/-- A cell of a block (R34, R74): the block's PACE offset and the cell's number in it. -/
structure CellId where
  block : Nat
  cell : Nat
  deriving DecidableEq, Repr

/-- A lane that fails (R463), and whether it has lost lock. -/
structure LaneFault where
  lane : Nat
  lockLost : Bool
  deriving DecidableEq, Repr

/-- What a MOVE record names for the members (R288): the address of each position of ring B, and the head's mode. -/
structure MoveDests where
  addrs : List Nat
  image : Bool
  deriving DecidableEq, Repr

/-- Who accepts an offer, and, where it heads ring B, that ring and the addresses of its positions (R282, R288). -/
structure MoveAccepter where
  src : Nat
  ringB : Nat
  addrs : List Nat
  deriving DecidableEq, Repr

/-- The sender of a window access and the class that it came in (R486). -/
structure MemSender where
  src : Nat
  cls : Nat
  deriving DecidableEq, Repr

/-- A report as a source sends it (R681). -/
structure ReportIn where
  source : Nat
  type : Nat
  sev : Nat
  level : Nat
  info : Nat
  deriving DecidableEq, Repr

/-- What an UNPREDICTABLE (contained) outcome may change (R29): the tenant's sessions, pages and indexes, and bytes of its
pages and result buffers as (address, length, value). -/
structure Contained where
  sessions : List (Nat × Desc)
  pages : List (PKey × Page)
  indexes : List (Nat × Index)
  bytes : List (Nat × Nat × Nat)
  deriving DecidableEq, Repr, Inhabited

/-- What a PCIe configuration request addresses (R512, R545): the Command register, the power state, the BAR2 size, PTM Control,
MSI-X Control, a VSEC offset of the recovery mailbox, or another offset of the function's configuration space. -/
inductive CfgField
  | command | powerState | bar2Size | ptmControl | msixControl | vsec (off : Nat) | other (off : Nat)
  deriving DecidableEq, Repr

end Sys2Proof.Machine
end

