-- ==== Sys2Proof/Syntax.lean ====
section
/-! DEFINITION. The commands of the Yothivel S9: one constructor of `Instr` per row of the table of operations and events. -/

namespace Sys2Proof

open Machine

/-- A command (the rows of opcode_table.json). Commands of the host rings carry their 64 B entry; the other rows carry what the
event itself brings: who or what it concerns, and what the outside world measured or sent. -/
inductive Instr
  /-- NOP (R533): No-operation command; completes DONE with RESULT 0. -/
  | nop (e : Entry)
  /-- Q_CREATE_CQ (R531): Creates a completion queue in the ring area with its size and vector. -/
  | qCreateCq (e : Entry)
  /-- Q_CREATE_SQ (R531): Creates a submission queue bound to a CQ, with a priority and a composition. -/
  | qCreateSq (e : Entry)
  /-- Q_DELETE_SQ (R532): Stops fetching from an SQ and completes after the completions of its fetched entries. -/
  | qDeleteSq (e : Entry)
  /-- Q_DELETE_CQ (R532): Deletes a CQ that no SQ is bound to and that is not the event CQ. -/
  | qDeleteCq (e : Entry)
  /-- HRQ_CREATE (R531): Creates the host request queue. -/
  | hrqCreate (e : Entry)
  /-- STORE_DONE (R539): Host answers an outstanding T4 request with its status and byte count. -/
  | storeDone (e : Entry)
  /-- METER_READ (R551): Copies usage-meter records, each read at one instant and optionally cleared in the same step. -/
  | meterRead (e : Entry)
  /-- SESS_OPEN (R107): Allocates a descriptor index and generation and opens an IDLE session. -/
  | sessOpen (e : Entry)
  /-- SESS_STEP_OPEN (R109): Opens a step batch; checks each listed session, pins it, sets it HOT and writes one status byte per handle. -/
  | sessStepOpen (e : Entry)
  /-- SESS_STEP_CLOSE (R110): Commits or rolls back every member of a batch, stops its outstanding entries and writes status bytes. -/
  | sessStepClose (e : Entry)
  /-- SESS_CANCEL (R111): Cancels a step, park, move or revive of one session, or all HOT members of a batch. -/
  | sessCancel (e : Entry)
  /-- SESS_CLOSE (R105): Closes a session through CLOSING to VOID, releasing its pages and its prefix reference and flushing held bytes. -/
  | sessClose (e : Entry)
  /-- SESS_QUERY (R103): Copies a 256 B descriptor to a device address. -/
  | sessQuery (e : Entry)
  /-- SESS_PARK (R272): Places the state of an IDLE session in target areas along a tier chain, or parks it in place. -/
  | sessPark (e : Entry)
  /-- SESS_REVIVE (R276): Reads the manifest, sets the session REVIVING and starts the T1 reservation. -/
  | sessRevive (e : Entry)
  /-- SESS_MOVE_OUT (R282): Sets the source TRANSIT moving out and sends MOVE_OFFER to the destination. -/
  | sessMoveOut (e : Entry)
  /-- SESS_MOVE_IN (R281): Allocates an index in TRANSIT moving in and waits for a matching MOVE_OFFER. -/
  | sessMoveIn (e : Entry)
  /-- SESS_SET_TAIL (R349): Changes selected tail fields of an IDLE session in one descriptor write. -/
  | sessSetTail (e : Entry)
  /-- SESS_SET_LISTS (R350): Installs, replaces or clears the ban, force and stop list block of an IDLE session. -/
  | sessSetLists (e : Entry)
  /-- PREFIX_CAPTURE (R178): Turns the pages of an IDLE session into a shared prefix with two references. -/
  | prefixCapture (e : Entry)
  /-- PREFIX_RELEASE (R179): Drops the load reference of a prefix. -/
  | prefixRelease (e : Entry)
  /-- PREFIX_PIN (R259): Copies every page of a prefix into T0 and sets PINNED. -/
  | prefixPin (e : Entry)
  /-- PREFIX_UNPIN (R261): Clears PINNED; T0 space is released one block timeout later. -/
  | prefixUnpin (e : Entry)
  /-- KV_IMPORT (R184): Appends MX rows to an IDLE session through the intake path and raises COMMIT_LEN. -/
  | kvImport (e : Entry)
  /-- KV_EXPORT (R184): Decodes committed rows and writes them as MX blocks. -/
  | kvExport (e : Entry)
  /-- LAYER_REQ (R124): A layer request arrives whole over HP or CVF; it is decided, staged and its tiles queued. -/
  | layerReq (src : ReqSrc)
  /-- DECISION_TIMEOUT (R121): A request not decided within 1 µs of arrival completes REFUSED_CAPACITY. -/
  | decisionTimeout (tail : Bool) (src : ReqSrc)
  /-- BATCH_TIMEOUT (R115): A batch with members TO_MS after WIN_END is closed with every member rolled back. -/
  | batchTimeout (batch : Nat)
  /-- RING_OPEN (R225): Forms or reopens an orbit ring position and sends HELLO to the head. -/
  | ringOpen (e : Entry)
  /-- RING_BIND (R226): Binds an IDLE local session to a ring under an RSN. -/
  | ringBind (e : Entry)
  /-- RING_CLOSE (R228): Closes a ring, dropping bindings when FORCE is set. -/
  | ringClose (e : Entry)
  /-- TAIL_REQ (R311): A tail request arrives whole over HP or CVF and is decided and queued. -/
  | tailReq (src : ReqSrc)
  /-- VARIANT_LOAD (R323): Loads a variant image into the tail store and its shadow. -/
  | variantLoad (e : Entry)
  /-- VARIANT_UNLOAD (R323): Unloads a variant that no session names. -/
  | variantUnload (e : Entry)
  /-- GRAMMAR_LOAD (R330): Loads a compiled grammar image into the tail store and its shadow. -/
  | grammarLoad (e : Entry)
  /-- GRAMMAR_UNLOAD (R330): Unloads a grammar and invalidates its masks. -/
  | grammarUnload (e : Entry)
  /-- TOPK_ROW (R338): Ranks a standalone row on a top-k unit and writes K records. -/
  | topkRow (e : Entry)
  /-- TOKENIZER_LOAD (R359): Checks and loads a tokenizer image into every quadrant and the shadow. -/
  | tokenizerLoad (e : Entry)
  /-- TEXT_IN_OPEN (R363): Opens an input stream with an empty carry. -/
  | textInOpen (e : Entry)
  /-- TEXT_IN_CLOSE (R362): Closes an input stream and discards its carry. -/
  | textInClose (e : Entry)
  /-- TEXT_TOKENISE (R370): Tokenises carry plus buffer into token words and updates the stream context. -/
  | textTokenise (e : Entry)
  /-- TEXT_CTRL_INSERT (R372): Flushes the carry and writes a control token with CTRL set. -/
  | textCtrlInsert (e : Entry)
  /-- TEXT_CHAN_SET (R377): Configures an output channel as off, an HP ring or a CVF address. -/
  | textChanSet (e : Entry)
  /-- TEXT_OUT_BIND (R378): Binds or unbinds a session's output to a channel. -/
  | textOutBind (e : Entry)
  /-- RECALL_CREATE (R398): Creates a BUILDING index and reserves all its space. -/
  | recallCreate (e : Entry)
  /-- RECALL_CENTROIDS (R398): Copies the centroid table and makes the index READY. -/
  | recallCentroids (e : Entry)
  /-- RECALL_DROP (R398): Sets an index DROPPING; it becomes FREE after its last query. -/
  | recallDrop (e : Entry)
  /-- RECALL_STAT (R398): Copies an index header. -/
  | recallStat (e : Entry)
  /-- RECALL_INSERT (R400): Appends rows to the side list as one commit. -/
  | recallInsert (e : Entry)
  /-- RECALL_DELETE (R401): Adds pending deletes for named VIDs as one commit. -/
  | recallDelete (e : Entry)
  /-- RECALL_COMPACT (R404): Runs a compaction pass and completes when it is published. -/
  | recallCompact (e : Entry)
  /-- RECALL_QUERY (R405): Starts filtered nearest-neighbour queries over a fixed snapshot, from HP or CVF. -/
  | recallQuery (src : ReqSrc)
  /-- CKPT_RUN (R421): Starts a FULL or DELTA checkpoint run; completes at commit. -/
  | ckptRun (e : Entry)
  /-- CKPT_STORE (R436): Configures the checkpoint store targets. -/
  | ckptStore (e : Entry)
  /-- CKPT_SCAN (R439): Reads every catalogue and shard header and writes a verdict per epoch. -/
  | ckptScan (e : Entry) (t4 : T4Store)
  /-- CKPT_RESTORE (R441): Rebuilds prefixes and sessions from the newest usable epoch. -/
  | ckptRestore (e : Entry) (t4 : T4Store)
  /-- SHAPE_SET (R502): Changes class bucket, quantum or overhead settings at the port's next refill. -/
  | shapeSet (e : Entry)
  /-- POLICE_SET (R502): Changes an ingress policer entry at the port's next refill. -/
  | policeSet (e : Entry)
  /-- ROUTE_SET (R502): Sets a ROUTE_NODE or ROUTE_POS entry. -/
  | routeSet (e : Entry)
  /-- BELT_JOB_START (R567): Starts a JOB-mode program on a partition; completes at the job's end. -/
  | beltJobStart (e : Entry)
  /-- BELT_JOB_KILL (R569): Ends the partition's job and discards its contexts. -/
  | beltJobKill (e : Entry)
  /-- BELT_JOB_SUSPEND (R569): Saves every job hart and suspends the job. -/
  | beltJobSuspend (e : Entry)
  /-- BELT_JOB_RESUME (R569): Restores and resumes a suspended job. -/
  | beltJobResume (e : Entry)
  /-- BELT_QUEUE_SET (R570): Enables or disables a TASK-mode queue. -/
  | beltQueueSet (e : Entry)
  /-- BELT_TASK_SUBMIT (R573): Enqueues a task payload; completes when the task ends. -/
  | beltTaskSubmit (e : Entry)
  /-- BELT_HOOK_REG (R579): Registers a sampler hook ID on a queue. -/
  | beltHookReg (e : Entry)
  /-- BELT_HOOK_UNREG (R579): Removes a sampler hook registration. -/
  | beltHookUnreg (e : Entry)
  /-- BELT_LIFE_REG (R583): Sets or removes the lifecycle event registration. -/
  | beltLifeReg (e : Entry)
  /-- TENANT_SWITCH (R635): Checks the record, cancels all work, advances the epoch, voids sessions and starts zeroing. -/
  | tenantSwitch (e : Entry)
  /-- ATTEST (R641): Writes a quote signed by the identity key. -/
  | attest (e : Entry)
  /-- MLOG_READ (R641): Copies measurement log entries. -/
  | mlogRead (e : Entry)
  /-- CERT_READ (R641): Writes the device and intermediate certificates. -/
  | certRead (e : Entry)
  /-- DEBUG_UNLOCK (R642): Raises DEBUG_LEVEL under an owner record. -/
  | debugUnlock (e : Entry)
  /-- FW_UPDATE (R644): Verifies and writes a bundle and image to the other slot and updates the directory. -/
  | fwUpdate (e : Entry) (flashFault : Bool)
  /-- SVN_COMMIT (R645): Blows fuses to raise the SVN floor. -/
  | svnCommit (e : Entry)
  /-- PWR_GATE (R668): Removes a domain from the ledger and waits to gate it. -/
  | pwrGate (e : Entry)
  /-- PWR_WAKE (R669): Wakes a gated domain. -/
  | pwrWake (e : Entry)
  /-- PWR_LIMIT (R670): Sets the package power limit from the next evaluation. -/
  | pwrLimit (e : Entry)
  /-- PWR_VMODE (R670): Sets the voltage mode from the next evaluation. -/
  | pwrVmode (e : Entry)
  /-- ELOG_READ (R690): Copies a log's entries, optionally emptying it in the same step. -/
  | elogRead (e : Entry)
  /-- ERR_INJECT (R691): Injects a synthetic report or corrupts a stored check word. -/
  | errInject (e : Entry)
  /-- SQ_DOORBELL (R522): A write to an SQ tail doorbell. -/
  | sqDoorbell (sq : Nat) (off : Nat) (width : Nat) (val : Nat)
  /-- CQ_DOORBELL (R522): A write to a CQ head doorbell frees CQ room. -/
  | cqDoorbell (cq : Nat) (off : Nat) (width : Nat) (val : Nat)
  /-- HRQ_DOORBELL (R538): A write to the HRQ head doorbell consumes host request entries. -/
  | hrqDoorbell (off : Nat) (width : Nat) (val : Nat)
  /-- SQ_FETCH (R525): The fetcher takes entries from an SQ once its CQ has room, and checks the opcode. -/
  | sqFetch
  /-- BAR2_ACCESS (R721): A host read or write through BAR2 to the ring area or memory window, with ECC handling. -/
  | bar2Access (wr : Bool) (off : Nat) (len : Nat) (val : Nat)
  /-- ADMIN_CTL_EN (R523): Setting or clearing ADMIN_CTL.EN puts SQ 0 and CQ 0 in service or resets them. -/
  | adminCtlEn (val : Nat)
  /-- VECTOR_COAL_TIMEOUT (R536): COAL_US expires after the oldest counted item and the vector is raised. -/
  | vectorCoalTimeout (v : Nat)
  /-- VECTOR_UNMASK (R535): Unmasking a vector sends its pending message. -/
  | vectorUnmask (v : Nat)
  /-- HRQ_TIMEOUT (R540): A host request without STORE_DONE within TO_MS fails as a failed transfer. -/
  | hrqTimeout (reqId : Nat)
  /-- MBOX_H2D_WRITE (R542): Host writes a mailbox H2D word, setting FULL or COLLIDE. -/
  | mboxH2dWrite (m : MboxId) (val : Nat)
  /-- MBOX_D2H_READ (R542): Host reads a mailbox D2H word, clearing FULL. -/
  | mboxD2hRead (m : MboxId)
  /-- MBOX_OWNER_WRITE (R542): The owner writes a D2H word, setting FULL and possibly raising vector 1. -/
  | mboxOwnerWrite (m : MboxId) (val : Nat)
  /-- MBOX_OWNER_READ (R542): The owner reads an H2D word, clearing FULL. -/
  | mboxOwnerRead (m : MboxId)
  /-- PP_LINK_DOWN (R520): The PP link goes down and T3 transfers fail FAULT_LINK. -/
  | ppLinkDown
  /-- PP_LINK_UP (R520): The PP link returns; PP is enumerated again and T3 areas are kept or lost. -/
  | ppLinkUp (serials : List Nat)
  /-- METER_ADVANCE (R550): Each 1 ms the occupancy meters advance per composition. -/
  | meterAdvance
  /-- SENSOR_REFRESH (R548): PLDM sensor readings are refreshed every 100 ms. -/
  | sensorRefresh
  /-- SET_ENDPOINT_ID (R546): MCTP control command assigning the endpoint ID. -/
  | setEndpointId (eid : Nat)
  /-- GET_ENDPOINT_ID (R546): MCTP control command returning the endpoint ID. -/
  | getEndpointId
  /-- GET_ENDPOINT_UUID (R546): MCTP control command returning the UUID. -/
  | getEndpointUuid
  /-- GET_MCTP_VERSION_SUPPORT (R546): MCTP control command returning supported versions. -/
  | getMctpVersionSupport (typ : Nat)
  /-- GET_MESSAGE_TYPE_SUPPORT (R546): MCTP control command advertising PLDM only. -/
  | getMessageTypeSupport
  /-- MCTP_OTHER_MESSAGE (R546): Other MCTP control commands are answered ERROR_UNSUPPORTED_CMD and other types discarded. -/
  | mctpOtherMessage (typ : Nat) (cmd : Nat)
  /-- SETTID (R547): PLDM base SetTID. -/
  | settid (tid : Nat)
  /-- GETTID (R547): PLDM base GetTID. -/
  | gettid
  /-- GETPLDMVERSION (R547): PLDM base GetPLDMVersion. -/
  | getpldmversion (typ : Nat)
  /-- GETPLDMTYPES (R547): PLDM base GetPLDMTypes. -/
  | getpldmtypes
  /-- GETPLDMCOMMANDS (R547): PLDM base GetPLDMCommands. -/
  | getpldmcommands (typ : Nat)
  /-- SETEVENTRECEIVER (R547): PLDM platform SetEventReceiver. -/
  | seteventreceiver (eid : Nat)
  /-- GETPDRREPOSITORYINFO (R547): PLDM platform GetPDRRepositoryInfo. -/
  | getpdrrepositoryinfo
  /-- GETPDR (R548): PLDM platform GetPDR from the sensor repository. -/
  | getpdr (record : Nat)
  /-- GETSENSORREADING (R548): PLDM platform GetSensorReading. -/
  | getsensorreading (sensor : Nat)
  /-- GETSTATESENSORREADINGS (R548): PLDM platform GetStateSensorReadings. -/
  | getstatesensorreadings (sensor : Nat)
  /-- PLDM_UNSUPPORTED_CMD (R547): Other PLDM types and commands are answered ERROR_UNSUPPORTED_PLDM_CMD. -/
  | pldmUnsupportedCmd (typ : Nat) (cmd : Nat)
  /-- TK_CALIBRATE (R62): Every 1 ms each timekeeper compares its count with the reference and corrects its rate. -/
  | tkCalibrate (tk : Nat) (counted : Nat) (refTicks : Nat)
  /-- QD_TK_ALIGN (R63): A quadrant timekeeper completes alignment to the chip timekeeper after power-good. -/
  | qdTkAlign (q : Nat)
  /-- PACE_WINDOW_END (R51): At each 16,384 ns window end a block loads RATE and settles STATE and BELOW. -/
  | paceWindowEnd (block : Nat) (ops : Nat) (busyNs : Nat)
  /-- TIME_LO_READ (R67): A read of TIME_LO returns device time[31:0] and latches TIME_HI. -/
  | timeLoRead
  /-- PTM_TRIGGER (R72): Writing TRIGGER starts one PTM dialog. -/
  | ptmTrigger
  /-- PTM_PERIOD (R72): Each PERIOD_MS a PTM dialog starts while enabled. -/
  | ptmPeriod
  /-- PTM_DIALOG_DONE (R71): A completed dialog yields a correlation pair and advances SEQ. -/
  | ptmDialogDone (dev : Nat) (host : Nat) (linkDly : Nat)
  /-- PTM_DIALOG_FAIL (R73): A failed or timed-out dialog leaves the snapshot and SEQ unchanged. -/
  | ptmDialogFail
  /-- PTM_SEQ_READ (R72): A read of PTM_SEQ latches a consistent snapshot. -/
  | ptmSeqRead
  /-- CKPT_EPOCH_LO_READ (R448): A read of CKPT.EPOCH_LO latches EPOCH_HI. -/
  | ckptEpochLoRead
  /-- CKPT_FULL_LO_READ (R448): A read of CKPT.FULL_LO latches FULL_HI. -/
  | ckptFullLoRead
  /-- TOFS_LO_READ (R508): A read of CVFn.TOFS_LO latches TOFS_HI. -/
  | tofsLoRead (port : Nat)
  /-- SEC_EPOCH_LO_READ (R647): A read of SEC.EPOCH_LO latches EPOCH_HI. -/
  | secEpochLoRead
  /-- TENANT_LO_READ (R647): A read of SEC.TENANT_LO latches TENANT_HI. -/
  | tenantLoRead
  /-- ZERO_DONE_LO_READ (R647): A read of SEC.ZERO_DONE_LO latches T_HI. -/
  | zeroDoneLoRead
  /-- CELL_TIMEOUT (R74): A cell acknowledge watcher expires; the handshake is retried or escalates. -/
  | cellTimeout (cell : CellId)
  /-- BLOCK_TIMEOUT (R78): A block operation watcher expires; the operation is abandoned and the block reset. -/
  | blockTimeout (block : Nat)
  /-- DRAIN_TIMEOUT (R74): A quadrant drain watcher expires and PMC forces a quadrant reset. -/
  | drainTimeout (q : Nat)
  /-- STAGE_TIMEOUT (R605): A start-up stage passes its timeout and the start fails. -/
  | stageTimeout
  /-- START_LIMIT (R605): The 10 s limit for reaching OPERATIONAL expires. -/
  | startLimit
  /-- REGISTER_WRITE (R22): A BAR0 write to a register without a row of its own, under its access code. -/
  | registerWrite (off : Nat) (val : Nat)
  /-- RC_READ (R23): A read of an RC field returns its value and clears it. -/
  | rcRead (off : Nat)
  /-- CHIP_LOCK_SET (R80): Setting CHIP.LOCK makes RWL fields read only. -/
  | chipLockSet
  /-- SEGMENT_ARRIVE (R44): An Ecliptic segment reaches its destination and its CRC is checked. -/
  | segmentArrive (src : Nat) (dst : Nat) (crcOk : Bool)
  /-- COMPRESSION_PASS_START (R167): A queued compression pass starts in BULK order and allocates a slot, or is deferred. -/
  | compressionPassStart (page : PKey)
  /-- COMPRESSION_HEADER_SWAP (R167): Encoding done; the header swaps to CLOSED K4S. -/
  | compressionHeaderSwap (page : PKey)
  /-- FP8_FRAME_RELEASE (R167): One block timeout after a swap the old frames are released. -/
  | fp8FrameRelease (owner : POwner)
  /-- FADE_SWEEP (R171): A background sweep examines CLOSED pages of IDLE sessions for fading. -/
  | fadeSweep
  /-- FADE_TRIAL_DONE (R172): A fade trial finishes and is kept within budget or rejected with FADE_STOP. -/
  | fadeTrialDone (page : PKey)
  /-- FADE_SWAP (R173): The fade header swap reaches SESS and is applied or dropped. -/
  | fadeSwap (page : PKey)
  /-- COMA_ROW_WRITE (R724): A step's staged rows are written to the HBM coma page, or fail with MEDIA_BAD. -/
  | comaRowWrite (idx : Nat) (layer : Nat) (head : Nat) (fail : Bool)
  /-- TILE_DISPATCH (R198): The dispatcher gives the earliest-deadline tile to the AE that becomes free. -/
  | tileDispatch (q : Nat) (ae : Nat)
  /-- TILE_COMPLETE (R194): An AE ends a tile with one partial per query head. -/
  | tileComplete (q : Nat) (ae : Nat) (busyNs : Nat)
  /-- PARTIAL_ARRIVE (R204): A partial reaches the merge unit and is merged in tile order or held. -/
  | partialArrive (req : Nat) (entry : Nat) (head : Nat) (tile : Nat)
  /-- SCORE_PAGE_DONE (R211): A score engine finishes an offloaded page and sends its scores. -/
  | scorePageDone (req : Nat) (entry : Nat) (head : Nat) (tile : Nat) (page : Nat)
  /-- AE_OFFLINE_REQ (R223): Software takes an AE offline after its current tile. -/
  | aeOfflineReq (q : Nat) (ae : Nat)
  /-- AE_ONLINE_REQ (R223): Software returns a software-offlined AE to service. -/
  | aeOnlineReq (q : Nat) (ae : Nat)
  /-- HELLO (R225): A member's HELLO reaches the head; the ring goes up when all have arrived. -/
  | hello (ring : Nat) (h : Hello)
  /-- HELLO_ACK (R225): The head's acknowledgement puts the ring up at a member. -/
  | helloAck (ring : Nat)
  /-- RING_FORM_TIMEOUT (R225): HELLOs not complete within ACK_MS; RING_OPEN completes FAULT_TIMEOUT. -/
  | ringFormTimeout (ring : Nat)
  /-- RING_RATES (R231): A member's new rates reach the head's shadow ledger. -/
  | ringRates (ring : Nat) (pos : Nat) (rates : List (Res × Nat))
  /-- RING_LEG (R232): Forwarded query and new rows reach a member, which forwards and attends its segment. -/
  | ringLeg (ring : Nat) (leg : RingLeg)
  /-- RUNNING_PARTIAL (R234): The running partial reaches the next position and is merged and passed on. -/
  | runningPartial (ring : Nat) (leg : Nat) (ps : List RunEntry)
  /-- KV_TILE (R235): A KV-form tile reaches a member, which attends and forwards it. -/
  | kvTile (ring : Nat) (leg : Nat) (tile : Tile)
  /-- MEMBER_OUTPUTS (R235): A member's finished KV-form outputs reach the head. -/
  | memberOutputs (ring : Nat) (leg : Nat) (pos : Nat) (outs : List MemberOut)
  /-- STEP_RECORD (R237): A STEP record commits or rolls back a member's local session. -/
  | stepRecord (ring : Nat) (rsn : Nat) (stepSeq : Nat) (commit : Bool) (rows : Nat)
  /-- CANCEL_RECORD (R238): A CANCEL record rolls back a member's leg; its return completes the cancel at the head. -/
  | cancelRecord (ring : Nat) (rsn : Nat)
  /-- CANCEL_ACK_TIMEOUT (R238): The head posts the cancel completion at ACK_MS. -/
  | cancelAckTimeout (ring : Nat) (rsn : Nat)
  /-- RING_PARTIAL_TIMEOUT (R239): A running partial not received by d_j + HOP_NS counts as a lost member. -/
  | ringPartialTimeout (ring : Nat) (leg : Nat)
  /-- RING_BREAK (R240): A RING_BREAK record breaks the ring. -/
  | ringBreak (ring : Nat) (lost : Nat)
  /-- RING_PARK_RECORD (R275): A ring record makes a member park, revive or close its local session. -/
  | ringParkRecord (ring : Nat) (rsn : Nat) (task : RingTask)
  /-- RING_MEMBER_REPORT (R275): A member's report reaches the head, which completes or unwinds the ring command. -/
  | ringMemberReport (ring : Nat) (rsn : Nat) (pos : Nat) (status : Status)
  /-- CKPT_RECORD (R446): A CKPT ring record makes a member capture its local session. -/
  | ckptRecord (ring : Nat) (rsn : Nat) (epoch : Nat) (stepSeq : Nat)
  /-- MOVE_RECORD (R288): A MOVE ring record makes a member move its local session to ring B. -/
  | moveRecord (ring : Nat) (rsn : Nat) (ringB : Nat) (tag : Nat) (dests : MoveDests)
  /-- PARK_WRITES_DONE (R272): The last park write is acknowledged; manifest written and session PARKED. -/
  | parkWritesDone (idx : Nat)
  /-- PARK_RELEASE (R272): One block timeout after parking the T1 space is released. -/
  | parkRelease (idx : Nat)
  /-- REVIVE_RESERVED (R276): The T1 reservation of a revive completes and target reads start. -/
  | reviveReserved (idx : Nat)
  /-- REVIVE_TILE (R278): A revive tile or stripe lands and is checked; the last completes the revive. -/
  | reviveTile (idx : Nat) (n : Nat) (ok : Bool)
  /-- PRESSURE_EVICTION (R290): Free slots below LOW_PCT; firmware demotes and parks sessions. -/
  | pressureEviction
  /-- MOVE_OFFER (R282): A MOVE_OFFER reaches the destination, which checks and reserves. -/
  | moveOffer (offer : MoveOffer)
  /-- MOVE_ACCEPT (R282): MOVE_ACCEPT reaches the source, which sends tiles or stripes. -/
  | moveAccept (tag : Nat) (src : MoveAccepter)
  /-- MOVE_REJECT (R282): MOVE_REJECT returns the source session to its prior state. -/
  | moveReject (tag : Nat) (status : Status)
  /-- MOVE_TILE (R284): A move tile reaches the destination; the last commits the copy. -/
  | moveTile (tag : Nat) (src : Nat) (item : MoveItem)
  /-- MOVE_DONE (R282): MOVE_DONE sets the source VOID and completes SESS_MOVE_OUT. -/
  | moveDone (tag : Nat) (src : Nat) (gen : Nat)
  /-- MOVE_ABORT (R284): MOVE_ABORT releases the copy or returns the source to its prior state. -/
  | moveAbort (tag : Nat) (peer : Nat) (status : Status)
  /-- MOVE_STATUS_TICK (R285): Every 1 ms an unresolved source sends MOVE_STATUS. -/
  | moveStatusTick
  /-- MOVE_STATUS (R285): The destination answers COMMITTED or ABORTED from its kept outcomes. -/
  | moveStatus (tag : Nat) (src : Nat)
  /-- MOVE_STATUS_ANSWER (R285): COMMITTED or ABORTED reaches the source, which finishes or returns the session. -/
  | moveStatusAnswer (tag : Nat) (committed : Bool)
  /-- MOVE_RESOLVE_TIMEOUT (R285): No answer within RESOLVE_MS; the source completes FAULT_LINK and stays TRANSIT. -/
  | moveResolveTimeout (tag : Nat)
  /-- MOVE_IN_TIMEOUT (R281): No MOVE_OFFER within ACK_MS; SESS_MOVE_IN completes FAULT_TIMEOUT. -/
  | moveInTimeout (tag : Nat)
  /-- MOVE_OFFER_TIMEOUT (R281): A MOVE_OFFER unmatched for ACK_MS is answered MOVE_REJECT. -/
  | moveOfferTimeout (tag : Nat)
  /-- MOVE_READY (R288): A ring-B member reports READY; at all positions the head sends COMMIT. -/
  | moveReady (ring : Nat) (rsn : Nat) (pos : Nat)
  /-- MOVE_COMMIT (R288): COMMIT makes a ring-B member complete its move and bind the session. -/
  | moveCommit (ring : Nat) (rsn : Nat)
  /-- LEND_OFFER_TICK (R293): Every 10 ms a lending device sends OFFER records. -/
  | lendOfferTick
  /-- OFFER (R293): A lender's OFFER record reaches a neighbour. -/
  | offer (lender : Nat) (units : Nat) (recallable : Nat)
  /-- LOAN_REQ (R293): A borrower's request for units reaches a lender. -/
  | loanReq (borrower : Nat) (units : Nat)
  /-- LOAN_GRANT (R485): A grant reaches the borrower, which maps it into a window. -/
  | loanGrant (lender : Nat) (number : Nat) (units : List Nat)
  /-- REVOKE (R296): A REVOKE starts evacuation of one loan unit. -/
  | revoke (lender : Nat) (number : Nat) (unit : Nat)
  /-- RELEASE (R295): A RELEASE lets the lender reclaim a unit. -/
  | release (borrower : Nat) (number : Nat) (unit : Nat)
  /-- LOAN_VOID (R298): LOAN_VOID marks the areas of a loan lost. -/
  | loanVoid (peer : Nat) (number : Nat)
  /-- EVACUATION_DEADLINE (R297): An area not evacuated within 20 ms of REVOKE is lost. -/
  | evacuationDeadline (lender : Nat) (number : Nat) (unit : Nat)
  /-- REVOKE_RECLAIM (R295): The lender reclaims a unit 21 ms after its REVOKE. -/
  | revokeReclaim (borrower : Nat) (number : Nat) (unit : Nat)
  /-- LOAN_REVOKE_TRIGGER (R292): Free slots below RECLAIM_PCT make a lender revoke units. -/
  | loanRevokeTrigger
  /-- PIN_SPACE_RELEASE (R261): T0 space of an unpinned prefix is released one block timeout later. -/
  | pinSpaceRelease (prefixId : Nat)
  /-- SLOT_RETIRE (R301): A slot reaching CE_LIMIT or failing ECC is retired. -/
  | slotRetire (slot : Nat)
  /-- RETIREMENT_COPY (R302): A live page on a retiring slot is copied while its session is IDLE. -/
  | retirementCopy (slot : Nat)
  /-- MASK_PREFETCH (R329): A queued BULK mask prefetch generates a mask and inserts it in the cache. -/
  | maskPrefetch
  /-- DELTA_TILE_COMPLETE (R321): A delta tile finishes on an AE. -/
  | deltaTileComplete (req : Nat) (n : Nat)
  /-- TAIL_ENTRY_RUN (R318): A free pipe takes a ready entry and runs intake, top-k, selection and finishing. -/
  | tailEntryRun (req : Nat) (entry : Nat) (pipe : Nat)
  /-- HOOK_REPLY (R346): A hook reply reaches the sampler and is accepted or rejected. -/
  | hookReply (req : Nat) (entry : Nat) (token : Nat) (rngAdv : Nat)
  /-- HOOK_DEADLINE (R581): HOOK_NS expires; the hook counts as late. -/
  | hookDeadline (req : Nat) (entry : Nat)
  /-- PIPE_OFFLINE_REQ (R351): Software takes a tail pipe offline after its current entry. -/
  | pipeOfflineReq (p : Nat)
  /-- PIPE_ONLINE_REQ (R351): Software returns a tail pipe to service. -/
  | pipeOnlineReq (p : Nat)
  /-- CHANNEL_BACKLOG_SEND (R383): Room returns on a channel and backlogged records, with a LOSS record first, are sent. -/
  | channelBacklogSend (channel : Nat)
  /-- TEXT_OFFLINE_REQ (R386): Software takes a text engine offline after its current piece. -/
  | textOfflineReq (q : Nat)
  /-- TEXT_ONLINE_REQ (R386): Software returns a text engine to service. -/
  | textOnlineReq (q : Nat)
  /-- RECALL_SCAN_DONE (R410): A scan engine's partial list arrives and is merged. -/
  | recallScanDone (query : Nat) (n : Nat) (list : Nat) (engine : Nat)
  /-- RECALL_QUERY_TIMEOUT (R390): QUERY_TO_MS expires and the query completes FAULT_TIMEOUT. -/
  | recallQueryTimeout (query : Nat)
  /-- RECALL_FOLD (R403): A pending delete is folded into the tombstone bitmap once no snapshot needs it. -/
  | recallFold (index : Nat) (row : Nat)
  /-- COMPACTION_START (R404): Side fill or tombstone share reaching its trigger starts a compaction pass. -/
  | compactionStart (index : Nat)
  /-- COMPACTION_PUBLISH (R404): A compaction pass publishes its lists in one write. -/
  | compactionPublish (index : Nat)
  /-- QE_OFFLINE_REQ (R415): Software takes a query engine offline after its current query. -/
  | qeOfflineReq (e : Nat)
  /-- QE_ONLINE_REQ (R415): Software returns a query engine to service. -/
  | qeOnlineReq (e : Nat)
  /-- CKPT_SCHEDULE (R419): At each multiple of PERIOD_S a run starts or is skipped. -/
  | ckptSchedule
  /-- FAILURE_WARNING (R422): Counted reports reach THRESH in a window; CKPT_WARN is posted and a run may start. -/
  | failureWarning
  /-- SHARD_ACK (R431): A shard write is acknowledged; after a session's last, CKPT_EPOCH is written. -/
  | shardAck (part : Nat) (ok : Bool)
  /-- CATALOGUE_ACK (R436): The last catalogue is acknowledged and the epoch commits. -/
  | catalogueAck (target : Nat) (ok : Bool)
  /-- CKPT_RUN_TIMEOUT (R437): A run passes RUN_TO_S and is abandoned. -/
  | ckptRunTimeout
  /-- PORT_TRAINED (R452): PHY training and FEC lock complete and INIT is exchanged. -/
  | portTrained (port : Nat) (lanes : Nat) (nonce : Nat)
  /-- INIT (R453): An INIT flit is received and accepted or refused. -/
  | init (port : Nat) (init : InitFlit)
  /-- PORT_RETRY (R455): Every 100 ms a down port with EN set retries bring-up. -/
  | portRetry (port : Nat)
  /-- IDLE_FLIT (R457): An IDLE flit delivers ACK and credits. -/
  | idleFlit (port : Nat) (ack : Nat) (credCls : Nat) (credN : Nat)
  /-- FRAME_RECEIVE (R469): A frame is received, policed, checked and reassembled or forwarded. -/
  | frameReceive (port : Nat) (frame : FrameIn)
  /-- NAK (R461): A NAK makes the sender replay from the named SEQ. -/
  | nak (port : Nat) (seq : Nat)
  /-- REPLAY_TIMEOUT (R461): 2 µs without ACK advance replays from the oldest unacknowledged flit. -/
  | replayTimeout (port : Nat)
  /-- DEGRADE (R463): A DEGRADE flit is answered with DEGRADE_ACK and the width changes. -/
  | degrade (port : Nat) (mask : Nat)
  /-- DEGRADE_ACK (R463): A DEGRADE_ACK sets the new width from the named SEQ. -/
  | degradeAck (port : Nat) (mask : Nat) (seq : Nat)
  /-- WIDTH_CHANGE_TIMEOUT (R464): A width change not complete within 50 µs takes the port down. -/
  | widthChangeTimeout (port : Nat)
  /-- LANE_RETIRE (R463): A lane reaching LANE_UNC or losing lock is retired. -/
  | laneRetire (port : Nat) (lane : LaneFault)
  /-- DOWN (R506): The peer's DOWN flit takes the port down. -/
  | down (port : Nat)
  /-- LANE_LOCK_LOST (R506): Loss of lock on every active lane takes the port down. -/
  | laneLockLost (port : Nat)
  /-- TIME_EXCHANGE (R482): Each 1 ms an up port starts a TIME exchange. -/
  | timeExchange (port : Nat)
  /-- TIME_FLIT (R482): A TIME flit is received, answered or used to update ofs. -/
  | timeFlit (port : Nat) (answer : Option (Nat × Nat))
  /-- DROP_NOTICE (R470): A DROP notice fails the operation that sent the message. -/
  | dropNotice (cls : Nat) (msgId : Nat) (reason : Nat)
  /-- MEM_WR (R486): A lender stores borrower bytes and answers MEM_WR_ACK. -/
  | memWr (port : Nat) (src : MemSender) (off : Nat) (len : Nat) (val : Nat)
  /-- MEM_WR_ACK (R486): A window write is acknowledged to the borrower. -/
  | memWrAck (msgId : Nat)
  /-- MEM_RD (R486): A lender reads a lent slot and answers MEM_RD_DATA. -/
  | memRd (port : Nat) (src : MemSender) (off : Nat) (len : Nat)
  /-- MEM_RD_DATA (R486): Window read data reaches the borrower. -/
  | memRdData (msgId : Nat)
  /-- MEM_ERR (R487): MEM_ERR fails the borrower's operation with FAULT_LINK. -/
  | memErr (msgId : Nat)
  /-- SHAPER_REFILL (R490): At each REFILL_NS all buckets of a port refill. -/
  | shaperRefill (port : Nat)
  /-- QUEUE_SAMPLE (R504): Every SAMPLE_X refills each queue's depth and delay are sampled. -/
  | queueSample (port : Nat)
  /-- FRAME_START (R497): A frame starts once its class bucket is positive and DRR and rank allow. -/
  | frameStart (port : Nat)
  /-- CVF_RETRAIN (R508): Writing RETRAIN takes the port down and brings it up with lanes restored. -/
  | cvfRetrain (port : Nat)
  /-- BOOT_REQ_TICK (R600): Every 100 ms a neighbour-push boot sends BOOT_REQ on up ports. -/
  | bootReqTick
  /-- BOOT_REQ (R600): A serving neighbour answers with its bundle and image. -/
  | bootReq (port : Nat)
  /-- BOOT_ANSWER (R600): The booting device takes the first answer. -/
  | bootAnswer (port : Nat) (bundle : Nat × Nat) (image : Nat × Nat)
  /-- POWER_ON_RESET (R716): Power-on reset is released 2 ms after all rails are in range. -/
  | powerOnReset (straps : Nat) (testMode : Bool) (rnd : Nat)
  /-- RAIL_OUT_OF_RANGE (R716): A rail out of range for 2 µs asserts power-on reset. -/
  | railOutOfRange
  /-- PERST_N_ASSERT (R614): PERST_N low holds the device in cold reset. -/
  | perstNAssert
  /-- PERST_N_DEASSERT (R590): PERST_N rises; straps are sampled and a start begins. -/
  | perstNDeassert (straps : Nat) (rnd : Nat)
  /-- WARM_RST_N (R614): WARM_RST_N low for 1 µs causes a warm reset. -/
  | warmRstN
  /-- RST_CTL_WARM (R623): Writing RST_CTL.WARM starts a warm reset. -/
  | rstCtlWarm
  /-- QRST (R618): Writing RST_CTL.QRST starts a quadrant reset. -/
  | qrst (mask : Nat)
  /-- QUAD_DRAIN_DONE (R618): A quadrant drains and PMC forces its reset. -/
  | quadDrainDone (q : Nat)
  /-- QUAD_POWER_GOOD (R618): Power-good after a quadrant reset starts alignment and refills. -/
  | quadPowerGood (q : Nat)
  /-- QUAD_REFILL_DONE (R618): Refills finish and the quadrant rejoins the ledger. -/
  | quadRefillDone (q : Nat)
  /-- BLOCK_IDLE_ACK (R619): A block acknowledges idle and is reset offline. -/
  | blockIdleAck (block : Nat)
  /-- BLOCK_FORCED_RESET (R619): No idle acknowledgement by the block timeout; the block is reset by force. -/
  | blockForcedReset (block : Nat)
  /-- ROM_STAGE (R602): ROM stage ends with the bundle verified; CORES begins. -/
  | romStage (flashFault : Bool)
  /-- CORES_STAGE (R602): Runtimes started; POWER begins. -/
  | coresStage
  /-- POWER_STAGE (R602): Quadrant rails up and timekeepers aligned; MEMORY begins. -/
  | powerStage (badQuad : Option Nat)
  /-- MEMORY_STAGE (R602): HBM trained and initialised or recovered; IMAGE begins. -/
  | memoryStage (badStack : Option Nat)
  /-- IMAGE_STAGE (R602): Image read, verified and checked; CONFIG begins. -/
  | imageStage (flashFault : Bool)
  /-- CONFIG_STAGE (R602): REGS applied, tables loaded, session table and pool rebuilt; FABRIC begins. -/
  | configStage
  /-- FABRIC_STAGE (R602): Position fixed and fabric started; OPERATIONAL reached and CHIP.LOCK set. -/
  | fabricStage (ppSerials : List Nat)
  /-- WATCHDOG_MISS (R601): Three missed kicks cause a warm reset or quadrant reset. -/
  | watchdogMiss (core : Nat)
  /-- HARDWARE_WATCHDOG (R601): The 100 ms hardware watchdog expires and starts a warm reset. -/
  | hardwareWatchdog
  /-- RECOVERY_STATUS (R621): Recovery mailbox STATUS returns BOOT_STAT. -/
  | recoveryStatus
  /-- ERASE (R621): Recovery mailbox ERASE of one flash sector. -/
  | erase (sector : Nat) (flashFault : Bool)
  /-- WRITE (R621): Recovery mailbox WRITE starts a sector write. -/
  | write (sector : Nat)
  /-- RECOVERY_DATA_WORD (R622): A WRITE data word reaches the recovery mailbox; the last ends the WRITE. -/
  | recoveryDataWord (word : Nat) (flashFault : Bool)
  /-- CRC (R621): Recovery mailbox CRC of a sector. -/
  | crc (sector : Nat) (flashFault : Bool)
  /-- RESTART (R621): Recovery mailbox RESTART: cold start from Eclipse, else warm reset. -/
  | restart
  /-- PUSH_DONE (R599): Host push marks the bundle or image complete. -/
  | pushDone (item : Nat)
  /-- ENUM (R611): A chain ENUM frame assigns a position and is forwarded with ARG + 1. -/
  | enum (second : Bool) (bytes : List Nat)
  /-- PING (R611): A chain PING makes the device send STATUS. -/
  | ping (second : Bool) (bytes : List Nat)
  /-- WARM_RESET (R611): A chain WARM_RESET frame starts a warm reset. -/
  | warmReset (second : Bool) (bytes : List Nat)
  /-- QUAD_RESET (R611): A chain QUAD_RESET frame resets named quadrants. -/
  | quadReset (second : Bool) (bytes : List Nat)
  /-- CHAIN_FORWARD (R610): Another chain frame is forwarded, or dropped on a bad CRC. -/
  | chainForward (second : Bool) (bytes : List Nat)
  /-- ZERO_STACK_DONE (R638): Background zeroing of a stack finishes. -/
  | zeroStackDone (stack : Nat)
  /-- PMC_EVALUATION (R650): Every 100 µs PMC sets ladder levels and voltage targets. -/
  | pmcEvaluation (railMv : List Nat)
  /-- THERMAL_SAMPLE (R653): Every 100 µs sensors are sampled and stack trip points applied. -/
  | thermalSample (quads : List Int) (stackT : List (Nat × Int)) (pkgW : Nat) (bad : List Nat)
  /-- THERMTRIP (R658): The comparator reaches TRIP_C; THERMTRIP_N asserts and VDD_CORE is disabled. -/
  | thermtrip (sensor : Nat)
  /-- GATE_BATCHES_CLOSED (R668): Earlier batches closed; the domain drains and is gated. -/
  | gateBatchesClosed (domain : Nat)
  /-- PWR_GATE_TIMEOUT (R668): A PWR_GATE still waiting after 1 s completes FAULT_TIMEOUT. -/
  | pwrGateTimeout (domain : Nat)
  /-- WAKE_READY (R669): A woken domain is ready and rejoins the ledger. -/
  | wakeReady (domain : Nat)
  /-- ERROR_REPORT (R687): A report enters its log's intake queue and the warning counters. -/
  | errorReport (r : ReportIn)
  /-- LOG_INTAKE (R687): Every 40 ns a log takes one report and coalesces or opens an entry. -/
  | logIntake (log : Nat)
  /-- VECTOR0_DEFERRED (R689): A deferred vector 0 raise fires 100 µs after the last. -/
  | vector0Deferred
  /-- LOG_CLEAR (R700): ERRLOG.CTL.CLEAR empties a log. -/
  | logClear (log : Nat)
  /-- HBM_SCRUB_PASS (R678): Each HBM_H hours a patrol scrub reads a stack. -/
  | hbmScrubPass (stack : Nat) (found : List (Nat × Bool))
  /-- SRAM_SCRUB_PASS (R678): Each SRAM_S seconds SRAM and staging are scrubbed. -/
  | sramScrubPass (q : Nat) (found : List (Nat × Bool))
  /-- SRAM_LINE_RETIRE (R680): An SRAM line that fails or reaches CE_LIMIT is retired. -/
  | sramLineRetire (q : Nat) (line : Nat)
  /-- BT_TDONE (R562): bt.tdone ends a task with result and reply. -/
  | btTdone (hart : Nat) (rs1 : Nat) (rs2 : Nat)
  /-- BT_EXIT (R562): bt.exit ends a job hart. -/
  | btExit (hart : Nat) (rs1 : Nat)
  /-- BT_TIME (R562): bt.time returns device time. -/
  | btTime (hart : Nat) (rd : Nat)
  /-- BT_SELF (R562): bt.self returns hart identity. -/
  | btSelf (hart : Nat) (rd : Nat)
  /-- BT_MIX (R562): bt.mix returns mix64. -/
  | btMix (hart : Nat) (rd : Nat) (rs1 : Nat)
  /-- BT_RKEY (R562): bt.rkey returns the rank key. -/
  | btRkey (hart : Nat) (rd : Nat) (rs1 : Nat)
  /-- BT_FLUSH (R562): bt.flush retires once earlier stores are visible. -/
  | btFlush (hart : Nat)
  /-- BT_SUBMIT (R563): bt.submit enqueues a BULK task. -/
  | btSubmit (hart : Nat) (rd : Nat) (rs1 : Nat) (rs2 : Nat)
  /-- BT_WAIT (R563): bt.wait stops issue until a word changes. -/
  | btWait (hart : Nat) (rd : Nat) (rs1 : Nat) (rs2 : Nat)
  /-- BT_WAIT_RESUME (R563): The waited word changes and the hart resumes. -/
  | btWaitResume (hart : Nat)
  /-- BT_WAIT_TIMEOUT (R562): WAIT_US passes and bt.wait returns. -/
  | btWaitTimeout (hart : Nat)
  /-- BT_MBOX (R562): bt.mbox writes the D2H word of mailbox 7. -/
  | btMbox (hart : Nat) (rs1 : Nat)
  /-- BT_MBOXR (R562): bt.mboxr reads and clears the H2D word of mailbox 7. -/
  | btMboxr (hart : Nat) (rd : Nat)
  /-- HART_EXCEPTION (R561): An exception ends the hart's task or job. -/
  | hartException (hart : Nat) (cause : Nat)
  /-- TASK_DISPATCH (R572): A free hart takes the next task, or a DEADLINE task preempts one. -/
  | taskDispatch (part : Nat)
  /-- TASK_TIMEOUT (R573): A BULK task reaches TASK_US and ends FAULT_TIMEOUT. -/
  | taskTimeout (hart : Nat)
  /-- JOB_LIMIT (R568): A job reaches LIMIT_MS and ends FAULT_TIMEOUT. -/
  | jobLimit (part : Nat)
  /-- CONFIGURATION_REQUEST (R512): A PCIe configuration request reaches HP and is answered; a write can change PTM Enable, Bus Master Enable, BAR sizes, MSI-X control or the D3hot power state that stops BAR decoding. -/
  | configurationRequest (wr : Bool) (field : CfgField) (val : Nat)
  /-- WARM_RST_N_RELEASE (R614): WARM_RST_N rises after being held low and the start begins at step 1. -/
  | warmRstNRelease
  /-- PORT_TRAINING_FAILED (R455): A CVF port does not finish training, FEC lock, INIT or the first TIME exchange within its bring-up limit, records CAUSE training failed and goes down until its next retry. -/
  | portTrainingFailed (port : Nat)
  /-- QUAD_REJOIN_TIMEOUT (R693): A reset quadrant that has not rejoined within 50 ms is left offline until the next start-up. -/
  | quadRejoinTimeout (q : Nat)
  /-- FAILED_BLOCK_RESET (R693): A block that has not reached step 4 of the block-reset timeline within 10 µs escalates to a quadrant reset. -/
  | failedBlockReset (block : Nat)
  /-- BLOCK_HARDWARE_ERROR (R614): An ECC error in lane registers, an illegal dual-rail code or a stack-controller or core fault arises inside a unit during its work and is corrected, or fails the unit and starts its block reset. -/
  | blockHardwareError (block : Nat) (typ : Nat) (corrected : Bool)
  /-- RING_RESPONSE_DEADLINE (R239): At the deadline d the ring head sends the response, and entries of sessions that lack a member's result read FAULT_UNIT and are rolled back. -/
  | ringResponseDeadline (ring : Nat) (leg : Nat)
  /-- MOVE_SOURCE_RELEASE (R282): One block timeout after MOVE_DONE the source's slots or targets are released to the pool. -/
  | moveSourceRelease (idx : Nat)
  /-- KV_IMPORT_EXPORT_END (R185): The BULK work of a KV_IMPORT or KV_EXPORT finishes, commits COMMIT_LEN for an import, and posts its completion. -/
  | kvImportExportEnd (idx : Nat)
  deriving DecidableEq, Repr

end Sys2Proof
end

