-- ==== Sys2Proof/Decode.lean ====
section
/-! DEFINITION. Decode.lean: the command a table word spells. No row of the table gives bits, so no word spells one. -/

namespace Sys2Proof

/-- The command that a word of `nbits` bits spells by the bits of the table: none, since no row has bits. -/
def decodeTableWord (_nbits _w : Nat) : Option Instr := none

end Sys2Proof
end

