-- ==== Sys2Proof/Config.lean ====
section
/-!
DEFINITION. Config.lean: the free values. Each is a constant with no body, so that no proof can see what it is: a value the
spec leaves open, a cryptographic function, or a choice that the spec leaves to the device. Dev.free counts the values drawn.
-/

namespace Sys2Proof

/-- What a byte reads whose contents were written under an earlier tenant epoch (R628, R636: arbitrary). -/
opaque Config.staleByte : Nat → Byte

/-- A fresh free value (an UNPREDICTABLE outcome of R29 to R31, or a value no rule states), applied to Dev.free. -/
opaque Config.freeNat : Nat → Nat

/-- The sign and payload of a NaN that the arithmetic makes; no rule gives them. -/
opaque Config.nanPayload : Nat

/-- What the timekeeper of a quadrant shows at a device time, within the bounds of R63. -/
opaque Config.quadClock : Nat → Nat → Nat

/-- Which of the free slots, blocks or places the device takes where the spec leaves the choice open. -/
opaque Config.placeHint : Nat → Nat

/-- The 64-bit form in which the mask cache hashes its key (R328 gives the fields, not their places). -/
opaque Config.maskKey : Nat → Nat

/-- The true random generator of SEC (R632), applied to Dev.free. -/
opaque Config.random : Nat → Nat

/-- The SM3 digest of a message given as its length in bytes and its little-endian number (R625, R639). -/
opaque Config.sm3 : Nat → Nat → Nat

/-- HMAC-SM3 of a message under a key (R630). -/
opaque Config.hmacSm3 : Nat → Nat → Nat → Nat

/-- SM2 verification of a signature over a digest under a public key (R626, R634, R643). -/
opaque Config.sm2Verify : Nat → Nat → Nat → Bool

/-- The identity key's SM2 signature over a digest (R641). -/
opaque Config.sm2Sign : Nat → Nat → Nat

/-- SM2 decryption of a store-key blob under the identity key (R633); none where its C3 check fails. -/
opaque Config.sm2Decrypt : Nat → Option Nat

/-- ROOT_HASH and OWNER_HASH (R625). -/
opaque Config.rootHash : Nat
@[inherit_doc Config.rootHash] opaque Config.ownerHash : Nat

/-- The link key of the device's link domain (R625). -/
opaque Config.linkKey : Nat → Nat

/-- The device certificate and the intermediate certificate in DER (R641): length and bytes. -/
opaque Config.certChain : Nat × Nat

/-- The digest of the ROM identity and fuse state (R639, MR0). -/
opaque Config.romDigest : Nat

/-- What an UNPREDICTABLE (contained) outcome leaves of the tenant's own structures (R29), applied to Dev.free. -/
opaque Config.contained : Nat → Machine.Contained → Machine.Contained

/-- What a hart's program has done since the hart was last looked at: its registers, its reservation, and its stores as (address,
bytes, value). The instructions are those of the RISC-V specifications (R559), which this spec does not restate; applied to
Dev.free. -/
opaque Config.program : Nat → Machine.HartRegs → Machine.HartRegs × Option Addr × List (Nat × Nat × Nat)

/-- The VERSION of a firmware bundle, given as its length and bytes, whose signature verifies under ROOT_HASH; none where it does not.
R593 gives what a bundle holds, and no layout. -/
opaque Config.bundleVersion : Nat → Nat → Option Nat

/-- SPEED, WIDTH and FLIT that HP has trained to (R512, R552). -/
opaque Config.hpLink : Nat

/-- The fields of a section of a JVG image whose layout R595 leaves out, given the section's TYPE, length and bytes. BOOT: TO_STAGE,
CHAIN_MODE, CHAIN2_EN, BOOT_SERVE, KICK_MS. SHAPE: layers, KV heads, g, head dimension, V, LAYER_BASE. POOL: devices, then per decoder
its base and GiB. ROUTE: the count of lend-list addresses, those addresses, then pairs of a route register's offset and value. -/
opaque Config.sectionFields : Nat → Nat → Nat → List Nat

end Sys2Proof
end

