-- ==== Sys2Proof/Machine/Bits.lean ====
section
/-!
DEFINITION. Machine/Bits.lean: bit fields of numbers, little-endian bytes (R20), saturating counters, ceiling division
and the small list and table operations that every other file uses.
-/

namespace Sys2Proof.Machine

/-- `len` bits of `n` from bit `lo` (R20: bit 0 is the least significant). -/
def bits (n lo len : Nat) : Nat := n / 2 ^ lo % 2 ^ len

/-- Bit `i` of `n`. -/
def bit (n i : Nat) : Bool := bits n i 1 == 1

/-- `n` with the `len` bits from `lo` replaced by `v`. -/
def setBits (n lo len v : Nat) : Nat :=
  n - bits n lo len * 2 ^ lo + v % 2 ^ len * 2 ^ lo

/-- 1 for true, 0 for false. -/
def ofB (b : Bool) : Nat := if b then 1 else 0

/-- The `i`th byte of a little-endian number (R20). -/
def byteOf (n i : Nat) : Nat := bits n (8 * i) 8

/-- The `len` bytes of a little-endian number. -/
def leBytes (n len : Nat) : List Nat := (List.range len).map fun i => byteOf n i

/-- The number that little-endian bytes spell. -/
def leNat : List Nat → Nat
  | [] => 0
  | b :: bs => b % 256 + 256 * leNat bs

/-- Fields of a record as (byte offset, byte count, value), gathered into one little-endian number. -/
def packFields : List (Nat × Nat × Nat) → Nat
  | [] => 0
  | (off, len, v) :: r => v % 2 ^ (8 * len) * 2 ^ (8 * off) + packFields r

/-- Ceiling division. -/
def cdiv (a b : Nat) : Nat := (a + b - 1) / b

/-- One more, held at 0xFFFF_FFFF (the saturating counters of R351, R552 and the other register blocks). -/
def satInc (w : Word) (n : Nat) : Word := BitVec.ofNat 32 (min (w.toNat + n) 0xFFFFFFFF)

/-- The low 64 bits. -/
def u64 (n : Nat) : Nat := n % 2 ^ 64

/-- The low 32 bits. -/
def u32 (n : Nat) : Nat := n % 2 ^ 32

/-- A two's-complement reading of the low `w` bits. -/
def toSigned (n w : Nat) : Int :=
  let m := n % 2 ^ w
  if m < 2 ^ (w - 1) then (m : Int) else (m : Int) - 2 ^ w

/-- The low `w` bits of an integer in two's complement. -/
def ofSigned (i : Int) (w : Nat) : Nat := (i % 2 ^ w).toNat

/-- The base-2 logarithm, rounded down. -/
def log2 (n : Nat) : Nat := Nat.log2 n

/-- Replace the first element that satisfies a test. -/
def replaceFirst {α : Type} (p : α → Bool) (f : α → α) : List α → List α
  | [] => []
  | a :: as => if p a then f a :: as else a :: replaceFirst p f as

/-- Set position `i` of a list, padding with `z` where it is too short. -/
def setAt {α : Type} (z v : α) : Nat → List α → List α
  | 0, [] => [v]
  | 0, _ :: as => v :: as
  | i + 1, [] => z :: setAt z v i []
  | i + 1, a :: as => a :: setAt z v i as

/-- Position `i` of a list, or `z`. -/
def getAt {α : Type} (z : α) (i : Nat) (l : List α) : α := l.getD i z

/-- The value that a table sorted by key holds for a key. -/
def tblGet {α : Type} (k : Nat) : List (Nat × α) → Option α
  | [] => none
  | (j, v) :: t => if j == k then some v else tblGet k t

/-- Set a key of a table sorted by key. -/
def tblSet {α : Type} (k : Nat) (v : α) : List (Nat × α) → List (Nat × α)
  | [] => [(k, v)]
  | (j, w) :: t => if k < j then (k, v) :: (j, w) :: t else if j == k then (k, v) :: t else (j, w) :: tblSet k v t

/-- Drop a key of a table. -/
def tblDel {α : Type} (k : Nat) (t : List (Nat × α)) : List (Nat × α) := t.filter fun p => p.1 != k

/-- Insert by a strict order, after every element not greater (stable). -/
def insertBy {α : Type} (lt : α → α → Bool) (a : α) : List α → List α
  | [] => [a]
  | b :: bs => if lt a b then a :: b :: bs else b :: insertBy lt a bs

/-- A stable insertion sort. -/
def sortBy {α : Type} (lt : α → α → Bool) (l : List α) : List α := l.foldl (fun acc a => insertBy lt a acc) []

/-- The element that is least under a strict order, the earliest of equals. -/
def minBy {α : Type} (lt : α → α → Bool) : List α → Option α
  | [] => none
  | a :: as => some (as.foldl (fun m b => if lt b m then b else m) a)

/-- The sum of a list. -/
def sumOf (l : List Nat) : Nat := l.foldl (· + ·) 0

/-- The first position of an element that satisfies a test. -/
def findPos {α : Type} (p : α → Bool) : List α → Option Nat
  | [] => none
  | a :: as => if p a then some 0 else (findPos p as).map (· + 1)

/-- The numbers a, a + 1, …, a + n − 1. -/
def rangeFrom (a n : Nat) : List Nat := (List.range n).map (a + ·)

/-- Cut a list into pieces of `n` (the last may be shorter); `fuel` bounds the pieces. -/
def chunksOf {α : Type} (n : Nat) : Nat → List α → List (List α)
  | 0, _ => []
  | _, [] => []
  | f + 1, l => l.take n :: chunksOf n f (l.drop n)

end Sys2Proof.Machine
end

