-- ==== Sys2Proof/Machine/RegMap.lean ====
section
/-!
DEFINITION. Machine/RegMap.lean: the BAR0 register map (R47, R54, R55, R67 to R69, R72, R79, R80, R145, R186, R242 to
R245, R306, R351, R352, R385, R386, R415, R416, R448, R508 to R510, R541, R552, R587, R588, R623, R647, R671, R700 and the
MSI-X table of R512): for every register its BAR0 offset, its repetition, its reset value and the bits of each access code
of R22. A register that occurs once per unit has its index arguments in the order of its path.
-/

namespace Sys2Proof.Machine

/-- One row of the register map. `dims` lists (count, stride), outermost first, for a register that repeats. A bit that
is in none of the masks is read only, and a reserved bit stays 0 (R21, R22). -/
structure RegRow where
  base : Nat
  dims : List (Nat × Nat)
  reset : BitVec 32
  rw : BitVec 32
  rwl : BitVec 32
  w1c : BitVec 32
  w1s : BitVec 32
  rc : BitVec 32
  deriving DecidableEq, Repr

/-- CHIP.CAP0 -/
abbrev Reg.chipCap0 : Nat := 0x100
/-- CHIP.CAP1 -/
abbrev Reg.chipCap1 : Nat := 0x104
/-- CHIP.CAP2 -/
abbrev Reg.chipCap2 : Nat := 0x108
/-- CHIP.CAP3 -/
abbrev Reg.chipCap3 : Nat := 0x10c
/-- CHIP.LOCK -/
abbrev Reg.chipLock : Nat := 0x40
/-- CHIP.TIME_LO -/
abbrev Reg.chipTimeLo : Nat := 0x200
/-- CHIP.TIME_HI -/
abbrev Reg.chipTimeHi : Nat := 0x204
/-- CHIP.TK_STATUS -/
abbrev Reg.chipTkStatus : Nat := 0x208
/-- CHIP.TK_TRIM -/
abbrev Reg.chipTkTrim : Nat := 0x20c
/-- CHIP.ECL_CTL -/
abbrev Reg.chipEclCtl : Nat := 0x400
/-- CHIP.PTM_CTL -/
abbrev Reg.chipPtmCtl : Nat := 0x220
/-- CHIP.PTM_SEQ -/
abbrev Reg.chipPtmSeq : Nat := 0x224
/-- CHIP.PTM_DEV_LO -/
abbrev Reg.chipPtmDevLo : Nat := 0x228
/-- CHIP.PTM_DEV_HI -/
abbrev Reg.chipPtmDevHi : Nat := 0x22c
/-- CHIP.PTM_HOST_LO -/
abbrev Reg.chipPtmHostLo : Nat := 0x230
/-- CHIP.PTM_HOST_HI -/
abbrev Reg.chipPtmHostHi : Nat := 0x234
/-- CHIP.PTM_LINKDLY -/
abbrev Reg.chipPtmLinkdly : Nat := 0x238
/-- QDn.QCTL.TO_CB -/
abbrev Reg.qdQctlToCb (n : Nat) : Nat := 0x100010 + n * 0x400000
/-- QDn.QCTL.TO_DRAIN -/
abbrev Reg.qdQctlToDrain (n : Nat) : Nat := 0x100014 + n * 0x400000
/-- CHIP.TO_STAGE -/
abbrev Reg.chipToStage : Nat := 0x300
/-- SESS.TABLE_BASE -/
abbrev Reg.sessTableBase : Nat := 0x1100000
/-- SESS.CACHE_CTL -/
abbrev Reg.sessCacheCtl : Nat := 0x1100004
/-- SESS.BATCH_TO -/
abbrev Reg.sessBatchTo : Nat := 0x1100008
/-- SESS.CNT_LIVE -/
abbrev Reg.sessCntLive : Nat := 0x1100010
/-- SESS.CNT_HOT -/
abbrev Reg.sessCntHot : Nat := 0x1100014
/-- SESS.CNT_PARKED -/
abbrev Reg.sessCntParked : Nat := 0x1100018
/-- SESS.CNT_MOVING -/
abbrev Reg.sessCntMoving : Nat := 0x110001c
/-- SESS.LEAKED_PAGES -/
abbrev Reg.sessLeakedPages : Nat := 0x1100020
/-- SESS.LEAKED_KIB -/
abbrev Reg.sessLeakedKib : Nat := 0x1100024
/-- SESS.LEDGER_CTL -/
abbrev Reg.sessLedgerCtl : Nat := 0x1100100
/-- SESS.LEDGER_STAT -/
abbrev Reg.sessLedgerStat : Nat := 0x1100104
/-- SESS.LEDGER_LAT -/
abbrev Reg.sessLedgerLat : Nat := 0x1100108
/-- SESS.LEDGER_UNITS -/
abbrev Reg.sessLedgerUnits : Nat := 0x110010c
/-- SESS.ADMIT_ACC -/
abbrev Reg.sessAdmitAcc : Nat := 0x1100110
/-- SESS.ADMIT_CAP -/
abbrev Reg.sessAdmitCap : Nat := 0x1100114
/-- SESS.ADMIT_STATE -/
abbrev Reg.sessAdmitState : Nat := 0x1100118
/-- SESS.ADMIT_RES -/
abbrev Reg.sessAdmitRes : Nat := 0x110011c
/-- SESS.LATE_CNT -/
abbrev Reg.sessLateCnt : Nat := 0x1100120
/-- SESS.CANCEL_CNT -/
abbrev Reg.sessCancelCnt : Nat := 0x1100124
/-- SESS.KV_SRKEY_LO -/
abbrev Reg.sessKvSrkeyLo : Nat := 0x1100200
/-- SESS.KV_SRKEY_HI -/
abbrev Reg.sessKvSrkeyHi : Nat := 0x1100204
/-- SESS.KV_CTL -/
abbrev Reg.sessKvCtl : Nat := 0x1100208
/-- SESS.KV_FADE -/
abbrev Reg.sessKvFade : Nat := 0x110020c
/-- SESS.KV_FADE2 -/
abbrev Reg.sessKvFade2 : Nat := 0x1100210
/-- SESS.KV_FADE_BUD -/
abbrev Reg.sessKvFadeBud : Nat := 0x1100214
/-- SESS.KV_COMP_PEND -/
abbrev Reg.sessKvCompPend : Nat := 0x1100218
/-- SESS.KV_COMP_CNT -/
abbrev Reg.sessKvCompCnt : Nat := 0x1100220
/-- SESS.KV_FADE3_CNT -/
abbrev Reg.sessKvFade3Cnt : Nat := 0x1100224
/-- SESS.KV_FADE2_CNT -/
abbrev Reg.sessKvFade2Cnt : Nat := 0x1100228
/-- SESS.KV_FADE_REJ -/
abbrev Reg.sessKvFadeRej : Nat := 0x110022c
/-- SESS.KV_NONFINITE -/
abbrev Reg.sessKvNonfinite : Nat := 0x1100230
/-- SESS.PFX_BASE -/
abbrev Reg.sessPfxBase : Nat := 0x1100240
/-- SESS.PFX_LIVE -/
abbrev Reg.sessPfxLive : Nat := 0x1100244
/-- QDn.AEaa.CTL -/
abbrev Reg.qdAeCtl (n : Nat) (a : Nat) : Nat := 0x200010 + n * 0x400000 + a * 0x10000
/-- QDn.AEaa.STAT -/
abbrev Reg.qdAeStat (n : Nat) (a : Nat) : Nat := 0x200014 + n * 0x400000 + a * 0x10000
/-- QDn.AEaa.TILES -/
abbrev Reg.qdAeTiles (n : Nat) (a : Nat) : Nat := 0x200018 + n * 0x400000 + a * 0x10000
/-- QDn.AEaa.REISSUE -/
abbrev Reg.qdAeReissue (n : Nat) (a : Nat) : Nat := 0x20001c + n * 0x400000 + a * 0x10000
/-- QDn.AEaa.ECC_CNT -/
abbrev Reg.qdAeEccCnt (n : Nat) (a : Nat) : Nat := 0x200020 + n * 0x400000 + a * 0x10000
/-- QDn.AEaa.NONFINITE -/
abbrev Reg.qdAeNonfinite (n : Nat) (a : Nat) : Nat := 0x200024 + n * 0x400000 + a * 0x10000
/-- QDn.MERGE.REDIRECT -/
abbrev Reg.qdMergeRedirect (n : Nat) : Nat := 0x180010 + n * 0x400000
/-- QDn.MERGE.HELD -/
abbrev Reg.qdMergeHeld (n : Nat) : Nat := 0x180014 + n * 0x400000
/-- QDn.MERGE.COUNT -/
abbrev Reg.qdMergeCount (n : Nat) : Nat := 0x180018 + n * 0x400000
/-- SESS.ATTN_CTL -/
abbrev Reg.sessAttnCtl : Nat := 0x1100300
/-- SESS.ORBIT_CTL -/
abbrev Reg.sessOrbitCtl : Nat := 0x1100310
/-- SESS.ORBIT_TO -/
abbrev Reg.sessOrbitTo : Nat := 0x1100314
/-- SESS.ORBITk_STAT -/
abbrev Reg.sessOrbitStat (k : Nat) : Nat := 0x1100320 + k * 0x4
/-- SESS.ORBIT_BREAK_CNT -/
abbrev Reg.sessOrbitBreakCnt : Nat := 0x1100330
/-- SESS.ATTN_DEGR -/
abbrev Reg.sessAttnDegr : Nat := 0x1100334
/-- SESS.GSL_BASE -/
abbrev Reg.sessGslBase : Nat := 0x1100500
/-- SESS.GSL_SIZE -/
abbrev Reg.sessGslSize : Nat := 0x1100504
/-- SESS.PTA_BASE -/
abbrev Reg.sessPtaBase : Nat := 0x1100508
/-- SESS.PTA_SIZE -/
abbrev Reg.sessPtaSize : Nat := 0x110050c
/-- SESS.AREA_FREE -/
abbrev Reg.sessAreaFree : Nat := 0x1100510
/-- QDn.SRAM.PART_A -/
abbrev Reg.qdSramPartA (n : Nat) : Nat := 0x130010 + n * 0x400000
/-- QDn.SRAM.PART_B -/
abbrev Reg.qdSramPartB (n : Nat) : Nat := 0x130014 + n * 0x400000
/-- QDn.SRAM.PART_C -/
abbrev Reg.qdSramPartC (n : Nat) : Nat := 0x130018 + n * 0x400000
/-- QDn.SRAM.PIN_USED -/
abbrev Reg.qdSramPinUsed (n : Nat) : Nat := 0x13001c + n * 0x400000
/-- SESS.MANIFEST_BASE -/
abbrev Reg.sessManifestBase : Nat := 0x1100400
/-- SESS.POOL_WATER -/
abbrev Reg.sessPoolWater : Nat := 0x1100404
/-- SESS.POOL_SLOTS -/
abbrev Reg.sessPoolSlots : Nat := 0x1100408
/-- SESS.POOL_FREE -/
abbrev Reg.sessPoolFree : Nat := 0x110040c
/-- SESS.POOL_RSVD -/
abbrev Reg.sessPoolRsvd : Nat := 0x1100410
/-- SESS.MOVE_CTL -/
abbrev Reg.sessMoveCtl : Nat := 0x1100414
/-- SESS.MOVE_TO -/
abbrev Reg.sessMoveTo : Nat := 0x1100418
/-- SESS.LEND_CTL -/
abbrev Reg.sessLendCtl : Nat := 0x110041c
/-- SESS.LEND_OUT -/
abbrev Reg.sessLendOut : Nat := 0x1100420
/-- SESS.LEND_IN -/
abbrev Reg.sessLendIn : Nat := 0x1100424
/-- SESS.RETIRE_CTL -/
abbrev Reg.sessRetireCtl : Nat := 0x1100428
/-- SESS.RETIRED -/
abbrev Reg.sessRetired : Nat := 0x110042c
/-- SESS.AUTOPARK_CNT -/
abbrev Reg.sessAutoparkCnt : Nat := 0x1100430
/-- SESS.REVOKE_CNT -/
abbrev Reg.sessRevokeCnt : Nat := 0x1100434
/-- SESS.EVICT_LATE -/
abbrev Reg.sessEvictLate : Nat := 0x1100438
/-- SESS.MOVE_UNRES -/
abbrev Reg.sessMoveUnres : Nat := 0x110043c
/-- SESS.PARK_CNT -/
abbrev Reg.sessParkCnt : Nat := 0x1100440
/-- SESS.REVIVE_CNT -/
abbrev Reg.sessReviveCnt : Nat := 0x1100444
/-- TAIL.STORE -/
abbrev Reg.tailStore : Nat := 0x1200000
/-- TAIL.VAR_CTL -/
abbrev Reg.tailVarCtl : Nat := 0x1200004
/-- TAIL.SHADOW_BASE -/
abbrev Reg.tailShadowBase : Nat := 0x1200008
/-- TAIL.HOOK_CTL -/
abbrev Reg.tailHookCtl : Nat := 0x120000c
/-- TAIL.PIPE_STAT -/
abbrev Reg.tailPipeStat : Nat := 0x1200010
/-- TAIL.PIPE_CTL -/
abbrev Reg.tailPipeCtl : Nat := 0x1200014
/-- TAIL.LOADED -/
abbrev Reg.tailLoaded : Nat := 0x1200018
/-- TAIL.MASK_HIT -/
abbrev Reg.tailMaskHit : Nat := 0x1200020
/-- TAIL.MASK_MISS -/
abbrev Reg.tailMaskMiss : Nat := 0x1200024
/-- TAIL.MASK_PREFETCH -/
abbrev Reg.tailMaskPrefetch : Nat := 0x1200028
/-- TAIL.DEAD_CNT -/
abbrev Reg.tailDeadCnt : Nat := 0x120002c
/-- TAIL.STOP_CNT -/
abbrev Reg.tailStopCnt : Nat := 0x1200030
/-- TAIL.FORCE_CNT -/
abbrev Reg.tailForceCnt : Nat := 0x1200034
/-- TAIL.FORCE_BROKEN -/
abbrev Reg.tailForceBroken : Nat := 0x1200038
/-- TAIL.HOOK_LATE -/
abbrev Reg.tailHookLate : Nat := 0x120003c
/-- TAIL.HOOK_REJECT -/
abbrev Reg.tailHookReject : Nat := 0x1200040
/-- TAIL.NONFINITE -/
abbrev Reg.tailNonfinite : Nat := 0x1200044
/-- TAIL.TRUNC_CNT -/
abbrev Reg.tailTruncCnt : Nat := 0x1200048
/-- TAIL.PARTIAL_CNT -/
abbrev Reg.tailPartialCnt : Nat := 0x120004c
/-- TAIL.REISSUE -/
abbrev Reg.tailReissue : Nat := 0x1200050
/-- TAIL.MCACHE_ECC -/
abbrev Reg.tailMcacheEcc : Nat := 0x1200054
/-- TEXT.AREA_BASE -/
abbrev Reg.textAreaBase : Nat := 0x1300000
/-- TEXT.TOK_STAT -/
abbrev Reg.textTokStat : Nat := 0x1300004
/-- TEXT.IN_CTL -/
abbrev Reg.textInCtl : Nat := 0x1300008
/-- TEXT.ENG_STAT -/
abbrev Reg.textEngStat : Nat := 0x130000c
/-- TEXT.ENG_CTL -/
abbrev Reg.textEngCtl : Nat := 0x1300010
/-- TEXT.STREAMS -/
abbrev Reg.textStreams : Nat := 0x1300014
/-- TEXT.IN_BYTES -/
abbrev Reg.textInBytes : Nat := 0x1300020
/-- TEXT.ESC_CNT -/
abbrev Reg.textEscCnt : Nat := 0x1300024
/-- TEXT.INVALID_IN -/
abbrev Reg.textInvalidIn : Nat := 0x1300028
/-- TEXT.CTRL_INS -/
abbrev Reg.textCtrlIns : Nat := 0x130002c
/-- TEXT.OUT_BYTES -/
abbrev Reg.textOutBytes : Nat := 0x1300030
/-- TEXT.FFFD_CNT -/
abbrev Reg.textFffdCnt : Nat := 0x1300034
/-- TEXT.OUT_DROP -/
abbrev Reg.textOutDrop : Nat := 0x1300038
/-- TEXT.OUT_UNBOUND -/
abbrev Reg.textOutUnbound : Nat := 0x130003c
/-- TEXT.REISSUE -/
abbrev Reg.textReissue : Nat := 0x1300040
/-- RECALL.AREA -/
abbrev Reg.recallArea : Nat := 0x1400000
/-- RECALL.CTL -/
abbrev Reg.recallCtl : Nat := 0x1400004
/-- RECALL.FOLD -/
abbrev Reg.recallFold : Nat := 0x1400008
/-- RECALL.EXT_FREE -/
abbrev Reg.recallExtFree : Nat := 0x140000c
/-- RECALL.STAT -/
abbrev Reg.recallStat : Nat := 0x1400010
/-- RECALL.ENG_CTL -/
abbrev Reg.recallEngCtl : Nat := 0x1400014
/-- RECALL.QUERIES -/
abbrev Reg.recallQueries : Nat := 0x1400020
/-- RECALL.PARTIAL -/
abbrev Reg.recallPartial : Nat := 0x1400024
/-- RECALL.WIDENED -/
abbrev Reg.recallWidened : Nat := 0x1400028
/-- RECALL.INSERTED -/
abbrev Reg.recallInserted : Nat := 0x140002c
/-- RECALL.DELETED -/
abbrev Reg.recallDeleted : Nat := 0x1400030
/-- RECALL.PUBLISHED -/
abbrev Reg.recallPublished : Nat := 0x1400034
/-- RECALL.DEDUP -/
abbrev Reg.recallDedup : Nat := 0x1400038
/-- RECALL.BAD_ROWS -/
abbrev Reg.recallBadRows : Nat := 0x140003c
/-- RECALL.REISSUE -/
abbrev Reg.recallReissue : Nat := 0x1400040
/-- CKPT.CTL -/
abbrev Reg.ckptCtl : Nat := 0x1500000
/-- CKPT.WARN_CTL -/
abbrev Reg.ckptWarnCtl : Nat := 0x1500004
/-- CKPT.WARN_SRC -/
abbrev Reg.ckptWarnSrc : Nat := 0x1500008
/-- CKPT.BUF_BASE -/
abbrev Reg.ckptBufBase : Nat := 0x150000c
/-- CKPT.JOURNAL -/
abbrev Reg.ckptJournal : Nat := 0x1500010
/-- CKPT.RUN_TO -/
abbrev Reg.ckptRunTo : Nat := 0x1500014
/-- CKPT.EPOCH_LO -/
abbrev Reg.ckptEpochLo : Nat := 0x1500020
/-- CKPT.EPOCH_HI -/
abbrev Reg.ckptEpochHi : Nat := 0x1500024
/-- CKPT.FULL_LO -/
abbrev Reg.ckptFullLo : Nat := 0x1500028
/-- CKPT.FULL_HI -/
abbrev Reg.ckptFullHi : Nat := 0x150002c
/-- CKPT.RUN_STAT -/
abbrev Reg.ckptRunStat : Nat := 0x1500030
/-- CKPT.SHAPE -/
abbrev Reg.ckptShape : Nat := 0x1500034
/-- CKPT.RUNS -/
abbrev Reg.ckptRuns : Nat := 0x1500040
/-- CKPT.ABANDONED -/
abbrev Reg.ckptAbandoned : Nat := 0x1500044
/-- CKPT.WARN_CNT -/
abbrev Reg.ckptWarnCnt : Nat := 0x1500048
/-- CKPT.SCHED_SKIP -/
abbrev Reg.ckptSchedSkip : Nat := 0x150004c
/-- CKPT.JOURNAL_OVF -/
abbrev Reg.ckptJournalOvf : Nat := 0x1500050
/-- CKPT.SKIPPED -/
abbrev Reg.ckptSkipped : Nat := 0x1500054
/-- CKPT.IGNORED -/
abbrev Reg.ckptIgnored : Nat := 0x1500058
/-- CKPT.RESTORED -/
abbrev Reg.ckptRestored : Nat := 0x150005c
/-- CKPT.RING_FAIL -/
abbrev Reg.ckptRingFail : Nat := 0x1500060
/-- CVFn.CTL -/
abbrev Reg.cvfCtl (n : Nat) : Nat := 0x1600010 + n * 0x20000
/-- CVFn.STAT -/
abbrev Reg.cvfStat (n : Nat) : Nat := 0x1600014 + n * 0x20000
/-- CVFn.PEER -/
abbrev Reg.cvfPeer (n : Nat) : Nat := 0x1600018 + n * 0x20000
/-- CVFn.TOFS_LO -/
abbrev Reg.cvfTofsLo (n : Nat) : Nat := 0x1600020 + n * 0x20000
/-- CVFn.TOFS_HI -/
abbrev Reg.cvfTofsHi (n : Nat) : Nat := 0x1600024 + n * 0x20000
/-- CVFn.TSYNC -/
abbrev Reg.cvfTsync (n : Nat) : Nat := 0x1600028 + n * 0x20000
/-- CVFn.RETRY_CTL -/
abbrev Reg.cvfRetryCtl (n : Nat) : Nat := 0x1600030 + n * 0x20000
/-- CVFn.RETRY_CNT -/
abbrev Reg.cvfRetryCnt (n : Nat) : Nat := 0x1600040 + n * 0x20000
/-- CVFn.CRC_ERR -/
abbrev Reg.cvfCrcErr (n : Nat) : Nat := 0x1600044 + n * 0x20000
/-- CVFn.FEC_CORR -/
abbrev Reg.cvfFecCorr (n : Nat) : Nat := 0x1600048 + n * 0x20000
/-- CVFn.FEC_UNC -/
abbrev Reg.cvfFecUnc (n : Nat) : Nat := 0x160004c + n * 0x20000
/-- CVFn.LANE_DROP -/
abbrev Reg.cvfLaneDrop (n : Nat) : Nat := 0x1600050 + n * 0x20000
/-- CVFn.LINK_DOWN -/
abbrev Reg.cvfLinkDown (n : Nat) : Nat := 0x1600054 + n * 0x20000
/-- CVFn.AUTH_FAIL -/
abbrev Reg.cvfAuthFail (n : Nat) : Nat := 0x1600058 + n * 0x20000
/-- CVFn.RX_DISCARD -/
abbrev Reg.cvfRxDiscard (n : Nat) : Nat := 0x160005c + n * 0x20000
/-- CVFn.SHAPE_CTL -/
abbrev Reg.cvfShapeCtl (n : Nat) : Nat := 0x1600100 + n * 0x20000
/-- CVFn.TB_RATEc -/
abbrev Reg.cvfTbRate (n : Nat) (c : Nat) : Nat := 0x1600200 + n * 0x20000 + c * 0x20
/-- CVFn.TB_BURSTc -/
abbrev Reg.cvfTbBurst (n : Nat) (c : Nat) : Nat := 0x1600204 + n * 0x20000 + c * 0x20
/-- CVFn.TB_TOKENSc -/
abbrev Reg.cvfTbTokens (n : Nat) (c : Nat) : Nat := 0x1600208 + n * 0x20000 + c * 0x20
/-- CVFn.QUANTA_Ac -/
abbrev Reg.cvfQuantaA (n : Nat) (c : Nat) : Nat := 0x160020c + n * 0x20000 + c * 0x20
/-- CVFn.QUANTA_Bc -/
abbrev Reg.cvfQuantaB (n : Nat) (c : Nat) : Nat := 0x1600210 + n * 0x20000 + c * 0x20
/-- CVFn.TX_KIBc -/
abbrev Reg.cvfTxKib (n : Nat) (c : Nat) : Nat := 0x1600214 + n * 0x20000 + c * 0x20
/-- CVFn.TX_FRAMESc -/
abbrev Reg.cvfTxFrames (n : Nat) (c : Nat) : Nat := 0x1600218 + n * 0x20000 + c * 0x20
/-- CVFn.RX_KIBc -/
abbrev Reg.cvfRxKib (n : Nat) (c : Nat) : Nat := 0x160021c + n * 0x20000 + c * 0x20
/-- CVFn.POL_SRCe -/
abbrev Reg.cvfPolSrc (n : Nat) (e : Nat) : Nat := 0x1600400 + n * 0x20000 + e * 0x10
/-- CVFn.POL_RATEe -/
abbrev Reg.cvfPolRate (n : Nat) (e : Nat) : Nat := 0x1600404 + n * 0x20000 + e * 0x10
/-- CVFn.POL_BURSTe -/
abbrev Reg.cvfPolBurst (n : Nat) (e : Nat) : Nat := 0x1600408 + n * 0x20000 + e * 0x10
/-- CVFn.POL_DROPe -/
abbrev Reg.cvfPolDrop (n : Nat) (e : Nat) : Nat := 0x160040c + n * 0x20000 + e * 0x10
/-- CVFn.QS_DEPTHcq -/
abbrev Reg.cvfQsDepth (n : Nat) (c : Nat) (q : Nat) : Nat := 0x1600800 + n * 0x20000 + c * 0x90 + q * 0x10
/-- CVFn.QS_DMAXcq -/
abbrev Reg.cvfQsDmax (n : Nat) (c : Nat) (q : Nat) : Nat := 0x1600804 + n * 0x20000 + c * 0x90 + q * 0x10
/-- CVFn.QS_DELAYcq -/
abbrev Reg.cvfQsDelay (n : Nat) (c : Nat) (q : Nat) : Nat := 0x1600808 + n * 0x20000 + c * 0x90 + q * 0x10
/-- CVFn.QS_LMAXcq -/
abbrev Reg.cvfQsLmax (n : Nat) (c : Nat) (q : Nat) : Nat := 0x160080c + n * 0x20000 + c * 0x90 + q * 0x10
/-- CVF0.FAB.FAB_ID -/
abbrev Reg.fabFabId : Nat := 0x1610000
/-- CVF0.FAB.FAB_CTL -/
abbrev Reg.fabFabCtl : Nat := 0x1610004
/-- CVF0.FAB.FWD_FRAMES -/
abbrev Reg.fabFwdFrames : Nat := 0x1610100
/-- CVF0.FAB.NO_ROUTE -/
abbrev Reg.fabNoRoute : Nat := 0x1610104
/-- CVF0.FAB.HOPS_OUT -/
abbrev Reg.fabHopsOut : Nat := 0x1610108
/-- CVF0.FAB.ROUTE_NODEk -/
abbrev Reg.fabRouteNode (k : Nat) : Nat := 0x1611000 + k * 0x4
/-- CVF0.FAB.ROUTE_POSk -/
abbrev Reg.fabRoutePos (k : Nat) : Nat := 0x1613000 + k * 0x4
/-- CVF0.FAB.WINw -/
abbrev Reg.fabWin (w : Nat) : Nat := 0x1614000 + w * 0x4
/-- MBOX.Mm.H2D_DATA -/
abbrev Reg.mboxH2dData (m : Nat) : Nat := 0x1c00000 + m * 0x100
/-- MBOX.Mm.H2D_STAT -/
abbrev Reg.mboxH2dStat (m : Nat) : Nat := 0x1c00004 + m * 0x100
/-- MBOX.Mm.D2H_DATA -/
abbrev Reg.mboxD2hData (m : Nat) : Nat := 0x1c00008 + m * 0x100
/-- MBOX.Mm.D2H_STAT -/
abbrev Reg.mboxD2hStat (m : Nat) : Nat := 0x1c0000c + m * 0x100
/-- HIF.STAT -/
abbrev Reg.hifStat : Nat := 0x1800000
/-- HIF.RING_BASE -/
abbrev Reg.hifRingBase : Nat := 0x1800004
/-- HIF.WIN_BASE -/
abbrev Reg.hifWinBase : Nat := 0x1800008
/-- HIF.ADMIN_SQ -/
abbrev Reg.hifAdminSq : Nat := 0x1800010
/-- HIF.ADMIN_CQ -/
abbrev Reg.hifAdminCq : Nat := 0x1800014
/-- HIF.ADMIN_CTL -/
abbrev Reg.hifAdminCtl : Nat := 0x1800018
/-- HIF.EVT_CTL -/
abbrev Reg.hifEvtCtl : Nat := 0x180001c
/-- HIF.HRQ_CTL -/
abbrev Reg.hifHrqCtl : Nat := 0x1800020
/-- HIF.METER_BASE -/
abbrev Reg.hifMeterBase : Nat := 0x1800024
/-- HIF.PP_STAT -/
abbrev Reg.hifPpStat : Nat := 0x1800028
/-- HIF.DB_STRAY -/
abbrev Reg.hifDbStray : Nat := 0x1800040
/-- HIF.EVT_LOST -/
abbrev Reg.hifEvtLost : Nat := 0x1800044
/-- HIF.HRQ_TIMEOUT -/
abbrev Reg.hifHrqTimeout : Nat := 0x1800048
/-- HIF.FETCHED -/
abbrev Reg.hifFetched : Nat := 0x180004c
/-- HIF.VEC_COALv -/
abbrev Reg.hifVecCoal (v : Nat) : Nat := 0x1820000 + v * 0x4
/-- HIF.SQ_STATq -/
abbrev Reg.hifSqStat (q : Nat) : Nat := 0x1830000 + q * 0x8
/-- HIF.CQ_STATq -/
abbrev Reg.hifCqStat (q : Nat) : Nat := 0x1830004 + q * 0x8
/-- BELT.PART_CTL -/
abbrev Reg.beltPartCtl : Nat := 0x1900000
/-- BELT.HEAP_BASE -/
abbrev Reg.beltHeapBase : Nat := 0x1900004
/-- BELT.HEAP_SIZE -/
abbrev Reg.beltHeapSize : Nat := 0x1900008
/-- BELT.WAIT_CTL -/
abbrev Reg.beltWaitCtl : Nat := 0x190000c
/-- BELT.STACKp_BASE -/
abbrev Reg.beltStackBase (p : Nat) : Nat := 0x1900010 + p * 0x8
/-- BELT.STACKp_SIZE -/
abbrev Reg.beltStackSize (p : Nat) : Nat := 0x1900014 + p * 0x8
/-- BELT.STAT -/
abbrev Reg.beltStat : Nat := 0x1900030
/-- BELT.CORE_OFFk -/
abbrev Reg.beltCoreOff (k : Nat) : Nat := 0x1900040 + k * 0x4
/-- BELT.SAVED -/
abbrev Reg.beltSaved : Nat := 0x1900050
/-- BELT.TASKS -/
abbrev Reg.beltTasks : Nat := 0x1900080
/-- BELT.PREEMPT -/
abbrev Reg.beltPreempt : Nat := 0x1900084
/-- BELT.HOOK_TASKS -/
abbrev Reg.beltHookTasks : Nat := 0x1900088
/-- BELT.HOOK_DROP -/
abbrev Reg.beltHookDrop : Nat := 0x190008c
/-- BELT.HOOK_FAULT -/
abbrev Reg.beltHookFault : Nat := 0x1900090
/-- BELT.LIFE_DROP -/
abbrev Reg.beltLifeDrop : Nat := 0x1900094
/-- BELT.TASK_FAULT -/
abbrev Reg.beltTaskFault : Nat := 0x1900098
/-- BELT.RESTORE_ERR -/
abbrev Reg.beltRestoreErr : Nat := 0x190009c
/-- BELT.WINpw_LO -/
abbrev Reg.beltWinLo (p : Nat) (w : Nat) : Nat := 0x1900100 + p * 0x100 + w * 0x10
/-- BELT.WINpw_HI -/
abbrev Reg.beltWinHi (p : Nat) (w : Nat) : Nat := 0x1900104 + p * 0x100 + w * 0x10
/-- BELT.WINpw_SIZE -/
abbrev Reg.beltWinSize (p : Nat) (w : Nat) : Nat := 0x1900108 + p * 0x100 + w * 0x10
/-- BELT.WINpw_PERM -/
abbrev Reg.beltWinPerm (p : Nat) (w : Nat) : Nat := 0x190010c + p * 0x100 + w * 0x10
/-- CHIP.BOOT_STAT -/
abbrev Reg.chipBootStat : Nat := 0x500
/-- CHIP.BOOT_DETAIL -/
abbrev Reg.chipBootDetail : Nat := 0x504
/-- CHIP.BOOT_TIME -/
abbrev Reg.chipBootTime : Nat := 0x508
/-- CHIP.STRAPS -/
abbrev Reg.chipStraps : Nat := 0x50c
/-- CHIP.RST_CTL -/
abbrev Reg.chipRstCtl : Nat := 0x510
/-- CHIP.WDT_CTL -/
abbrev Reg.chipWdtCtl : Nat := 0x514
/-- CHIP.MCH_STAT -/
abbrev Reg.chipMchStat : Nat := 0x518
/-- CHIP.MCH_ERR -/
abbrev Reg.chipMchErr : Nat := 0x51c
/-- CHIP.FW_VER -/
abbrev Reg.chipFwVer : Nat := 0x520
/-- SEC.STAT -/
abbrev Reg.secStat : Nat := 0x1a00000
/-- SEC.LINK_DOMAIN -/
abbrev Reg.secLinkDomain : Nat := 0x1a00004
/-- SEC.EPOCH_LO -/
abbrev Reg.secEpochLo : Nat := 0x1a00008
/-- SEC.EPOCH_HI -/
abbrev Reg.secEpochHi : Nat := 0x1a0000c
/-- SEC.TENANT_LO -/
abbrev Reg.secTenantLo : Nat := 0x1a00010
/-- SEC.TENANT_HI -/
abbrev Reg.secTenantHi : Nat := 0x1a00014
/-- SEC.LINK_POL -/
abbrev Reg.secLinkPol : Nat := 0x1a00020
/-- SEC.ZERO_STAT -/
abbrev Reg.secZeroStat : Nat := 0x1a00024
/-- SEC.ZERO_DONE_LO -/
abbrev Reg.secZeroDoneLo : Nat := 0x1a00028
/-- SEC.ZERO_DONE_HI -/
abbrev Reg.secZeroDoneHi : Nat := 0x1a0002c
/-- SEC.MLOG -/
abbrev Reg.secMlog : Nat := 0x1a00030
/-- SEC.SWITCH_CNT -/
abbrev Reg.secSwitchCnt : Nat := 0x1a00040
/-- SEC.AUTH_FAIL -/
abbrev Reg.secAuthFail : Nat := 0x1a00044
/-- PMC.STAT -/
abbrev Reg.pmcStat : Nat := 0x1b00000
/-- PMC.VCTL -/
abbrev Reg.pmcVctl : Nat := 0x1b00004
/-- PMC.RAILn -/
abbrev Reg.pmcRail (n : Nat) : Nat := 0x1b00010 + n * 0x4
/-- PMC.PKG_LIMIT -/
abbrev Reg.pmcPkgLimit : Nat := 0x1b00020
/-- PMC.PKG_POWER -/
abbrev Reg.pmcPkgPower : Nat := 0x1b00024
/-- PMC.QTRIP -/
abbrev Reg.pmcQtrip : Nat := 0x1b00030
/-- PMC.STRIP -/
abbrev Reg.pmcStrip : Nat := 0x1b00034
/-- PMC.BULK_DUTY -/
abbrev Reg.pmcBulkDuty : Nat := 0x1b00038
/-- PMC.QTEMPn -/
abbrev Reg.pmcQtemp (n : Nat) : Nat := 0x1b00040 + n * 0x4
/-- PMC.STEMPs -/
abbrev Reg.pmcStemp (s : Nat) : Nat := 0x1b00080 + s * 0x4
/-- PMC.GATE -/
abbrev Reg.pmcGate : Nat := 0x1b000c0
/-- PMC.LEVEL2_CNT -/
abbrev Reg.pmcLevel2Cnt : Nat := 0x1b00100
/-- PMC.LEVEL3_CNT -/
abbrev Reg.pmcLevel3Cnt : Nat := 0x1b00104
/-- PMC.REFRESH2X_CNT -/
abbrev Reg.pmcRefresh2xCnt : Nat := 0x1b00108
/-- PMC.PKG_OVER -/
abbrev Reg.pmcPkgOver : Nat := 0x1b0010c
/-- PMC.BELOW_BOOST -/
abbrev Reg.pmcBelowBoost : Nat := 0x1b00110
/-- PMC.GATE_CNT -/
abbrev Reg.pmcGateCnt : Nat := 0x1b00114
/-- ERRLOG.CTL -/
abbrev Reg.errlogCtl : Nat := 0x1d00000
/-- ERRLOG.PEND -/
abbrev Reg.errlogPend : Nat := 0x1d00004
/-- ERRLOG.Lk_STAT -/
abbrev Reg.errlogLStat (k : Nat) : Nat := 0x1d00010 + k * 0x10
/-- ERRLOG.Lk_OVF -/
abbrev Reg.errlogLOvf (k : Nat) : Nat := 0x1d00014 + k * 0x10
/-- ERRLOG.Lk_LOST -/
abbrev Reg.errlogLLost (k : Nat) : Nat := 0x1d00018 + k * 0x10
/-- ERRLOG.Lk_RING -/
abbrev Reg.errlogLRing (k : Nat) : Nat := 0x1d0001c + k * 0x10
/-- ERRLOG.CE_CLASSc -/
abbrev Reg.errlogCeClass (c : Nat) : Nat := 0x1d00080 + c * 0x4
/-- ERRLOG.WARN_NOW -/
abbrev Reg.errlogWarnNow : Nat := 0x1d00090
/-- ERRLOG.CE_SEC -/
abbrev Reg.errlogCeSec : Nat := 0x1d00094
/-- ERRLOG.SCRUB_CTL -/
abbrev Reg.errlogScrubCtl : Nat := 0x1d000a0
/-- ERRLOG.SRAM_CTL -/
abbrev Reg.errlogSramCtl : Nat := 0x1d000a4
/-- ERRLOG.SRAM_RETIRED -/
abbrev Reg.errlogSramRetired : Nat := 0x1d000a8
/-- ERRLOG.BRST_CNT -/
abbrev Reg.errlogBrstCnt : Nat := 0x1d000b0
/-- ERRLOG.QRST_CNT -/
abbrev Reg.errlogQrstCnt : Nat := 0x1d000b4
/-- ERRLOG.QUAD_OFF -/
abbrev Reg.errlogQuadOff : Nat := 0x1d000b8
/-- ERRLOG.QRST_LIMIT -/
abbrev Reg.errlogQrstLimit : Nat := 0x1d000c0
/-- HIF.SHAPER.SHAPE_CTL -/
abbrev Reg.hpsShapeCtl : Nat := 0x1810100
/-- HIF.SHAPER.TB_RATE -/
abbrev Reg.hpsTbRate (c : Nat) : Nat := 0x1810200 + c * 0x20
/-- HIF.SHAPER.TB_BURST -/
abbrev Reg.hpsTbBurst (c : Nat) : Nat := 0x1810204 + c * 0x20
/-- HIF.SHAPER.TB_TOKENS -/
abbrev Reg.hpsTbTokens (c : Nat) : Nat := 0x1810208 + c * 0x20
/-- HIF.SHAPER.QUANTA_A -/
abbrev Reg.hpsQuantaA (c : Nat) : Nat := 0x181020c + c * 0x20
/-- HIF.SHAPER.QUANTA_B -/
abbrev Reg.hpsQuantaB (c : Nat) : Nat := 0x1810210 + c * 0x20
/-- HIF.SHAPER.TX_KIB -/
abbrev Reg.hpsTxKib (c : Nat) : Nat := 0x1810214 + c * 0x20
/-- HIF.SHAPER.TX_FRAMES -/
abbrev Reg.hpsTxFrames (c : Nat) : Nat := 0x1810218 + c * 0x20
/-- HIF.SHAPER.RX_KIB -/
abbrev Reg.hpsRxKib (c : Nat) : Nat := 0x181021c + c * 0x20
/-- HIF.SHAPER.QS_DEPTH -/
abbrev Reg.hpsQsDepth (c : Nat) (q : Nat) : Nat := 0x1810800 + c * 0x90 + q * 0x10
/-- HIF.SHAPER.QS_DMAX -/
abbrev Reg.hpsQsDmax (c : Nat) (q : Nat) : Nat := 0x1810804 + c * 0x90 + q * 0x10
/-- HIF.SHAPER.QS_DELAY -/
abbrev Reg.hpsQsDelay (c : Nat) (q : Nat) : Nat := 0x1810808 + c * 0x90 + q * 0x10
/-- HIF.SHAPER.QS_LMAX -/
abbrev Reg.hpsQsLmax (c : Nat) (q : Nat) : Nat := 0x181080c + c * 0x90 + q * 0x10
/-- MSI-X table address low -/
abbrev Reg.msixAddrLo (v : Nat) : Nat := 0x1880000 + v * 0x10
/-- MSI-X table address high -/
abbrev Reg.msixAddrHi (v : Nat) : Nat := 0x1880004 + v * 0x10
/-- MSI-X table data -/
abbrev Reg.msixData (v : Nat) : Nat := 0x1880008 + v * 0x10
/-- MSI-X vector control -/
abbrev Reg.msixCtrl (v : Nat) : Nat := 0x188000c + v * 0x10
/-- MSI-X PBA -/
abbrev Reg.msixPba (i : Nat) : Nat := 0x1890000 + i * 0x4
/-- QDn.AEaa.PACE -/
abbrev Reg.qdAePace (n : Nat) (a : Nat) : Nat := 0x200000 + n * 0x400000 + a * 0x10000
/-- QDn.AEaa.PACE_NOM -/
abbrev Reg.qdAePaceNom (n : Nat) (a : Nat) : Nat := 0x200004 + n * 0x400000 + a * 0x10000
/-- QDn.AEaa.PACE_FLOOR -/
abbrev Reg.qdAePaceFloor (n : Nat) (a : Nat) : Nat := 0x200008 + n * 0x400000 + a * 0x10000
/-- QDn.MERGE.PACE -/
abbrev Reg.qdMergePace (n : Nat) : Nat := 0x180000 + n * 0x400000
/-- QDn.MERGE.PACE_NOM -/
abbrev Reg.qdMergePaceNom (n : Nat) : Nat := 0x180004 + n * 0x400000
/-- QDn.MERGE.PACE_FLOOR -/
abbrev Reg.qdMergePaceFloor (n : Nat) : Nat := 0x180008 + n * 0x400000
/-- QDn.HSk.PACE -/
abbrev Reg.qdHsPace (n : Nat) (k : Nat) : Nat := 0x140000 + n * 0x400000 + k * 0x10000
/-- QDn.HSk.PACE_NOM -/
abbrev Reg.qdHsPaceNom (n : Nat) (k : Nat) : Nat := 0x140004 + n * 0x400000 + k * 0x10000
/-- QDn.HSk.PACE_FLOOR -/
abbrev Reg.qdHsPaceFloor (n : Nat) (k : Nat) : Nat := 0x140008 + n * 0x400000 + k * 0x10000
/-- QDn.HS0 score engine.PACE -/
abbrev Reg.qdScorePace (n : Nat) : Nat := 0x140100 + n * 0x400000
/-- QDn.HS0 score engine.PACE_NOM -/
abbrev Reg.qdScorePaceNom (n : Nat) : Nat := 0x140104 + n * 0x400000
/-- QDn.HS0 score engine.PACE_FLOOR -/
abbrev Reg.qdScorePaceFloor (n : Nat) : Nat := 0x140108 + n * 0x400000
/-- QDn.HS0.SCORE_PAGES -/
abbrev Reg.qdScorePages (n : Nat) : Nat := 0x140110 + n * 0x400000
/-- QDn.HSk scan engine.PACE -/
abbrev Reg.qdScanPace (n : Nat) (k : Nat) : Nat := 0x140120 + n * 0x400000 + k * 0x10000
/-- QDn.HSk scan engine.PACE_NOM -/
abbrev Reg.qdScanPaceNom (n : Nat) (k : Nat) : Nat := 0x140124 + n * 0x400000 + k * 0x10000
/-- QDn.HSk scan engine.PACE_FLOOR -/
abbrev Reg.qdScanPaceFloor (n : Nat) (k : Nat) : Nat := 0x140128 + n * 0x400000 + k * 0x10000
/-- QDn.HSk.SCAN_BEATS -/
abbrev Reg.qdScanBeats (n : Nat) (k : Nat) : Nat := 0x140130 + n * 0x400000 + k * 0x10000
/-- QDn.ECL.PACE -/
abbrev Reg.qdEclPace (n : Nat) : Nat := 0x190000 + n * 0x400000
/-- QDn.ECL.PACE_NOM -/
abbrev Reg.qdEclPaceNom (n : Nat) : Nat := 0x190004 + n * 0x400000
/-- QDn.ECL.PACE_FLOOR -/
abbrev Reg.qdEclPaceFloor (n : Nat) : Nat := 0x190008 + n * 0x400000
/-- TAIL.MASKp.PACE -/
abbrev Reg.tailMaskPace (p : Nat) : Nat := 0x1210000 + p * 0x10000
/-- TAIL.MASKp.PACE_NOM -/
abbrev Reg.tailMaskPaceNom (p : Nat) : Nat := 0x1210004 + p * 0x10000
/-- TAIL.MASKp.PACE_FLOOR -/
abbrev Reg.tailMaskPaceFloor (p : Nat) : Nat := 0x1210008 + p * 0x10000
/-- TAIL.TOPKp.PACE -/
abbrev Reg.tailTopkPace (p : Nat) : Nat := 0x1250000 + p * 0x10000
/-- TAIL.TOPKp.PACE_NOM -/
abbrev Reg.tailTopkPaceNom (p : Nat) : Nat := 0x1250004 + p * 0x10000
/-- TAIL.TOPKp.PACE_FLOOR -/
abbrev Reg.tailTopkPaceFloor (p : Nat) : Nat := 0x1250008 + p * 0x10000
/-- TAIL.SAMPp.PACE -/
abbrev Reg.tailSampPace (p : Nat) : Nat := 0x1290000 + p * 0x10000
/-- TAIL.SAMPp.PACE_NOM -/
abbrev Reg.tailSampPaceNom (p : Nat) : Nat := 0x1290004 + p * 0x10000
/-- TAIL.SAMPp.PACE_FLOOR -/
abbrev Reg.tailSampPaceFloor (p : Nat) : Nat := 0x1290008 + p * 0x10000
/-- TEXT.ENGe.PACE -/
abbrev Reg.textEngPace (e : Nat) : Nat := 0x1310000 + e * 0x10000
/-- TEXT.ENGe.PACE_NOM -/
abbrev Reg.textEngPaceNom (e : Nat) : Nat := 0x1310004 + e * 0x10000
/-- TEXT.ENGe.PACE_FLOOR -/
abbrev Reg.textEngPaceFloor (e : Nat) : Nat := 0x1310008 + e * 0x10000
/-- RECALL.QEq.PACE -/
abbrev Reg.recallQePace (q : Nat) : Nat := 0x1410000 + q * 0x10000
/-- RECALL.QEq.PACE_NOM -/
abbrev Reg.recallQePaceNom (q : Nat) : Nat := 0x1410004 + q * 0x10000
/-- RECALL.QEq.PACE_FLOOR -/
abbrev Reg.recallQePaceFloor (q : Nat) : Nat := 0x1410008 + q * 0x10000
/-- CVFn.PACE -/
abbrev Reg.cvfPace (n : Nat) : Nat := 0x1600000 + n * 0x20000
/-- CVFn.PACE_NOM -/
abbrev Reg.cvfPaceNom (n : Nat) : Nat := 0x1600004 + n * 0x20000
/-- CVFn.PACE_FLOOR -/
abbrev Reg.cvfPaceFloor (n : Nat) : Nat := 0x1600008 + n * 0x20000
/-- BELT core c.PACE -/
abbrev Reg.beltCorePace (c : Nat) : Nat := 0x1910000 + c * 0x1000
/-- BELT core c.PACE_NOM -/
abbrev Reg.beltCorePaceNom (c : Nat) : Nat := 0x1910004 + c * 0x1000
/-- BELT core c.PACE_FLOOR -/
abbrev Reg.beltCorePaceFloor (c : Nat) : Nat := 0x1910008 + c * 0x1000
/-- BELT core c.STAT -/
abbrev Reg.beltCoreStat (c : Nat) : Nat := 0x1910010 + c * 0x1000

/-- Rows 0 to 23 of the register map, one per definition above, in the same order. -/
def regRows0 : List RegRow := [
  ⟨0x100, [], 0x0, 0x0, 0x0, 0x0, 0x0, 0x0⟩,
  ⟨0x104, [], 0x0, 0x0, 0x0, 0x0, 0x0, 0x0⟩,
  ⟨0x108, [], 0x0, 0x0, 0x0, 0x0, 0x0, 0x0⟩,
  ⟨0x10c, [], 0x0, 0x0, 0x0, 0x0, 0x0, 0x0⟩,
  ⟨0x40, [], 0x0, 0x0, 0x0, 0x0, 0x1, 0x0⟩,
  ⟨0x200, [], 0x0, 0x0, 0x0, 0x0, 0x0, 0x0⟩,
  ⟨0x204, [], 0x0, 0x0, 0x0, 0x0, 0x0, 0x0⟩,
  ⟨0x208, [], 0x0, 0x0, 0x0, 0x4, 0x0, 0x0⟩,
  ⟨0x20c, [], 0x0, 0x0, 0x0, 0x0, 0x0, 0x0⟩,
  ⟨0x400, [], 0x1, 0x0, 0x7, 0x0, 0x0, 0x0⟩,
  ⟨0x220, [], 0xa00, 0xff01, 0x0, 0x0, 0x2, 0x0⟩,
  ⟨0x224, [], 0x0, 0x0, 0x0, 0x0, 0x0, 0x0⟩,
  ⟨0x228, [], 0x0, 0x0, 0x0, 0x0, 0x0, 0x0⟩,
  ⟨0x22c, [], 0x0, 0x0, 0x0, 0x0, 0x0, 0x0⟩,
  ⟨0x230, [], 0x0, 0x0, 0x0, 0x0, 0x0, 0x0⟩,
  ⟨0x234, [], 0x0, 0x0, 0x0, 0x0, 0x0, 0x0⟩,
  ⟨0x238, [], 0x0, 0x0, 0x0, 0x0, 0x0, 0x0⟩,
  ⟨0x100010, [(4, 0x400000)], 0x3207d0, 0x0, 0xffffffff, 0x0, 0x0, 0x0⟩,
  ⟨0x100014, [(4, 0x400000)], 0x1388, 0x0, 0xffff, 0x0, 0x0, 0x0⟩,
  ⟨0x300, [], 0x7d0, 0x0, 0xffff, 0x0, 0x0, 0x0⟩,
  ⟨0x1100000, [], 0x0, 0x0, 0x3ffff, 0x0, 0x0, 0x0⟩,
  ⟨0x1100004, [], 0x30, 0x0, 0xff, 0x0, 0x0, 0x0⟩,
  ⟨0x1100008, [], 0x3e8, 0x0, 0xffff, 0x0, 0x0, 0x0⟩,
  ⟨0x1100010, [], 0x0, 0x0, 0x0, 0x0, 0x0, 0x0⟩]
/-- Rows 24 to 47 of the register map, one per definition above, in the same order. -/
def regRows1 : List RegRow := [
  ⟨0x1100014, [], 0x0, 0x0, 0x0, 0x0, 0x0, 0x0⟩,
  ⟨0x1100018, [], 0x0, 0x0, 0x0, 0x0, 0x0, 0x0⟩,
  ⟨0x110001c, [], 0x0, 0x0, 0x0, 0x0, 0x0, 0x0⟩,
  ⟨0x1100020, [], 0x0, 0x0, 0x0, 0x0, 0x0, 0x0⟩,
  ⟨0x1100024, [], 0x0, 0x0, 0x0, 0x0, 0x0, 0x0⟩,
  ⟨0x1100100, [], 0x50050a, 0x0, 0xc0ffffff, 0x0, 0x0, 0x0⟩,
  ⟨0x1100104, [], 0x0, 0x0, 0x0, 0x0, 0x0, 0x0⟩,
  ⟨0x1100108, [], 0xfa01770, 0x0, 0x0, 0x0, 0x0, 0x0⟩,
  ⟨0x110010c, [], 0x40, 0x0, 0x0, 0x0, 0x0, 0x0⟩,
  ⟨0x1100110, [], 0x0, 0x0, 0x0, 0x0, 0x0, 0xffffffff⟩,
  ⟨0x1100114, [], 0x0, 0x0, 0x0, 0x0, 0x0, 0xffffffff⟩,
  ⟨0x1100118, [], 0x0, 0x0, 0x0, 0x0, 0x0, 0xffffffff⟩,
  ⟨0x110011c, [], 0x0, 0x0, 0x0, 0x0, 0x0, 0xffffffff⟩,
  ⟨0x1100120, [], 0x0, 0x0, 0x0, 0x0, 0x0, 0xffffffff⟩,
  ⟨0x1100124, [], 0x0, 0x0, 0x0, 0x0, 0x0, 0xffffffff⟩,
  ⟨0x1100200, [], 0x0, 0x0, 0xffffffff, 0x0, 0x0, 0x0⟩,
  ⟨0x1100204, [], 0x0, 0x0, 0xffffffff, 0x0, 0x0, 0x0⟩,
  ⟨0x1100208, [], 0x138, 0x0, 0x1ff, 0x0, 0x0, 0x0⟩,
  ⟨0x110020c, [], 0x258, 0x0, 0xc000ffff, 0x0, 0x0, 0x0⟩,
  ⟨0x1100210, [], 0xe10, 0x0, 0xffff, 0x0, 0x0, 0x0⟩,
  ⟨0x1100214, [], 0x3d4ccccd, 0x0, 0xffffffff, 0x0, 0x0, 0x0⟩,
  ⟨0x1100218, [], 0x0, 0x0, 0x0, 0x0, 0x0, 0x0⟩,
  ⟨0x1100220, [], 0x0, 0x0, 0x0, 0x0, 0x0, 0xffffffff⟩,
  ⟨0x1100224, [], 0x0, 0x0, 0x0, 0x0, 0x0, 0xffffffff⟩]
/-- Rows 48 to 71 of the register map, one per definition above, in the same order. -/
def regRows2 : List RegRow := [
  ⟨0x1100228, [], 0x0, 0x0, 0x0, 0x0, 0x0, 0xffffffff⟩,
  ⟨0x110022c, [], 0x0, 0x0, 0x0, 0x0, 0x0, 0xffffffff⟩,
  ⟨0x1100230, [], 0x0, 0x0, 0x0, 0x0, 0x0, 0xffffffff⟩,
  ⟨0x1100240, [], 0x0, 0x0, 0x3fffffff, 0x0, 0x0, 0x0⟩,
  ⟨0x1100244, [], 0x0, 0x0, 0x0, 0x0, 0x0, 0x0⟩,
  ⟨0x200010, [(4, 0x400000), (16, 0x10000)], 0x0, 0x0, 0x0, 0x0, 0x3, 0x0⟩,
  ⟨0x200014, [(4, 0x400000), (16, 0x10000)], 0x0, 0x0, 0x0, 0x0, 0x0, 0x0⟩,
  ⟨0x200018, [(4, 0x400000), (16, 0x10000)], 0x0, 0x0, 0x0, 0x0, 0x0, 0xffffffff⟩,
  ⟨0x20001c, [(4, 0x400000), (16, 0x10000)], 0x0, 0x0, 0x0, 0x0, 0x0, 0xffffffff⟩,
  ⟨0x200020, [(4, 0x400000), (16, 0x10000)], 0x0, 0x0, 0x0, 0x0, 0x0, 0xffffffff⟩,
  ⟨0x200024, [(4, 0x400000), (16, 0x10000)], 0x0, 0x0, 0x0, 0x0, 0x0, 0xffffffff⟩,
  ⟨0x180010, [(4, 0x400000)], 0x0, 0x0, 0x0, 0x0, 0x0, 0x0⟩,
  ⟨0x180014, [(4, 0x400000)], 0x0, 0x0, 0x0, 0x0, 0x0, 0x0⟩,
  ⟨0x180018, [(4, 0x400000)], 0x0, 0x0, 0x0, 0x0, 0x0, 0xffffffff⟩,
  ⟨0x1100300, [], 0x101401, 0x0, 0xffff01, 0x0, 0x0, 0x0⟩,
  ⟨0x1100310, [], 0x7d0, 0x0, 0xffffff, 0x0, 0x0, 0x0⟩,
  ⟨0x1100314, [], 0xa, 0x0, 0xffff, 0x0, 0x0, 0x0⟩,
  ⟨0x1100320, [(4, 0x4)], 0x0, 0x0, 0x0, 0x0, 0x0, 0x0⟩,
  ⟨0x1100330, [], 0x0, 0x0, 0x0, 0x0, 0x0, 0xffffffff⟩,
  ⟨0x1100334, [], 0x0, 0x0, 0x0, 0x0, 0x0, 0xffffffff⟩,
  ⟨0x1100500, [], 0x0, 0x0, 0x3ffff, 0x0, 0x0, 0x0⟩,
  ⟨0x1100504, [], 0x1, 0x0, 0xffff, 0x0, 0x0, 0x0⟩,
  ⟨0x1100508, [], 0x0, 0x0, 0x3ffff, 0x0, 0x0, 0x0⟩,
  ⟨0x110050c, [], 0x4, 0x0, 0xffff, 0x0, 0x0, 0x0⟩]
/-- Rows 72 to 95 of the register map, one per definition above, in the same order. -/
def regRows3 : List RegRow := [
  ⟨0x1100510, [], 0x0, 0x0, 0x0, 0x0, 0x0, 0x0⟩,
  ⟨0x130010, [(4, 0x400000)], 0x40203030, 0x0, 0xffffffff, 0x0, 0x0, 0x0⟩,
  ⟨0x130014, [(4, 0x400000)], 0x810, 0x0, 0x0, 0x0, 0x0, 0x0⟩,
  ⟨0x130018, [(4, 0x400000)], 0xa8, 0x0, 0x0, 0x0, 0x0, 0x0⟩,
  ⟨0x13001c, [(4, 0x400000)], 0x0, 0x0, 0x0, 0x0, 0x0, 0x0⟩,
  ⟨0x1100400, [], 0x0, 0x0, 0x3ffff, 0x0, 0x0, 0x0⟩,
  ⟨0x1100404, [], 0x1e0f0a05, 0x0, 0xffffffff, 0x0, 0x0, 0x0⟩,
  ⟨0x1100408, [], 0x0, 0x0, 0x0, 0x0, 0x0, 0x0⟩,
  ⟨0x110040c, [], 0x0, 0x0, 0x0, 0x0, 0x0, 0x0⟩,
  ⟨0x1100410, [], 0x0, 0x0, 0x0, 0x0, 0x0, 0x0⟩,
  ⟨0x1100414, [], 0x342, 0x0, 0x8000ff77, 0x0, 0x0, 0x0⟩,
  ⟨0x1100418, [], 0x3e80064, 0x0, 0xffffffff, 0x0, 0x0, 0x0⟩,
  ⟨0x110041c, [], 0x0, 0x0, 0xc000ffff, 0x0, 0x0, 0x0⟩,
  ⟨0x1100420, [], 0x0, 0x0, 0x0, 0x0, 0x0, 0x0⟩,
  ⟨0x1100424, [], 0x0, 0x0, 0x0, 0x0, 0x0, 0x0⟩,
  ⟨0x1100428, [], 0xe100010, 0x0, 0xffff00ff, 0x0, 0x0, 0x0⟩,
  ⟨0x110042c, [], 0x0, 0x0, 0x0, 0x0, 0x0, 0x0⟩,
  ⟨0x1100430, [], 0x0, 0x0, 0x0, 0x0, 0x0, 0xffffffff⟩,
  ⟨0x1100434, [], 0x0, 0x0, 0x0, 0x0, 0x0, 0xffffffff⟩,
  ⟨0x1100438, [], 0x0, 0x0, 0x0, 0x0, 0x0, 0xffffffff⟩,
  ⟨0x110043c, [], 0x0, 0x0, 0x0, 0x0, 0x0, 0xffffffff⟩,
  ⟨0x1100440, [], 0x0, 0x0, 0x0, 0x0, 0x0, 0xffffffff⟩,
  ⟨0x1100444, [], 0x0, 0x0, 0x0, 0x0, 0x0, 0xffffffff⟩,
  ⟨0x1200000, [], 0x0, 0x0, 0x0, 0x0, 0x0, 0x0⟩]
/-- Rows 96 to 119 of the register map, one per definition above, in the same order. -/
def regRows4 : List RegRow := [
  ⟨0x1200004, [], 0x40, 0x0, 0xff, 0x0, 0x0, 0x0⟩,
  ⟨0x1200008, [], 0x0, 0x0, 0x3ffff, 0x0, 0x0, 0x0⟩,
  ⟨0x120000c, [], 0xfa0, 0x0, 0xffff, 0x0, 0x0, 0x0⟩,
  ⟨0x1200010, [], 0x0, 0x0, 0x0, 0x0, 0x0, 0x0⟩,
  ⟨0x1200014, [], 0x0, 0x0, 0x0, 0x0, 0xff, 0x0⟩,
  ⟨0x1200018, [], 0x0, 0x0, 0x0, 0x0, 0x0, 0x0⟩,
  ⟨0x1200020, [], 0x0, 0x0, 0x0, 0x0, 0x0, 0xffffffff⟩,
  ⟨0x1200024, [], 0x0, 0x0, 0x0, 0x0, 0x0, 0xffffffff⟩,
  ⟨0x1200028, [], 0x0, 0x0, 0x0, 0x0, 0x0, 0xffffffff⟩,
  ⟨0x120002c, [], 0x0, 0x0, 0x0, 0x0, 0x0, 0xffffffff⟩,
  ⟨0x1200030, [], 0x0, 0x0, 0x0, 0x0, 0x0, 0xffffffff⟩,
  ⟨0x1200034, [], 0x0, 0x0, 0x0, 0x0, 0x0, 0xffffffff⟩,
  ⟨0x1200038, [], 0x0, 0x0, 0x0, 0x0, 0x0, 0xffffffff⟩,
  ⟨0x120003c, [], 0x0, 0x0, 0x0, 0x0, 0x0, 0xffffffff⟩,
  ⟨0x1200040, [], 0x0, 0x0, 0x0, 0x0, 0x0, 0xffffffff⟩,
  ⟨0x1200044, [], 0x0, 0x0, 0x0, 0x0, 0x0, 0xffffffff⟩,
  ⟨0x1200048, [], 0x0, 0x0, 0x0, 0x0, 0x0, 0xffffffff⟩,
  ⟨0x120004c, [], 0x0, 0x0, 0x0, 0x0, 0x0, 0xffffffff⟩,
  ⟨0x1200050, [], 0x0, 0x0, 0x0, 0x0, 0x0, 0xffffffff⟩,
  ⟨0x1200054, [], 0x0, 0x0, 0x0, 0x0, 0x0, 0xffffffff⟩,
  ⟨0x1300000, [], 0x0, 0x0, 0x3ffff, 0x0, 0x0, 0x0⟩,
  ⟨0x1300004, [], 0x0, 0x0, 0x0, 0x0, 0x0, 0x0⟩,
  ⟨0x1300008, [], 0x0, 0x0, 0x1, 0x0, 0x0, 0x0⟩,
  ⟨0x130000c, [], 0x0, 0x0, 0x0, 0x0, 0x0, 0x0⟩]
/-- Rows 120 to 143 of the register map, one per definition above, in the same order. -/
def regRows5 : List RegRow := [
  ⟨0x1300010, [], 0x0, 0x0, 0x0, 0x0, 0xffff, 0x0⟩,
  ⟨0x1300014, [], 0x0, 0x0, 0x0, 0x0, 0x0, 0x0⟩,
  ⟨0x1300020, [], 0x0, 0x0, 0x0, 0x0, 0x0, 0xffffffff⟩,
  ⟨0x1300024, [], 0x0, 0x0, 0x0, 0x0, 0x0, 0xffffffff⟩,
  ⟨0x1300028, [], 0x0, 0x0, 0x0, 0x0, 0x0, 0xffffffff⟩,
  ⟨0x130002c, [], 0x0, 0x0, 0x0, 0x0, 0x0, 0xffffffff⟩,
  ⟨0x1300030, [], 0x0, 0x0, 0x0, 0x0, 0x0, 0xffffffff⟩,
  ⟨0x1300034, [], 0x0, 0x0, 0x0, 0x0, 0x0, 0xffffffff⟩,
  ⟨0x1300038, [], 0x0, 0x0, 0x0, 0x0, 0x0, 0xffffffff⟩,
  ⟨0x130003c, [], 0x0, 0x0, 0x0, 0x0, 0x0, 0xffffffff⟩,
  ⟨0x1300040, [], 0x0, 0x0, 0x0, 0x0, 0x0, 0xffffffff⟩,
  ⟨0x1400000, [], 0x0, 0x0, 0xff, 0x0, 0x0, 0x0⟩,
  ⟨0x1400004, [], 0x3e83219, 0x0, 0xffffffff, 0x0, 0x0, 0x0⟩,
  ⟨0x1400008, [], 0x1000, 0x0, 0xffffffff, 0x0, 0x0, 0x0⟩,
  ⟨0x140000c, [], 0x0, 0x0, 0x0, 0x0, 0x0, 0x0⟩,
  ⟨0x1400010, [], 0x0, 0x0, 0x0, 0x0, 0x0, 0x0⟩,
  ⟨0x1400014, [], 0x0, 0x0, 0x0, 0x0, 0xff, 0x0⟩,
  ⟨0x1400020, [], 0x0, 0x0, 0x0, 0x0, 0x0, 0xffffffff⟩,
  ⟨0x1400024, [], 0x0, 0x0, 0x0, 0x0, 0x0, 0xffffffff⟩,
  ⟨0x1400028, [], 0x0, 0x0, 0x0, 0x0, 0x0, 0xffffffff⟩,
  ⟨0x140002c, [], 0x0, 0x0, 0x0, 0x0, 0x0, 0xffffffff⟩,
  ⟨0x1400030, [], 0x0, 0x0, 0x0, 0x0, 0x0, 0xffffffff⟩,
  ⟨0x1400034, [], 0x0, 0x0, 0x0, 0x0, 0x0, 0xffffffff⟩,
  ⟨0x1400038, [], 0x0, 0x0, 0x0, 0x0, 0x0, 0xffffffff⟩]
/-- Rows 144 to 167 of the register map, one per definition above, in the same order. -/
def regRows6 : List RegRow := [
  ⟨0x140003c, [], 0x0, 0x0, 0x0, 0x0, 0x0, 0xffffffff⟩,
  ⟨0x1400040, [], 0x0, 0x0, 0x0, 0x0, 0x0, 0xffffffff⟩,
  ⟨0x1500000, [], 0x1040, 0x0, 0xffffffff, 0x0, 0x0, 0x0⟩,
  ⟨0x1500004, [], 0x3e80100, 0x0, 0xffffffff, 0x0, 0x0, 0x0⟩,
  ⟨0x1500008, [], 0xea60000f, 0x0, 0xffff000f, 0x0, 0x0, 0x0⟩,
  ⟨0x150000c, [], 0x0, 0x0, 0x3ffff, 0x0, 0x0, 0x0⟩,
  ⟨0x1500010, [], 0x400, 0x0, 0xffff, 0x0, 0x0, 0x0⟩,
  ⟨0x1500014, [], 0xe10, 0x0, 0xffff, 0x0, 0x0, 0x0⟩,
  ⟨0x1500020, [], 0x0, 0x0, 0x0, 0x0, 0x0, 0x0⟩,
  ⟨0x1500024, [], 0x0, 0x0, 0x0, 0x0, 0x0, 0x0⟩,
  ⟨0x1500028, [], 0x0, 0x0, 0x0, 0x0, 0x0, 0x0⟩,
  ⟨0x150002c, [], 0x0, 0x0, 0x0, 0x0, 0x0, 0x0⟩,
  ⟨0x1500030, [], 0x0, 0x0, 0x0, 0x0, 0x0, 0x0⟩,
  ⟨0x1500034, [], 0x0, 0x0, 0x0, 0x0, 0x0, 0x0⟩,
  ⟨0x1500040, [], 0x0, 0x0, 0x0, 0x0, 0x0, 0xffffffff⟩,
  ⟨0x1500044, [], 0x0, 0x0, 0x0, 0x0, 0x0, 0xffffffff⟩,
  ⟨0x1500048, [], 0x0, 0x0, 0x0, 0x0, 0x0, 0xffffffff⟩,
  ⟨0x150004c, [], 0x0, 0x0, 0x0, 0x0, 0x0, 0xffffffff⟩,
  ⟨0x1500050, [], 0x0, 0x0, 0x0, 0x0, 0x0, 0xffffffff⟩,
  ⟨0x1500054, [], 0x0, 0x0, 0x0, 0x0, 0x0, 0xffffffff⟩,
  ⟨0x1500058, [], 0x0, 0x0, 0x0, 0x0, 0x0, 0xffffffff⟩,
  ⟨0x150005c, [], 0x0, 0x0, 0x0, 0x0, 0x0, 0xffffffff⟩,
  ⟨0x1500060, [], 0x0, 0x0, 0x0, 0x0, 0x0, 0xffffffff⟩,
  ⟨0x1600010, [(8, 0x20000)], 0x98000000, 0x0, 0xbff0ff00, 0x0, 0x40000000, 0x0⟩]
/-- Rows 168 to 191 of the register map, one per definition above, in the same order. -/
def regRows7 : List RegRow := [
  ⟨0x1600014, [(8, 0x20000)], 0x0, 0x0, 0x0, 0x0, 0x0, 0x0⟩,
  ⟨0x1600018, [(8, 0x20000)], 0x0, 0x0, 0x0, 0x0, 0x0, 0x0⟩,
  ⟨0x1600020, [(8, 0x20000)], 0x0, 0x0, 0x0, 0x0, 0x0, 0x0⟩,
  ⟨0x1600024, [(8, 0x20000)], 0x0, 0x0, 0x0, 0x0, 0x0, 0x0⟩,
  ⟨0x1600028, [(8, 0x20000)], 0x0, 0x0, 0x0, 0x0, 0x0, 0x0⟩,
  ⟨0x1600030, [(8, 0x20000)], 0x100a08, 0x0, 0xffffff, 0x0, 0x0, 0x0⟩,
  ⟨0x1600040, [(8, 0x20000)], 0x0, 0x0, 0x0, 0x0, 0x0, 0xffffffff⟩,
  ⟨0x1600044, [(8, 0x20000)], 0x0, 0x0, 0x0, 0x0, 0x0, 0xffffffff⟩,
  ⟨0x1600048, [(8, 0x20000)], 0x0, 0x0, 0x0, 0x0, 0x0, 0xffffffff⟩,
  ⟨0x160004c, [(8, 0x20000)], 0x0, 0x0, 0x0, 0x0, 0x0, 0xffffffff⟩,
  ⟨0x1600050, [(8, 0x20000)], 0x0, 0x0, 0x0, 0x0, 0x0, 0xffffffff⟩,
  ⟨0x1600054, [(8, 0x20000)], 0x0, 0x0, 0x0, 0x0, 0x0, 0xffffffff⟩,
  ⟨0x1600058, [(8, 0x20000)], 0x0, 0x0, 0x0, 0x0, 0x0, 0xffffffff⟩,
  ⟨0x160005c, [(8, 0x20000)], 0x0, 0x0, 0x0, 0x0, 0x0, 0xffffffff⟩,
  ⟨0x1600100, [(8, 0x20000)], 0x4000002, 0x0, 0xffff3fff, 0x0, 0x0, 0x0⟩,
  ⟨0x1600200, [(8, 0x20000), (6, 0x20)], 0x0, 0x0, 0xffffff, 0x0, 0x0, 0x0⟩,
  ⟨0x1600204, [(8, 0x20000), (6, 0x20)], 0x800, 0x0, 0xffffff, 0x0, 0x0, 0x0⟩,
  ⟨0x1600208, [(8, 0x20000), (6, 0x20)], 0x0, 0x0, 0x0, 0x0, 0x0, 0x0⟩,
  ⟨0x160020c, [(8, 0x20000), (6, 0x20)], 0x10101010, 0x0, 0xffffffff, 0x0, 0x0, 0x0⟩,
  ⟨0x1600210, [(8, 0x20000), (6, 0x20)], 0x10101010, 0x0, 0xffffffff, 0x0, 0x0, 0x0⟩,
  ⟨0x1600214, [(8, 0x20000), (6, 0x20)], 0x0, 0x0, 0x0, 0x0, 0x0, 0xffffffff⟩,
  ⟨0x1600218, [(8, 0x20000), (6, 0x20)], 0x0, 0x0, 0x0, 0x0, 0x0, 0xffffffff⟩,
  ⟨0x160021c, [(8, 0x20000), (6, 0x20)], 0x0, 0x0, 0x0, 0x0, 0x0, 0xffffffff⟩,
  ⟨0x1600400, [(8, 0x20000), (16, 0x10)], 0xffff, 0x0, 0x8007ffff, 0x0, 0x0, 0x0⟩]
/-- Rows 192 to 215 of the register map, one per definition above, in the same order. -/
def regRows8 : List RegRow := [
  ⟨0x1600404, [(8, 0x20000), (16, 0x10)], 0x0, 0x0, 0xffffff, 0x0, 0x0, 0x0⟩,
  ⟨0x1600408, [(8, 0x20000), (16, 0x10)], 0x0, 0x0, 0xffffff, 0x0, 0x0, 0x0⟩,
  ⟨0x160040c, [(8, 0x20000), (16, 0x10)], 0x0, 0x0, 0x0, 0x0, 0x0, 0xffffffff⟩,
  ⟨0x1600800, [(8, 0x20000), (6, 0x90), (9, 0x10)], 0x0, 0x0, 0x0, 0x0, 0x0, 0x0⟩,
  ⟨0x1600804, [(8, 0x20000), (6, 0x90), (9, 0x10)], 0x0, 0x0, 0x0, 0x0, 0x0, 0xffffffff⟩,
  ⟨0x1600808, [(8, 0x20000), (6, 0x90), (9, 0x10)], 0x0, 0x0, 0x0, 0x0, 0x0, 0x0⟩,
  ⟨0x160080c, [(8, 0x20000), (6, 0x90), (9, 0x10)], 0x0, 0x0, 0x0, 0x0, 0x0, 0xffffffff⟩,
  ⟨0x1610000, [], 0x0, 0x0, 0xffe0, 0x0, 0x0, 0x0⟩,
  ⟨0x1610004, [], 0x8000020, 0x0, 0xf0000ff, 0x0, 0x0, 0x0⟩,
  ⟨0x1610100, [], 0x0, 0x0, 0x0, 0x0, 0x0, 0xffffffff⟩,
  ⟨0x1610104, [], 0x0, 0x0, 0x0, 0x0, 0x0, 0xffffffff⟩,
  ⟨0x1610108, [], 0x0, 0x0, 0x0, 0x0, 0x0, 0xffffffff⟩,
  ⟨0x1611000, [(2048, 0x4)], 0x0, 0x0, 0x80000007, 0x0, 0x0, 0x0⟩,
  ⟨0x1613000, [(32, 0x4)], 0x0, 0x0, 0x80000007, 0x0, 0x0, 0x0⟩,
  ⟨0x1614000, [(64, 0x4)], 0x0, 0x0, 0x0, 0x0, 0x0, 0x0⟩,
  ⟨0x1c00000, [(8, 0x100)], 0x0, 0xffffffff, 0x0, 0x0, 0x0, 0x0⟩,
  ⟨0x1c00004, [(8, 0x100)], 0x0, 0x0, 0x0, 0x2, 0x0, 0x0⟩,
  ⟨0x1c00008, [(8, 0x100)], 0x0, 0x0, 0x0, 0x0, 0x0, 0x0⟩,
  ⟨0x1c0000c, [(8, 0x100)], 0x0, 0x4, 0x0, 0x2, 0x0, 0x0⟩,
  ⟨0x1800000, [], 0x0, 0x0, 0x0, 0x0, 0x0, 0x0⟩,
  ⟨0x1800004, [], 0x0, 0x0, 0x3ffff, 0x0, 0x0, 0x0⟩,
  ⟨0x1800008, [], 0x0, 0x3ffff, 0x0, 0x0, 0x0, 0x0⟩,
  ⟨0x1800010, [], 0x0, 0x3ffff00f, 0x0, 0x0, 0x0, 0x0⟩,
  ⟨0x1800014, [], 0x0, 0x3ffff00f, 0x0, 0x0, 0x0, 0x0⟩]
/-- Rows 216 to 239 of the register map, one per definition above, in the same order. -/
def regRows9 : List RegRow := [
  ⟨0x1800018, [], 0x2, 0x800007ff, 0x0, 0x0, 0x0, 0x0⟩,
  ⟨0x180001c, [], 0x0, 0x800007ff, 0x0, 0x0, 0x0, 0x0⟩,
  ⟨0x1800020, [], 0x2710, 0x0, 0xffff, 0x0, 0x0, 0x0⟩,
  ⟨0x1800024, [], 0x0, 0x0, 0x3fffffff, 0x0, 0x0, 0x0⟩,
  ⟨0x1800028, [], 0x0, 0x0, 0x0, 0x0, 0x0, 0x0⟩,
  ⟨0x1800040, [], 0x0, 0x0, 0x0, 0x0, 0x0, 0xffffffff⟩,
  ⟨0x1800044, [], 0x0, 0x0, 0x0, 0x0, 0x0, 0xffffffff⟩,
  ⟨0x1800048, [], 0x0, 0x0, 0x0, 0x0, 0x0, 0xffffffff⟩,
  ⟨0x180004c, [], 0x0, 0x0, 0x0, 0x0, 0x0, 0xffffffff⟩,
  ⟨0x1820000, [(2048, 0x4)], 0x1, 0xffff00ff, 0x0, 0x0, 0x0, 0x0⟩,
  ⟨0x1830000, [(2047, 0x8)], 0x0, 0x0, 0x0, 0x0, 0x0, 0x0⟩,
  ⟨0x1830004, [(2047, 0x8)], 0x40000000, 0x0, 0x0, 0x0, 0x0, 0x0⟩,
  ⟨0x1900000, [], 0x10040, 0x0, 0x10100ff, 0x0, 0x0, 0x0⟩,
  ⟨0x1900004, [], 0x0, 0x0, 0x3ffff, 0x0, 0x0, 0x0⟩,
  ⟨0x1900008, [], 0x1, 0x0, 0xffff, 0x0, 0x0, 0x0⟩,
  ⟨0x190000c, [], 0x3e8, 0x0, 0xffff, 0x0, 0x0, 0x0⟩,
  ⟨0x1900010, [(2, 0x8)], 0x0, 0x0, 0xffffffff, 0x0, 0x0, 0x0⟩,
  ⟨0x1900014, [(2, 0x8)], 0x10, 0x0, 0x1f, 0x0, 0x0, 0x0⟩,
  ⟨0x1900030, [], 0x800000, 0x0, 0x0, 0x0, 0x0, 0x0⟩,
  ⟨0x1900040, [(4, 0x4)], 0x0, 0x0, 0x0, 0x0, 0x0, 0x0⟩,
  ⟨0x1900050, [], 0x0, 0x0, 0x0, 0x0, 0x0, 0x0⟩,
  ⟨0x1900080, [], 0x0, 0x0, 0x0, 0x0, 0x0, 0xffffffff⟩,
  ⟨0x1900084, [], 0x0, 0x0, 0x0, 0x0, 0x0, 0xffffffff⟩,
  ⟨0x1900088, [], 0x0, 0x0, 0x0, 0x0, 0x0, 0xffffffff⟩]
/-- Rows 240 to 263 of the register map, one per definition above, in the same order. -/
def regRows10 : List RegRow := [
  ⟨0x190008c, [], 0x0, 0x0, 0x0, 0x0, 0x0, 0xffffffff⟩,
  ⟨0x1900090, [], 0x0, 0x0, 0x0, 0x0, 0x0, 0xffffffff⟩,
  ⟨0x1900094, [], 0x0, 0x0, 0x0, 0x0, 0x0, 0xffffffff⟩,
  ⟨0x1900098, [], 0x0, 0x0, 0x0, 0x0, 0x0, 0xffffffff⟩,
  ⟨0x190009c, [], 0x0, 0x0, 0x0, 0x0, 0x0, 0xffffffff⟩,
  ⟨0x1900100, [(2, 0x100), (8, 0x10)], 0x0, 0x0, 0xfffff000, 0x0, 0x0, 0x0⟩,
  ⟨0x1900104, [(2, 0x100), (8, 0x10)], 0x0, 0x0, 0xffff, 0x0, 0x0, 0x0⟩,
  ⟨0x1900108, [(2, 0x100), (8, 0x10)], 0x0, 0x0, 0xffffffff, 0x0, 0x0, 0x0⟩,
  ⟨0x190010c, [(2, 0x100), (8, 0x10)], 0x0, 0x0, 0x7, 0x0, 0x0, 0x0⟩,
  ⟨0x500, [], 0x10000000, 0x0, 0x0, 0x0, 0x0, 0x0⟩,
  ⟨0x504, [], 0x0, 0x0, 0x0, 0x0, 0x0, 0x0⟩,
  ⟨0x508, [], 0x0, 0x0, 0x0, 0x0, 0x0, 0x0⟩,
  ⟨0x50c, [], 0x0, 0x0, 0x0, 0x0, 0x0, 0x0⟩,
  ⟨0x510, [], 0x0, 0x0, 0x0, 0x0, 0xf1, 0x0⟩,
  ⟨0x514, [], 0xa, 0x0, 0xff, 0x0, 0x0, 0x0⟩,
  ⟨0x518, [], 0x0, 0x0, 0x0, 0x20000000, 0x0, 0x0⟩,
  ⟨0x51c, [], 0x0, 0x0, 0x0, 0x0, 0x0, 0xffffffff⟩,
  ⟨0x520, [], 0x0, 0x0, 0x0, 0x0, 0x0, 0x0⟩,
  ⟨0x1a00000, [], 0x0, 0x0, 0x0, 0x0, 0x0, 0x0⟩,
  ⟨0x1a00004, [], 0x0, 0x0, 0x0, 0x0, 0x0, 0x0⟩,
  ⟨0x1a00008, [], 0x0, 0x0, 0x0, 0x0, 0x0, 0x0⟩,
  ⟨0x1a0000c, [], 0x0, 0x0, 0x0, 0x0, 0x0, 0x0⟩,
  ⟨0x1a00010, [], 0x0, 0x0, 0x0, 0x0, 0x0, 0x0⟩,
  ⟨0x1a00014, [], 0x0, 0x0, 0x0, 0x0, 0x0, 0x0⟩]
/-- Rows 264 to 287 of the register map, one per definition above, in the same order. -/
def regRows11 : List RegRow := [
  ⟨0x1a00020, [], 0x0, 0x0, 0xff, 0x0, 0x0, 0x0⟩,
  ⟨0x1a00024, [], 0x0, 0x0, 0x0, 0x0, 0x0, 0x0⟩,
  ⟨0x1a00028, [], 0x0, 0x0, 0x0, 0x0, 0x0, 0x0⟩,
  ⟨0x1a0002c, [], 0x0, 0x0, 0x0, 0x0, 0x0, 0x0⟩,
  ⟨0x1a00030, [], 0x0, 0x0, 0x0, 0x0, 0x0, 0x0⟩,
  ⟨0x1a00040, [], 0x0, 0x0, 0x0, 0x0, 0x0, 0xffffffff⟩,
  ⟨0x1a00044, [], 0x0, 0x0, 0x0, 0x0, 0x0, 0xffffffff⟩,
  ⟨0x1b00000, [], 0x0, 0x0, 0x0, 0x0, 0x0, 0x0⟩,
  ⟨0x1b00004, [], 0x4001aa78, 0x0, 0xc001ffff, 0x0, 0x0, 0x0⟩,
  ⟨0x1b00010, [(4, 0x4)], 0x0, 0x0, 0x0, 0x0, 0x0, 0x0⟩,
  ⟨0x1b00020, [], 0x5dc, 0x0, 0xffff, 0x0, 0x0, 0x0⟩,
  ⟨0x1b00024, [], 0x0, 0x0, 0x0, 0x0, 0x0, 0xffff0000⟩,
  ⟨0x1b00030, [], 0x7369645f, 0x0, 0xffffff, 0x0, 0x0, 0x0⟩,
  ⟨0x1b00034, [], 0x695f5c55, 0x0, 0xffff00, 0x0, 0x0, 0x0⟩,
  ⟨0x1b00038, [], 0x1932, 0x0, 0xff, 0x0, 0x0, 0x0⟩,
  ⟨0x1b00040, [(4, 0x4)], 0x0, 0x0, 0x0, 0x0, 0x0, 0xffff0000⟩,
  ⟨0x1b00080, [(12, 0x4)], 0x0, 0x0, 0x0, 0x0, 0x0, 0x0⟩,
  ⟨0x1b000c0, [], 0x0, 0x0, 0x0, 0x0, 0x0, 0x0⟩,
  ⟨0x1b00100, [], 0x0, 0x0, 0x0, 0x0, 0x0, 0xffffffff⟩,
  ⟨0x1b00104, [], 0x0, 0x0, 0x0, 0x0, 0x0, 0xffffffff⟩,
  ⟨0x1b00108, [], 0x0, 0x0, 0x0, 0x0, 0x0, 0xffffffff⟩,
  ⟨0x1b0010c, [], 0x0, 0x0, 0x0, 0x0, 0x0, 0xffffffff⟩,
  ⟨0x1b00110, [], 0x0, 0x0, 0x0, 0x0, 0x0, 0xffffffff⟩,
  ⟨0x1b00114, [], 0x0, 0x0, 0x0, 0x0, 0x0, 0xffffffff⟩]
/-- Rows 288 to 311 of the register map, one per definition above, in the same order. -/
def regRows12 : List RegRow := [
  ⟨0x1d00000, [], 0xe, 0xf, 0x0, 0x0, 0x1f0000, 0x0⟩,
  ⟨0x1d00004, [], 0x0, 0x0, 0x0, 0x1f, 0x0, 0x0⟩,
  ⟨0x1d00010, [(5, 0x10)], 0x0, 0x0, 0x0, 0x0, 0x0, 0x0⟩,
  ⟨0x1d00014, [(5, 0x10)], 0x0, 0x0, 0x0, 0x0, 0x0, 0xffffffff⟩,
  ⟨0x1d00018, [(5, 0x10)], 0x0, 0x0, 0x0, 0x0, 0x0, 0xffffffff⟩,
  ⟨0x1d0001c, [(5, 0x10)], 0x800, 0x0, 0x0, 0x0, 0x0, 0x0⟩,
  ⟨0x1d00080, [(4, 0x4)], 0x0, 0x0, 0x0, 0x0, 0x0, 0xffffffff⟩,
  ⟨0x1d00090, [], 0x0, 0x0, 0x0, 0x0, 0x0, 0x0⟩,
  ⟨0x1d00094, [], 0x0, 0x0, 0x0, 0x0, 0x0, 0x0⟩,
  ⟨0x1d000a0, [], 0x180e10, 0x0, 0xffffffff, 0x0, 0x0, 0x0⟩,
  ⟨0x1d000a4, [], 0x8, 0x0, 0xff, 0x0, 0x0, 0x0⟩,
  ⟨0x1d000a8, [], 0x0, 0x0, 0x0, 0x0, 0x0, 0x0⟩,
  ⟨0x1d000b0, [], 0x0, 0x0, 0x0, 0x0, 0x0, 0xffffffff⟩,
  ⟨0x1d000b4, [], 0x0, 0x0, 0x0, 0x0, 0x0, 0xffffffff⟩,
  ⟨0x1d000b8, [], 0x0, 0x0, 0x0, 0x0, 0x0, 0x0⟩,
  ⟨0x1d000c0, [], 0x3, 0x0, 0xff, 0x0, 0x0, 0x0⟩,
  ⟨0x1810100, [], 0x4000002, 0x0, 0xffff3fff, 0x0, 0x0, 0x0⟩,
  ⟨0x1810200, [(6, 0x20)], 0x0, 0x0, 0xffffff, 0x0, 0x0, 0x0⟩,
  ⟨0x1810204, [(6, 0x20)], 0x800, 0x0, 0xffffff, 0x0, 0x0, 0x0⟩,
  ⟨0x1810208, [(6, 0x20)], 0x0, 0x0, 0x0, 0x0, 0x0, 0x0⟩,
  ⟨0x181020c, [(6, 0x20)], 0x10101010, 0x0, 0xffffffff, 0x0, 0x0, 0x0⟩,
  ⟨0x1810210, [(6, 0x20)], 0x10101010, 0x0, 0xffffffff, 0x0, 0x0, 0x0⟩,
  ⟨0x1810214, [(6, 0x20)], 0x0, 0x0, 0x0, 0x0, 0x0, 0xffffffff⟩,
  ⟨0x1810218, [(6, 0x20)], 0x0, 0x0, 0x0, 0x0, 0x0, 0xffffffff⟩]
/-- Rows 312 to 335 of the register map, one per definition above, in the same order. -/
def regRows13 : List RegRow := [
  ⟨0x181021c, [(6, 0x20)], 0x0, 0x0, 0x0, 0x0, 0x0, 0xffffffff⟩,
  ⟨0x1810800, [(6, 0x90), (9, 0x10)], 0x0, 0x0, 0x0, 0x0, 0x0, 0x0⟩,
  ⟨0x1810804, [(6, 0x90), (9, 0x10)], 0x0, 0x0, 0x0, 0x0, 0x0, 0xffffffff⟩,
  ⟨0x1810808, [(6, 0x90), (9, 0x10)], 0x0, 0x0, 0x0, 0x0, 0x0, 0x0⟩,
  ⟨0x181080c, [(6, 0x90), (9, 0x10)], 0x0, 0x0, 0x0, 0x0, 0x0, 0xffffffff⟩,
  ⟨0x1880000, [(2048, 0x10)], 0x0, 0xfffffffc, 0x0, 0x0, 0x0, 0x0⟩,
  ⟨0x1880004, [(2048, 0x10)], 0x0, 0xffffffff, 0x0, 0x0, 0x0, 0x0⟩,
  ⟨0x1880008, [(2048, 0x10)], 0x0, 0xffffffff, 0x0, 0x0, 0x0, 0x0⟩,
  ⟨0x188000c, [(2048, 0x10)], 0x1, 0x1, 0x0, 0x0, 0x0, 0x0⟩,
  ⟨0x1890000, [(64, 0x4)], 0x0, 0x0, 0x0, 0x0, 0x0, 0x0⟩,
  ⟨0x200000, [(4, 0x400000), (16, 0x10000)], 0x10000000, 0x0, 0x0, 0x0, 0x0, 0x0⟩,
  ⟨0x200004, [(4, 0x400000), (16, 0x10000)], 0x1007a12, 0x0, 0x0, 0x0, 0x0, 0x0⟩,
  ⟨0x200008, [(4, 0x400000), (16, 0x10000)], 0x57e4, 0x0, 0x0, 0x0, 0x0, 0x0⟩,
  ⟨0x180000, [(4, 0x400000)], 0x10000000, 0x0, 0x0, 0x0, 0x0, 0x0⟩,
  ⟨0x180004, [(4, 0x400000)], 0x2001f40, 0x0, 0x0, 0x0, 0x0, 0x0⟩,
  ⟨0x180008, [(4, 0x400000)], 0x1680, 0x0, 0x0, 0x0, 0x0, 0x0⟩,
  ⟨0x140000, [(4, 0x400000), (3, 0x10000)], 0x10000000, 0x0, 0x0, 0x0, 0x0, 0x0⟩,
  ⟨0x140004, [(4, 0x400000), (3, 0x10000)], 0x3000000, 0x0, 0x0, 0x0, 0x0, 0x0⟩,
  ⟨0x140008, [(4, 0x400000), (3, 0x10000)], 0x0, 0x0, 0x0, 0x0, 0x0, 0x0⟩,
  ⟨0x140100, [(4, 0x400000)], 0x10000000, 0x0, 0x0, 0x0, 0x0, 0x0⟩,
  ⟨0x140104, [(4, 0x400000)], 0x5004c4b, 0x0, 0x0, 0x0, 0x0, 0x0⟩,
  ⟨0x140108, [(4, 0x400000)], 0x36ee, 0x0, 0x0, 0x0, 0x0, 0x0⟩,
  ⟨0x140110, [(4, 0x400000)], 0x0, 0x0, 0x0, 0x0, 0x0, 0xffffffff⟩,
  ⟨0x140120, [(4, 0x400000), (3, 0x10000)], 0x10000000, 0x0, 0x0, 0x0, 0x0, 0x0⟩]
/-- Rows 336 to 359 of the register map, one per definition above, in the same order. -/
def regRows14 : List RegRow := [
  ⟨0x140124, [(4, 0x400000), (3, 0x10000)], 0x8001964, 0x0, 0x0, 0x0, 0x0, 0x0⟩,
  ⟨0x140128, [(4, 0x400000), (3, 0x10000)], 0x1248, 0x0, 0x0, 0x0, 0x0, 0x0⟩,
  ⟨0x140130, [(4, 0x400000), (3, 0x10000)], 0x0, 0x0, 0x0, 0x0, 0x0, 0xffffffff⟩,
  ⟨0x190000, [(4, 0x400000)], 0x10000000, 0x0, 0x0, 0x0, 0x0, 0x0⟩,
  ⟨0x190004, [(4, 0x400000)], 0xa000000, 0x0, 0x0, 0x0, 0x0, 0x0⟩,
  ⟨0x190008, [(4, 0x400000)], 0x0, 0x0, 0x0, 0x0, 0x0, 0x0⟩,
  ⟨0x1210000, [(4, 0x10000)], 0x10000000, 0x0, 0x0, 0x0, 0x0, 0x0⟩,
  ⟨0x1210004, [(4, 0x10000)], 0x6001388, 0x0, 0x0, 0x0, 0x0, 0x0⟩,
  ⟨0x1210008, [(4, 0x10000)], 0xe10, 0x0, 0x0, 0x0, 0x0, 0x0⟩,
  ⟨0x1250000, [(4, 0x10000)], 0x10000000, 0x0, 0x0, 0x0, 0x0, 0x0⟩,
  ⟨0x1250004, [(4, 0x10000)], 0x6004e20, 0x0, 0x0, 0x0, 0x0, 0x0⟩,
  ⟨0x1250008, [(4, 0x10000)], 0x3840, 0x0, 0x0, 0x0, 0x0, 0x0⟩,
  ⟨0x1290000, [(4, 0x10000)], 0x10000000, 0x0, 0x0, 0x0, 0x0, 0x0⟩,
  ⟨0x1290004, [(4, 0x10000)], 0x60004e2, 0x0, 0x0, 0x0, 0x0, 0x0⟩,
  ⟨0x1290008, [(4, 0x10000)], 0x384, 0x0, 0x0, 0x0, 0x0, 0x0⟩,
  ⟨0x1310000, [(8, 0x10000)], 0x10000000, 0x0, 0x0, 0x0, 0x0, 0x0⟩,
  ⟨0x1310004, [(8, 0x10000)], 0x7000fa0, 0x0, 0x0, 0x0, 0x0, 0x0⟩,
  ⟨0x1310008, [(8, 0x10000)], 0xb40, 0x0, 0x0, 0x0, 0x0, 0x0⟩,
  ⟨0x1410000, [(4, 0x10000)], 0x10000000, 0x0, 0x0, 0x0, 0x0, 0x0⟩,
  ⟨0x1410004, [(4, 0x10000)], 0x80003e8, 0x0, 0x0, 0x0, 0x0, 0x0⟩,
  ⟨0x1410008, [(4, 0x10000)], 0x2d0, 0x0, 0x0, 0x0, 0x0, 0x0⟩,
  ⟨0x1600000, [(8, 0x20000)], 0x10000000, 0x0, 0x0, 0x0, 0x0, 0x0⟩,
  ⟨0x1600004, [(8, 0x20000)], 0xb0004b0, 0x0, 0x0, 0x0, 0x0, 0x0⟩,
  ⟨0x1600008, [(8, 0x20000)], 0x360, 0x0, 0x0, 0x0, 0x0, 0x0⟩]
/-- Rows 360 to 363 of the register map, one per definition above, in the same order. -/
def regRows15 : List RegRow := [
  ⟨0x1910000, [(128, 0x1000)], 0x10000000, 0x0, 0x0, 0x0, 0x0, 0x0⟩,
  ⟨0x1910004, [(128, 0x1000)], 0x90007d0, 0x0, 0x0, 0x0, 0x0, 0x0⟩,
  ⟨0x1910008, [(128, 0x1000)], 0x5a0, 0x0, 0x0, 0x0, 0x0, 0x0⟩,
  ⟨0x1910010, [(128, 0x1000)], 0x0, 0x0, 0x0, 0x0, 0x0, 0x0⟩]

/-- The whole register map. -/
def regRows : List RegRow :=
  regRows0 ++ regRows1 ++ regRows2 ++ regRows3 ++ regRows4 ++ regRows5 ++ regRows6 ++ regRows7 ++ regRows8 ++ regRows9 ++ regRows10 ++ regRows11 ++ regRows12 ++ regRows13 ++ regRows14 ++ regRows15

/-- Whether an offset beyond the base of a row is one of the row's occurrences. -/
def dimsHit : List (Nat × Nat) → Nat → Bool
  | [], o => o == 0
  | (c, s) :: ds, o => dimsHit ds (o - min (c - 1) (o / s) * s)

/-- Whether a BAR0 offset is an occurrence of this register. -/
def RegRow.hit (r : RegRow) (off : Nat) : Bool := decide (r.base ≤ off) && dimsHit r.dims (off - r.base)

/-- The row of the register map that a BAR0 offset belongs to, if any. -/
def regRowAt (off : Nat) : Option RegRow := regRows.find? fun r => r.hit off

/-- TB_RATEc resets per class (R509); the HP shaper takes the same values (R505). -/
def tbRateReset : List (BitVec 32) := [0x0249F0, 0x001F40, 0x0186A0, 0x00C350, 0x004E20, 0x0003E8]

/-- The reset values that differ from occurrence to occurrence: TB_RATEc per class (R509), MERGE.REDIRECT.SERVER per
quadrant (R243). -/
def regResetSpecial (off : Nat) : Option (BitVec 32) :=
  let cls := (List.range 9).findSome? fun n =>
    let b := if n == 8 then 0x1810200 else 0x1600200 + n * 0x20000
    (List.range 6).findSome? fun c => if off == b + c * 0x20 then tbRateReset[c]? else none
  let mrg := (List.range 4).findSome? fun n => if off == Reg.qdMergeRedirect n then some (BitVec.ofNat 32 n) else none
  cls.or mrg

/-- The reset value of the register at a BAR0 offset; an offset no chapter assigns reads 0 (R86). -/
def regReset (off : Nat) : BitVec 32 :=
  match regResetSpecial off with
  | some v => v
  | none => match regRowAt off with
    | some r => r.reset
    | none => 0

end Sys2Proof.Machine
end

