-- ==== Sys2Proof/Machine/State.lean ====
section
/-! DEFINITION. Machine/State.lean: the state of the device, the outcomes a step can stop with, and the state after
power-on reset. -/

namespace Sys2Proof.Machine

/-- Everything of the device but its fuses, its memory and its command queue. `regs` holds the BAR0 registers whose value
differs from the reset value (rising offsets); `writes` the memory effects of the command being carried out, in order, empty
between commands; `wire` what the device has sent, in order; `free` the number of free values drawn so far (the model's own
field, not the spec's). -/
structure Dev where
  now : Ns
  free : Nat
  regs : List (Nat × Word)
  writes : List MemOp
  wire : List Out
  hif : Hif
  err : Err
  time : TimeSt
  arb : ArbSt
  sess : Sess
  kv : Kv
  tier : Tier
  attn : Attn
  tail : TailSt
  text : TextSt
  rcl : RecallSt
  ckpt : CkptSt
  belt : BeltSt
  cvf : CvfSt
  sec : SecSt
  pmc : PmcSt
  boot : BootSt
  deriving DecidableEq, Repr

/-- The whole state: what fuses fix, device memory, the device, and the commands that wait, first in, first out. -/
structure State where
  fuses : Fuses
  mem : Memory
  dev : Dev
  pending : List Instr
  deriving DecidableEq, Repr

/-- Reasons for a step to stop with a fault. There are none: the spec gives every command an effect, an access to an unmapped
address included (R84: reads return zero, writes are discarded). -/
inductive Fault
  deriving DecidableEq, Repr

/-- Reasons for a step to refuse. -/
inductive Refusal
  /-- Raised by an arm of exec whose command has no meaning yet. Safe: nothing can be proved of its effect. -/
  | notModelled (mnemonic : String)
  deriving DecidableEq, Repr

/-- A mailbox direction after reset (R541). -/
def MboxWord.reset : MboxWord := ⟨0, false, false⟩

/-- A mailbox after reset (R541). -/
def Mbox.reset : Mbox := ⟨.reset, .reset, false⟩

/-- An error log after power-on (R616, R686). -/
def ErrLog.reset : ErrLog := ⟨[], [], 2048, 0, []⟩

/-- A timekeeper after power-on. DESIGN CHOICE (log 6): it holds rate correction 0. -/
def Timekeeper.reset : Timekeeper := ⟨0, false, 1000000, 0, false⟩

/-- A pipe, engine or text engine after power-on: in service. -/
def Pipe.reset : Pipe := ⟨0, false, false⟩

/-- A class of a shaper after reset (R508: TOKENS read 0). -/
def ClassQ.reset : ClassQ := ⟨0, 0, [], List.replicate 8 [], List.replicate 8 0, 0, false, 0, 0⟩

/-- A shaper after reset. -/
def Shaper.reset : Shaper := ⟨List.replicate 6 .reset, 2, 0, 0, []⟩

/-- A port of the fabric that is down and has never been up. -/
def Port.reset : Port :=
  { fecLock := false, initDone := false, peerEnc := 0, peerMask := 0, credits := List.replicate 6 0,
    held := List.replicate 6 0, owed := List.replicate 6 0, rxExpect := 0, rxHold := false, txSeq := 0, retry := [],
    lastAdvance := 0, replaySeq := 0, replays := 0, bringUps := 0, keys := none, txCount := 0, rxCount := 0,
    tagFails := [], ofs := 0, prevOfs := 0, exchangeAt := 0, prevAt := 0, linkDly := 0, timeT1 := none, timeAt := 0, unc := [], retired := 0,
    change := none, retryAt := none, shaper := .reset, policers := List.replicate 16 ⟨0, 0⟩, reasm := [] }

/-- HP configuration state after power-on. BAR2 is 64 GiB (R512); PRESUMED (log 5): the rest are the PCIe defaults. -/
def HpConfig.reset : HpConfig :=
  { bme := false, d3hot := false, bar2SizeLog2 := 36, ptmEnable := false, msixEnable := false,
    functionMask := false, raw := [] }

/-- The host interface after reset (R522, R541). -/
def Hif.reset : Hif :=
  { sqs := [], cqs := [], hrq := none, flights := [], fetchTurn := (0, 0), highVisits := 0, nextReqId := 1, requests := [],
    vecs := [], mboxes := (List.range 8).map fun m => (m, Mbox.reset), recovery := .reset, hp := .reset, ppUp := false,
    ppSerials := [], eid := 0, tid := 0, eventReceiver := none, sensors := [], meterCarry := [] }

/-- The device after power-on reset: every unit in service, every table empty, time at 0 (R60), the ROM stage begun (R602:
BOOT_STAT.STAGE resets to 1). DESIGN CHOICE (log 6): a value of a field that no rule gives is 0 or empty. -/
def Dev.reset : Dev :=
  { now := 0, free := 0, regs := [], writes := [], wire := [], hif := .reset,
    err := { logs := List.replicate 5 .reset, bad := [], lastVec0 := none, vec0Deferred := false, lineCe := [], deadStacks := [],
             retiredLines := [], quadResets := [], warnWin := 0, warnCount := 0, secWin := 0, secCount := 0, secPrev := 0 },
    time := { chip := .reset, quads := List.replicate 4 .reset, sourceLost := false, ptmLast := ⟨0, 0, 0⟩,
              ptmLastAt := none, ptmRunning := false },
    arb := { cells := [], xfers := [], turns := [], eighths := [], control := [] },
    sess := { table := [], voided := none, lastAlloc := 4194303, cache := [], batches := [], steps := [], bookings := [],
              nextBooking := 1, leaked := (0, 0) },
    kv := { shape := none, pages := [], prefixes := [], passes := [], deferred := [], withdrawn := [], fades := [],
            releases := [], captures := [], impexp := [], staged := [], stepPages := [],
            pool := { used := [], retired := [], retiredPcs := [], retiring := [], reserved := [],
                      reservedBlocks := [], ce := [], injected := [] },
            gsl := [], pta := [] },
    tier := { manifests := [], images := [], parks := [], revives := [], movesOut := [], movesIn := [],
              offersWaiting := [], outcomes := [], t3 := [], t2 := [], lent := [], borrowed := [], lendList := [],
              evacuating := [], pins := [], reviveWaiters := [], undo := [], offers := [],
              offeredAt := 0, voided := [] },
    attn := { reqs := [], nextReq := 1, aeOffline := [], aePendingOffline := [], mergeOffline := [],
              scoreOffline := [], rings := [], cancels := [] },
    tail := { reqs := [], nextReq := 1, pipes := List.replicate 4 .reset, variants := [], grammars := [], masks := [],
              prefetch := [], lostShare := [] },
    text := { engines := List.replicate 8 .reset, tokenizer := none, streams := [], channels := [], bindings := [], late := [] },
    rcl := { engines := List.replicate 4 .reset, scanOffline := [], indexes := [], used := [], queries := [],
                nextQuery := 1, compactions := [], dropWait := [] },
    ckpt := { store := none, shards := [], cats := [], lastUsed := 0, epoch := 0, full := 0, epochs := [], run := none, journal := [],
              heldJournal := [], schedAt := 0, deltasSinceFull := 0, cutPrev := 0, warnStart := none, warnedWin := none },
    belt := { parts := List.replicate 2 ⟨none, [], 0⟩, harts := [], saved := [], hooks := [], life := none,
              reservations := [] },
    cvf := { ports := List.replicate 8 .reset, hp := .reset, nextMsg := 1, sent := [], arrived := [] },
    sec := { epoch := 0x000000001, tenant := 0, storeKey := none, debugLevel := 0, svnFloor := 0,
             mrs := List.replicate 8 0, mlog := [], mcount := 0, mOvf := false, debugUsed := false, zeroing := [], zeroDone := 0 },
    pmc := { boostUntil := List.replicate 4 0, tjs := List.replicate 4 0, deepIdle := false, stackHist := [],
             slowSince := [], stackHot := 0, stackCrit := 0, failedSensors := [], pendingLimit := none,
             pendingMode := none, gating := [], waking := [], tripped := false, overSince := none,
             railMv := List.replicate 4 0, bulkStop := [] },
    boot := { heldPerst := false, heldWarm := false, railsOut := false, strapIn := 0, started := 0, stageAt := 0,
              testMode := false, cold := true, posAssigned := false, chainMode := false, chain2 := false,
              bootServe := false, chain := [], image := none, bundle := none, bootRam := [], pushBundle := false,
              pushImage := false, bundleVer := 0, kept := none, quadResets := [],
              blockResets := [], quadOffline := [], flash := [], flashWrite := none, poolGib := 0, recoveryOut := [], belowTwice := [] } }

/-- Memory after power-on. DESIGN CHOICE (log 3): a byte that nothing has written reads 0. -/
def Memory.reset : Memory := ⟨[], []⟩

/-- The state right after power-on reset, with no command waiting. DESIGN CHOICE (log 2): the part is a YVS9-1152 at revision
0x01 with serial number 0 and link domain 0. -/
def State.reset : State := ⟨⟨.yvs1152, 1, 0, 0⟩, .reset, .reset, []⟩

end Sys2Proof.Machine
end

