-- ==== Sys2Proof/Machine/Ops.lean ====
section
/-! DEFINITION. Machine/Ops.lean: the operations that every family shares: device memory and its address map, registers,
free values, error reports, completion and event entries, interrupts, and running a command's effect on a state. -/

namespace Sys2Proof.Machine

/-- What an effect can look at beside the device: the fuses and memory as the command found it. -/
structure Ctx where
  fuses : Fuses
  mem : Memory

/-! ### The part (R4 to R10, R32) -/

/-- Fitted stack positions (00_scope, ordering codes). -/
def Part.fittedStacks : Part → List Nat
  | .yvs1152 => [0, 1, 2, 3, 4, 5, 6, 7, 8, 9, 10, 11]
  | .yvs768 => [0, 1, 3, 4, 6, 7, 9, 10]
  | .yvs576 => [0, 2, 4, 6, 8, 10]

/-- Compute stacks fitted. -/
def Part.computeStacks : Part → List Nat
  | .yvs1152 => [0, 3, 6, 9]
  | .yvs768 => [0, 6]
  | .yvs576 => []

/-- Whether the Belt is present. -/
def Part.hasBelt : Part → Bool
  | .yvs576 => false
  | _ => true

/-- Whether the Recall unit is present. -/
def Part.hasRecall : Part → Bool
  | .yvs1152 => true
  | _ => false

/-- Whether tile-mode session movement is available (CAP0.TILE_MOVE). -/
def Part.tileMove : Part → Bool
  | .yvs576 => false
  | _ => true

/-- The PCI Device ID (R4). -/
def Part.deviceId : Part → Nat
  | .yvs1152 => 0x5912
  | .yvs768 => 0x5908
  | .yvs576 => 0x5906

/-- CHIP.CAP0 to CAP3 (R6 to R10). -/
def capReg (f : Fuses) : Nat → Nat
  | 0 => f.part.deviceId * 0x10000 + f.revision % 256 * 256 +
      (match f.part with | .yvs1152 => 0x1F | .yvs768 => 0x0F | .yvs576 => 0x01)
  | 1 => match f.part with | .yvs1152 => 0xFFF24960 | .yvs768 => 0x6DB04160 | .yvs576 => 0x55500060
  | 2 => match f.part with | .yvs1152 => 0x40FF8020 | .yvs768 => 0x40FF8020 | .yvs576 => 0x40FF0000
  | _ => match f.part with | .yvs1152 => 0xFE401314 | .yvs768 => 0xFE001314 | .yvs576 => 0xFE001314

/-! ### Memory as a canonical list -/

/-- The byte that the list of cells holds for an address. -/
def cellAt (a : Nat) : List Host.Cell → Option Byte
  | [] => none
  | (b, v) :: t => if b == a then some v else cellAt a t

/-- Set a byte in the list of cells, keeping it sorted and free of zeros. -/
def putCell (a : Nat) (v : Byte) : List Host.Cell → List Host.Cell
  | [] => if v == 0 then [] else [(a, v)]
  | (b, w) :: t =>
    if a < b then (if v == 0 then (b, w) :: t else (a, v) :: (b, w) :: t)
    else if b == a then (if v == 0 then t else (a, v) :: t)
    else (b, w) :: putCell a v t

/-- Drop the cells of [lo, hi). -/
def dropCells (lo hi : Nat) (l : List Host.Cell) : List Host.Cell := l.filter fun c => c.1 < lo || hi ≤ c.1

/-- Take [lo, hi) out of a list of ranges. -/
def cutRange (lo hi : Nat) (rs : List (Nat × Nat)) : List (Nat × Nat) :=
  rs.flatMap fun r =>
    (if r.1 < min r.2 lo then [(r.1, min r.2 lo)] else []) ++ (if max r.1 hi < r.2 then [(max r.1 hi, r.2)] else [])

/-- Whether an address lies in one of the ranges. -/
def inRanges (a : Nat) (rs : List (Nat × Nat)) : Bool := rs.any fun r => r.1 ≤ a && a < r.2

/-- Store little-endian bytes. -/
def putBytes (a val : Nat) : Nat → List Host.Cell → List Host.Cell
  | 0, l => l
  | n + 1, l => putBytes (a + 1) (val / 256) n (putCell a (BitVec.ofNat 8 (val % 256)) l)

/-- One memory effect. -/
def Memory.apply (m : Memory) : MemOp → Memory
  | .store a len v => ⟨putBytes a v len m.cells, cutRange a (a + len) m.stale⟩
  | .zero lo hi => ⟨dropCells lo hi m.cells, cutRange lo hi m.stale⟩
  | .stale lo hi => ⟨dropCells lo hi m.cells, (lo, hi) :: cutRange lo hi m.stale⟩

/-- The memory effects of a command, listed newest first. -/
def Memory.applyAll (m : Memory) : List MemOp → Memory
  | [] => m
  | op :: earlier => (m.applyAll earlier).apply op

/-- What a byte of memory reads. -/
def Memory.read (m : Memory) (a : Nat) : Byte :=
  match cellAt a m.cells with
  | some b => b
  | none => if inRanges a m.stale then Config.staleByte a else 0

/-- The canonical form: strictly rising addresses, no zero byte. -/
def cellsWf : List Host.Cell → Bool
  | [] => true
  | [(_, v)] => v != 0
  | (a, v) :: (b, w) :: t => v != 0 && decide (a < b) && cellsWf ((b, w) :: t)

/-- The canonical form of device memory. -/
def Memory.wf (m : Memory) : Bool := cellsWf m.cells

/-! ### The device physical address map (R81 to R84) -/

/-- Bytes per stack. -/
def stackBytes : Nat := 0x1800000000

/-- Whether an HBM address lies in a fitted stack. -/
def inHbm (p : Part) (a : Nat) : Bool := p.fittedStacks.contains (a / stackBytes)

/-- Whether an address lies in stacked SRAM. -/
def inSram (a : Nat) : Bool := 0x400000000000 ≤ a && a < 0x400060000000

/-- Whether an address lies in staging. -/
def inStaging (a : Nat) : Bool := 0x400100000000 ≤ a && a < 0x400106000000

/-- Whether an address lies in the pool range, as far as PP has mapped it. -/
def inPool (d : Dev) (a : Nat) : Bool :=
  d.hif.ppUp && 0x800000000000 ≤ a &&
    a < 0x800000000000 + ((tblGet Reg.hifPpStat d.regs).getD 0).toNat % 0x2000 * 0x40000000

/-- Whether an address lies in a neighbour window that is assigned (R485). -/
def inWindow (d : Dev) (a : Nat) : Bool :=
  0xC00000000000 ≤ a && a < 0x1000000000000 &&
    ((tblGet (Reg.fabWin ((a - 0xC00000000000) / 0x10000000000)) d.regs).getD 0).toNat / 2 ^ 31 == 1

/-- Whether the device has something at an address. -/
def mapped (p : Part) (d : Dev) (a : Nat) : Bool := inHbm p a || inSram a || inStaging a || inPool d a || inWindow d a

/-- The end of the stack, SRAM, staging, pool or window that a mapped address lies in. -/
def spanEnd (d : Dev) (a : Nat) : Nat :=
  if a < 0x12000000000 then (a / stackBytes + 1) * stackBytes
  else if a < 0x400100000000 then 0x400060000000
  else if a < 0x800000000000 then 0x400106000000
  else if a < 0xC00000000000 then 0x800000000000 + ((tblGet Reg.hifPpStat d.regs).getD 0).toNat % 0x2000 * 0x40000000
  else (a / 0x10000000000 + 1) * 0x10000000000

/-- The first unmapped address in [a, b), span by span; `fuel` bounds the spans that the map has. -/
def firstHole (p : Part) (d : Dev) (b : Nat) : Nat → Nat → Option Nat
  | 0, _ => none
  | fuel + 1, a => if b ≤ a then none else if mapped p d a then firstHole p d b fuel (spanEnd d a) else some a

/-- The first unmapped address of a range (R84); the map has 12 stacks, SRAM, staging, the pool and 64 windows. -/
def holeIn (p : Part) (d : Dev) (a len : Nat) : Option Nat := firstHole p d (a + len) 80 a

/-- Whether every byte of a range is mapped. -/
def mappedRange (p : Part) (d : Dev) (a len : Nat) : Bool := (holeIn p d a len).isNone

/-- Whether [a, a + len) lies in fitted HBM. -/
def hbmRange (p : Part) (a len : Nat) : Bool :=
  let n := (a + max 1 len - 1) / stackBytes - a / stackBytes + 1
  n ≤ 12 && (rangeFrom (a / stackBytes) n).all fun s => p.fittedStacks.contains s

/-- The stack position of an address, and its pseudo-channel number (R82). -/
def stackOf (a : Nat) : Nat := a / stackBytes
@[inherit_doc stackOf] def pcOf (a : Nat) : Nat := a / 0xC0000000

/-- The home quadrant of a stack position (R32). -/
def quadOfStack (s : Nat) : Nat := s / 3

/-- Base-die BULK work of a stack at HOT_C stops (R666). -/
def Dev.baseHot (d : Dev) (s : Nat) : Bool := bit d.pmc.stackHot s

/-- Base-die BULK work of a stack does not start: the stack is at HOT_C, or its quadrant at level 3 (R658, R666). -/
def Dev.bulkHeld (d : Dev) (s : Nat) : Bool := d.baseHot s || d.pmc.bulkStop.contains (quadOfStack s)

/-! ### Reading and writing memory inside a command -/

/-- What a byte reads after the listed effects (newest first). -/
def peekOps (m : Memory) (a : Nat) : List MemOp → Byte
  | [] => m.read a
  | .store s l v :: t => if s ≤ a && a < s + l then BitVec.ofNat 8 (byteOf v (a - s)) else peekOps m a t
  | .zero lo hi :: t => if lo ≤ a && a < hi then 0 else peekOps m a t
  | .stale lo hi :: t => if lo ≤ a && a < hi then Config.staleByte a else peekOps m a t

/-- A byte of device memory as a command sees it: an unmapped address reads zero (R84). -/
def Dev.byte (x : Ctx) (d : Dev) (a : Nat) : Nat :=
  if mapped x.fuses.part d a then (peekOps x.mem a d.writes).toNat else 0

/-- `len` bytes of device memory, little-endian (R20). -/
def Dev.ld (x : Ctx) (d : Dev) (a : Nat) : Nat → Nat
  | 0 => 0
  | n + 1 => d.byte x a + 256 * d.ld x (a + 1) n

/-- `len` bytes of device memory as a list. -/
def Dev.ldBytes (x : Ctx) (d : Dev) (a len : Nat) : List Nat := (List.range len).map fun i => d.byte x (a + i)

/-- Bytes of an ECC word: a 64 B transfer of HBM, a 64-bit word elsewhere (R674). -/
def eccWord (a : Nat) : Nat := if a < 0x12000000000 then 64 else 8

/-- Whether a bad word lies in [a, a + len). -/
def BadWord.within (b : BadWord) (a len : Nat) : Bool := b.addr < a + len && a < b.addr + eccWord b.addr

/-- Store `len` bytes. A write to an unmapped address is discarded (R84). A write renews the check word of the words it covers
whole, and of correctable ones. -/
def Dev.st (x : Ctx) (d : Dev) (a len val : Nat) : Dev :=
  if len == 0 then d
  else if mappedRange x.fuses.part d a len then
    let keep := d.err.bad.filter fun b =>
      !(b.within a len) || (b.uncorrectable && !(a ≤ b.addr && b.addr + eccWord b.addr ≤ a + len))
    { d with writes := .store a len val :: d.writes, err := { d.err with bad := keep } }
  else d

/-- Store a list of bytes. -/
def Dev.stBytes (x : Ctx) (d : Dev) (a : Nat) (bs : List Nat) : Dev := d.st x a bs.length (leNat bs)

/-- Clear [lo, hi). -/
def Dev.zeroMem (d : Dev) (lo hi : Nat) : Dev := { d with writes := .zero lo hi :: d.writes }

/-! ### Registers -/

/-- The stored value of the register at a BAR0 offset. -/
def Dev.reg (d : Dev) (off : Nat) : Nat := ((tblGet off d.regs).getD (regReset off)).toNat

/-- Set a register; one that holds its reset value is not listed. -/
def Dev.setReg (d : Dev) (off v : Nat) : Dev :=
  let w := BitVec.ofNat 32 v
  if w == regReset off then { d with regs := tblDel off d.regs } else { d with regs := tblSet off w d.regs }

/-- A field of a register. -/
def Dev.fld (d : Dev) (off lo len : Nat) : Nat := bits (d.reg off) lo len

/-- Set a field of a register. -/
def Dev.setFld (d : Dev) (off lo len v : Nat) : Dev := d.setReg off (setBits (d.reg off) lo len v)

/-- Advance a saturating counter. -/
def Dev.bump (d : Dev) (off n : Nat) : Dev := d.setReg off (min (d.reg off + n) 0xFFFFFFFF)

/-! ### Free values and output -/

/-- Draw a free value. -/
def Dev.draw (d : Dev) : Nat × Dev := (Config.freeNat d.free, { d with free := d.free + 1 })

/-- Send something out. -/
def Dev.send (d : Dev) (o : Out) : Dev := { d with wire := d.wire ++ [o] }

/-! ### Interrupts (R535, R536) -/

/-- Send a vector's message, or set its pending bit while it is masked. PRESUMED (log 11): as the PCIe specification has it,
nothing is sent or kept pending while MSI-X is disabled, and a message needs Bus Master Enable. -/
def Dev.raise (d : Dev) (v : Nat) : Dev :=
  if !d.hif.hp.msixEnable then d
  else if d.hif.hp.functionMask || bit (d.reg (Reg.msixCtrl v)) 0 || !d.hif.hp.bme then
    d.setFld (Reg.msixPba (v / 32)) (v % 32) 1 1
  else d.send (.msix v)

/-- Raise a coalesced vector: its count and timer start again (R536). -/
def Dev.raiseVec (d : Dev) (v : Nat) : Dev :=
  { d with hif := { d.hif with vecs := tblDel v d.hif.vecs } }.raise v

/-- Signal one item towards a vector (R536). -/
def Dev.signal (d : Dev) (v : Nat) (now : Bool) : Dev :=
  let old := (tblGet v d.hif.vecs).getD ⟨0, d.now⟩
  let n := max 1 (d.fld (Reg.hifVecCoal v) 0 8)
  if now || n ≤ old.count + 1 then d.raiseVec v
  else { d with hif := { d.hif with vecs := tblSet v ⟨old.count + 1, old.oldest⟩ d.hif.vecs } }

/-! ### Completion queues (R526 to R530) -/

/-- The address of the ring area (R552). -/
def Dev.ringBase (d : Dev) : Nat := d.fld Reg.hifRingBase 0 18 * 0x40000000

/-- Entries that fetched commands of the SQs bound to a CQ can still post (R530). -/
def Dev.owed (d : Dev) (cq : Nat) : Nat :=
  sumOf ((d.hif.flights.filter fun f => match tblGet f.cmd.sq d.hif.sqs with
    | some q => q.cq == cq
    | none => false).map (·.posts))

/-- Room of a CQ for one more entry beside those already owed (R530). -/
def Dev.room (d : Dev) (cq : Nat) : Nat :=
  match tblGet cq d.hif.cqs with
  | some q => 2 ^ q.sizeLog2 - q.live - d.owed cq
  | none => 0

/-- Post a 32 B entry to a CQ. `form` is the FORM code; the rest of the entry comes without byte 5. -/
def Dev.post (x : Ctx) (d : Dev) (cq form val : Nat) (irqNow : Bool) : Dev :=
  match tblGet cq d.hif.cqs with
  | none => d
  | some q =>
    let v := setBits val 40 8 (form + ofB q.phase * 128)
    let d := d.st x (d.ringBase + q.offset + 32 * q.tail) 32 v
    let t := (q.tail + 1) % 2 ^ q.sizeLog2
    let q' := { q with tail := t, phase := if t == 0 then !q.phase else q.phase, live := q.live + 1 }
    let d := { d with hif := { d.hif with cqs := tblSet cq q' d.hif.cqs } }
    match q.vector with
    | some vec => d.signal vec irqNow
    | none => d

/-- The code of a status (R25). -/
def Status.code : Status → Nat
  | .DONE => 0x00 | .DONE_DEGRADED => 0x01 | .DONE_PARTIAL => 0x02
  | .REFUSED_CAPACITY => 0x10 | .REFUSED_STATE => 0x11 | .REFUSED_RESOURCE => 0x12
  | .CANCELLED => 0x20 | .GRAMMAR_DEAD => 0x21 | .STOPPED => 0x22
  | .FAULT_MEDIA => 0x30 | .FAULT_UNIT => 0x31 | .FAULT_TIMEOUT => 0x32 | .FAULT_LINK => 0x40 | .NOT_PRESENT => 0x7F

/-- Whether a status is one of the refusals of R26. -/
def Status.refused : Status → Bool
  | .REFUSED_CAPACITY | .REFUSED_STATE | .REFUSED_RESOURCE | .NOT_PRESENT => true
  | _ => false

/-- Drop the record of a command in flight. -/
def Dev.land (d : Dev) (c : Cmd) : Dev :=
  { d with hif := { d.hif with flights := d.hif.flights.eraseP fun f => f.cmd.sq == c.sq && f.cmd.cmdId == c.cmdId } }

/-- The FINAL entry of a command, without its byte 5 (R526). -/
def finalEntry (c : Cmd) (head : Nat) (s : Status) (result stamp : Nat) : Nat :=
  packFields [(0, 4, c.cmdId), (4, 1, s.code), (6, 2, c.sq), (8, 4, result), (12, 2, head), (16, 8, stamp), (24, 8, c.user)]

/-- Post a FINAL entry (R527). -/
def Dev.postFinal (x : Ctx) (d : Dev) (c : Cmd) (s : Status) (result stamp : Nat) : Dev :=
  match tblGet c.sq d.hif.sqs with
  | none => d
  | some q => d.post x q.cq 0 (finalEntry c q.head s result stamp) c.irqNow

/-- Once nothing fetched from a queue being deleted is in flight, the queue goes and Q_DELETE_SQ completes (R532). -/
def Dev.settleDelete (x : Ctx) (d : Dev) (sq : Nat) : Dev :=
  match tblGet sq d.hif.sqs with
  | some q => match q.deleting with
    | some c =>
      if d.hif.flights.any fun f => f.cmd.sq == sq then d
      else
        let d := { d with hif := { d.hif with sqs := tblDel sq d.hif.sqs } }
        (d.land c).postFinal x c .DONE 0 d.now
    | none => d
  | none => d

/-- A command finishes: its record goes, its FINAL entry is posted with this stamp. -/
def Dev.finishAt (x : Ctx) (d : Dev) (c : Cmd) (s : Status) (result stamp : Nat) : Dev :=
  (((d.land c).postFinal x c s result stamp)).settleDelete x c.sq

/-- A command finishes now. -/
def Dev.finish (x : Ctx) (d : Dev) (c : Cmd) (s : Status) (result : Nat) : Dev := d.finishAt x c s result d.now

/-- Finish the command of an operation that may have none. -/
def Dev.finish? (x : Ctx) (d : Dev) (c : Option Cmd) (s : Status) (result : Nat) : Dev :=
  match c with
  | some c => d.finish x c s result
  | none => d

/-- Post an EVENT entry, or count it lost (R537). -/
def Dev.event (x : Ctx) (d : Dev) (code arg0 arg1 arg2 : Nat) : Dev :=
  let cq := d.fld Reg.hifEvtCtl 0 11
  if bit (d.reg Reg.hifEvtCtl) 31 && 0 < d.room cq then
    d.post x cq 2 (packFields [(0, 4, code), (6, 2, 0xFFFF), (8, 4, arg0), (12, 4, arg1), (16, 8, d.now), (24, 8, arg2)]) false
  else d.bump Reg.hifEvtLost 1

/-! ### Submission entries (R524) -/

/-- A field of an entry: `len` bytes from byte `off`. -/
def Entry.f (e : Entry) (off len : Nat) : Nat := bits e.bytes.toNat (8 * off) (8 * len)

/-- The identity of an entry's command. -/
def Entry.cmd (e : Entry) : Cmd :=
  ⟨e.sq, e.f 4 4, e.f 8 8, e.f 0 1, bit (e.f 1 1) 0, bit (e.f 1 1) 1⟩

/-- Whether an entry writes a reserved byte or bit other than 0. `used` lists the byte ranges of the command's own fields
as (offset, length); `flags` the reserved bits inside them as (bit offset, bits). -/
def Entry.reservedSet (e : Entry) (used : List (Nat × Nat)) (flags : List (Nat × Nat)) : Bool :=
  bits e.bytes.toNat 10 6 != 0 || e.f 2 2 != 0 ||
  ((List.range 48).any fun i => e.f (16 + i) 1 != 0 && !(used.any fun u => u.1 ≤ 16 + i && 16 + i < u.1 + u.2)) ||
  flags.any fun u => bits e.bytes.toNat u.1 u.2 != 0

/-! ### Error reports (R681 to R692) -/

/-- SOURCE of a unit's register block at a BAR0 offset, with a sub-unit and a cell (R682). -/
def sourceOf (block sub cell : Nat) : Nat := block / 0x1000 % 0x4000 + sub * 0x4000 + cell * 0x100000

/-- The log of a source: quadrant n's log for a block in QDn, the chip log otherwise (R681). -/
def logOf (source : Nat) : Nat :=
  let b := source % 0x4000 * 0x1000
  if 0x100000 ≤ b && b < 0x1100000 then (b - 0x100000) / 0x400000 + 1 else 0

/-- The time that quadrant q's blocks stamp with (R63, R64): once its timekeeper is aligned, what the timekeeper shows, which stays within 16 ns of
device time and never runs backwards; device time before. DESIGN CHOICE (log 49): what it shows is a free value within those bounds, held up by its
own past. -/
def Dev.quadTime (d : Dev) (q : Nat) : Nat :=
  if (getAt Timekeeper.reset q d.time.quads).aligned then
    (List.range 33).foldl (fun m k => max m (max (d.now - k - 16) (min (Config.quadClock q (d.now - k)) (d.now - k + 16)))) 0
  else d.now

/-- The stamp of a report: its source's own time (R64). -/
def Dev.stampOf (d : Dev) (source : Nat) : Nat := match logOf source with | 0 => d.now | q + 1 => d.quadTime q

/-- The warning class of a report type (R692). -/
def warnClass : Nat → Option Nat
  | 0x01 => some 0
  | 0x03 => some 1
  | 0x05 => some 2
  | 0x43 => some 3
  | _ => none

/-- Merge a report into another of the same kind (R685, R687). -/
def Report.merge (a r : Report) : Report :=
  { a with count := min (a.count + r.count) 0xFFFFFFFF, lastStamp := max a.lastStamp r.lastStamp, sev := max a.sev r.sev }

/-- Put a report into the intake queue of its log (R687). -/
def Dev.enqueueReport (d : Dev) (r : Report) : Dev :=
  let k := logOf r.source
  let l := getAt ErrLog.reset k d.err.logs
  if l.queue.length < 64 then
    { d with err := { d.err with logs := setAt ErrLog.reset { l with queue := l.queue ++ [r] } k d.err.logs } }
  else if l.queue.any fun q => q.source == r.source && q.type == r.type && q.injected == r.injected then
    let q' := replaceFirst (fun q => q.source == r.source && q.type == r.type && q.injected == r.injected) (·.merge r) l.queue
    { d with err := { d.err with logs := setAt ErrLog.reset { l with queue := q' } k d.err.logs } }
  else d.bump (Reg.errlogLLost k) 1

/-- The warning window in nanoseconds (R422). -/
def Dev.warnWindow (d : Dev) : Nat := d.fld Reg.ckptWarnCtl 16 16 * 1000000

/-- Count a report in its warning class, in the second's total and in the warning window (R422, R692). -/
def Dev.countWarning (d : Dev) (type : Nat) : Dev :=
  match warnClass type with
  | none => d
  | some c =>
    let d := d.bump (Reg.errlogCeClass c) 1
    let sec := d.now / 1000000000
    let d := if d.err.secWin == sec then { d with err := { d.err with secCount := d.err.secCount + 1 } }
             else { d with err := { d.err with secPrev := if d.err.secWin + 1 == sec then d.err.secCount else 0, secWin := sec, secCount := 1 } }
    if !bit (d.reg Reg.ckptWarnSrc) c || d.warnWindow == 0 then d
    else
      let w := d.now / d.warnWindow
      if d.err.warnWin == w then { d with err := { d.err with warnCount := d.err.warnCount + 1 } }
      else { d with err := { d.err with warnWin := w, warnCount := 1 } }

/-- The level of the ladder at which a report type is detected (R34, R683, R693). DEDUCED (log 18): the level of the unit or
recovery that the type names; a second SEG_CRC is of block level. -/
def typeLevel (type sev : Nat) : Nat :=
  if type ≤ 0x05 || type == 0x20 || (0x30 ≤ type && type ≤ 0x33) || type == 0x40 || type == 0x43 then 0
  else if type == 0x10 then (if sev == 1 then 0 else 1)
  else if type == 0x06 || type == 0x07 || type == 0x21 || type == 0x28 || type == 0x2A || type == 0x36 ||
    (0x41 ≤ type && type ≤ 0x46) then 1
  else if type == 0x22 || type == 0x29 then 2
  else 3

/-- Slots of 320 d bytes from a pseudo-channel's base; the slot an HBM address lies in, for the resident head dimension. -/
def Dev.slotOf (d : Dev) (a : Nat) : Nat :=
  match d.kv.shape with
  | some sh => let pc := a / 0xC0000000 * 0xC0000000
               if sh.d == 0 then a else pc + (a - pc) / (320 * sh.d) * (320 * sh.d)
  | none => a

/-- Count a corrected HBM error against its slot, in windows of RETIRE_CTL (R301). -/
def Dev.countSlotError (d : Dev) (a : Nat) : Dev :=
  let s := d.slotOf a
  let win := d.fld Reg.sessRetireCtl 16 16 * 1000000000
  let ce := match d.kv.pool.ce.find? fun c => c.1 == s with
    | some (_, start, n) =>
      if win != 0 && start / win == d.now / win then replaceFirst (fun c => c.1 == s) (fun _ => (s, start, n + 1)) d.kv.pool.ce
      else replaceFirst (fun c => c.1 == s) (fun _ => (s, d.now, 1)) d.kv.pool.ce
    | none => d.kv.pool.ce ++ [(s, d.now, 1)]
  { d with kv := { d.kv with pool := { d.kv.pool with ce := ce } } }

/-- Note whether the last error of a slot was injected (R691). -/
def Dev.markInjected (d : Dev) (injected : Bool) (a : Nat) : Dev :=
  let s := d.slotOf a
  let rest := d.kv.pool.injected.filter fun b => b != s
  { d with kv := { d.kv with pool := { d.kv.pool with injected := if injected then rest ++ [s] else rest } } }

/-- Count a corrected SRAM error against its 4 KiB line, within the present scrub pass (R680). -/
def Dev.countLineError (d : Dev) (a : Nat) : Dev :=
  let k := a / 4096
  { d with err := { d.err with lineCe := tblSet k ((tblGet k d.err.lineCe).getD 0 + 1) d.err.lineCe } }

/-- A report arises: retirement and warning counters take it at its source, and it enters its log's intake queue (R681,
R687, R692). -/
def Dev.reportAs (d : Dev) (injected : Bool) (source type sev info : Nat) : Dev :=
  let d := if type == 0x01 || type == 0x02 then d.markInjected injected info else d
  let d := if type == 0x01 then d.countSlotError info else if type == 0x03 then d.countLineError info else d
  (d.countWarning type).enqueueReport ⟨source, type, sev, typeLevel type sev, injected, info, d.stampOf source, d.stampOf source, 1⟩

/-- A natural report arises. -/
def Dev.report (d : Dev) (source type sev info : Nat) : Dev := d.reportAs false source type sev info

/-- The CHIP block as a source (R681: reports that name no unit). -/
def chipSource : Nat := 0

/-- An access to an unmapped address writes an ADDR_HOLE entry that names it (R84): the first of the access. -/
def Dev.holeCheck (x : Ctx) (d : Dev) (a len : Nat) : Dev :=
  match holeIn x.fuses.part d a len with
  | some h => d.report chipSource 0x12 3 h
  | none => d

/-! ### ECC words (R674, R676) -/

/-- The source of an HBM or SRAM report: the stack controller or the SRAM block, and the pseudo-channel or bank cell. -/
def eccSource (a : Nat) : Nat :=
  if a < 0x12000000000 then
    let s := stackOf a
    sourceOf (0x140000 + quadOfStack s * 0x400000 + s % 3 * 0x10000) 0 (a / 0xC0000000 % 32 + 1)
  else if inStaging a then sourceOf (0x130000 + (a - 0x400100000000) / 0x1800000 * 0x400000) 0 0
  else sourceOf (0x130000 + (a - 0x400000000000) / 0x18000000 * 0x400000) 0 0

/-- Whether a range holds an uncorrectable word, or lies on a stack whose controller has failed (R696). -/
def Dev.mediaBad (d : Dev) (a len : Nat) : Bool :=
  (d.err.bad.any fun b => b.uncorrectable && b.within a len) ||
    d.err.deadStacks.any fun s => a < (s + 1) * stackBytes && s * stackBytes < a + max 1 len

/-- Read a range through ECC: each corrected word is written back with one report, each uncorrectable word sends one report
(R676). `lost` is the severity the structure's owner gives an uncorrectable word. -/
def Dev.eccRead (d : Dev) (a len : Nat) (lost : Bool) : Dev :=
  let hit := d.err.bad.filter fun b => b.within a len
  let keep := (d.err.bad.filter fun b => !(b.within a len) || b.uncorrectable).map fun b =>
    if b.within a len then { b with held := false } else b
  let d := { d with err := { d.err with bad := keep } }
  hit.foldl (fun d b =>
    let hbm := b.addr < 0x12000000000
    if b.uncorrectable then
      d.reportAs b.injected (eccSource b.addr) (if hbm then 0x02 else 0x04) (if lost then 3 else 1) b.addr
    else d.reportAs b.injected (eccSource b.addr) (if hbm then 0x01 else 0x03) 0 b.addr) d

/-! ### Running a command -/

/-- What a command's effect looks at beside the device: the fuses, and memory as the command found it. -/
def State.ctx (s : State) : Ctx := ⟨s.fuses, s.mem⟩

/-- The device as a command finds it: with no memory effect listed yet. -/
def State.view (s : State) : Dev := { s.dev with writes := [] }

/-- The state that a device with listed memory effects stands for: the effects applied in order, everything else as the device has
it. The fuses and the queue stay. -/
def State.commit (s : State) (d : Dev) : State := { s with mem := s.mem.applyAll d.writes, dev := { d with writes := [] } }

/-- The state that a command's effect leads to. -/
def State.after (s : State) (f : Ctx → Dev → Dev) : State := s.commit (f s.ctx s.view)

/-- A command takes place: the next state. -/
def State.run (s : State) (f : Ctx → Dev → Dev) : Host.Outcome State Fault Refusal := .next (s.after f)

/-- The first check that fails gives the status; none where all hold. -/
def firstFail : List (Bool × Status) → Option Status
  | [] => none
  | (true, s) :: _ => some s
  | (false, _) :: t => firstFail t

/-- A command that is refused or done at once: on the first failing check it completes with that status and RESULT 0 and
changes nothing else (R26); otherwise its effect takes place. -/
def Dev.checked (x : Ctx) (d : Dev) (c : Cmd) (cs : List (Bool × Status)) (f : Dev → Dev) : Dev :=
  match firstFail cs with
  | some s => d.finish x c s 0
  | none => f d

end Sys2Proof.Machine
end

