-- ==== Sys2Proof/Machine/Operands.lean ====
section
/-! DEFINITION. Machine/Operands.lean: the operand forms of commands: submission entries with their reserved bytes and the
UNPREDICTABLE (contained) outcome (R21, R29 to R31), and BAR0 accesses with their completion codes (R17, R46, R86, R604,
R720). -/

namespace Sys2Proof.Machine

/-! ### UNPREDICTABLE (contained) -/

/-- A status of R25 from a free value. -/
def Status.ofFree (n : Nat) : Status :=
  getAt .DONE (n % 14) [.DONE, .DONE_DEGRADED, .DONE_PARTIAL, .REFUSED_CAPACITY, .REFUSED_STATE, .REFUSED_RESOURCE, .CANCELLED,
    .GRAMMAR_DEAD, .STOPPED, .FAULT_MEDIA, .FAULT_UNIT, .FAULT_TIMEOUT, .FAULT_LINK, .NOT_PRESENT]

/-- The session table, by its base register (R92, R145). -/
def Dev.tableBase (d : Dev) : Nat := d.fld Reg.sessTableBase 0 18 * 0x40000000

/-- The usage-meter table (R549, R552). -/
def Dev.meterBase (d : Dev) : Nat := d.fld Reg.hifMeterBase 0 30 * 0x40000

/-- A base register that holds address bits [47:30]. -/
def Dev.gibBase (d : Dev) (off : Nat) : Nat := d.fld off 0 18 * 0x40000000

/-- The regions of R250 that hold no session's, page's or index's own bytes, as (base, bytes): boot, session and prefix tables, manifests, tail shadow,
TEXT, checkpoint buffer, ring area, meters and Belt heap. -/
def Dev.deviceRegions (x : Ctx) (d : Dev) : List (Nat × Nat) :=
  [(0, 0x20000000), (d.tableBase, 0x40000000), (d.gibBase Reg.sessManifestBase, 0x40000000), (d.fld Reg.sessPfxBase 0 30 * 0x40000, 0x40000),
   (d.gibBase Reg.tailShadowBase, 0x40000000), (d.gibBase Reg.textAreaBase, 0x20000000), (d.gibBase Reg.ckptBufBase, 0x40000000),
   (d.ringBase, 0x40000000), (d.meterBase, 0x400000)] ++
  (if x.fuses.part.hasBelt then [(d.gibBase Reg.beltHeapBase, d.fld Reg.beltHeapSize 0 16 * 0x40000000)] else [])

/-- The slots that are lent to neighbours, as (base, bytes) (R293). -/
def Dev.lentSlots (d : Dev) : List (Nat × Nat) :=
  (d.tier.lent.flatMap fun l => l.slots.flatMap (·.2)).map fun a => (a, 320 * (match d.kv.shape with | some sh => sh.d | none => 0))

/-- Bytes that a contained outcome may write (R29): fitted HBM outside the device's own regions and what is lent. -/
def Dev.tenantBytes (x : Ctx) (d : Dev) (a len : Nat) : Bool :=
  hbmRange x.fuses.part a len && !((d.deviceRegions x ++ d.lentSlots).any fun r => a < r.1 + r.2 && r.1 < a + len)

/-- The UNPREDICTABLE (contained) outcome: the tenant's sessions, pages, indexes and buffers take free values (R29). -/
def Dev.contained (x : Ctx) (d : Dev) : Dev :=
  let c := Config.contained d.free ⟨d.sess.table, d.kv.pages, d.rcl.indexes, []⟩
  let ws := c.bytes.filterMap fun b => if d.tenantBytes x b.1 b.2.1 then some (MemOp.store b.1 b.2.1 b.2.2) else none
  { d with free := d.free + 1, sess := { d.sess with table := c.sessions }, kv := { d.kv with pages := c.pages },
           rcl := { d.rcl with indexes := c.indexes }, writes := ws ++ d.writes }

/-- A command whose outcome is UNPREDICTABLE (contained): the tenant's own structures take free values, and exactly one
completion is posted, with a free status of R25 and a free RESULT (R29, R31). A refusal changes nothing (R26). -/
def Dev.unpredictable (x : Ctx) (d : Dev) (c : Cmd) : Dev :=
  let (st, d) := d.draw
  let (res, d) := d.draw
  let d := if (Status.ofFree st).refused then d else d.contained x
  d.finish x c (Status.ofFree st) (u32 res)

/-- A ring command: with every reserved byte and bit 0 its effect takes place, otherwise the outcome is UNPREDICTABLE
(contained) (R21, R534). `used` lists the fields of the command as (byte, bytes), `res` reserved bits inside them. -/
def State.ring (s : State) (e : Entry) (used : List (Nat × Nat)) (res : List (Nat × Nat)) (f : Ctx → Dev → Cmd → Dev) :
    Host.Outcome State Fault Refusal :=
  s.run fun x d => if e.reservedSet used res then d.unpredictable x e.cmd else f x d e.cmd

/-! ### Start-up stage and power domains -/

/-- CHIP.BOOT_STAT.STAGE (R602). -/
def Dev.stage (d : Dev) : Nat := d.fld Reg.chipBootStat 28 4

/-- Whether the device is OPERATIONAL. -/
def Dev.operational (d : Dev) : Bool := d.stage == 8

/-- Whether it is in Eclipse mode (R606). -/
def Dev.eclipse (d : Dev) : Bool := d.stage == 15

/-- Whether a quadrant has power and is out of reset: not power-gated (R667), tripped (R658), in the forced part of a reset (R618) or left offline (R694).
While it only drains its registers still answer (R46). -/
def Dev.quadPowered (d : Dev) (q : Nat) : Bool :=
  !(bit (d.reg Reg.pmcGate) q) && !d.pmc.tripped && !(d.boot.quadResets.any fun r => r.quad == q && r.stage != 1) && !(d.boot.quadOffline.contains q)

/-- Whether a quadrant serves: not power-gated (R667) or drained for it (R668), not tripped (R658),
not being reset (R618), not left offline (R694). -/
def Dev.quadUp (d : Dev) (q : Nat) : Bool :=
  !(bit (d.reg Reg.pmcGate) q) && !(d.pmc.gating.any fun g => g.domain == q && g.drained) && !d.pmc.tripped && !(d.boot.quadResets.any fun r => r.quad == q) && !(d.boot.quadOffline.contains q)

/-- Whether a power domain is on and out of reset (R46, R85, R667). -/
def Dev.domainUp (d : Dev) : Domain → Bool
  | .control | .die0 | .die1 => true
  | .quad n => d.quadPowered n
  | .rcl => !(bit (d.reg Reg.pmcGate) 5)
  | .belt => !(bit (d.reg Reg.pmcGate) 4)
  | .cvfGroup g => !(bit (d.reg Reg.pmcGate) (8 + g))

/-! ### BAR0 (R85 to R88) -/

/-- The power domain of a BAR0 offset; none for the reserved ranges (R85, R541). -/
def domainOf (off : Nat) : Option Domain :=
  if off < 0x100000 then some .control
  else if off < 0x1100000 then some (.quad ((off - 0x100000) / 0x400000))
  else if off < 0x1400000 then some .die0
  else if off < 0x1500000 then some .rcl
  else if off < 0x1600000 then some .die1
  else if off < 0x1700000 then some (.cvfGroup (if off < 0x1680000 then 0 else 1))
  else if off < 0x1800000 then none
  else if off < 0x1900000 then some .control
  else if off < 0x1A00000 then some .belt
  else if 0x1C00000 ≤ off && off < 0x1D00000 then
    let m := (off - 0x1C00000) / 0x100
    if 3 ≤ m && m ≤ 6 then some (.quad (m - 3)) else if m == 7 then some .belt else some .control
  else if off < 0x1E00000 then some .control
  else none

/-- Whether an offset lies in the register block or sub-block of a unit that the part lacks (R17, R88, R244, R416, R544). -/
def absentBlock (p : Part) (off : Nat) : Bool :=
  if 0x100000 ≤ off && off < 0x1100000 then
    let n := (off - 0x100000) / 0x400000
    let o := (off - 0x100000) % 0x400000
    if 0x40000 ≤ o && o < 0x70000 then
      let k := (o - 0x40000) / 0x10000
      let r := o % 0x10000
      let s := 3 * n + k
      !(p.fittedStacks.contains s) ||
      (k == 0 && 0x100 ≤ r && r < 0x120 && !(p.computeStacks.contains s)) ||
      (0x120 ≤ r && r < 0x140 && !p.hasRecall && !(p.computeStacks.contains s))
    else false
  else if 0x1400000 ≤ off && off < 0x1500000 then !p.hasRecall
  else if 0x1900000 ≤ off && off < 0x1A00000 then !p.hasBelt
  else if 0x1C00700 ≤ off && off < 0x1C00800 then !p.hasBelt
  else false

/-- How HP completes an access to a BAR0 offset: a BAR that is not decoded (R720), an absent unit (R17), a stage before
OPERATIONAL (R604), a domain that is off or in reset (R46), or success. DEDUCED (log 13): in the ROM stage CHIP and MBOX are
not yet decoded (R602), and such an access completes with Unsupported Request; before OPERATIONAL the reserved ranges of R85 answer as the blocks
other than CHIP and MBOX do. -/
def Dev.bar0Cpl (x : Ctx) (d : Dev) (off : Nat) : Cpl :=
  if d.eclipse || d.hif.hp.d3hot || 0x4000000 ≤ off then .unsupportedRequest
  else if absentBlock x.fuses.part off then .unsupportedRequest
  else
    let early := off < 0x100000 || (0x1C00000 ≤ off && off < 0x1D00000)
    if !d.operational && !early then .completerAbort
    else if d.stage == 1 then .unsupportedRequest
    else match domainOf off with
      | none => .success
      | some dom => if d.domainUp dom then .success else .completerAbort

/-- A BAR0 access: where HP serves it, its effect; otherwise it only completes with its code. -/
def Dev.bar0 (x : Ctx) (d : Dev) (off : Nat) (f : Dev → Dev) : Dev :=
  match d.bar0Cpl x off with
  | .success => f d
  | c => d.send (.cpl c 0 false)

/-- Whether CHIP.LOCK is set (R80). -/
def Dev.locked (d : Dev) : Bool := bit (d.reg Reg.chipLock) 0

end Sys2Proof.Machine
end

