-- ==== Sys2Proof/Machine/Messages.lean ====
section
/-! DEFINITION. Machine/Messages.lean: sending messages over the fabric: addresses, routes, frames and the egress queues they
enter (R466 to R469, R475 to R481, R488, R495, R496). Frames leave at FRAME_START. -/

namespace Sys2Proof.Machine

/-- This device's fabric address (R475, R510). -/
def Dev.fabricAddr (d : Dev) : Nat := d.fld Reg.fabFabId 0 16

/-- Whether a port is up; a port that changes width is up (R508). -/
def Dev.portUp (d : Dev) (p : Nat) : Bool := p < 8 && 3 ≤ d.fld (Reg.cvfStat p) 29 3 && d.domainUp (.cvfGroup (p / 4))

/-- The port towards a fabric address; none where there is no route (R478). -/
def Dev.route (d : Dev) (dst : Nat) : Option Nat :=
  let e := if dst / 32 == d.fabricAddr / 32 then d.reg (Reg.fabRoutePos (dst % 32)) else d.reg (Reg.fabRouteNode (dst / 32 % 2048))
  if bit e 31 && d.portUp (bits e 0 3) then some (bits e 0 3) else none

/-- Insert a frame into a deadline lane: earliest deadline first, in arrival order among equals (R495). -/
def laneInsert (f : EgFrame) (l : List EgFrame) : List EgFrame :=
  insertBy (fun (a b : EgFrame) => decide (a.msg.deadline.getD 0 < b.msg.deadline.getD 0)) f l

/-- Put a frame into the queues of its class. -/
def ClassQ.push (q : ClassQ) (f : EgFrame) (qsel : Nat) : ClassQ :=
  if f.msg.deadline.isSome then { q with lane := laneInsert f q.lane }
  else { q with queues := setAt [] (getAt [] qsel q.queues ++ [f]) qsel q.queues }

/-- Update a port. -/
def Dev.setPort (d : Dev) (p : Nat) (f : Port → Port) : Dev :=
  { d with cvf := { d.cvf with ports := setAt .reset (f (getAt .reset p d.cvf.ports)) p d.cvf.ports } }

/-- A port. -/
def Dev.port (d : Dev) (p : Nat) : Port := getAt .reset p d.cvf.ports

/-- Queue a frame at a port. -/
def Dev.pushFrame (d : Dev) (p : Nat) (f : EgFrame) (qsel : Nat) : Dev :=
  d.setPort p fun P =>
    let c := f.msg.cls
    { P with shaper := { P.shaper with classes := setAt .reset ((getAt .reset c P.shaper.classes).push f qsel) c P.shaper.classes } }

/-- The frames of a message: 4,096 payload bytes each, the rest in the last (R466). -/
def Msg.frames (m : Msg) (src hops : Nat) (enq : Ns) : List EgFrame :=
  (List.range (max 1 (cdiv m.bytes 4096))).map fun i =>
    let last := m.bytes ≤ 4096 * (i + 1)
    ⟨m, src, hops, 4096 * i, if last then m.bytes - 4096 * i else 4096, last, enq⟩

/-- Whether a message may travel on a port in clear (R631). -/
def clearKind (kind cls : Nat) : Bool := (1 ≤ kind && kind ≤ 5) || kind == 7 || (0x11 ≤ kind && kind ≤ 0x15) || cls == 5

/-- The register block of a port as a source. -/
def portSource (p : Nat) : Nat := sourceOf (0x1600000 + p * 0x20000) 0 0

/-- QSEL of a message without a deadline, by its kind (R496): the tag of a move, lending, DROP notices, RING_BREAK, or what its unit names. -/
def qselOf (kind : Nat) (fields : List Nat) (own : Nat) : Nat :=
  match kind with
  | 0x10 => getAt 0 0 fields % 8
  | 0x30 => 0
  | 0x31 => 1
  | 0x32 => 2
  | 0x3F => 3
  | _ => own % 8

/-- Send a message on a given port. A message that a port in clear may not carry fails with an error-log entry (R631). The answer tells whether it could be queued; without a port that is up the message fails at
once (R478). -/
def Dev.sendOn (d : Dev) (port : Nat) (dst kind cls : Nat) (name : String) (bytes : Nat) (fields : List Nat)
    (deadline : Option Ns) (qsel : Nat) (owner : MsgOwner) : Dev × Bool :=
  if d.portUp port && d.fld (Reg.cvfCtl port) 28 2 == 0 && !(clearKind kind cls) then (d.report (portSource port) 0x45 3 kind, false)
  else if d.portUp port then
    let m : Msg := ⟨d.cvf.nextMsg, dst, kind, cls, name, bytes, fields, deadline, qselOf kind fields qsel, owner⟩
    let d := { d with cvf := { d.cvf with nextMsg := u32 (d.cvf.nextMsg + 1), sent := d.cvf.sent ++ [(port, m)] } }
    ((m.frames d.fabricAddr (d.fld Reg.fabFabCtl 24 4) d.now).foldl (fun d f => d.pushFrame port f m.qsel) d, true)
  else (d, false)

/-- Send a message by the route tables (R478). -/
def Dev.sendTo (d : Dev) (dst kind cls : Nat) (name : String) (bytes : Nat) (fields : List Nat)
    (deadline : Option Ns) (qsel : Nat) (owner : MsgOwner) : Dev × Bool :=
  match d.route dst with
  | some p => d.sendOn p dst kind cls name bytes fields deadline qsel owner
  | none => (d.bump Reg.fabNoRoute 1, false)

/-- Send a message whose failure nothing waits for. -/
def Dev.sendNote (d : Dev) (dst kind cls : Nat) (name : String) (bytes : Nat) (fields : List Nat) (qsel : Nat) : Dev :=
  (d.sendTo dst kind cls name bytes fields none qsel .none).1

/-- The next contact of a borrower after a restart of this device is answered LOAN_VOID for each loan that it held (R298). -/
def Dev.contact (d : Dev) (borrower : Nat) : Dev :=
  let gone := (d.tier.voided.filter fun l => l.1 == borrower).map (·.2)
  let d : Dev := { d with tier := { d.tier with voided := d.tier.voided.filter fun l => l.1 != borrower } }
  gone.foldl (fun (d : Dev) n => d.sendNote borrower 0x30 5 "LOAN_VOID" 64 [n] 0) d

/-- Send a ring record onward: RSN, a number and a flag (R237, R238). -/
def Dev.ringRecord (d : Dev) (r : Ring) (name : String) (fields : List Nat) : Dev :=
  (d.sendOn r.nextPort 0 0x06 0 name 64 fields none r.id (.ring r.id)).1

/-- Whether a message is a ring record, whose first word is its RSN. -/
def Msg.isRecord (m : Msg) : Bool := m.kind == 0x06 && ["STEP", "CANCEL", "PARK", "REVIVE", "CLOSE", "UNDO", "CKPT", "MOVE", "COMMIT"].contains m.name

/-- A frame goes ahead of the frames of a queue that hold other records of its ring session (R238). -/
def aheadOf (rsn : Nat) (f : EgFrame) : List EgFrame → List EgFrame
  | [] => [f]
  | g :: t => if g.msg.isRecord && g.msg.fields.head? == some rsn then f :: g :: t else g :: aheadOf rsn f t

/-- Send a CANCEL record onward, ahead of any other record of its RSN (R238). -/
def Dev.ringCancel (d : Dev) (r : Ring) (rsn : Nat) : Dev :=
  if !(d.portUp r.nextPort) then d
  else
    let m : Msg := ⟨d.cvf.nextMsg, 0, 0x06, 0, "CANCEL", 64, [rsn], none, r.id, .ring r.id⟩
    let d := { d with cvf := { d.cvf with nextMsg := u32 (d.cvf.nextMsg + 1), sent := d.cvf.sent ++ [(r.nextPort, m)] } }
    (m.frames d.fabricAddr (d.fld Reg.fabFabCtl 24 4) d.now).foldl (fun (d : Dev) f => d.setPort r.nextPort fun P =>
      let q := getAt .reset 0 P.shaper.classes
      let q := { q with queues := setAt [] (aheadOf rsn f (getAt [] r.id q.queues)) r.id q.queues }
      { P with shaper := { P.shaper with classes := setAt .reset q 0 P.shaper.classes } }) d

end Sys2Proof.Machine
end

