-- ==== Sys2Proof/Machine/Num.lean ====
section
/-! DEFINITION. Machine/Num.lean: the arithmetic of the spec on bit patterns: FP32 and the narrow formats with directed
rounding (R155, R191, R722), exp and ln correctly rounded (R191, R339), mix64 (R161) and CRC-32C. -/

namespace Sys2Proof.Machine

/-! ### Floating-point values -/

/-- The value of a bit pattern: NaN, an infinity, or (-1)^neg · m · 2^e. -/
inductive FV
  | nan
  | inf (neg : Bool)
  | fin (neg : Bool) (m : Nat) (e : Int)
  deriving DecidableEq, Repr

/-- A format: bits of precision with the hidden one, exponent of the smallest quantum, width without the sign, the first
pattern that is not finite, and whether a result beyond the range becomes infinite (else the largest finite value). -/
structure Fmt where
  p : Nat
  qmin : Int
  width : Nat
  lim : Nat
  inf : Bool

/-- FP32. -/
def fp32 : Fmt := ⟨24, -149, 31, 0x7F800000, true⟩
/-- FP16. -/
def fp16 : Fmt := ⟨11, -24, 15, 0x7C00, true⟩
/-- BF16. -/
def bf16 : Fmt := ⟨8, -133, 15, 0x7F80, true⟩
/-- FP8 E4M3 (R155). -/
def e4m3 : Fmt := ⟨4, -9, 7, 0x7F, false⟩
/-- FP8 E5M2 (R182). -/
def e5m2 : Fmt := ⟨3, -16, 7, 0x7C, true⟩
/-- FP6 E2M3 (R182). -/
def e2m3 : Fmt := ⟨4, -3, 5, 0x20, false⟩
/-- FP6 E3M2 (R182). -/
def e3m2 : Fmt := ⟨3, -4, 5, 0x20, false⟩
/-- FP4 E2M1 (R154, R182). -/
def e2m1 : Fmt := ⟨2, -1, 3, 8, false⟩

/-- The value of a pattern of a format. -/
def Fmt.val (f : Fmt) (b : Nat) : FV :=
  let neg := bit b f.width
  let v := b % 2 ^ f.width
  if f.lim ≤ v then (if f.inf && v == f.lim then .inf neg else .nan)
  else
    let ex := v / 2 ^ (f.p - 1)
    let fr := v % 2 ^ (f.p - 1)
    if ex == 0 then .fin neg fr f.qmin else .fin neg (2 ^ (f.p - 1) + fr) (f.qmin + (ex : Int) - 1)

/-- Rounding directions. -/
inductive Rm
  | near | up | down
  deriving DecidableEq, Repr

/-- The pattern of a NaN result; no rule gives its sign and payload. -/
def nan32 : Nat := Config.nanPayload % 2 * 2 ^ 31 + 0x7F800000 + (1 + Config.nanPayload / 2 % 0x7FFFFF)

/-- The magnitude pattern of (m + δ)·2^e rounded, with 0 ≤ δ < 1 and δ > 0 exactly when `sticky`; `away` tells whether a
directed rounding goes away from zero. -/
def Fmt.roundMag (f : Fmt) (near away : Bool) (m : Nat) (e : Int) (sticky : Bool) : Nat :=
  let q := max (e + (Nat.log2 m : Int) - ((f.p : Int) - 1)) f.qmin
  let sh := (q - e).toNat
  let big := if e ≤ q then m / 2 ^ sh else m * 2 ^ (e - q).toNat
  let rem := if e ≤ q then m % 2 ^ sh else 0
  let half := 2 ^ (sh - 1)
  let inexact := rem != 0 || sticky
  let upw :=
    if near then
      sh != 0 && (half < rem || (rem == half && (sticky || big % 2 == 1)))
    else away && inexact
  let big := if upw then big + 1 else big
  let b := (q - f.qmin).toNat * 2 ^ (f.p - 1) + big
  if b < f.lim then b else if f.inf && (near || away) then f.lim else f.lim - 1

/-- Round (-1)^neg·(m + δ)·2^e to a format. -/
def Fmt.round (f : Fmt) (r : Rm) (neg : Bool) (m : Nat) (e : Int) (sticky : Bool) : Nat :=
  let away := match r with
    | .near => false
    | .up => !neg
    | .down => neg
  let b := if m == 0 && !sticky then 0 else f.roundMag (r == .near) away m e sticky
  ofB neg * 2 ^ f.width + b

/-- Pack a value into a format. The formats without infinities take their largest value for one. -/
def Fmt.pack (f : Fmt) (r : Rm) : FV → Nat
  | .nan => if f.width == 31 then nan32 else if f.inf then f.lim + 2 ^ (f.p - 2) else 2 ^ f.width - 1
  | .inf n => ofB n * 2 ^ f.width + (if f.inf then f.lim else f.lim - 1)
  | .fin n m e => f.round r n m e false

/-- Convert a pattern between formats. -/
def Fmt.to (f g : Fmt) (r : Rm) (b : Nat) : Nat := g.pack r (f.val b)

/-- Exact negation. -/
def FV.neg : FV → FV
  | .nan => .nan
  | .inf n => .inf (!n)
  | .fin n m e => .fin (!n) m e

/-- The exact sum of two values; a zero sum of nonzero or unlike-signed values is positive except when rounding down. -/
def FV.add (r : Rm) : FV → FV → FV
  | .nan, _ => .nan
  | _, .nan => .nan
  | .inf a, .inf b => if a == b then .inf a else .nan
  | .inf a, _ => .inf a
  | _, .inf b => .inf b
  | .fin a m e, .fin b k g =>
    let q := min e g
    let x : Int := (if a then -1 else 1) * (m : Int) * 2 ^ (e - q).toNat
    let y : Int := (if b then -1 else 1) * (k : Int) * 2 ^ (g - q).toNat
    let s := x + y
    if s == 0 then .fin (if a == b then a else r == .down) 0 q else .fin (decide (s < 0)) s.natAbs q

/-- The exact product. -/
def FV.mul : FV → FV → FV
  | .nan, _ => .nan
  | _, .nan => .nan
  | .inf a, .inf b => .inf (a != b)
  | .inf a, .fin b m _ => if m == 0 then .nan else .inf (a != b)
  | .fin a m _, .inf b => if m == 0 then .nan else .inf (a != b)
  | .fin a m e, .fin b k g => .fin (a != b) (m * k) (e + g)

/-- FP32 addition. -/
def fadd (r : Rm) (a b : Nat) : Nat := fp32.pack r (FV.add r (fp32.val a) (fp32.val b))

/-- FP32 multiplication. -/
def fmul (r : Rm) (a b : Nat) : Nat := fp32.pack r (FV.mul (fp32.val a) (fp32.val b))

/-- FP32 subtraction. -/
def fsub (r : Rm) (a b : Nat) : Nat := fp32.pack r (FV.add r (fp32.val a) (fp32.val b).neg)

/-- FP32 division. -/
def fdiv (r : Rm) (a b : Nat) : Nat :=
  match fp32.val a, fp32.val b with
  | .nan, _ => nan32
  | _, .nan => nan32
  | .inf _, .inf _ => nan32
  | .inf n, .fin k _ _ => fp32.pack r (.inf (n != k))
  | .fin n _ _, .inf k => ofB (n != k) * 2 ^ 31
  | .fin n m e, .fin k j g =>
    if j == 0 then (if m == 0 then nan32 else fp32.pack r (.inf (n != k)))
    else fp32.round r (n != k) (m * 2 ^ 64 / j) (e - g - 64) (m * 2 ^ 64 % j != 0)

/-- FP32 square root. -/
def fsqrt (r : Rm) (a : Nat) : Nat :=
  match fp32.val a with
  | .nan => nan32
  | .inf n => if n then nan32 else 0x7F800000
  | .fin n m e =>
    if m == 0 then a else if n then nan32
    else
      let e' := if e % 2 == 0 then e else e - 1
      let m' := (if e % 2 == 0 then m else 2 * m) * 2 ^ 64
      let s := Nat.sqrt m'
      fp32.round r false s (e' / 2 - 32) (s * s != m')

/-- Whether an FP32 pattern is a NaN, and whether it is finite. -/
def isNan (b : Nat) : Bool := 0x7F800000 < b % 2 ^ 31
@[inherit_doc isNan] def isFin (b : Nat) : Bool := b % 2 ^ 31 < 0x7F800000

/-- The magnitude of an FP32 pattern. -/
def fabs (b : Nat) : Nat := b % 2 ^ 31

/-- The order of FP32 values as integers; both zeros are 0. -/
def fkey (b : Nat) : Int := if bit b 31 then -((b % 2 ^ 31 : Nat) : Int) else ((b % 2 ^ 31 : Nat) : Int)

/-- a < b and a ≤ b on FP32 values; false where one is NaN. -/
def flt (a b : Nat) : Bool := !isNan a && !isNan b && decide (fkey a < fkey b)
@[inherit_doc flt] def fle (a b : Nat) : Bool := !isNan a && !isNan b && decide (fkey a ≤ fkey b)

/-- The larger of two FP32 values, the first of equals; a NaN gives +inf (used for error bounds, R175). -/
def fmax (a b : Nat) : Nat := if isNan a || isNan b then 0x7F800000 else if flt a b then b else a

/-- 2^k in FP32 for a k in range, rounded. -/
def fpow2 (k : Int) : Nat := fp32.round .near false 1 k false

/-- A natural number in FP32. -/
def fofNat (r : Rm) (n : Nat) : Nat := fp32.round r false n 0 false

/-! ### exp and ln (R191, R339) -/

/-- Fraction bits of the fixed-point evaluation. -/
def fixBits : Nat := 320

/-- The Taylor sum of exp at X / 2^fixBits from term i with value t, over the given number of terms. -/
def expSum (X : Nat) : Nat → Nat → Nat → Nat
  | 0, _, _ => 0
  | n + 1, i, t => t + expSum X n (i + 1) (t * X / 2 ^ fixBits / (i + 1))

/-- Square a fixed-point number n times. -/
def sqTimes : Nat → Nat → Nat
  | 0, s => s
  | n + 1, s => sqTimes n (s * s / 2 ^ fixBits)

/-- exp of m·2^e in fixed point, for a value of at most 128. -/
def expFix (m : Nat) (e : Int) : Nat :=
  let X := m * 2 ^ (e + fixBits - 7).toNat
  sqTimes 7 (expSum X 64 0 (2 ^ fixBits))

/-- exp of an FP32 value, rounded once (R191). -/
def fexpR (r : Rm) (a : Nat) : Nat :=
  match fp32.val a with
  | .nan => nan32
  | .inf n => if n then 0 else 0x7F800000
  | .fin n m e =>
    if m == 0 then 0x3F800000
    else if 128 * 2 ^ 149 < m * 2 ^ (e + 149).toNat then
      (if n then (if r == .up then 1 else 0) else (if r == .down then 0x7F7FFFFF else 0x7F800000))
    else
      let s := expFix m e
      if n then fp32.round r false (2 ^ (2 * fixBits) / s) (-(fixBits : Int)) true
      else fp32.round r false s (-(fixBits : Int)) true

/-- The exp unit (R191, R310). -/
def fexp (a : Nat) : Nat := fexpR .near a

/-- The sum of t^(2i+1) / (2i+1), scaled, from term i with power t. -/
def atanhSum (t2 : Nat) : Nat → Nat → Nat → Nat
  | 0, _, _ => 0
  | n + 1, i, t => t / (2 * i + 1) + atanhSum t2 n (i + 1) (t * t2 / 2 ^ fixBits)

/-- 2·atanh(a / b) in fixed point. -/
def lnRatio (a b : Nat) : Nat :=
  let t := a * 2 ^ fixBits / b
  2 * atanhSum (t * t / 2 ^ fixBits) 110 0 t

/-- The ln unit, correctly rounded (R339). -/
def fln (a : Nat) : Nat :=
  match fp32.val a with
  | .nan => nan32
  | .inf n => if n then nan32 else 0x7F800000
  | .fin n m e =>
    if m == 0 then 0xFF800000 else if n then nan32
    else
      let l := Nat.log2 m
      let k : Int := e + l
      let z := lnRatio (m - 2 ^ l) (m + 2 ^ l)
      let v : Int := k * (lnRatio 1 3 : Int) + z
      if v == 0 then 0 else fp32.round .near (decide (v < 0)) v.natAbs (-(fixBits : Int)) true

/-! ### Hashes -/

/-- x xor (x >> k). -/
def xorShift (x k : Nat) : Nat := x ^^^ (x / 2 ^ k)

/-- mix64 (R161). -/
def mix64 (z : Nat) : Nat :=
  let z := xorShift (u64 z) 30 * 0xBF58476D1CE4E5B9 % 2 ^ 64
  let z := xorShift z 27 * 0x94D049BB133111EB % 2 ^ 64
  xorShift z 31

/-- One bit of CRC-32C (reflected polynomial 0x82F63B78). -/
def crcBit : Nat → Nat → Nat
  | 0, c => c
  | n + 1, c => crcBit n (if c % 2 == 1 then (c / 2) ^^^ 0x82F63B78 else c / 2)

/-- CRC-32C of a list of bytes, with initial value and final complement of all ones. PRESUMED (log 20). -/
def crc32c (bs : List Nat) : Nat :=
  (bs.foldl (fun c b => crcBit 8 (c ^^^ (b % 256))) 0xFFFFFFFF) ^^^ 0xFFFFFFFF

/-- CRC-32C of the first `len` bytes of a little-endian number. -/
def crcOf (v len : Nat) : Nat := crc32c (leBytes v len)

/-- The value with its CRC-32C over bytes 0 to 0xFB in bytes 0xFC to 0xFF, as descriptors, headers, manifests and image
headers carry it. -/
def withCrc256 (v : Nat) : Nat := setBits v 2016 32 (crcOf v 0xFC)

/-- Whether that CRC holds. -/
def crc256Ok (v : Nat) : Bool := bits v 2016 32 == crcOf v 0xFC

end Sys2Proof.Machine
end

