-- ==== Sys2Proof/Machine/Descriptors.lean ====
section
/-! DEFINITION. Machine/Descriptors.lean: session handles, descriptors, the session table in device memory and the descriptor
cache (R89 to R101, R725), and the lifecycle records of the Belt (R583, R584). -/

namespace Sys2Proof.Machine

/-! ### Codes (R94) -/

/-- The code of a STATE. -/
def SState.code : SState → Nat
  | .void => 0 | .hot => 1 | .idle => 2 | .parked => 3 | .transit => 4 | .reviving => 5 | .closing => 6

/-- The code of a SUBSTATE. -/
def SSub.code : SSub → Nat
  | .none => 0 | .parking => 1 | .movingOut => 2 | .movingIn => 3

/-- The void pattern (R725). -/
def Desc.void (gen stamp : Nat) : Desc :=
  { state := .void, sub := .none, gen := gen, variant := 0, composition := 0, ptRoot := 0, batch := 0xFFFF, commitLen := 0,
    stepSeq := 0, ckptEpoch := 0, tier := 0, image := false, stripeN := 0, locAddr := 0, grammar := 0xFFFF, gstate := 0, gsp := 0,
    deadAction := 0, gstackAddr := 0, escapeToken := 0, gstackTop := 0xFFFFFFFF, temp := 0, topP := 0, minP := 0, topK := 0,
    hook := 0xFFFF, rngKey := 0, rngCtr := 0, pendBytes := 0, pendN := 0, errBudget := 0x7F800000, prefixId := 0xFFFFFFFF,
    listsAddr := 0, lastStamp := stamp, fwArea := 0 }

/-- The first seven words of a descriptor (R94). -/
def Desc.packA (s : Desc) : Nat :=
  packFields [(0x00, 4, s.state.code + s.sub.code * 16 + s.gen % 1024 * 256), (0x04, 2, s.variant), (0x06, 2, s.composition),
    (0x08, 6, s.ptRoot), (0x0E, 2, s.batch), (0x10, 4, s.commitLen), (0x14, 4, s.stepSeq), (0x18, 8, s.ckptEpoch),
    (0x20, 2, s.tier % 8 + ofB s.image * 8 + s.stripeN % 16 * 16), (0x22, 6, s.locAddr),
    (0x28, 6, s.grammar % 65536 + s.gstate % 2 ^ 20 * 65536 + s.gsp % 512 * 2 ^ 36 + s.deadAction % 8 * 2 ^ 45),
    (0x30, 6, s.gstackAddr)]

/-- The other words, without the CRC. -/
def Desc.packB (s : Desc) : Nat :=
  packFields [(0x38, 4, s.escapeToken), (0x3C, 4, s.gstackTop), (0x40, 4, s.temp), (0x44, 4, s.topP), (0x48, 4, s.minP),
    (0x4C, 2, s.topK), (0x4E, 2, s.hook), (0x50, 8, s.rngKey), (0x58, 8, s.rngCtr),
    (0x60, 4, s.pendBytes % 2 ^ 24 + s.pendN % 4 * 2 ^ 24), (0x68, 4, s.errBudget), (0x6C, 4, s.prefixId), (0x70, 6, s.listsAddr),
    (0x78, 8, s.lastStamp), (0x80, 96, s.fwArea)]

/-- The 256 B of a descriptor, with its CRC (R94, R95). -/
def Desc.pack (s : Desc) : Nat := withCrc256 (s.packA + s.packB)

/-! ### The table -/

/-- What a descriptor holds that the table does not list: the void pattern (R636, R725). -/
def Sess.blank (s : Sess) : Desc := match s.voided with | some v => .void v.1 v.2 | none => .void 0 0

/-- The descriptor of an index. -/
def Dev.desc (d : Dev) (i : Nat) : Desc := (tblGet i d.sess.table).getD d.sess.blank

/-- Where a descriptor lies (R92). -/
def Dev.descAddr (d : Dev) (i : Nat) : Nat := d.tableBase + i * 0x100

/-- Write a descriptor: the cache and the table in HBM (R95, R99). -/
def Dev.putDesc (x : Ctx) (d : Dev) (i : Nat) (s : Desc) : Dev :=
  ({ d with sess := { d.sess with table := tblSet i s d.sess.table } } : Dev).st x (d.descAddr i) 256 s.pack

/-- Change a descriptor in one write. -/
def Dev.updDesc (x : Ctx) (d : Dev) (i : Nat) (f : Desc → Desc) : Dev := d.putDesc x i (f (d.desc i))

/-- A lifecycle change: STATE, SUBSTATE and LAST_STAMP (R94). -/
def Dev.setState (x : Ctx) (d : Dev) (i : Nat) (st : SState) (sub : SSub) : Dev :=
  d.updDesc x i fun s => { s with state := st, sub := sub, lastStamp := d.now }

/-- The handle of an index (R89). DEDUCED (log 52): index 4,194,303 in generation 1,023 forms 0xFFFF_FFFF, which R90 does not keep from being issued; it is
issued and names that session, except where a command reads the value as "no session". -/
def Dev.handleOf (d : Dev) (i : Nat) : Nat := (d.desc i).gen % 1024 * 2 ^ 22 + i

/-- The index and generation of a handle. -/
def handleIdx (h : Nat) : Nat := h % 2 ^ 22
@[inherit_doc handleIdx] def handleGen (h : Nat) : Nat := h / 2 ^ 22 % 1024

/-- A byte of device memory as the host reads it: a descriptor that the table does not list holds the void pattern (R725). -/
def Dev.hostByte (x : Ctx) (d : Dev) (a : Nat) : Nat :=
  let i := (a - d.tableBase) / 256
  if d.operational && d.tableBase ≤ a && i < 2 ^ 22 && (tblGet i d.sess.table).isNone then byteOf d.sess.blank.pack ((a - d.tableBase) % 256)
  else d.byte x a

/-! ### The descriptor cache (R98 to R101) -/

/-- The quadrant that caches a descriptor's index class: its own, or the next that is up (R98, R101). -/
def Dev.cacheQuad (d : Dev) (i : Nat) : Nat :=
  match (List.range 4).find? fun k => d.quadUp ((i + k) % 4) with
  | some k => (i + k) % 4
  | none => i % 4

/-- Whether a descriptor is pinned (R100). -/
def Desc.pinned (s : Desc) : Bool := s.state == .hot || s.state == .transit || s.state == .reviving || s.state == .closing

/-- Whether two indices share a set. -/
def Dev.sameSet (d : Dev) (i j : Nat) : Bool := d.cacheQuad i == d.cacheQuad j && i / 4 % 4096 == j / 4 % 4096

/-- Whether one more entry can be pinned for an index (R100). A set whose 16 ways are all pinned has no place for it either. -/
def Dev.canPin (d : Dev) (i : Nat) : Bool :=
  let pinned := d.sess.table.filter fun p => p.1 != i && p.2.pinned
  (pinned.filter fun p => d.cacheQuad p.1 == d.cacheQuad i).length < d.fld Reg.sessCacheCtl 0 8 * 1024 &&
    (pinned.filter fun p => d.sameSet p.1 i).length < 16

/-- An index becomes the most recently used entry of its set; the set's least recently used unpinned entry leaves when more than
16 are held. A set whose 16 ways are all pinned takes no other entry (R98). -/
def Dev.touch (d : Dev) (i : Nat) : Dev :=
  let rest := d.sess.cache.filter fun j => j != i
  let mates := (rest.filter fun j => d.sameSet j i)
  let rest := if mates.length < 16 then rest
    else match (mates.filter fun j => !((d.desc j).pinned)).getLast? with
      | some v => rest.filter fun j => j != v
      | none => rest
  if (rest.filter fun j => d.sameSet j i).length < 16 then { d with sess := { d.sess with cache := i :: rest } } else d

/-- Whether a read of a descriptor fails its check: it is not cached and its HBM copy has an uncorrectable word or a wrong CRC
(R95). -/
def Dev.descBad (x : Ctx) (d : Dev) (i : Nat) : Bool :=
  !(d.sess.cache.contains i) &&
    (d.mediaBad (d.descAddr i) 256 || ((tblGet i d.sess.table).isSome && !(crc256Ok (d.ld x (d.descAddr i) 256))))

/-- The SESS block as a source. -/
def sessSource : Nat := sourceOf 0x1100000 0 0

/-- The 4 KiB of SRAM that hold the set of an index, at the start of its quadrant's DESC region (R98, R255). -/
def Dev.setAddr (d : Dev) (i : Nat) : Addr := 0x400000000000 + d.cacheQuad i * 0x18000000 + i / 4 % 4096 * 4096

/-- A read of a cached descriptor meets an uncorrectable SRAM word of its set: where the word is the entry's own, the entry is invalid (R95, R679). In
which of the 16 ways an entry lies no rule says: it is a free choice. -/
def Dev.cachedCheck (d : Dev) (i : Nat) : Dev :=
  match d.err.bad.find? fun b => b.uncorrectable && d.sess.cache.contains i && b.within (d.setAddr i) 4096 with
  | none => d
  | some b =>
    let (n, d) := d.draw
    if n % 16 == (b.addr - d.setAddr i) / 256 then
      ({ d with sess := { d.sess with cache := d.sess.cache.filter fun j => j != i } } : Dev).eccRead b.addr 1 false
    else d

/-- Read a descriptor: none where it fails its check, which writes an error-log entry naming the index (R95). -/
def Dev.readDesc (x : Ctx) (d : Dev) (i : Nat) : Dev × Option Desc :=
  let d := d.cachedCheck i
  if d.sess.cache.contains i then (d.touch i, some (d.desc i))
  else if d.descBad x i then ((d.eccRead (d.descAddr i) 256 true).report sessSource 0x34 3 i, none)
  else (((d.eccRead (d.descAddr i) 256 true)).touch i, some (d.desc i))

/-- A command that names one session: a descriptor that fails its check completes FAULT_MEDIA (R95), another generation
REFUSED_STATE (R91), and otherwise the command goes on with the index and its descriptor. -/
def Dev.withSession (x : Ctx) (d : Dev) (c : Cmd) (h : Nat) (f : Dev → Nat → Desc → Dev) : Dev :=
  match d.readDesc x (handleIdx h) with
  | (d, none) => d.finish x c .FAULT_MEDIA 0
  | (d, some s) => if s.gen % 1024 == handleGen h then f d (handleIdx h) s else d.finish x c .REFUSED_STATE 0

/-! ### Lifecycle records (R583, R584) -/

/-- The slots of an enabled queue of a partition. -/
def Dev.beltQueue (d : Dev) (part queue : Nat) : Option BeltQueue :=
  tblGet queue (getAt ⟨none, [], 0⟩ part d.belt.parts).queues

/-- Replace a queue of a partition. -/
def Dev.setBeltQueue (d : Dev) (part queue : Nat) (q : BeltQueue) : Dev :=
  let p := getAt ⟨none, [], 0⟩ part d.belt.parts
  { d with belt := { d.belt with parts := setAt ⟨none, [], 0⟩ { p with queues := tblSet queue q p.queues } part d.belt.parts } }

/-- Place a task in a queue; the answer tells whether it was placed. A Belt that is gated takes none (R585). -/
def Dev.placeTask (d : Dev) (part queue : Nat) (payload : Nat) (owner : TaskOwner) : Dev × Bool :=
  match d.beltQueue part queue with
  | some q =>
    if q.waiting.length < q.slots && d.domainUp .belt then
      (d.setBeltQueue part queue { q with waiting := q.waiting ++ [⟨queue, q.entry, payload, owner, d.now⟩] }, true)
    else (d, false)
  | none => (d, false)

/-- The record of a lifecycle event (R584). -/
def lifeRecord (event : Nat) (s : Desc) (handle : Nat) (now : Ns) (arg : Nat) : Nat :=
  packFields [(0, 1, event), (1, 1, s.state.code), (4, 4, handle), (8, 4, s.stepSeq), (12, 4, s.commitLen), (16, 8, now), (24, 4, arg)]

/-- Post a lifecycle record, where the registration selects the event (R583, R584). -/
def Dev.life (d : Dev) (event i arg : Nat) : Dev :=
  match d.belt.life with
  | some (part, queue, mask) =>
    if bit mask event then
      match d.placeTask part queue (lifeRecord event (d.desc i) (d.handleOf i) d.now arg) (.life (d.desc i).composition) with
      | (d, true) => d
      | (d, false) => d.bump Reg.beltLifeDrop 1
    else d
  | none => d

/-! ### Allocating an index (R90) -/

/-- The generation of the next session on an index: one more than the index carried, or 0 on an index that has never been used. A tenant
switch leaves every index as though closed (R636). -/
def Dev.nextGen (d : Dev) (i : Nat) : Nat :=
  match tblGet i d.sess.table with
  | some s => (s.gen + 1) % 1024
  | none => match d.sess.voided with | some v => (v.1 + 1) % 1024 | none => 0

/-- The first free index at or after a place, in a table of 4,194,304 that wraps; `fuel` bounds the search by the entries listed. -/
def Dev.freeIdx (d : Dev) : Nat → Nat → Option Nat
  | 0, _ => none
  | f + 1, i =>
    let j := i % 4194304
    if (d.desc j).state == .void then some j else d.freeIdx f (j + 1)

/-- The index that an opening or a move-in takes (R90). -/
def Dev.allocIdx (d : Dev) : Option Nat := d.freeIdx (min 4194304 (d.sess.table.length + 1)) (d.sess.lastAlloc + 1)

end Sys2Proof.Machine
end

