-- ==== Sys2Proof/Machine/Storage.lean ====
section
/-! DEFINITION. Machine/Storage.lean: the regions of R250, the areas of R723, the page pool with placement and reservations
(R250 to R254, R301 to R303), page tables and page headers (R147 to R153). -/

namespace Sys2Proof.Machine

/-- 1 GiB. -/
def gib : Nat := 0x40000000

/-! ### Shape-dependent sizes (R147, R250) -/

/-- The resident shape; all zero while no image is loaded. -/
def Dev.shape (d : Dev) : Shape := d.kv.shape.getD ⟨0, 0, 0, 0, 0, 0, 0, 0⟩

/-- Bytes of a slot. -/
def Dev.slotBytes (d : Dev) : Nat := 320 * d.shape.d

/-- HDIM of a head dimension (R150). -/
def hdimCode (hd : Nat) : Nat := if hd == 64 then 0 else if hd == 128 then 1 else 2

/-- The outlier limit OM (R147). -/
def outLimit (hd : Nat) : Nat := if hd == 64 then 4 else 8

/-! ### Regions of R250 -/

/-- The regions of R250 as (base, bytes). -/
def Dev.regions (x : Ctx) (d : Dev) : List (Nat × Nat) :=
  [(0, 0x20000000), (d.tableBase, gib), (d.gibBase Reg.sessManifestBase, gib), (d.fld Reg.sessPfxBase 0 30 * 0x40000, 0x40000),
   (d.gibBase Reg.sessGslBase, d.fld Reg.sessGslSize 0 16 * gib), (d.gibBase Reg.sessPtaBase, d.fld Reg.sessPtaSize 0 16 * gib),
   (d.gibBase Reg.tailShadowBase, gib), (d.gibBase Reg.textAreaBase, 0x20000000), (d.gibBase Reg.ckptBufBase, gib),
   (d.ringBase, gib), (d.meterBase, 0x400000)] ++
  (if x.fuses.part.hasBelt then [(d.gibBase Reg.beltHeapBase, d.fld Reg.beltHeapSize 0 16 * gib)] else []) ++
  (if x.fuses.part.hasRecall then
    ((x.fuses.part.fittedStacks.filter fun s => !(x.fuses.part.computeStacks.contains s)).map fun s =>
      ((s + 1) * stackBytes - d.fld Reg.recallArea 0 8 * gib, d.fld Reg.recallArea 0 8 * gib))
   else [])

/-! ### Choosing a free place -/

/-- The first number from k below n outside every range; `fuel` bounds the jumps. -/
def nextFree (rs : List (Nat × Nat)) (n : Nat) : Nat → Nat → Option Nat
  | 0, _ => none
  | f + 1, k =>
    if n ≤ k then none
    else match rs.find? fun r => r.1 ≤ k && k < r.2 with
      | none => some k
      | some r => nextFree rs n f r.2

/-- A free number below n, near a hint that the spec leaves to the device. -/
def pickFree (rs : List (Nat × Nat)) (n hint : Nat) : Option Nat :=
  (nextFree rs n (rs.length + 1) (if n == 0 then 0 else hint % n)).or (nextFree rs n (rs.length + 1) 0)

/-- How many numbers ranges sorted by their start cover, beyond a position. -/
def covered : Nat → List (Nat × Nat) → Nat
  | _, [] => 0
  | p, (a, b) :: t => (max b p - max a p) + covered (max p b) t

/-! ### The areas of R723 -/

/-- Bytes and alignment of an allocation. DESIGN CHOICE (log 21): a header block is aligned to its size. -/
def Dev.areaSize (d : Dev) : AreaKind → Nat × Nat
  | .root => (4096, 4096)
  | .dir _ => (cdiv (512 * d.shape.hkv) 4096 * 4096, 4096)
  | .hdr _ _ _ => (16384, 16384)
  | .gstack => (1024, 1024)
  | .lists => (36864, 4096)

/-- Whether an allocation lies in the grammar stack and list area (else in the page-table area). -/
def AreaKind.inGsl : AreaKind → Bool
  | .gstack | .lists => true
  | _ => false

/-- Base and size of the area of a kind. -/
def Dev.areaOf (d : Dev) (k : AreaKind) : Nat × Nat :=
  if k.inGsl then (d.gibBase Reg.sessGslBase, d.fld Reg.sessGslSize 0 16 * gib)
  else (d.gibBase Reg.sessPtaBase, d.fld Reg.sessPtaSize 0 16 * gib)

/-- The allocations of the area of a kind. -/
def Dev.areaUses (d : Dev) (k : AreaKind) : List AreaUse := if k.inGsl then d.kv.gsl else d.kv.pta

/-- Where an allocation of a kind can go. -/
def Dev.areaPlace (d : Dev) (k : AreaKind) : Option Nat :=
  let (bytes, al) := d.areaSize k
  let (base, size) := d.areaOf k
  let len := bytes / al
  let taken := (d.areaUses k).map fun u => ((u.addr - base) / al + 1 - len, cdiv (u.addr + u.bytes - base) al)
  (pickFree taken (size / al + 1 - len) (Config.placeHint d.free)).map fun n => base + n * al

/-- Record an allocation. -/
def Dev.addArea (d : Dev) (u : AreaUse) : Dev :=
  if u.kind.inGsl then { d with kv := { d.kv with gsl := d.kv.gsl ++ [u] } } else { d with kv := { d.kv with pta := d.kv.pta ++ [u] } }

/-- Allocate; page-table structures start all zero. None where the area has no room. -/
def Dev.allocArea (d : Dev) (k : AreaKind) (o : POwner) (step : Bool) : Option (Dev × Nat) :=
  match d.areaPlace k with
  | some a =>
    let bytes := (d.areaSize k).1
    let d := ({ d with free := d.free + 1 } : Dev).addArea ⟨a, bytes, o, k, step⟩
    some (if k.inGsl then d else d.zeroMem a (a + bytes), a)
  | none => none

/-- The allocation of a kind that an owner has. -/
def Dev.area (d : Dev) (o : POwner) (k : AreaKind) : Option Nat :=
  ((d.areaUses k).find? fun u => u.owner == o && u.kind == k).map (·.addr)

/-- Free allocations. -/
def Dev.freeAreas (d : Dev) (p : AreaUse → Bool) : Dev :=
  { d with kv := { d.kv with gsl := d.kv.gsl.filter fun u => !(p u), pta := d.kv.pta.filter fun u => !(p u) } }

/-- Free bytes of an area. -/
def Dev.areaFree (d : Dev) (k : AreaKind) : Nat := (d.areaOf k).2 - sumOf ((d.areaUses k).map (·.bytes))

/-- Header blocks that fit beside those that steps have reserved (R254). -/
def Dev.blocksFree (d : Dev) : Nat := d.areaFree (.hdr 0 0 0) / 16384 - sumOf (d.kv.pool.reservedBlocks.map (·.2))

/-! ### The close journal (R423, R424) -/

/-- An event enters the half that is being written; a half that fills makes the next run FULL, and what does not fit is discarded. -/
def Dev.journal (d : Dev) (k : PKey) : Dev :=
  let cap := 1024 * d.fld Reg.ckptJournal 0 16
  let r : JRec := match k.owner with
    | .sess i => ⟨i, false, k.layer, k.head, k.page, d.now⟩
    | .pfx id => ⟨id, true, k.layer, k.head, k.page, d.now⟩
  if cap ≤ d.ckpt.journal.length then d
  else
    let d := { d with ckpt := { d.ckpt with journal := d.ckpt.journal ++ [r] } }
    if d.ckpt.journal.length == cap then (d.setFld Reg.ckptRunStat 27 1 1).bump Reg.ckptJournalOvf 1 else d

/-! ### Slots (R250 to R254) -/

/-- Slot positions in a pseudo-channel. -/
def Dev.slotsPerPc (d : Dev) : Nat := if d.slotBytes == 0 then 0 else 0xC0000000 / d.slotBytes

/-- The slot positions of a pseudo-channel that a byte range touches. -/
def Dev.slotSpan (d : Dev) (pc a b : Nat) : Nat × Nat :=
  let base := pc * 0xC0000000
  if b ≤ base || base + 0xC0000000 ≤ a || d.slotBytes == 0 then (0, 0)
  else ((max a base - base) / d.slotBytes, cdiv (min b (base + 0xC0000000) - base) d.slotBytes)

/-- The slot positions of a pseudo-channel that the regions take. -/
def Dev.regionSpans (x : Ctx) (d : Dev) (pc : Nat) : List (Nat × Nat) :=
  ((d.regions x).map fun r => d.slotSpan pc r.1 (r.1 + r.2)).filter fun r => r.1 < r.2

/-- Slots of the pool in a pseudo-channel, retired ones included (R250). -/
def Dev.pcSlots (x : Ctx) (d : Dev) (pc : Nat) : Nat :=
  d.slotsPerPc - covered 0 (sortBy (fun a b => decide (a.1 < b.1)) ((d.regionSpans x pc).map fun r => (min r.1 d.slotsPerPc, min r.2 d.slotsPerPc)))

/-- The address of a slot position. -/
def Dev.slotAddr (d : Dev) (pc k : Nat) : Nat := pc * 0xC0000000 + k * d.slotBytes

/-- The slots in use or retired of a pseudo-channel, as positions. -/
def Dev.takenSpans (d : Dev) (pc : Nat) : List (Nat × Nat) :=
  ((d.kv.pool.used.filter fun u => pcOf u.addr == pc).map (·.addr) ++
    (d.kv.pool.retired.filter fun r => pcOf r.addr == pc).map (·.addr) ++
    (d.tier.lent.flatMap fun l => (l.slots.flatMap (·.2)).filter fun a => pcOf a == pc)).map fun a => d.slotSpan pc a (a + d.slotBytes)

/-- A free slot of a pseudo-channel. -/
def Dev.slotIn (x : Ctx) (d : Dev) (pc : Nat) : Option Nat :=
  if d.kv.pool.retiredPcs.contains pc then none
  else (pickFree (d.regionSpans x pc ++ d.takenSpans pc) d.slotsPerPc (Config.placeHint d.free)).map (d.slotAddr pc)

/-- Slots in a pseudo-channel that are neither in use, lent nor retired. -/
def Dev.pcFree (x : Ctx) (d : Dev) (pc : Nat) : Nat :=
  if d.kv.pool.retiredPcs.contains pc then 0 else d.pcSlots x pc - (d.takenSpans pc).length

/-- Unallocated slots of a stack. -/
def Dev.stackFree (x : Ctx) (d : Dev) (s : Nat) : Nat := sumOf ((List.range 32).map fun k => d.pcFree x (s * 32 + k))

/-- Outstanding reservations of a stack (R254). -/
def Dev.stackReserved (d : Dev) (s : Nat) : Nat := sumOf ((d.kv.pool.reserved.filter fun r => r.2.1 == s).map (·.2.2))

/-- Slots of a stack free to an allocation that holds no reservation. -/
def Dev.stackOpen (x : Ctx) (d : Dev) (s : Nat) : Nat := d.stackFree x s - d.stackReserved s

/-- SESS.POOL_FREE (R305). -/
def Dev.poolFree (x : Ctx) (d : Dev) : Nat := sumOf (x.fuses.part.fittedStacks.map fun s => d.stackOpen x s)

/-- SESS.POOL_SLOTS (R305): slots of the pool, retired slots excluded. -/
def Dev.poolSlots (x : Ctx) (d : Dev) : Nat :=
  sumOf (x.fuses.part.fittedStacks.map fun s => sumOf ((List.range 32).map fun k =>
    let pc := s * 32 + k
    if d.kv.pool.retiredPcs.contains pc then 0 else d.pcSlots x pc - (d.kv.pool.retired.filter fun r => pcOf r.addr == pc).length))

/-- SESS.RETIRED (R303). -/
def Dev.poolRetired (x : Ctx) (d : Dev) : Nat :=
  (d.kv.pool.retired.filter fun r => !(d.kv.pool.retiredPcs.contains (pcOf r.addr))).length +
    sumOf (d.kv.pool.retiredPcs.map fun pc => d.pcSlots x pc)

/-- Free slots in percent of the pool, as the watermarks test them (R305). -/
def Dev.freeBelow (x : Ctx) (d : Dev) (pct : Nat) : Bool := d.poolFree x * 100 < pct * d.poolSlots x

/-- The descriptor index or prefix that a page's placement counts by. -/
def POwner.index : POwner → Nat
  | .sess i => i
  | .pfx id => id

/-- The home stack and pseudo-channel of a page (R252). -/
def homeOf (p : Part) (k : PKey) : Nat × Nat :=
  let h := mix64 (k.owner.index * 2 ^ 27 + k.layer * 2 ^ 18 + k.head * 2 ^ 12 + k.page)
  (getAt 0 (h % 2 ^ 32 % p.fittedStacks.length) p.fittedStacks, h / 2 ^ 32 % 32)

/-- The pseudo-channels to try for a page: its home stack in rotation from its home, then, where allowed, the following stacks
(R253). DEDUCED (log 22): a following stack is tried in the same rotation. -/
def pcOrder (p : Part) (k : PKey) (beyond : Bool) : List Nat :=
  let (s, pc) := homeOf p k
  let order := (p.fittedStacks.filter fun t => s ≤ t) ++ p.fittedStacks.filter fun t => t < s
  (if beyond then order else [s]).flatMap fun t => (List.range 32).map fun j => t * 32 + (pc + j) % 32

/-- Take one slot of a pseudo-channel for a page. -/
def Dev.takeSlot (x : Ctx) (d : Dev) (k : PKey) (pc : Nat) : Option (Dev × Nat) :=
  (d.slotIn x pc).map fun a =>
    ({ d with free := d.free + 1, kv := { d.kv with pool := { d.kv.pool with used := d.kv.pool.used ++ [(⟨a, k⟩ : SlotUse)] } } }, a)

/-- Take `n` slots of one pseudo-channel. -/
def Dev.takeSlots (x : Ctx) (d : Dev) (k : PKey) (pc : Nat) : Nat → Option (Dev × List Nat)
  | 0 => some (d, [])
  | n + 1 => match d.takeSlot x k pc with
    | some (d, a) => (d.takeSlots x k pc n).map fun r => (r.1, a :: r.2)
    | none => none

/-- Allocate `n` slots of one pseudo-channel for a page (R250, R253). `reserved` says that the slots come out of a reservation
(R254); otherwise they come out of what reservations leave. -/
def Dev.allocSlots (x : Ctx) (d : Dev) (k : PKey) (n : Nat) (beyond reserved : Bool) : Option (Dev × List Nat) :=
  (pcOrder x.fuses.part k beyond).findSome? fun pc =>
    if n ≤ d.pcFree x pc && (reserved || n ≤ d.stackOpen x (pc / 32)) then d.takeSlots x k pc n else none

/-- A slot is retired (R302): it joins the retirement list, or, beyond a full list, stays retired until the next start-up
(R304); nor is a slot listed that an injected error retires (R691). At 256 retired slots its pseudo-channel is retired whole, which takes one entry of the
list (R303, R304). -/
def Dev.retireSlot (d : Dev) (a : Nat) : Dev :=
  let src := eccSource a
  let entries := (d.kv.pool.retired.filter fun r => r.listed && !(d.kv.pool.retiredPcs.contains (pcOf r.addr))).length + d.kv.pool.retiredPcs.length
  let listed := entries < 65536 && !(d.kv.pool.injected.contains a)
  let d : Dev := { d with kv := { d.kv with pool := { d.kv.pool with
    retired := d.kv.pool.retired ++ [(⟨a, listed⟩ : RetiredSlot)], retiring := d.kv.pool.retiring.filter fun b => b != a } } }
  let d := d.report src 0x30 2 a
  let d := if entries < 65536 then d else d.report src 0x32 2 a
  let pc := pcOf a
  if !(d.kv.pool.retiredPcs.contains pc) && 256 ≤ (d.kv.pool.retired.filter fun r => pcOf r.addr == pc).length then
    let live := (d.kv.pool.used.filter fun u => pcOf u.addr == pc).map (·.addr)
    let d := { d with kv := { d.kv with pool := { d.kv.pool with
      retiredPcs := d.kv.pool.retiredPcs ++ [pc],
      retiring := d.kv.pool.retiring ++ live.filter fun b => !(d.kv.pool.retiring.contains b) } } }
    d.report src 0x31 2 pc
  else d

/-- A slot goes to another owner. -/
def Dev.rekey (d : Dev) (as : List Nat) (k : PKey) : Dev :=
  let used := d.kv.pool.used.map fun (u : SlotUse) => if as.contains u.addr then { u with key := k } else u
  { d with kv := { d.kv with pool := { d.kv.pool with used := used } } }

/-- Deferred compression passes are tried again when a slot is released (R169). -/
def Dev.wakeDeferred (d : Dev) : Dev :=
  { d with kv := { d.kv with passes := d.kv.passes ++ d.kv.deferred.map fun k => (⟨k, none⟩ : CompPass), deferred := [] } }

/-- Release slots. One that waits for its retirement is retired now (R302). -/
def Dev.freeSlots (d : Dev) (as : List Nat) : Dev :=
  let d : Dev := { d with kv := { d.kv with pool := { d.kv.pool with used := d.kv.pool.used.filter fun u => !(as.contains u.addr) } } }
  let d := (as.filter fun a => d.kv.pool.retiring.contains a).foldl (fun d a => d.retireSlot a) d
  if as.isEmpty then d else d.wakeDeferred

/-! ### Pages and page tables (R147 to R153) -/

/-- KIND, KFMT and VFMT codes (R150). -/
def PKind.code : PKind → Nat
  | .empty => 0 | .coma => 1 | .full => 2 | .closed => 3 | .pfx => 4 | .pfxComa => 5
@[inherit_doc PKind.code] def KvFmt.code : KvFmt → Nat
  | .fp8 => 0 | .k4s => 1 | .k3s => 2 | .k2s => 3

/-- The 256 B of a header (R150) for a head dimension. -/
def Page.pack (p : Page) (k : PKey) (hd : Nat) : Nat :=
  withCrc256 (packFields [
    (0x00, 3, p.kind.code + p.kfmt.code * 16 + p.vfmt.code * 256 + hdimCode hd * 0x1000 + ofB p.fadeStop * 0x4000 +
      ofB p.mediaBad * 0x8000 + ofB p.nonfinite * 0x10000),
    (0x03, 1, k.head), (0x04, 2, k.layer), (0x06, 2, p.rows % 512), (0x08, 4, 256 * k.page), (0x0C, 4, p.srSeed),
    (0x10, 6, p.payload), (0x18, 6, p.payload2), (0x20, 6, p.meta1), (0x28, 4, p.kPscale), (0x2C, 4, p.vPscale),
    (0x30, 4, p.kSscale), (0x34, 4, p.vSscale), (0x38, 8, p.kOutCh), (0x40, 8, p.vOutCh), (0x48, 1, p.kOutN % 16 + p.vOutN % 16 * 16),
    (0x50, 4, p.kErr), (0x54, 4, p.vErr), (0x58, 4, p.kEn), (0x5C, 4, p.vEn), (0x60, 4, p.vNmax), (0x68, 8, p.closeStamp),
    (0x70, 4, p.prefixId)])

/-- An FP8 page just opened (R150, R153): no rows in the header, frames given. -/
def Page.coma (k v m : Nat) : Page :=
  { kind := .coma, kfmt := .fp8, vfmt := .fp8, fadeStop := false, mediaBad := false, nonfinite := false, rows := 0, srSeed := 0,
    payload := k, payload2 := v, meta1 := m, kPscale := 0, vPscale := 0, kSscale := 0, vSscale := 0, kOutCh := 0, vOutCh := 0,
    kOutN := 0, vOutN := 0, kErr := 0, vErr := 0, kEn := 0, vEn := 0, vNmax := 0, closeStamp := 0, prefixId := 0xFFFFFFFF }

/-- The header that a page's key has. -/
def Dev.page (d : Dev) (k : PKey) : Option Page := (d.kv.pages.find? fun p => p.1 == k).map (·.2)

/-- Where a page's header lies; none while its block is not allocated. -/
def Dev.hdrAddr (d : Dev) (k : PKey) : Option Nat :=
  (d.area k.owner (.hdr k.layer k.head (k.page / 64))).map fun a => a + 256 * (k.page % 64)

/-- Write a page's header: its record and, where its block lies in memory, its bytes (R151). -/
def Dev.putPage (x : Ctx) (d : Dev) (k : PKey) (p : Page) : Dev :=
  let rest := d.kv.pages.filter fun q => q.1 != k
  let d := { d with kv := { d.kv with pages := rest ++ [(k, p)] } }
  match d.hdrAddr k with
  | some a => d.st x a 256 (p.pack k d.shape.d)
  | none => d

/-- A page becomes EMPTY. -/
def Dev.dropPage (d : Dev) (k : PKey) : Dev :=
  let d' := { d with kv := { d.kv with pages := d.kv.pages.filter fun q => q.1 != k } }
  match d.hdrAddr k with
  | some a => d'.zeroMem a (a + 256)
  | none => d'

/-- The slots of a page. -/
def Dev.pageSlots (d : Dev) (k : PKey) : List Nat := (d.kv.pool.used.filter fun u => u.key == k).map (·.addr)

/-- The order of tiles: by layer, KV head and page (R266). -/
def PKey.before (a b : PKey) : Bool :=
  decide (a.layer < b.layer) || (a.layer == b.layer && (decide (a.head < b.head) || (a.head == b.head && decide (a.page < b.page))))

/-- The pages of an owner in tile order. -/
def Dev.pagesOf (d : Dev) (o : POwner) : List (PKey × Page) :=
  sortBy (fun a b => a.1.before b.1) (d.kv.pages.filter fun p => p.1.owner == o)

/-- The page that a session reads at a place: its own, or its prefix's. -/
def Dev.viewPage (d : Dev) (i : Nat) (layer head page : Nat) : Option (PKey × Page) :=
  let own : PKey := ⟨.sess i, layer, head, page⟩
  match d.page own with
  | some p => some (own, p)
  | none =>
    let sh : PKey := ⟨.pfx (d.desc i).prefixId, layer, head, page⟩
    if (d.desc i).prefixId == 0xFFFFFFFF then none else (d.page sh).map fun p => (sh, p)

/-- The valid rows of a page for a committed length (R152). -/
def Page.valid (p : Page) (commitLen base : Nat) : Nat :=
  match p.kind with
  | .empty => 0
  | .coma => min 256 (commitLen - base)
  | .pfxComa => p.rows
  | _ => 256

/-- The bytes that a read of a page takes (R168). -/
def Page.readBytes (p : Page) (hd valid : Nat) : Nat :=
  if p.kfmt == .fp8 then 256 + valid * (2 * hd + 16)
  else match p.vfmt with
    | .k3s => 288 * hd + 256
    | .k2s => 256 * hd + 256
    | _ => 320 * hd + 256

/-- The meta and payload bytes of a page that a tile carries: (meta address, meta bytes, [(payload address, bytes)]). -/
def Dev.tileParts (d : Dev) (p : Page) (valid : Nat) : Nat × Nat × List (Nat × Nat) :=
  let hd := d.shape.d
  if p.kfmt == .fp8 then (p.meta1, 16 * valid, [(p.payload, valid * hd), (p.payload2, valid * hd)])
  else (p.meta1, 64 * hd, [(p.payload, p.readBytes hd valid - 256 - 64 * hd)])

/-- The bytes that a prefix takes when it is pinned, by the quadrant whose home stacks hold its pages (R260). -/
def Dev.pinBytes (d : Dev) (id : Nat) : List Nat :=
  let ps := d.kv.pages.filter fun p => p.1.owner == .pfx id
  (List.range 4).map fun q => sumOf ((ps.filter fun p => stackOf p.2.payload / 3 == q).map fun p => p.2.readBytes d.shape.d p.2.rows)

/-- The entry of a layer directory: the block's address and SHARED (R148). -/
def Dev.linkBlock (x : Ctx) (d : Dev) (i layer head block addr : Nat) (shared : Bool) : Dev :=
  match d.area (.sess i) (.dir layer) with
  | some dir => d.st x (dir + 8 * (head * 64 + block)) 8 (addr + ofB shared * 2 ^ 63)
  | none => d

/-- Allocate a list of structures for an owner; none where one does not fit. -/
def Dev.allocAll (d : Dev) (o : POwner) : List AreaKind → Option Dev
  | [] => some d
  | k :: t => match d.allocArea k o false with
    | some (d, _) => d.allocAll o t
    | none => none

/-- The root's entries name the layer directories (R148), and shared blocks of a prefix are linked (R180). -/
def Dev.linkTables (x : Ctx) (d : Dev) (i : Nat) (pfx : Option Nat) : Dev :=
  let root := (d.area (.sess i) .root).getD 0
  let d := (List.range d.shape.layers).foldl (fun d l => d.st x (root + 8 * l) 8 ((d.area (.sess i) (.dir l)).getD 0)) d
  match pfx with
  | some id => (d.kv.pta.filter fun u => u.owner == .pfx id).foldl (fun d u => match u.kind with
      | .hdr l h b => d.linkBlock x i l h b u.addr true
      | _ => d) d
  | none => d

/-- A header block of a session for a place, allocated where there is none. A block copied from a shared one of its prefix takes its headers
(R180). -/
def Dev.blockFor (x : Ctx) (d : Dev) (pfx i layer head block : Nat) (step : Bool) : Option Dev :=
  if (d.area (.sess i) (.hdr layer head block)).isSome then some d
  else match d.allocArea (.hdr layer head block) (.sess i) step with
    | some (d, a) =>
      let shared := if pfx == 0xFFFFFFFF then none else d.area (.pfx pfx) (.hdr layer head block)
      let d := match shared with
        | some b => d.st x a 16384 (d.ld x b 16384)
        | none => d
      some (d.linkBlock x i layer head block a false)
    | none => none

/-- A header block of a session that its descriptor's prefix shares. -/
def Dev.ownBlock (x : Ctx) (d : Dev) (i layer head block : Nat) (step : Bool) : Option Dev :=
  d.blockFor x (d.desc i).prefixId i layer head block step

/-- Whether a header fails its CRC or its own ECC word where it lies (R151). -/
def Dev.headerBad (x : Ctx) (d : Dev) (k : PKey) : Bool :=
  match d.hdrAddr k with
  | some a => d.mediaBad a 256 || !(crc256Ok (d.ld x a 256))
  | none => false

/-- PAGE_BAD names the session, layer, head and page (R684). -/
def Dev.reportPage (d : Dev) (i : Nat) (k : PKey) : Dev :=
  d.report sessSource 0x35 3 (d.handleOf i * 2 ^ 32 + k.page % 4096 * 2 ^ 20 + k.layer % 512 * 2 ^ 11 + k.head % 64 * 32)

/-- The tile of a page. -/
def Dev.tileOf (x : Ctx) (d : Dev) (k : PKey) (p : Page) (commitLen : Nat) : Tile :=
  let (m, ml, ps) := d.tileParts p (p.valid commitLen (256 * k.page))
  ⟨k, p, ml, d.ld x m ml, sumOf (ps.map (·.2)), leNat (ps.flatMap fun r => d.ldBytes x r.1 r.2)⟩

/-- A header is read through ECC (R676). -/
def Dev.readHeader (d : Dev) (k : PKey) : Dev := match d.hdrAddr k with | some a => d.eccRead a 256 true | none => d

/-- The frames of a page as byte ranges, for a number of valid rows. -/
def Dev.framesOf (d : Dev) (p : Page) (valid : Nat) : List (Nat × Nat) :=
  let (m, ml, ps) := d.tileParts p valid
  (m, ml) :: ps

/-- Whether the frames of a page meet an uncorrectable word. -/
def Dev.framesBad (d : Dev) (p : Page) (valid : Nat) : Bool := (d.framesOf p valid).any fun r => d.mediaBad r.1 r.2

/-- The frames of a page are read through ECC (R676). -/
def Dev.readFrames (d : Dev) (p : Page) (valid : Nat) : Dev := (d.framesOf p valid).foldl (fun (d : Dev) r => d.eccRead r.1 r.2 true) d

/-- Stored data of a page has failed its checks (R151, R169, R301, R302, R724): PAGE_BAD names the page, a page of a session becomes MEDIA_BAD, and its
slots wait for their retirement. No engine writes the header of a prefix page (R181). A page whose frames have been swapped since is left alone. -/
def Dev.pageFailed (x : Ctx) (d : Dev) (i : Nat) (k : PKey) (p : Page) : Dev :=
  let d := match d.page k with
    | some q =>
      if q.payload != p.payload then d
      else
        let d := match k.owner with | .sess _ => d.putPage x k { q with mediaBad := true } | .pfx _ => d
        { d with kv := { d.kv with pool := { d.kv.pool with retiring := (d.kv.pool.retiring ++ d.pageSlots k).eraseDups } } }
    | none => d
  d.reportPage i k

/-- Whether a page cannot be read: MEDIA_BAD, a bad header, or an uncorrectable word in its frames (R151, R169). -/
def Dev.pageBad (x : Ctx) (d : Dev) (k : PKey) (p : Page) (valid : Nat) : Bool := p.mediaBad || d.headerBad x k || d.framesBad p valid

/-- What finding such a page does: the error is reported, and frames that fail make the page MEDIA_BAD (R151, R169, R676). -/
def Dev.pageUnread (x : Ctx) (d : Dev) (i : Nat) (k : PKey) (p : Page) (valid : Nat) : Dev :=
  if d.headerBad x k then (d.readHeader k).reportPage i k
  else if !p.mediaBad && d.framesBad p valid then (d.readFrames p valid).pageFailed x i k p
  else d

end Sys2Proof.Machine
end

