-- ==== Sys2Proof/Machine/KvCodec.lean ====
section
/-! DEFINITION. Machine/KvCodec.lean: the KV encodings: FP8 rows at intake (R162 to R164), K4S, K3S and K2S (R154 to R161),
measured error (R165, R166, R722) and the MX formats (R182, R184). Values are FP32 bit patterns. -/

namespace Sys2Proof.Machine

/-! ### Norms and errors (R722) -/

/-- The l2 norm with every step rounded one way. -/
def normR (r : Rm) (xs : List Nat) : Nat := fsqrt r (xs.foldl (fun s v => fadd r s (fmul r v v)) 0)

/-- The magnitudes of the differences, rounded up. -/
def diffs (xs ys : List Nat) : List Nat := List.zipWith (fun a b => fabs (if flt a b then fsub .up b a else fsub .up a b)) xs ys

/-- The relative error of y as a copy of x (R165, R722). -/
def relErr (xs ys : List Nat) : Nat :=
  let ds := diffs xs ys
  if ds.all fun v => v == 0 then 0
  else if xs.all fun v => fabs v == 0 then 0x7F800000
  else fdiv .up (normR .up ds) (normR .down xs)

/-- A product of error terms: +inf times 0 is +inf (R163). -/
def errMul (a b : Nat) : Nat := if fabs a == 0x7F800000 || fabs b == 0x7F800000 then 0x7F800000 else fmul .up a b

/-- The larger of some non-negative values. -/
def fmaxs (l : List Nat) : Nat := l.foldl fmax 0

/-- eps_new of R166. -/
def epsNew (old step : Nat) : Nat := fadd .up old (errMul step (fadd .up 0x3F800000 old))

/-! ### FP8 rows (R162 to R164) -/

/-- One tensor of a row in FP8: its exponent, elements, norm and relative error (BF16), and whether an element was not finite. -/
structure Fp8Vec where
  exp : Int
  els : List Nat
  norm : Nat
  rerr : Nat
  bad : Bool

/-- The smallest e with amax / 2^e at most 448, not below -127 (R162). -/
def rowExp (amax : Nat) : Int :=
  match fp32.val amax with
  | .fin _ m e =>
    if m == 0 then 0
    else
      let l : Int := (Nat.log2 m : Int) + e
      max (-127) (if 4 * m ≤ 7 * 2 ^ Nat.log2 m then l - 8 else l - 7)
  | _ => 0

/-- A value scaled by 2^k in E4M3, to nearest even; a zero magnitude is +0 (R154, R162). -/
def toE4m3 (b : Nat) (k : Int) : Nat :=
  match fp32.val b with
  | .fin n m e => let v := e4m3.round .near n m (e + k) false
                  if v % 128 == 0 then 0 else v
  | _ => 0

/-- The value of an E4M3 element times 2^e. -/
def ofE4m3 (b : Nat) (e : Int) : Nat :=
  match e4m3.val b with
  | .fin n m q => fp32.round .near n m (q + e) false
  | _ => 0

/-- Convert an intake row of one tensor (R162, R163). -/
def fp8Vec (xs : List Nat) : Fp8Vec :=
  let cs := xs.map fun v => if isFin v then v else 0
  let e := rowExp (fmaxs (cs.map fabs))
  let els := cs.map fun v => toE4m3 v (-e)
  let bad := xs.any fun v => !(isFin v)
  ⟨e, els, fp32.to bf16 .up (normR .up cs), if bad then 0x7F80 else fp32.to bf16 .up (relErr cs (els.map fun v => ofE4m3 v e)), bad⟩

/-- Convert the K and V rows of one token. -/
def fp8Row (k v : List Nat) : FpRow :=
  let a := fp8Vec k
  let b := fp8Vec v
  ⟨(a.exp + 127).toNat, (b.exp + 127).toNat, a.els, b.els, a.norm, a.rerr, b.norm, b.rerr, a.bad || b.bad⟩

/-- The 16 B of a row's meta (R164). -/
def FpRow.metaBytes (r : FpRow) : Nat :=
  packFields [(0, 1, r.kExp), (1, 1, r.vExp), (4, 2, r.kNorm), (6, 2, r.kRerr), (8, 2, r.vNorm), (10, 2, r.vRerr)]

/-- Read a row of an FP8 page (R164). -/
def Dev.fp8At (x : Ctx) (d : Dev) (p : Page) (t : Nat) : FpRow :=
  let hd := d.shape.d
  let m := d.ld x (p.meta1 + 16 * t) 16
  ⟨bits m 0 8, bits m 8 8, d.ldBytes x (p.payload + t * hd) hd, d.ldBytes x (p.payload2 + t * hd) hd, bits m 32 16, bits m 48 16,
    bits m 64 16, bits m 80 16, false⟩

/-- Write a row of an FP8 page. -/
def Dev.putFp8 (x : Ctx) (d : Dev) (p : Page) (t : Nat) (r : FpRow) : Dev :=
  let hd := d.shape.d
  ((d.stBytes x (p.payload + t * hd) r.k).stBytes x (p.payload2 + t * hd) r.v).st x (p.meta1 + 16 * t) 16 r.metaBytes

/-- The values of an FP8 row: K and V. -/
def FpRow.kVals (r : FpRow) : List Nat := r.k.map fun b => ofE4m3 b ((r.kExp : Int) - 127)
@[inherit_doc FpRow.kVals] def FpRow.vVals (r : FpRow) : List Nat := r.v.map fun b => ofE4m3 b ((r.vExp : Int) - 127)

/-! ### Grids (R154) -/

/-- QMAX as an FP32 pattern. -/
def qmax : KvFmt → Nat
  | .k4s => 0x40C00000 | .k3s => 0x40400000 | _ => 0x3FC00000

/-- The magnitude of a magnitude code. -/
def magOf (f : KvFmt) (m : Nat) : Nat :=
  match f with
  | .k4s => e2m1.to fp32 .near m
  | .k3s => fofNat .near m
  | _ => if m == 0 then 0x3F000000 else 0x3FC00000

/-- Bits of a code without its sign. -/
def magBits : KvFmt → Nat
  | .k4s => 3 | .k3s => 2 | _ => 1

/-- The value of a code (R154). -/
def codeVal (f : KvFmt) (c : Nat) : Nat := magOf f (c % 2 ^ magBits f) + ofB (bit c (magBits f)) * 2 ^ 31

/-- The codes of a format in ascending order of value; a zero magnitude appears once. -/
def grid (f : KvFmt) : List Nat :=
  let n := 2 ^ magBits f
  let neg := ((List.range n).reverse.filter fun m => magOf f m != 0).map (· + n)
  neg ++ List.range n

/-- The distance between two finite values as a comparable pair: whether a - b is below c - d. -/
def gapLt (a b c e : Nat) : Bool :=
  match FV.add .near (FV.add .near (fp32.val a) (fp32.val b).neg) (FV.add .near (fp32.val c) (fp32.val e).neg).neg with
  | .fin n m _ => n && m != 0
  | _ => false

/-- Round y to the grid (R160): stochastically with the draw u, or to the nearest value. A y beyond the grid, which only rounding
can make, takes the end of the grid (DEDUCED, log 23). -/
def encodeOne (f : KvFmt) (sr : Bool) (u y : Nat) : Nat :=
  let g := grid f
  let los := g.filter fun c => fle (codeVal f c) y
  let his := g.filter fun c => fle y (codeVal f c)
  match los.getLast?, his.head? with
  | some lo, some hi =>
    if lo == hi then lo
    else
      let a := codeVal f lo
      let b := codeVal f hi
      if sr then (if flt u (fdiv .near (fsub .near y a) (fsub .near b a)) then hi else lo)
      else if gapLt y a b y then lo
      else if gapLt b y y a then hi
      else if lo % 2 ^ magBits f == hi % 2 ^ magBits f then hi
      else if lo % 2 == 0 then lo else hi
  | some lo, none => lo
  | none, some hi => hi
  | none, none => 0

/-! ### Tensors -/

/-- An encoded tensor: format, codes and block scales by row, page scale, outlier channels, sidecar scale and elements by row. -/
structure Enc where
  fmt : KvFmt
  codes : List (List Nat)
  scales : List (List Nat)
  pscale : Nat
  outCh : List Nat
  sscale : Nat
  side : List (List Nat)

/-- The decoded value of element c of row t (R158, R193): products rounded in turn. -/
def Enc.val (e : Enc) (t c : Nat) : Nat :=
  match findPos (fun k => k == c) e.outCh with
  | some j => fmul .near (e4m3.to fp32 .near (getAt 0 j (getAt [] t e.side))) e.sscale
  | none => fmul .near (fmul .near (codeVal e.fmt (getAt 0 c (getAt [] t e.codes)))
      (e4m3.to fp32 .near (getAt 0 (c / 16) (getAt [] t e.scales)))) e.pscale

/-- A decoded row. -/
def Enc.row (e : Enc) (hd t : Nat) : List Nat := (List.range hd).map fun c => e.val t c

/-- The smallest E4M3 value not less than a value; at most 448 (R160). -/
def roundUpE4m3 (b : Nat) : Nat := fp32.to e4m3 .up b

/-- The draw u(t, c) (R161). -/
def srDraw (seed tensor t c : Nat) : Nat :=
  fp32.round .near false (mix64 (seed * 2 ^ 32 + tensor * 2 ^ 16 + t * 256 + c) / 2 ^ 48) (-16) false

/-- SR_SEED of a pass (R161). -/
def Dev.srSeed (d : Dev) (k : PKey) (pass : Nat) : Nat :=
  u32 (mix64 ((d.reg Reg.sessKvSrkeyLo + d.reg Reg.sessKvSrkeyHi * 2 ^ 32) ^^^
    (k.layer * 2 ^ 48 + k.head * 2 ^ 40 + pass * 2 ^ 32 + 256 * k.page)))

/-- Outlier channels of a tensor, in ascending order (R159). -/
def Dev.outliers (d : Dev) (hd : Nat) (rows : List (List Nat)) : List Nat :=
  let amax := (List.range hd).map fun c => fmaxs (rows.map fun r => fabs (getAt 0 c r))
  let sorted := sortBy (fun a b => decide (a < b)) amax
  let med := getAt 0 (hd / 2 - 1) sorted
  let thr := fmul .near (fpow2 (d.fld Reg.sessKvCtl 4 4 : Nat)) med
  let elig := (List.range hd).filter fun c => getAt 0 c amax != 0 && fle thr (getAt 0 c amax)
  let best := (sortBy (fun a b => decide (getAt 0 b amax < getAt 0 a amax)) elig).take (min (d.fld Reg.sessKvCtl 0 4) (outLimit hd))
  sortBy (fun a b => decide (a < b)) best

/-- Encode a tensor (R159, R160). `out` gives the outlier channels with the sidecar of a fade, which is carried over. -/
def Dev.encode (d : Dev) (f : KvFmt) (seed tensor hd : Nat) (rows : List (List Nat)) (out : List Nat) (kept : Option (Nat × List (List Nat))) :
    Enc :=
  let sr := bit (d.reg Reg.sessKvCtl) 8
  let isOut := fun c => out.contains c
  let plain := fun (r : List Nat) => (List.range hd).filterMap fun c => if isOut c then none else some (fabs (getAt 0 c r))
  let amaxP := fmaxs (rows.map fun r => fmaxs (plain r))
  let pscale := if amaxP == 0 then 0x3F800000 else fdiv .near amaxP (fmul .near (qmax f) 0x43E00000)
  let blk := fun (r : List Nat) (b : Nat) => fmaxs ((rangeFrom (16 * b) 16).filterMap fun c => if isOut c then none else some (fabs (getAt 0 c r)))
  let scales := rows.map fun r => (List.range (hd / 16)).map fun b =>
    let a := blk r b
    if a == 0 then 0 else roundUpE4m3 (fdiv .near a (fmul .near (qmax f) pscale))
  let codes := List.zipWith (fun (tr : Nat × List Nat) (sc : List Nat) => (List.range hd).map fun c =>
      if isOut c then 0
      else
        let step := fmul .near (e4m3.to fp32 .near (getAt 0 (c / 16) sc)) pscale
        if step == 0 then 0
        else encodeOne f sr (srDraw seed tensor tr.1 c) (fdiv .near (getAt 0 c tr.2) step))
    (rows.zipIdx.map fun p => (p.2, p.1)) scales
  match kept with
  | some (ss, side) => ⟨f, codes, scales, pscale, out, ss, side⟩
  | none =>
    let sv := rows.map fun r => out.map fun c => getAt 0 c r
    let ss := if out.isEmpty then 0x3F800000 else fdiv .up (fmaxs (sv.map fun r => fmaxs (r.map fabs))) 0x43E00000
    let side := sv.map fun r => r.map fun v => toE4m3 (fdiv .near v ss) 0
    ⟨f, codes, scales, pscale, out, ss, side⟩

/-! ### The bytes of a K4S page (R156, R157) -/

/-- Codes of one row packed into bytes: the numbers of `n` codes of `w` bits. -/
def packCodes (w : Nat) : List Nat → Nat
  | [] => 0
  | c :: t => c % 2 ^ w + 2 ^ w * packCodes w t

/-- Bytes of a row of codes. -/
def codeRowBytes (f : KvFmt) (hd : Nat) : Nat := hd * (magBits f + 1) / 8

/-- The bytes of a tensor's codes, row by row. -/
def Enc.codeNat (e : Enc) (hd : Nat) : Nat :=
  e.codes.foldr (fun r acc => packCodes (magBits e.fmt + 1) r + 2 ^ (8 * codeRowBytes e.fmt hd) * acc) 0

/-- The bytes of the block scales, and of the sidecar with OM slots a row. -/
def Enc.scaleNat (e : Enc) : Nat := leNat e.scales.flatten
@[inherit_doc Enc.scaleNat] def Enc.sideNat (e : Enc) (om : Nat) : Nat :=
  leNat (e.side.flatMap fun r => (r ++ List.replicate om 0).take om)

/-- The meta frame of two encoded tensors (R157): `len` bytes. -/
def metaNat (hd : Nat) (k v : Enc) : Nat :=
  let om := outLimit hd
  packFields [(0, 16 * hd, k.scaleNat), (16 * hd, 16 * hd, v.scaleNat), (32 * hd, 256 * om, k.sideNat om),
    (32 * hd + 256 * om, 256 * om, v.sideNat om)]

/-- The payload frame of two encoded tensors (R156). -/
def payNat (hd : Nat) (k v : Enc) : Nat := packFields [(0, 128 * hd, k.codeNat hd), (128 * hd, 128 * hd, v.codeNat hd)]

/-- Channels of a sidecar from their header field. -/
def outChans (n field : Nat) : List Nat := (List.range n).map fun j => byteOf field j

/-- Read a tensor of a K4S page from its frames. `tensor` is 0 for K, 1 for V. -/
def Dev.tensorAt (x : Ctx) (d : Dev) (p : Page) (tensor : Nat) : Enc :=
  let hd := d.shape.d
  let om := outLimit hd
  let f := if tensor == 0 then p.kfmt else p.vfmt
  let w := magBits f + 1
  let rb := codeRowBytes f hd
  let base := p.payload + tensor * 128 * hd
  let n := if tensor == 0 then p.kOutN else p.vOutN
  { fmt := f,
    codes := (List.range 256).map fun t => let v := d.ld x (base + t * rb) rb
                                           (List.range hd).map fun c => bits v (w * c) w,
    scales := (List.range 256).map fun t => d.ldBytes x (p.meta1 + tensor * 16 * hd + t * (hd / 16)) (hd / 16),
    pscale := if tensor == 0 then p.kPscale else p.vPscale,
    outCh := outChans n (if tensor == 0 then p.kOutCh else p.vOutCh),
    sscale := if tensor == 0 then p.kSscale else p.vSscale,
    side := (List.range 256).map fun t => d.ldBytes x (p.meta1 + 32 * hd + tensor * 256 * om + t * om) n }

/-- Row errors of an encoded tensor against the rows it was made from, joined to the old errors (R166). -/
def rowErrs (hd : Nat) (e : Enc) (rows : List (List Nat)) (olds : List Nat) : List Nat :=
  List.zipWith (fun (tr : Nat × List Nat) old => epsNew old (relErr tr.2 (e.row hd tr.1))) (rows.zipIdx.map fun p => (p.2, p.1)) olds

/-! ### MX blocks (R182, R184) -/

/-- The element format of a FMT code, with its bits and the exponent of its largest value. -/
def mxFmt : Nat → Option (Fmt × Nat × Int)
  | 1 => some (e2m1, 4, 2) | 2 => some (e2m3, 6, 2) | 3 => some (e3m2, 6, 4) | 4 => some (e4m3, 8, 8) | 5 => some (e5m2, 8, 15)
  | _ => none

/-- Bytes of a tensor block of `rows` rows (R182). -/
def mxBlockBytes (bitsPer rows hd : Nat) : Nat := cdiv (rows * hd * bitsPer / 8 + rows * hd / 32) 256 * 256

/-- The value of an MX element with its scale: a scale of 0xFF is NaN. -/
def mxVal (f : Fmt) (scale el : Nat) : Nat :=
  if scale == 0xFF then nan32
  else match f.val el with
    | .fin n m e => fp32.round .near n m (e + (scale : Int) - 127) false
    | v => fp32.pack .near v

/-- Read a row of a tensor block at an address (R182). -/
def Dev.mxRow (x : Ctx) (d : Dev) (a rows hd t : Nat) (f : Fmt × Nat × Int) : List Nat :=
  let (fmt, w, _) := f
  let els := d.ld x (a + t * hd * w / 8) (hd * w / 8)
  let sc := a + rows * hd * w / 8 + t * (hd / 32)
  (List.range hd).map fun c => mxVal fmt (d.byte x (sc + c / 32)) (bits els (w * c) w)

/-- Encode a row of values: elements and scale bytes (R184). A block of zeros has scale exponent -127 (E8M0 code 0). -/
def mxEncode (f : Fmt × Nat × Int) (vals : List Nat) : List Nat × List Nat :=
  let (fmt, _, emax) := f
  let blocks := chunksOf 32 vals.length vals
  let enc := blocks.map fun b =>
    let amax := fmaxs (b.map fabs)
    let ex : Int := match fp32.val amax with
      | .fin _ m e => if m == 0 then -127 else max (-127) ((Nat.log2 m : Int) + e - emax)
      | _ => -127
    let els := b.map fun v => match fp32.val v with
      | .fin n m e =>
        let r := fmt.round .near n m (e - ex) false
        let top := fmt.lim - 1
        let mag := min (r % 2 ^ fmt.width) top
        if mag == 0 then 0 else ofB n * 2 ^ fmt.width + mag
      | _ => 0
    (els, (ex + 127).toNat)
  (enc.flatMap (·.1), enc.map (·.2))

end Sys2Proof.Machine
end

