-- ==== Sys2Proof/Machine/AttnMath.lean ====
section
/-! DEFINITION. Machine/AttnMath.lean: what an attention engine computes: scores (R192), the online softmax of a tile (R193, R194),
the merge (R203), the final output (R204) and the error bound (R175, R176). FP32 values are bit patterns. -/

namespace Sys2Proof.Machine

/-- A run of tokens as one tile reads it: an FP8 run or a K4S page, with the token number of its first row and the error fields of
R175 (largest K_EN, V_EN and V_NMAX). -/
inductive Tokens
  | fp8 (base : Nat) (rows : List FpRow)
  | page (base : Nat) (k v : Enc) (kEn vEn vNmax : Nat)

/-- Multiply and add, each rounded to nearest (R191); a product of a query and a KV element is exact. -/
def macc (acc a b : Nat) : Nat := fadd .near acc (fmul .near a b)

/-- The score of a K4S row (R192). -/
def scoreK4s (k : Enc) (t hd scale : Nat) (q : List Nat) : Nat :=
  let acc := (List.range (hd / 16)).foldl (fun acc b =>
    let blk := (rangeFrom (16 * b) 16).foldl (fun blk c =>
      if k.outCh.contains c then blk else macc blk (getAt 0 c q) (codeVal k.fmt (getAt 0 c (getAt [] t k.codes)))) 0
    macc acc blk (e4m3.to fp32 .near (getAt 0 b (getAt [] t k.scales)))) 0
  let acc := fmul .near acc k.pscale
  let acc := k.outCh.zipIdx.foldl (fun acc c =>
    macc acc (fmul .near (getAt 0 c.1 q) (e4m3.to fp32 .near (getAt 0 c.2 (getAt [] t k.side)))) k.sscale) acc
  fmul .near acc scale

/-- The score of an FP8 row (R192). -/
def scoreFp8 (r : FpRow) (hd scale : Nat) (q : List Nat) : Nat :=
  let acc := (List.range (hd / 16)).foldl (fun acc b =>
    fadd .near acc ((rangeFrom (16 * b) 16).foldl (fun blk c => macc blk (getAt 0 c q) (e4m3.to fp32 .near (getAt 0 c r.k))) 0)) 0
  fmul .near (fmul .near acc (fpow2 ((r.kExp : Int) - 127))) scale

/-- A partial without tokens (R194). -/
def Partial.zero (hd : Nat) : Partial := ⟨List.replicate hd 0, 0xFF800000, 0, 0, 0, 0, 0, false, false⟩

/-- One token of the online softmax (R193). -/
def Partial.token (p : Partial) (s : Nat) (v : List Nat) : Partial :=
  if !(isFin s) then { p with nonfinite := true }
  else
    let p := if flt p.m s then
        let c := if p.m == 0xFF800000 then 0 else fexp (fsub .near p.m s)
        { p with l := fmul .near p.l c, o := p.o.map fun e => fmul .near e c, m := s }
      else p
    let w := fexp (fsub .near s p.m)
    { p with l := fadd .near p.l w, o := List.zipWith (fun o e => macc o w e) p.o v, n := p.n + 1 }

/-- Add the error fields of what a head attended (R175, R176). -/
def Partial.errs (p : Partial) (kEn vEn vNmax : Nat) : Partial :=
  { p with kEn := fmax p.kEn kEn, vEn := fmax p.vEn vEn, vNmax := fmax p.vNmax vNmax }

/-- The error fields of an FP8 row: K_RERR × K_NORM, V_RERR × V_NORM, V_NORM (R175). -/
def FpRow.errs (r : FpRow) : Nat × Nat × Nat :=
  let w := fun b => bf16.to fp32 .near b
  (errMul (w r.kRerr) (w r.kNorm), errMul (w r.vRerr) (w r.vNorm), w r.vNorm)

/-- A run of tokens, up to token `lim` excluded (R193, R206). -/
def Partial.run (p : Partial) (hd scale lim : Nat) (q : List Nat) : Tokens → Partial
  | .fp8 base rows =>
    (rows.zipIdx.filter fun r => base + r.2 < lim).foldl (fun p r =>
      let e := r.1.errs
      (p.errs e.1 e.2.1 e.2.2).token (scoreFp8 r.1 hd scale q) r.1.vVals) p
  | .page base k v kEn vEn vNmax =>
    let ts := (List.range 256).filter fun t => base + t < lim
    ts.foldl (fun p t => p.token (scoreK4s k t hd scale q) (v.row hd t)) (if ts.isEmpty then p else p.errs kEn vEn vNmax)

/-- The merge of two partials (R203): left operand A, right operand B. -/
def Partial.merge (a b : Partial) : Partial :=
  let m := if flt a.m b.m then b.m else a.m
  let e : Partial := ⟨a.o, a.m, a.l, fmax a.kEn b.kEn, fmax a.vEn b.vEn, fmax a.vNmax b.vNmax, a.n + b.n, a.nonfinite || b.nonfinite, a.media || b.media⟩
  if m == 0xFF800000 then e
  else
    let ca := fexp (fsub .near a.m m)
    let cb := fexp (fsub .near b.m m)
    { e with m := m, l := fadd .near (fmul .near a.l ca) (fmul .near b.l cb),
             o := List.zipWith (fun x y => fadd .near (fmul .near x ca) (fmul .near y cb)) a.o b.o }

/-- Merge a non-empty list left to right (R204). -/
def mergeAll (hd : Nat) : List Partial → Partial
  | [] => .zero hd
  | p :: t => t.foldl Partial.merge p

/-- The element format of a QFMT, KVFMT or OFMT code with its bytes. -/
def elemFmt : Nat → Fmt × Nat
  | 0 => (bf16, 2) | 1 => (fp16, 2) | _ => (fp32, 4)

/-- The final output of a head: o / l in FP32, rounded to OFMT, or 0 (R204). DEDUCED (log 26): the quotient is an FP32 operation
(R191) before the rounding to OFMT. -/
def Partial.final (p : Partial) (ofmt : Nat) : List Nat :=
  p.o.map fun e => if fabs p.l == 0 then 0 else fp32.to (elemFmt ofmt).1 .near (fdiv .near e p.l)

/-- The largest k with 2^k at least n, as R175 takes it: 0 for n of 0 or 1. -/
def clog2 (n : Nat) : Nat := if n ≤ 1 then 0 else Nat.log2 (n - 1) + 1

/-- The bound B (R175), with every step rounded up. DESIGN CHOICE (log 52): with V_NMAX 0 and V_EN +inf the quotient is 0, as R175 has it, and not +inf, as
R163 concludes. -/
def Partial.bound (p : Partial) (scale ofmt : Nat) (q : List Nat) : Nat :=
  let delta := errMul (errMul (fabs scale) (normR .up q)) p.kEn
  let first := fsub .up (fexpR .up (fmul .up 0x40000000 delta)) 0x3F800000
  let second := if fabs p.vNmax == 0 then 0 else fdiv .up p.vEn p.vNmax
  let acc := fp32.round .up false (clog2 p.n + 2) (-23) false
  let out := match ofmt with | 0 => fpow2 (-9) | 1 => fpow2 (-11) | _ => 0
  let b := fadd .up (fadd .up (fadd .up first second) acc) out
  if p.nonfinite || isNan b then 0x7F800000 else b

end Sys2Proof.Machine
end

