-- ==== Sys2Proof/Machine/Arbiters.lean ====
section
/-! DEFINITION. Machine/Arbiters.lean: cell arbiters and the port arbiters of the Ecliptic (R34 to R45). DESIGN CHOICE (log 51): the model holds the
requests of engines at pseudo-channel ports, and the transfers over the Ecliptic of request images, tile reads, partials and base-die streams. -/

namespace Sys2Proof.Machine

/-- The next number after `last` in rotation among those that wait (R35, R41). -/
def nextTurn (last : Nat) (l : List Nat) : Option Nat := ((l.filter fun k => last < k).min?).or l.min?

/-! ### Cells (R34, R35, R74) -/

/-- The arbiter of a cell; one that is not listed has nothing waiting. -/
def Dev.cellOf (d : Dev) (block cell : Nat) : CellArb :=
  (d.arb.cells.find? fun c => c.block == block && c.cell == cell).getD ⟨block, cell, none, 0, [], []⟩

/-- Set the arbiter of a cell. -/
def Dev.setCell (d : Dev) (c : CellArb) : Dev :=
  let rest := d.arb.cells.filter fun k => !(k.block == c.block && k.cell == c.cell)
  { d with arb := { d.arb with cells := if c.granted.isNone && c.waiting.isEmpty && c.again.isEmpty then rest else rest ++ [c] } }

/-- Grant the next requester in rotation where none has the grant: never the same one twice in a row while another waits (R35). -/
def CellArb.grant (c : CellArb) : CellArb :=
  match c.granted, nextTurn c.last c.waiting with
  | none, some r => { c with granted := some r, last := r, waiting := c.waiting.erase r }
  | _, _ => c

/-- A request at a cell. -/
def CellArb.request (c : CellArb) (r : Nat) : CellArb := ({ c with waiting := c.waiting ++ [r] } : CellArb).grant

/-- A requester is served, or takes its request back: the next one is granted. -/
def CellArb.release (c : CellArb) (r : Nat) : CellArb :=
  let again := tblDel r c.again
  if c.granted == some r then ({ c with granted := none, again := again } : CellArb).grant
  else { c with waiting := c.waiting.erase r, again := again }

/-- The number under which a cell keeps a handshake of which the model holds no request. -/
def otherRequester : Nat := 256

/-- An acknowledge watcher expires for the first time: the handshake returns to spacer and its request is raised once more (R74). -/
def CellArb.retry (c : CellArb) (now : Ns) : CellArb :=
  match c.granted with
  | some r => ({ c with granted := none, waiting := c.waiting ++ [r], again := tblSet r now c.again } : CellArb).grant
  | none => { c with again := tblSet otherRequester now c.again }

/-- An engine requests the pseudo-channel ports of some stacks' controllers, each by its PACE offset and number. -/
def Dev.cellRequests (d : Dev) (r : Nat) (ports : List (Nat × Nat)) : Dev :=
  ports.foldl (fun (d : Dev) p => d.setCell ((d.cellOf p.1 p.2).request r)) d

/-- An engine's requests are served or withdrawn. -/
def Dev.cellRelease (d : Dev) (r : Nat) : Dev :=
  { d with arb := { d.arb with cells := (d.arb.cells.map fun c => c.release r).filter fun c => !(c.granted.isNone && c.waiting.isEmpty && c.again.isEmpty) } }

/-- The cells of a block begin anew with it: a retry in progress there is abandoned (R695). -/
def Dev.cellsAnew (d : Dev) (block : Nat) : Dev := { d with arb := { d.arb with cells := d.arb.cells.filter fun c => c.block != block } }

/-- The pseudo-channel port of an HBM address: its stack controller and its number there (R82). -/
def portOfAddr (a : Nat) : Nat × Nat := (Reg.qdHsPace (quadOfStack (stackOf a)) (stackOf a % 3), pcOf a % 32)

/-! ### Ports of the Ecliptic (R38 to R42) -/

/-- Ports in the order of R38 (DESIGN CHOICE, log 42): Q0 to Q3, HIF, CVF group 0 and 1, SESS, TAIL, TEXT, RECALL, BELT, CKPT, the control domain. -/
def eclHif : Nat := 4
@[inherit_doc eclHif] def eclCvf (port : Nat) : Nat := 5 + port / 4
@[inherit_doc eclHif] def eclTail : Nat := 8
@[inherit_doc eclHif] def eclCkpt : Nat := 12

/-- The logic die of a port's unit (R32, R33). -/
def portDie (p : Nat) : Nat := if p == 2 || p == 3 || p == 6 || p == 10 || p == 11 || p == 12 then 1 else 0

/-- Whether traffic between two ports crosses the die-to-die cut (R39). -/
def crossesCut (a b : Nat) : Bool := portDie a != portDie b

/-- Work starts to cross the Ecliptic: its segments wait behind those that its source sent before in the class (R42). -/
def Dev.cross (d : Dev) (t : EclXfer) : Dev :=
  if t.src == t.dst || t.left == 0 then d else { d with arb := { d.arb with xfers := d.arb.xfers ++ [t] } }

/-- Segments of operations that have ended, or been given up, wait no longer. -/
def Dev.crossed (d : Dev) (p : EclOp → Bool) : Dev := { d with arb := { d.arb with xfers := d.arb.xfers.filter fun t => !(p t.op) } }

/-- The ports of the Ecliptic. -/
def eclPorts : Nat := 14

/-- BULK work of the base dies crosses between the quadrants of the stacks, in equal shares, and a port (R37, R39). -/
def Dev.crossBulk (d : Dev) (port block bytes : Nat) (out : Bool) (op : EclOp) : Dev :=
  (List.range 4).foldl (fun (d : Dev) q =>
    if out then d.cross ⟨q, port, 2, cdiv bytes 4, Reg.qdHsPace q 0, false, op⟩ else d.cross ⟨port, q, 2, cdiv bytes 4, block, false, op⟩) d

/-- The class that a port serves next (R40): CONTROL, then DEADLINE, then BULK, but BULK where only so many of the present eight segments are left as
BULK_MIN guarantees it. -/
def Dev.eclClass (d : Dev) (dst : Nat) (ws : List EclXfer) : Nat :=
  let has := fun (c : Nat) => ws.any fun t => t.cls == c
  let seen := (tblGet dst d.arb.eighths).getD (0, 0)
  if has 2 && 8 - seen.1 ≤ d.fld Reg.chipEclCtl 0 3 - seen.2 then 2 else if has 0 then 0 else if has 1 then 1 else 2

/-- The transfer whose segment a destination port takes next (R40 to R42): of its class, the source next in rotation, and of that source the
transfer sent first. -/
def Dev.eclNext (d : Dev) (dst : Nat) : Option EclXfer :=
  let ws := d.arb.xfers.filter fun t => t.dst == dst
  let c := d.eclClass dst ws
  let mine := ws.filter fun t => t.cls == c
  (nextTurn ((tblGet (dst * 3 + c) d.arb.turns).getD 13) (mine.map (·.src))).bind fun s => mine.find? fun t => t.src == s

/-- The turns and eighths after a segment of a transfer (R40, R41). -/
def Dev.eclServed (d : Dev) (t : EclXfer) : Dev :=
  let seen := (tblGet t.dst d.arb.eighths).getD (0, 0)
  let bulk := d.arb.xfers.any fun k => k.dst == t.dst && k.cls == 2
  let eighths := if !bulk || 7 ≤ seen.1 then tblDel t.dst d.arb.eighths
                 else tblSet t.dst (seen.1 + 1, seen.2 + ofB (t.cls == 2)) d.arb.eighths
  { d with arb := { d.arb with turns := tblSet (t.dst * 3 + t.cls) t.src d.arb.turns, eighths := eighths } }

/-- The first transfer equal to a given one becomes another, or ends. -/
def Dev.eclPut (d : Dev) (t : EclXfer) (new : Option EclXfer) : Dev :=
  let xs := match new with | some n => replaceFirst (fun k => k == t) (fun _ => n) d.arb.xfers | none => d.arb.xfers.erase t
  { d with arb := { d.arb with xfers := xs } }

/-- A segment of up to 256 B arrives whole. -/
def Dev.eclArrive (d : Dev) (t : EclXfer) : Dev :=
  (d.eclServed t).eclPut t (if t.left ≤ 256 then none else some { t with left := t.left - 256, again := false })

/-- A segment fails its CRC: the source sends it once more (R44). -/
def Dev.eclResend (d : Dev) (t : EclXfer) : Dev := (d.eclServed t).eclPut t (some { t with again := true })

end Sys2Proof.Machine
end

