-- ==== Sys2Proof/Machine/Streams.lean ====
section
/-! DEFINITION. Machine/Streams.lean: usage meters (R549, R550) and output channels with their records, rings and backlogs (R377 to
R383). -/

namespace Sys2Proof.Machine

/-! ### Usage meters (R549, R550) -/

/-- Add to a meter of a composition; it wraps at 2^64 (R549). -/
def Dev.charge (x : Ctx) (d : Dev) (comp word n : Nat) : Dev :=
  let a := d.meterBase + 64 * (comp % 65536) + 8 * word
  d.st x a 8 (u64 (d.ld x a 8 + n))

/-- Charge a busy time that no operand carries: a free value (log 24). -/
def Dev.chargeSome (x : Ctx) (d : Dev) (comp word : Nat) : Dev :=
  let (n, d) := d.draw
  d.charge x comp word n

/-- The composition that work of a command without a session is charged to: that of its SQ (R550). -/
def Dev.sqComp (d : Dev) (c : Cmd) : Nat := match tblGet c.sq d.hif.sqs with | some q => q.composition | none => 0

/-! ### Output channels (R377 to R383) -/

/-- An output channel that TEXT_CHAN_SET has never set is off. -/
def Channel.off : Channel := ⟨.off, 0xFFFF, 16, 0, 0, 0, [], none⟩

/-- A channel. -/
def Dev.channel (d : Dev) (n : Nat) : Channel := (tblGet n d.text.channels).getD .off

/-- Set a channel. -/
def Dev.setChannel (d : Dev) (n : Nat) (c : Channel) : Dev := { d with text := { d.text with channels := tblSet n c d.text.channels } }

/-- The output binding of a session (R378). -/
def Dev.binding (d : Dev) (i : Nat) : Option Binding := d.text.bindings.find? fun b => b.idx == i

/-- A record, padded to a multiple of 16 B (R379). -/
def recordBytes (type flags handle stepSeq seq : Nat) (payload : List Nat) : List Nat :=
  let h := leBytes (packFields [(0, 1, type), (1, 1, flags), (2, 2, payload.length), (4, 4, handle), (8, 4, stepSeq), (12, 4, seq)]) 16
  let n := 16 + payload.length
  h ++ payload ++ List.replicate (cdiv n 16 * 16 - n) 0

/-- Bytes that wait in a backlog. -/
def Channel.waiting (c : Channel) : Nat := sumOf (c.backlog.map (·.2.length))

/-- Whether the HP shaper's TAIL bucket lets a record start (R383, R491, R505). -/
def Dev.hpTailOpen (d : Dev) : Bool := decide (0 < (getAt ClassQ.reset 1 d.cvf.hp.classes).tokens)

/-- Take a charged length from the HP shaper's TAIL bucket (R489, R491). -/
def Dev.hpTailTake (d : Dev) (n : Nat) : Dev :=
  let c := getAt ClassQ.reset 1 d.cvf.hp.classes
  let len := n + d.fld Reg.hpsShapeCtl 8 6
  let d := { d with cvf := { d.cvf with hp := { d.cvf.hp with classes := setAt .reset { c with tokens := c.tokens - len, txRem := (c.txRem + len) % 1024 } 1 d.cvf.hp.classes } } }
  (d.bump (Reg.hpsTxKib 1) ((c.txRem + len) / 1024)).bump (Reg.hpsTxFrames 1) 1

/-- Write one record into an HP ring, with a PAD record before it where it would wrap; none where RD leaves no room (R382). -/
def Dev.ringPut (x : Ctx) (d : Dev) (n : Nat) (c : Channel) (r : List Nat) : Option Dev :=
  let size := 2 ^ c.ringLog2 - 64
  let rd := d.ld x (c.addr + 8) 8
  let pos := c.wr % size
  let pad := if size < pos + r.length then size - pos else 0
  if size + rd < c.wr + pad + r.length then none
  else
    let d := if pad == 0 then d else d.stBytes x (c.addr + 64 + pos) (recordBytes 0 0 0 0 0 (List.replicate (pad - 16) 0))
    let d := d.stBytes x (c.addr + 64 + (c.wr + pad) % size) r
    let c := { c with wr := u64 (c.wr + pad + r.length) }
    let d := (d.setChannel n c).st x c.addr 8 c.wr
    some (if c.vector == 0xFFFF then d else d.signal c.vector false)

/-- Send one record of a channel, if it can leave now (R382, R383). -/
def Dev.sendRecord (x : Ctx) (d : Dev) (n : Nat) (r : List Nat) : Option Dev :=
  let c := d.channel n
  match c.kind with
  | .off => none
  | .hp =>
    if d.hpTailOpen then (d.ringPut x n c r).map fun d => (d.hpTailTake r.length).send (.hpRecord n r) else none
  | .cvf =>
    match d.sendTo (c.addr % 65536) 0x07 1 "OUTPUT" (4 + r.length) (leBytes c.tag 4 ++ r) none (n % 8) (.record n) with
    | (d, true) => some d
    | (_, false) => none

/-- Records leave a channel in order for as long as they can; `fuel` bounds them. -/
def Dev.drainChannel (x : Ctx) (n : Nat) : Nat → Dev → Dev
  | 0, d => d
  | k + 1, d =>
    match (d.channel n).backlog with
    | [] => d
    | r :: rest => match d.sendRecord x n r.2 with
      | some d => Dev.drainChannel x n k (d.setChannel n { d.channel n with backlog := rest })
      | none => d

/-- A LOSS record joins the backlog before anything else once there is room for it (R379, R383). Its record number is that of the
first dropped record (log 25). -/
def Dev.putLoss (d : Dev) (n : Nat) : Dev :=
  let c := d.channel n
  match c.lost with
  | some (bytes, handle, stepSeq, seq) =>
    let r := recordBytes 5 0 handle stepSeq seq (leBytes bytes 8)
    if c.waiting + r.length ≤ 0x100000 then d.setChannel n { c with backlog := c.backlog ++ [(d.now, r)], lost := none } else d
  | none => d

/-- Hand a record to a channel: it joins the backlog, or is dropped and counted where the backlog is full (R383); what can leave
leaves. -/
def Dev.handOver (x : Ctx) (d : Dev) (n handle stepSeq seq len : Nat) (r : List Nat) : Dev :=
  let d := d.putLoss n
  let c := d.channel n
  if c.lost.isNone && c.waiting + r.length ≤ 0x100000 then
    let d := d.setChannel n { c with backlog := c.backlog ++ [(d.now, r)] }
    d.drainChannel x n (c.backlog.length + 1)
  else
    let lost := match c.lost with
      | some (b, h, st, sq) => (b + len, h, st, sq)
      | none => (len, handle, stepSeq, seq)
    (d.setChannel n { c with lost := some lost }).bump Reg.textOutDrop len

/-- Write a record of a session to its channel (R378, R379); a session without a binding writes none, and its TEXT bytes are
counted (R378). -/
def Dev.record (x : Ctx) (d : Dev) (i type flags stepSeq : Nat) (payload : List Nat) : Dev :=
  match d.binding i with
  | none => if type == 1 then d.bump Reg.textOutUnbound payload.length else d
  | some b =>
    let h := d.handleOf i
    let d := { d with text := { d.text with bindings := replaceFirst (fun (q : Binding) => q.idx == i) (fun q => { q with seq := u32 (q.seq + 1) }) d.text.bindings } }
    let d := if type == 1 then d.bump Reg.textOutBytes payload.length else d
    d.handOver x b.channel h stepSeq b.seq payload.length (recordBytes type flags h stepSeq b.seq payload)

/-- The flush of a held prefix: one U+FFFD in a TEXT record with FLUSH (R105, R139, R376). The committed descriptor's PEND becomes
empty with the write that the caller makes. -/
def Dev.flushPend (x : Ctx) (d : Dev) (i : Nat) : Dev :=
  let s := d.desc i
  if s.pendN == 0 then d
  else (d.bump Reg.textFffdCnt 1).record x i 1 1 s.stepSeq [0xEF, 0xBF, 0xBD]

/-- Records that waited leave once there is room (R382, R383). -/
def execChannelBacklogSend (channel : Nat) (s : State) : Host.Outcome State Fault Refusal :=
  s.run fun x d => ((d.drainChannel x channel ((d.channel channel).backlog.length)).putLoss channel).drainChannel x channel
    ((d.channel channel).backlog.length + 1)

end Sys2Proof.Machine
end

