-- ==== Sys2Proof/Machine/Detok.lean ====
section
/-! DEFINITION. Machine/Detok.lean: the tokenizer image (R357, R360), well-formed UTF-8 (R366, R373) and the text of released tokens
(R373 to R376, R379 to R381). -/

namespace Sys2Proof.Machine

/-! ### The tokenizer image (R357) -/

/-- Header fields of a tokenizer image at an address. -/
structure TokHead where
  vocab : Nat
  merges : Nat
  special : Nat
  maxLen : Nat
  mhLog2 : Nat
  dfaStates : Nat
  byteMap : Nat
  tokTab : Nat
  heap : Nat
  merge : Nat
  spec : Nat
  dfa : Nat

/-- Read the header of an image (R357). -/
def Dev.tokHead (x : Ctx) (d : Dev) (a : Nat) : TokHead :=
  let h := d.ld x a 256
  let f := fun off len => bits h (8 * off) (8 * len)
  ⟨f 8 4, f 12 4, f 16 2, f 18 1, f 19 1, f 20 2, f 24 4, f 28 4, f 32 4, f 36 4, f 40 4, f 44 4⟩

/-- An entry of the token table: heap offset, length, SPECIAL. -/
def Dev.tokEntry (x : Ctx) (d : Dev) (a : Nat) (h : TokHead) (t : Nat) : Nat × Nat × Bool :=
  let w := d.ld x (a + h.tokTab + 8 * t) 8
  (bits w 0 32, bits w 32 8, bit w 40)

/-- The bytes of a token. -/
def Dev.tokBytes (x : Ctx) (d : Dev) (a : Nat) (h : TokHead) (t : Nat) : List Nat :=
  let (off, len, _) := d.tokEntry x a h t
  d.ldBytes x (a + h.heap + off) len

/-! ### UTF-8 (RFC 3629) -/

/-- For a first byte: the length of the sequence it begins and the range of its second byte; length 0 where it begins none. -/
def utf8Lead (b : Nat) : Nat × Nat × Nat :=
  if b < 0x80 then (1, 0, 0)
  else if b < 0xC2 then (0, 0, 0)
  else if b < 0xE0 then (2, 0x80, 0xBF)
  else if b == 0xE0 then (3, 0xA0, 0xBF)
  else if b == 0xED then (3, 0x80, 0x9F)
  else if b < 0xF0 then (3, 0x80, 0xBF)
  else if b == 0xF0 then (4, 0x90, 0xBF)
  else if b < 0xF4 then (4, 0x80, 0xBF)
  else if b == 0xF4 then (4, 0x80, 0x8F)
  else (0, 0, 0)

/-- How many of the first bytes form a valid beginning of the sequence that the first byte begins. -/
def utf8Run (bs : List Nat) : Nat :=
  match bs with
  | [] => 0
  | b :: t =>
    let (n, lo, hi) := utf8Lead b
    if n ≤ 1 then n
    else match t with
      | [] => 1
      | c :: u =>
        if c < lo || hi < c then 1
        else 2 + ((u.take (n - 2)).takeWhile fun e => 0x80 ≤ e && e ≤ 0xBF).length

/-- Whether the first bytes hold one complete well-formed sequence. -/
def utf8Whole (bs : List Nat) : Bool :=
  match bs with
  | [] => false
  | b :: _ => (utf8Lead b).1 != 0 && utf8Run bs == (utf8Lead b).1

/-- Whether a list of bytes is well-formed UTF-8. -/
def utf8Ok : Nat → List Nat → Bool
  | _, [] => true
  | 0, _ => false
  | f + 1, bs => utf8Whole bs && utf8Ok f (bs.drop (utf8Run bs))

/-- Decode by maximal subparts (R373): the output, the held bytes and the number of replacements. -/
def utf8Pass : Nat → List Nat → List Nat × List Nat × Nat
  | _, [] => ([], [], 0)
  | 0, _ => ([], [], 0)
  | f + 1, bs =>
    let n := utf8Run bs
    if utf8Whole bs then
      let (o, h, c) := utf8Pass f (bs.drop n)
      (bs.take n ++ o, h, c)
    else if n != 0 && n == bs.length then ([], bs, 0)
    else
      let (o, h, c) := utf8Pass f (bs.drop (max 1 n))
      ([0xEF, 0xBF, 0xBD] ++ o, h, c + 1)

/-! ### Released tokens (R373 to R375, R379 to R381) -/

/-- The detokeniser over the tokens of one step: held bytes, text since the last record, whether it holds flushed bytes and text of the escape token,
finished records as (TYPE, FLAGS, payload), and replacements. -/
structure DetokSt where
  pend : List Nat
  text : List Nat
  flushed : Bool
  esc : Bool
  recs : List (Nat × Nat × List Nat)
  fffd : Nat

/-- The TEXT record of the bytes gathered; a step without bytes writes none (R380). -/
def DetokSt.cut (s : DetokSt) : DetokSt :=
  if s.text.isEmpty then s else { s with recs := s.recs ++ [(1, ofB s.flushed + ofB s.esc * 2, s.text)], text := [], flushed := false, esc := false }

/-- A held prefix becomes one replacement (R374). The TEXT record that takes it has FLUSH (R379; DEDUCED, log 36). -/
def DetokSt.flush (s : DetokSt) : DetokSt :=
  if s.pend.isEmpty then s else { s with pend := [], text := s.text ++ [0xEF, 0xBF, 0xBD], flushed := true, fffd := s.fffd + 1 }

/-- One released token: its bytes, SPECIAL, whether it is the dead-end escape token; the binding's RAW and CTRL_AS_TEXT. -/
def DetokSt.token (s : DetokSt) (raw asText : Bool) (tok : Nat) (bytes : List Nat) (special esc : Bool) : DetokSt :=
  if special && !asText then
    let s := s.flush.cut
    { s with recs := s.recs ++ [(2, ofB esc * 2, leBytes tok 4)] }
  else if raw then
    let s := s.flush
    { s with text := s.text ++ bytes, esc := s.esc || esc }
  else
    let buf := s.pend ++ bytes
    let (o, h, c) := utf8Pass (buf.length + 1) buf
    { s with pend := h, text := s.text ++ o, esc := s.esc || esc, fffd := s.fffd + c }

/-- Held-back bytes as a list and as the field (R94). -/
def pendList (bytes n : Nat) : List Nat := (List.range n).map fun i => byteOf bytes i

/-- The text of released tokens of a session (R373 to R381): records go to the channel with a STEP_SEQ; the answer gives the held
bytes and the number of TEXT payload bytes handed over, none without a binding (R381). Each token comes with whether it is the escape token. -/
def Dev.releaseTokens (x : Ctx) (d : Dev) (i : Nat) (toks : List (Nat × Bool)) (stepSeq : Nat) : Dev × List Nat × Nat :=
  let s := d.desc i
  let pend := pendList s.pendBytes s.pendN
  match d.text.tokenizer with
  | none => (d, pend, 0)
  | some z =>
    let h := d.tokHead x z.addr
    let b := d.binding i
    let raw := match b with | some b => b.raw | none => false
    let asText := match b with | some b => b.ctrlAsText | none => false
    let r := toks.foldl (fun (st : DetokSt) t =>
      st.token raw asText t.1 (d.tokBytes x z.addr h t.1) (d.tokEntry x z.addr h t.1).2.2 t.2) ⟨pend, [], false, false, [], 0⟩
    let r := r.cut
    let d := d.bump Reg.textFffdCnt r.fffd
    let d := r.recs.foldl (fun d rec_ => d.record x i rec_.1 rec_.2.1 stepSeq rec_.2.2) d
    (d, r.pend, if b.isNone then 0 else sumOf ((r.recs.filter fun q => q.1 == 1).map fun q => q.2.2.length))

end Sys2Proof.Machine
end

