-- ==== Sys2Proof/Machine/HostQueues.lean ====
section
/-! DEFINITION. Machine/HostQueues.lean: the queues of the host interface (chapter 11): queue commands, doorbells, the
fetcher, BAR2, interrupts and mailboxes. -/

namespace Sys2Proof.Machine

/-! ### Queue commands (R531, R532) -/

/-- NOP completes DONE with RESULT 0 (R533). -/
def execNop (e : Entry) (s : State) : Host.Outcome State Fault Refusal :=
  s.ring e [] [] fun x d c => d.finish x c .DONE 0

/-- Whether a queue of 2^size entries fits the ring area at a 4 KiB-aligned offset (R523, R532). -/
def queuePlaceOk (offset sizeLog2 entryBytes : Nat) : Bool :=
  4 ≤ sizeLog2 && sizeLog2 ≤ 16 && offset % 4096 == 0 && offset + 2 ^ sizeLog2 * entryBytes ≤ 0x40000000

/-- A vector a command may name: 2 to 2,047 (R535). -/
def vectorOk' (v : Nat) : Bool := 2 ≤ v && v ≤ 2047

/-- The checks of Q_CREATE_CQ (R532). -/
def createCqChecks (d : Dev) (e : Entry) : List (Bool × Status) :=
  [(e.sq != 0, .REFUSED_STATE),
   (e.f 16 2 == 0 || 2046 < e.f 16 2 || (tblGet (e.f 16 2) d.hif.cqs).isSome, .REFUSED_STATE),
   (!(vectorOk' (e.f 20 2)) && e.f 20 2 != 0xFFFF, .REFUSED_STATE),
   (!(queuePlaceOk (e.f 24 8) (e.f 18 1) 32), .REFUSED_STATE)]

/-- The new completion queue: index 0, PHASE 1 (R523, R528). -/
def Dev.createCq (d : Dev) (e : Entry) : Dev :=
  let q : Cq := ⟨e.f 24 8, e.f 18 1, if e.f 20 2 == 0xFFFF then none else some (e.f 20 2), 0, true, 0, 0⟩
  { d with hif := { d.hif with cqs := tblSet (e.f 16 2) q d.hif.cqs } }

/-- Q_CREATE_CQ (R531, R532). -/
def execQCreateCq (e : Entry) (s : State) : Host.Outcome State Fault Refusal :=
  s.ring e [(16, 3), (20, 2), (24, 8)] [(222, 34)] fun x d c =>
    d.checked x c (createCqChecks d e) fun d => (d.createCq e).finish x c .DONE 0

/-- The checks of Q_CREATE_SQ (R532). -/
def createSqChecks (d : Dev) (e : Entry) : List (Bool × Status) :=
  [(e.sq != 0, .REFUSED_STATE),
   (e.f 16 2 == 0 || 2046 < e.f 16 2 || (tblGet (e.f 16 2) d.hif.sqs).isSome, .REFUSED_STATE),
   (1 < e.f 19 1, .REFUSED_STATE),
   ((tblGet (e.f 20 2) d.hif.cqs).isNone, .REFUSED_STATE),
   (!(queuePlaceOk (e.f 24 8) (e.f 18 1) 64), .REFUSED_STATE)]

/-- The new submission queue (R523). -/
def Dev.createSq (d : Dev) (e : Entry) : Dev :=
  let q : Sq := ⟨e.f 24 8, e.f 18 1, e.f 19 1 == 1, e.f 20 2, e.f 22 2, 0, 0, 0, none⟩
  { d with hif := { d.hif with sqs := tblSet (e.f 16 2) q d.hif.sqs } }

/-- Q_CREATE_SQ (R531, R532). -/
def execQCreateSq (e : Entry) (s : State) : Host.Outcome State Fault Refusal :=
  s.ring e [(16, 8), (24, 8)] [(222, 34)] fun x d c =>
    d.checked x c (createSqChecks d e) fun d => (d.createSq e).finish x c .DONE 0

/-- The checks of Q_DELETE_SQ (R532). DEDUCED (log 14): a queue that is already being deleted counts as absent. -/
def deleteSqChecks (d : Dev) (e : Entry) : List (Bool × Status) :=
  [(e.sq != 0 || e.f 16 2 == 0, .REFUSED_STATE),
   (match tblGet (e.f 16 2) d.hif.sqs with
     | some q => q.deleting.isSome
     | none => true, .REFUSED_STATE)]

/-- Fetching from a queue stops at once; the command waits for the queue's fetched entries (R532). -/
def Dev.deleteSq (x : Ctx) (d : Dev) (n : Nat) (c : Cmd) : Dev :=
  match tblGet n d.hif.sqs with
  | some q =>
    ({ d with hif := { d.hif with sqs := tblSet n { q with deleting := some c } d.hif.sqs } } : Dev).settleDelete x n
  | none => d

/-- Q_DELETE_SQ (R531, R532). -/
def execQDeleteSq (e : Entry) (s : State) : Host.Outcome State Fault Refusal :=
  s.ring e [(16, 2)] [] fun x d c => d.checked x c (deleteSqChecks d e) fun d => d.deleteSq x (e.f 16 2) c

/-- The checks of Q_DELETE_CQ (R532). -/
def deleteCqChecks (d : Dev) (e : Entry) : List (Bool × Status) :=
  [(e.sq != 0 || e.f 16 2 == 0 || (tblGet (e.f 16 2) d.hif.cqs).isNone, .REFUSED_STATE),
   (d.hif.sqs.any fun q => q.2.cq == e.f 16 2, .REFUSED_STATE),
   (bit (d.reg Reg.hifEvtCtl) 31 && d.fld Reg.hifEvtCtl 0 11 == e.f 16 2, .REFUSED_STATE)]

/-- Q_DELETE_CQ (R531, R532). -/
def execQDeleteCq (e : Entry) (s : State) : Host.Outcome State Fault Refusal :=
  s.ring e [(16, 2)] [] fun x d c => d.checked x c (deleteCqChecks d e) fun d =>
    ({ d with hif := { d.hif with cqs := tblDel (e.f 16 2) d.hif.cqs } } : Dev).finish x c .DONE 0

/-- The checks of HRQ_CREATE (R532). -/
def hrqCreateChecks (d : Dev) (e : Entry) : List (Bool × Status) :=
  [(e.sq != 0 || d.hif.hrq.isSome, .REFUSED_STATE),
   (!(vectorOk' (e.f 20 2)), .REFUSED_STATE),
   (!(queuePlaceOk (e.f 24 8) (e.f 18 1) 64), .REFUSED_STATE)]

/-- HRQ_CREATE (R531, R532). -/
def execHrqCreate (e : Entry) (s : State) : Host.Outcome State Fault Refusal :=
  s.ring e [(18, 1), (20, 2), (24, 8)] [(222, 34)] fun x d c => d.checked x c (hrqCreateChecks d e) fun d =>
    ({ d with hif := { d.hif with hrq := some ⟨e.f 24 8, e.f 18 1, e.f 20 2, 0, true, 0, 0⟩ } } : Dev).finish x c .DONE 0

/-! ### Doorbells (R521, R522) -/

/-- Whether BAR2 and BAR4 are decoded (R512, R517, R720) and, for BAR4, the device is OPERATIONAL (R604). -/
def Dev.barsDecoded (d : Dev) : Bool := !d.eclipse && !d.hif.hp.d3hot

/-- A malformed or stray doorbell is ignored and counted (R522). -/
def Dev.dbStray (d : Dev) : Dev := d.bump Reg.hifDbStray 1

/-- A BAR4 write: Unsupported Request before OPERATIONAL or where the BAR is not decoded (R604, R720), stray unless it is a
32-bit write at offset 0 of its page, otherwise its effect. -/
def Dev.doorbell (d : Dev) (off width : Nat) (f : Dev → Dev) : Dev :=
  if !d.barsDecoded || !d.operational then d.send (.cpl .unsupportedRequest 0 false)
  else if off != 0 || width != 4 then d.dbStray
  else f d

/-- The tail of an SQ moves: the entries up to it wait (R522). An index past the queue, or past entries that are still to be fetched, is an error of the
host's own making. -/
def Dev.sqTail (x : Ctx) (d : Dev) (n val : Nat) : Dev :=
  match tblGet n d.hif.sqs with
  | none => d.dbStray
  | some q =>
    if q.deleting.isSome then d.dbStray
    else
      let k := (val + 2 ^ q.sizeLog2 - q.tail) % 2 ^ q.sizeLog2
      if 2 ^ q.sizeLog2 ≤ val || 2 ^ q.sizeLog2 ≤ q.waiting + k then d.contained x else
      let q' := { q with tail := val, waiting := q.waiting + k }
      { d with hif := { d.hif with sqs := tblSet n q' d.hif.sqs } }

/-- A write to an SQ tail doorbell (R522). -/
def execSqDoorbell (sq off width val : Nat) (s : State) : Host.Outcome State Fault Refusal :=
  s.run fun x d => d.doorbell off width fun d => d.sqTail x sq val

/-- The head of a CQ moves: the entries before it are consumed (R522, R530). -/
def Dev.cqHead (x : Ctx) (d : Dev) (n val : Nat) : Dev :=
  match tblGet n d.hif.cqs with
  | none => d.dbStray
  | some q =>
    let k := (val + 2 ^ q.sizeLog2 - q.head) % 2 ^ q.sizeLog2
    if 2 ^ q.sizeLog2 ≤ val || q.live < k then d.contained x
    else { d with hif := { d.hif with cqs := tblSet n { q with head := val, live := q.live - k } d.hif.cqs } }

/-- A write to a CQ head doorbell frees CQ room (R522). -/
def execCqDoorbell (cq off width val : Nat) (s : State) : Host.Outcome State Fault Refusal :=
  s.run fun x d => d.doorbell off width fun d => d.cqHead x cq val

/-! ### The host request queue (R538) -/

/-- The 64 B entry of a host request, without PHASE (R538). -/
def hostReqEntry (r : HostReq) : Nat :=
  packFields [(0, 4, r.reqId), (4, 1, r.op), (6, 1, r.origin), (8, 8, r.object), (16, 8, r.objOffset), (24, 8, r.devAddr),
    (32, 8, r.bytes)]

/-- Post one host request if the HRQ has room; it is outstanding either way (R540). -/
def Dev.postReq (x : Ctx) (d : Dev) (r : HostReq) : Dev :=
  match d.hif.hrq with
  | none => d
  | some h =>
    if 2 ^ h.sizeLog2 ≤ h.live then d
    else
      let v := setBits (hostReqEntry r) 47 1 (ofB h.phase)
      let d := d.st x (d.ringBase + h.offset + 64 * h.tail) 64 v
      let t := (h.tail + 1) % 2 ^ h.sizeLog2
      let h' := { h with tail := t, phase := if t == 0 then !h.phase else h.phase, live := h.live + 1 }
      let rs := replaceFirst (fun (q : HostReq) => q.reqId == r.reqId) (fun q => { q with posted := true }) d.hif.requests
      ({ d with hif := { d.hif with hrq := some h', requests := rs } } : Dev).signal h.vector false

/-- Post the requests that wait for room, oldest first. -/
def Dev.postWaiting (x : Ctx) (d : Dev) : Dev :=
  (d.hif.requests.filter fun r => !r.posted).foldl (fun d r => d.postReq x r) d

/-- Issue a host request (R538, R540). The caller has checked that an HRQ exists. -/
def Dev.hostRequest (x : Ctx) (d : Dev) (op origin object objOffset devAddr bytes : Nat) (owner : T4Owner) : Dev :=
  let r : HostReq := ⟨d.hif.nextReqId, op, origin, object, objOffset, devAddr, bytes, owner, d.now, 0, false⟩
  ({ d with hif := { d.hif with nextReqId := u32 (d.hif.nextReqId + 1), requests := d.hif.requests ++ [r] } } : Dev).postReq x r

/-- The head of the HRQ moves; requests that waited for room are posted (R538, R540). -/
def Dev.hrqHead (x : Ctx) (d : Dev) (val : Nat) : Dev :=
  match d.hif.hrq with
  | none => d.dbStray
  | some h =>
    let k := (val + 2 ^ h.sizeLog2 - h.head) % 2 ^ h.sizeLog2
    if 2 ^ h.sizeLog2 ≤ val || h.live < k then d.contained x
    else ({ d with hif := { d.hif with hrq := some { h with head := val, live := h.live - k } } } : Dev).postWaiting x

/-- A write to the HRQ head doorbell consumes host request entries (R538). -/
def execHrqDoorbell (off width val : Nat) (s : State) : Host.Outcome State Fault Refusal :=
  s.run fun x d => d.doorbell off width fun d => d.hrqHead x val

/-! ### The fetcher (R525, R530, R534) -/

/-- Opcodes that are defined (R533, R558, R624, R670, R691). -/
def opcodeDefined (op : Nat) : Bool :=
  op ≤ 0x07 || (0x10 ≤ op && op ≤ 0x1B) || (0x20 ≤ op && op ≤ 0x25) || (0x30 ≤ op && op ≤ 0x33) ||
  (0x40 ≤ op && op ≤ 0x45) || (0x50 ≤ op && op ≤ 0x56) || (0x60 ≤ op && op ≤ 0x67) || (0x70 ≤ op && op ≤ 0x73) ||
  (0x80 ≤ op && op ≤ 0x82) || (0x90 ≤ op && op ≤ 0x98) || (0xA0 ≤ op && op ≤ 0xA6) || (0xB0 ≤ op && op ≤ 0xB3) ||
  (0xB8 ≤ op && op ≤ 0xB9)

/-- What the opcode check answers at fetch: a status that ends the command there, or none (R13, R534). Undefined opcodes of
the Recall and Belt ranges on a part without the unit are of the range, and complete NOT_PRESENT. -/
def opcodeCheck (p : Part) (op : Nat) : Option Status :=
  if 0x60 ≤ op && op < 0x70 && !p.hasRecall then some .NOT_PRESENT
  else if 0x90 ≤ op && op < 0xA0 && !p.hasBelt then some .NOT_PRESENT
  else if opcodeDefined op then none
  else some .REFUSED_STATE

/-- CQ entries that a command can post (R530). -/
def opcodePosts (op : Nat) : Nat := if op == 0x30 || op == 0x40 then 2 else 1

/-- The entry at the fetch head of an SQ. -/
def Dev.entryAt (x : Ctx) (d : Dev) (n : Nat) (q : Sq) : Entry :=
  ⟨n, BitVec.ofNat 512 (d.ld x (d.ringBase + q.offset + 64 * q.head) 64)⟩

/-- Whether an entry of an SQ may start: room in the CQ for what it can post (R530), and no FENCE in the way (R524). -/
def Dev.mayFetch (d : Dev) (q : Sq) (n : Nat) (e : Entry) : Bool :=
  opcodePosts (e.f 0 1) ≤ d.room q.cq &&
  !(d.hif.flights.any fun f => f.cmd.sq == n && (f.cmd.fence || e.cmd.fence))

/-- Take up to `k` entries from an SQ (R525). A fetched command waits for its unit in `flights`; one that the opcode check
ends completes at once (R529). -/
def Dev.fetchFrom (x : Ctx) (n : Nat) : Nat → Dev → Dev
  | 0, d => d
  | k + 1, d =>
    match tblGet n d.hif.sqs with
    | none => d
    | some q =>
      if q.waiting == 0 || q.deleting.isSome then d
      else
        let e := d.entryAt x n q
        if !(d.mayFetch q n e) then d
        else
          let q' := { q with head := (q.head + 1) % 2 ^ q.sizeLog2, waiting := q.waiting - 1 }
          let d := { d with hif := { d.hif with sqs := tblSet n q' d.hif.sqs,
                                                flights := d.hif.flights ++ [(⟨e.cmd, opcodePosts (e.f 0 1)⟩ : Flight)] } }
          let d := d.bump Reg.hifFetched 1
          let d := match opcodeCheck x.fuses.part (e.f 0 1) with
            | some st => d.finish x e.cmd st 0
            | none => d
          Dev.fetchFrom x n k d

/-- The SQs of one priority that the fetcher may visit: entries wait and the first of them may start. -/
def Dev.fetchable (x : Ctx) (d : Dev) (high : Bool) : List Nat :=
  (d.hif.sqs.filter fun p =>
    p.2.high == high && p.2.waiting != 0 && p.2.deleting.isNone && d.mayFetch p.2 p.1 (d.entryAt x p.1 p.2)).map (·.1)

/-- The next of some queues in rotation after `last`. -/
def nextInTurn (last : Nat) (qs : List Nat) : Option Nat :=
  (qs.find? fun n => last < n).or qs.head?

/-- One visit of the fetcher: HIGH queues first; when both kinds wait, one NORMAL visit follows every 4 HIGH visits (R525). -/
def Dev.fetchVisit (x : Ctx) (d : Dev) : Dev :=
  let hi := nextInTurn d.hif.fetchTurn.1 (d.fetchable x true)
  let lo := nextInTurn d.hif.fetchTurn.2 (d.fetchable x false)
  let takeHi := fun n => Dev.fetchFrom x n 8 { d with hif := { d.hif with fetchTurn := (n, d.hif.fetchTurn.2), highVisits := d.hif.highVisits + 1 } }
  let takeLo := fun n => Dev.fetchFrom x n 8 { d with hif := { d.hif with fetchTurn := (d.hif.fetchTurn.1, n), highVisits := 0 } }
  match hi, lo with
  | some h, some l => if 4 ≤ d.hif.highVisits then takeLo l else takeHi h
  | some h, none => takeHi h
  | none, some l => takeLo l
  | none, none => d

/-- The fetcher visits one SQ (R525, R530, R534). -/
def execSqFetch (s : State) : Host.Outcome State Fault Refusal := s.run fun x d => d.fetchVisit x

/-! ### BAR2 (R514, R599, R604, R720, R721) -/

/-- The device address that a BAR2 offset maps to (R514). -/
def Dev.bar2Addr (d : Dev) (off : Nat) : Nat :=
  if off < 0x40000000 then d.ringBase + off else d.fld Reg.hifWinBase 0 18 * 0x40000000 + (off - 0x40000000)

/-- The HIF block as a source: it makes the accesses of BAR2 (R681, R682). -/
def hifSource : Nat := sourceOf 0x1800000 0 0

/-- The first byte of a BAR2 access that is not HBM, SRAM or staging (R84, R514). -/
def Dev.bar2Hole (x : Ctx) (d : Dev) (a len : Nat) : Option Nat :=
  if inHbm x.fuses.part a || inSram a || inStaging a then holeIn x.fuses.part d a len else some a

/-- A BAR2 read of device memory: the data, zero at a hole, and whether it is poisoned (R84, R721). -/
def Dev.bar2Read (x : Ctx) (d : Dev) (a len : Nat) : Dev :=
  let d := match d.bar2Hole x a len with | some h => d.report hifSource 0x12 3 h | none => d
  let bad := d.mediaBad a len
  let v := if inHbm x.fuses.part a || inSram a || inStaging a then leNat ((List.range len).map fun i => d.hostByte x (a + i)) else 0
  (d.eccRead a len false).send (.cpl .success v bad)

/-- What only the device writes (R93, R149, R268): the session table, manifests, prefix table, and the areas of page tables, headers and grammar stacks. -/
def Dev.deviceOnly (d : Dev) : List (Nat × Nat) :=
  [(d.tableBase, 0x40000000), (d.gibBase Reg.sessManifestBase, 0x40000000), (d.fld Reg.sessPfxBase 0 30 * 0x40000, 0x40000),
   (d.gibBase Reg.sessGslBase, d.fld Reg.sessGslSize 0 16 * 0x40000000), (d.gibBase Reg.sessPtaBase, d.fld Reg.sessPtaSize 0 16 * 0x40000000)]

/-- A BAR2 write: discarded at a hole, and where it covers part of an uncorrectable word (R514, R721). Over what only the device writes, it is an error
of the host's own making, with the contained outcome (R29, R93, R149). -/
def Dev.bar2Write (x : Ctx) (d : Dev) (a len val : Nat) : Dev :=
  match d.bar2Hole x a len with
  | some h => d.report hifSource 0x12 3 h
  | none =>
    let part := d.err.bad.filter fun b =>
      b.uncorrectable && b.within a len && !(a ≤ b.addr && b.addr + eccWord b.addr ≤ a + len)
    match part with
    | [] =>
      let d := d.st x a len val
      if d.operational && d.deviceOnly.any fun r => a < r.1 + r.2 && r.1 < a + len then d.contained x else d
    | b :: _ => d.eccRead b.addr 1 false

/-- A host access through BAR2. Before OPERATIONAL only host push decodes it: the boot RAM in the ROM stage, the boot region in
the IMAGE stage (R599); everything else completes with Completer Abort (R604). -/
def execBar2Access (wr : Bool) (off len val : Nat) (s : State) : Host.Outcome State Fault Refusal :=
  s.run fun x d =>
    if !d.barsDecoded || 2 ^ d.hif.hp.bar2SizeLog2 ≤ off then d.send (.cpl .unsupportedRequest 0 false)
    else if d.operational then
      if wr then d.bar2Write x (d.bar2Addr off) len val else d.bar2Read x (d.bar2Addr off) len
    else if d.fld Reg.chipStraps 0 2 == 1 && d.stage == 1 && off + len ≤ 0x2000000 then
      if wr then
        { d with boot := { d.boot with bootRam := (List.range len).foldl (fun r i => tblSet (off + i) (byteOf val i) r) d.boot.bootRam } }
      else d.send (.cpl .success (leNat ((List.range len).map fun i => (tblGet (off + i) d.boot.bootRam).getD 0)) false)
    else if d.fld Reg.chipStraps 0 2 == 1 && d.stage == 5 && off + len ≤ 0x20000000 then
      if wr then d.bar2Write x off len val else d.bar2Read x off len
    else d.send (.cpl .completerAbort 0 false)

/-! ### ADMIN_CTL and vectors (R523, R535, R536) -/

/-- SQ 0 and CQ 0 come into service or go, as ADMIN_CTL.EN says (R523, R552). DESIGN CHOICE (log 15): SQ 0 is of priority NORMAL
and composition 0. -/
def Dev.adminEnable (d : Dev) (en : Bool) (vector : Nat) : Dev :=
  if en then
    let sq : Sq := ⟨d.fld Reg.hifAdminSq 12 18 * 4096, d.fld Reg.hifAdminSq 0 4 + 4, false, 0, 0, 0, 0, 0, none⟩
    let cq : Cq := ⟨d.fld Reg.hifAdminCq 12 18 * 4096, d.fld Reg.hifAdminCq 0 4 + 4, some vector, 0, true, 0, 0⟩
    { d with hif := { d.hif with sqs := tblSet 0 sq d.hif.sqs, cqs := tblSet 0 cq d.hif.cqs } }
  else { d with hif := { d.hif with sqs := tblDel 0 d.hif.sqs, cqs := tblDel 0 d.hif.cqs } }

/-- A CQ that exists takes another vector. -/
def Dev.cqVector (d : Dev) (n vector : Nat) : Dev :=
  match tblGet n d.hif.cqs with
  | some q => { d with hif := { d.hif with cqs := tblSet n { q with vector := some vector } d.hif.cqs } }
  | none => d

/-- A write to HIF.ADMIN_CTL (R523, R552). -/
def execAdminCtlEn (val : Nat) (s : State) : Host.Outcome State Fault Refusal :=
  s.run fun x d => d.bar0 x Reg.hifAdminCtl fun d =>
    let was := bit (d.reg Reg.hifAdminCtl) 31
    let d := (d.setFld Reg.hifAdminCtl 0 11 val).setFld Reg.hifAdminCtl 31 1 (val / 2 ^ 31)
    if bit val 31 == was then d.cqVector 0 (val % 2048) else d.adminEnable (bit val 31) (val % 2048)

/-- The timer of a vector expires: the vector is raised if it counts an item (R536). -/
def execVectorCoalTimeout (v : Nat) (s : State) : Host.Outcome State Fault Refusal :=
  s.run fun _ d => match tblGet v d.hif.vecs with
    | some w =>
      let us := d.fld (Reg.hifVecCoal v) 16 16
      if us == 0 || d.now < w.oldest + us * 1000 then d else d.raiseVec v
    | none => d

/-- Software unmasks a vector; a pending message is sent (R535). -/
def execVectorUnmask (v : Nat) (s : State) : Host.Outcome State Fault Refusal :=
  s.run fun x d => d.bar0 x (Reg.msixCtrl v) fun d =>
    let d := d.setFld (Reg.msixCtrl v) 0 1 0
    if bit (d.reg (Reg.msixPba (v / 32))) (v % 32) && d.hif.hp.msixEnable && !d.hif.hp.functionMask && d.hif.hp.bme then
      (d.setFld (Reg.msixPba (v / 32)) (v % 32) 1 0).send (.msix v)
    else d

/-! ### Mailboxes (R541 to R545) -/

/-- A write to a mailbox word (R542). -/
def MboxWord.put (w : MboxWord) (v : Nat) : MboxWord := ⟨u32 v, true, w.collide || w.full⟩

/-- A read of a mailbox word clears FULL (R541, R542). -/
def MboxWord.take (w : MboxWord) : MboxWord := { w with full := false }

/-- A mailbox. -/
def Dev.mbox (d : Dev) : MboxId → Mbox
  | .m n => (tblGet n d.hif.mboxes).getD .reset
  | .recovery => d.hif.recovery

/-- Set a mailbox. -/
def Dev.setMbox (d : Dev) (m : MboxId) (b : Mbox) : Dev :=
  match m with
  | .m n => { d with hif := { d.hif with mboxes := tblSet n b d.hif.mboxes } }
  | .recovery => { d with hif := { d.hif with recovery := b } }

/-- A host access to a mailbox: through BAR0, or through configuration space for the recovery mailbox, which answers in every
mode (R545). Offsets of the MBOX block beyond mailbox 7 are not assigned (R86). -/
def Dev.mboxAccess (x : Ctx) (d : Dev) (m : MboxId) (f : Dev → Dev) : Dev :=
  match m with
  | .m n => d.bar0 x (Reg.mboxH2dData n) fun d => if n < 8 then f d else d
  | .recovery => f d

/-- The host writes an H2D word (R542). -/
def execMboxH2dWrite (m : MboxId) (val : Nat) (s : State) : Host.Outcome State Fault Refusal :=
  s.run fun x d => d.mboxAccess x m fun d => d.setMbox m { d.mbox m with h2d := (d.mbox m).h2d.put val }

/-- The next answer of the recovery mailbox enters the word that has been read (R621: CRC answers twice). -/
def Dev.nextAnswer (d : Dev) (m : MboxId) : Dev :=
  match m, d.boot.recoveryOut with
  | .recovery, w :: rest =>
    let d : Dev := { d with boot := { d.boot with recoveryOut := rest } }
    d.setMbox m { d.mbox m with d2h := (d.mbox m).d2h.put w }
  | _, _ => d

/-- The host reads a D2H word (R541, R542). -/
def execMboxD2hRead (m : MboxId) (s : State) : Host.Outcome State Fault Refusal :=
  s.run fun x d => d.mboxAccess x m fun d =>
    ((d.setMbox m { d.mbox m with d2h := (d.mbox m).d2h.take }).send (.cpl .success (d.mbox m).d2h.data false)).nextAnswer m

/-- Whether the owner of a mailbox is there to use it: its domain is on (R541) and, for mailbox 7, a Belt is fitted. -/
def Dev.ownerUp (x : Ctx) (d : Dev) : MboxId → Bool
  | .m n => n < 8 && !(absentBlock x.fuses.part (Reg.mboxH2dData n)) &&
      (match domainOf (Reg.mboxH2dData n) with | some dom => d.domainUp dom | none => false)
  | .recovery => true

/-- The owner writes a D2H word: a word that becomes FULL raises vector 1 where IRQ_EN is set (R535, R541, R542). -/
def Dev.ownerWrite (d : Dev) (m : MboxId) (val : Nat) : Dev :=
  let b := d.mbox m
  let d := d.setMbox m { b with d2h := b.d2h.put val }
  if b.irqEn && !b.d2h.full then d.raise 1 else d

/-- The owner of a mailbox writes its D2H word (R542). -/
def execMboxOwnerWrite (m : MboxId) (val : Nat) (s : State) : Host.Outcome State Fault Refusal :=
  s.run fun x d => if d.ownerUp x m then d.ownerWrite m val else d

/-- The owner of a mailbox reads its H2D word (R542). -/
def execMboxOwnerRead (m : MboxId) (s : State) : Host.Outcome State Fault Refusal :=
  s.run fun x d =>
    if d.ownerUp x m then
      (d.setMbox m { d.mbox m with h2d := (d.mbox m).h2d.take }).send (.answer [(d.mbox m).h2d.data])
    else d

end Sys2Proof.Machine
end

