-- ==== Sys2Proof/Machine/Measure.lean ====
section
/-! DEFINITION. Machine/Measure.lean: the measurement registers and their log (R639, R640). -/

namespace Sys2Proof.Machine

/-- An event extends a measurement register and, while there is room, appends a log entry (R639, R640). A register and a digest are
little-endian numbers of 32 bytes. -/
def Dev.measure (d : Dev) (mr event id digest : Nat) : Dev :=
  let full := 4096 ≤ d.sec.mlog.length
  let old := getAt 0 mr d.sec.mrs
  let new := Config.sm3 64 (old + digest % 2 ^ 256 * 2 ^ 256) % 2 ^ 256
  let log := if full then d.sec.mlog else d.sec.mlog ++ [⟨mr, event, d.now, u64 id, digest % 2 ^ 256⟩]
  { d with sec := { d.sec with mrs := setAt 0 new mr d.sec.mrs, mlog := log, mcount := min (d.sec.mcount + 1) 0x7FFFFFFF,
                               mOvf := d.sec.mOvf || full } }

/-- Measure bytes of device memory: the digest is their SM3 (R639). -/
def Dev.measureAt (x : Ctx) (d : Dev) (mr event id a len : Nat) : Dev := d.measure mr event id (Config.sm3 len (d.ld x a len))

end Sys2Proof.Machine
end

