-- ==== Sys2Proof/Machine/Harts.lean ====
section
/-! DEFINITION. Machine/Harts.lean: the harts of the Belt: partitions, windows, contexts and the end of a hart's work (R554 to R578,
R581). The commands of the Belt are in Belt.lean. -/

namespace Sys2Proof.Machine

/-! ### Partitions and windows (R557, R564, R565, R571) -/

/-- The cores of partition 0 (R557, R587). -/
def Dev.p0Cores (d : Dev) : Nat := min (d.fld Reg.beltPartCtl 0 8) 128

/-- The partition of a hart (R557). -/
def Dev.partOf (d : Dev) (h : Nat) : Nat := if h / 64 < d.p0Cores then 0 else 1

/-- The first core of a partition and its number of cores. -/
def Dev.partCores (d : Dev) (p : Nat) : Nat × Nat := if p == 0 then (0, d.p0Cores) else (d.p0Cores, 128 - d.p0Cores)

/-- Whether a partition is in TASK mode (R557, R587). -/
def Dev.taskMode (d : Dev) (p : Nat) : Bool := bit (d.reg Reg.beltPartCtl) (if p == 0 then 16 else 24)

/-- Whether a core is online (R585, R587). -/
def Dev.coreUp (d : Dev) (c : Nat) : Bool := !(bit (d.reg (Reg.beltCoreOff (c / 32))) (c % 32))

/-- The online cores of a partition in ascending order. -/
def Dev.onlineCores (d : Dev) (p : Nat) : List Nat :=
  (rangeFrom (d.partCores p).1 (d.partCores p).2).filter fun c => d.coreUp c

/-- The base of the Belt heap, whose first 384 KiB are the hook view (R564). -/
def Dev.heapBase (d : Dev) : Nat := d.fld Reg.beltHeapBase 0 18 * 0x40000000

/-- Whether a range meets the hook view. -/
def Dev.meetsView (d : Dev) (a len : Nat) : Bool := a < d.heapBase + 0x60000 && d.heapBase < a + len

/-- Whether a window of a partition covers every byte of a range with a permission: 0 R, 1 W, 2 X (R565). -/
def Dev.windowed (d : Dev) (p a len perm : Nat) : Bool :=
  (List.range 8).any fun w =>
    let base := d.fld (Reg.beltWinHi p w) 0 16 * 2 ^ 32 + d.fld (Reg.beltWinLo p w) 12 20 * 4096
    bit (d.reg (Reg.beltWinPerm p w)) perm && base ≤ a && a + len ≤ base + d.reg (Reg.beltWinSize p w) * 4096

/-- Whether a hart of a partition may read a range (R565). -/
def Dev.mayRead (d : Dev) (p a len : Nat) : Bool :=
  (d.heapBase ≤ a && a + len ≤ d.heapBase + 0x60000) || d.windowed p a len 0

/-- Whether a hart of a partition may store to a range (R565). -/
def Dev.mayStore (d : Dev) (p a len : Nat) : Bool := !(d.meetsView a len) && d.windowed p a len 1

/-- The top of a hart's stack (R571). -/
def Dev.stackTop (d : Dev) (h : Nat) : Nat :=
  let p := d.partOf h
  d.reg (Reg.beltStackBase p) * 0x10000 + (h - 64 * (d.partCores p).1 + 1) * 2 ^ d.fld (Reg.beltStackSize p) 0 5

/-- The registers with which work starts (R567, R572): `args` are a0 upwards. -/
def startRegs (entry sp : Nat) (args : List Nat) : HartRegs :=
  { pc := entry, x := (List.range 32).map fun i => if i == 2 then sp else if 10 ≤ i then getAt 0 (i - 10) args else 0,
    f := List.replicate 32 0, fcsr := 0, vstart := 0, vl := 0, vtype := 2 ^ 63, vcsr := 0, v := List.replicate 32 0, retired := 0 }

/-! ### Programs (R559, R560) -/

/-- A partition of the Belt. -/
def Dev.beltPart (d : Dev) (p : Nat) : BeltPart := getAt ⟨none, [], 0⟩ p d.belt.parts

/-- Set a partition. -/
def Dev.setBeltPart (d : Dev) (p : Nat) (b : BeltPart) : Dev :=
  { d with belt := { d.belt with parts := setAt ⟨none, [], 0⟩ b p d.belt.parts } }

/-- Set what a hart runs. -/
def Dev.setHart (d : Dev) (h : Nat) (w : HartWork) : Dev := { d with belt := { d.belt with harts := tblSet h w d.belt.harts } }

/-- A hart's LR reservation (R575). -/
def Dev.reserveLr (d : Dev) (h : Nat) (a : Option Addr) : Dev :=
  { d with belt := { d.belt with reservations := match a with
    | some a => tblSet h a d.belt.reservations
    | none => tblDel h d.belt.reservations } }

/-- Registers of the widths of R559, x0 reading 0; the retired count never falls. -/
def HartRegs.norm (old r : HartRegs) : HartRegs :=
  let fill := fun (w : Nat) (l : List Nat) => (List.range 32).map fun i => getAt 0 i l % 2 ^ w
  { r with pc := u64 r.pc, x := setAt 0 0 0 (fill 64 r.x), f := fill 64 r.f, fcsr := r.fcsr % 256, v := fill 512 r.v,
           retired := max old.retired r.retired }

/-- A running hart goes on with its program: a free value gives what it has done, and its stores take effect where R565 permits
them. The program stops while bt.wait waits (R563). -/
def Dev.runHart (x : Ctx) (d : Dev) (h : Nat) : Dev :=
  match tblGet h d.belt.harts with
  | none => d
  | some w =>
    if w.wait.isSome then d
    else
      let (r, lr, sts) := Config.program d.free w.regs
      let d := ({ d with free := d.free + 1 } : Dev).setHart h { w with regs := w.regs.norm r }
      let ok := sts.filter fun s => d.mayStore (d.partOf h) s.1 s.2.1
      (ok.foldl (fun (d : Dev) s => (d.holeCheck x s.1 s.2.1).st x s.1 s.2.1 s.2.2) d).reserveLr h lr

/-- Every running hart goes on with its program. -/
def Dev.runHarts (x : Ctx) (d : Dev) : Dev := d.belt.harts.foldl (fun d h => d.runHart x h.1) d

/-! ### Meters (R586) -/

/-- The composition that a task is charged to (R586). -/
def Dev.taskComp (d : Dev) (t : Task) : Nat :=
  match t.owner with
  | .cmd c => d.sqComp c
  | .life k => k
  | .thread k => k
  | .hook r n _ => match d.tail.reqs.find? fun q => q.id == r with
    | some q => match q.entries[n]? with
      | some e => (d.desc e.idx).composition
      | none => 0
    | none => 0

/-- The composition of what a hart runs. -/
def Dev.workComp (d : Dev) (h : Nat) (w : HartWork) : Nat :=
  match w.task with
  | some t => d.taskComp t
  | none => match (d.beltPart (d.partOf h)).job with
    | some j => d.sqComp j.cmd
    | none => 0

/-- Whether a task is of class DEADLINE: a hook task (R556, R574). -/
def Task.deadline (t : Task) : Option Ns := match t.owner with | .hook _ _ dl => some dl | _ => none

/-! ### Contexts (R575 to R578) -/

/-- The save slot of a hart (R576). DESIGN CHOICE (log 40): the regions of a quadrant's SRAM lie in the order of R255, so that
BELT_SAVE follows the 16 MiB of DESC. -/
def saveSlot (h : Nat) : Nat := 0x400000000000 + h / 2048 * 0x18000000 + 0x1000000 + h % 2048 * 0x1000

/-- The 4 KiB of a saved context (R576). -/
def HartWork.pack (w : HartWork) : Nat :=
  let r := w.regs
  let q := match w.task with | some t => t.queue % 16 | none => 0
  let dl := match w.task with | some t => t.deadline.isSome | none => false
  let body := packFields ([(0, 8, r.pc)] ++ (rangeFrom 1 31).map (fun i => (8 * i, 8, getAt 0 i r.x)) ++
    (List.range 32).map (fun i => (0x100 + 8 * i, 8, getAt 0 i r.f)) ++
    [(0x200, 8, r.fcsr), (0x208, 8, r.vstart), (0x210, 8, r.vl), (0x218, 8, r.vtype), (0x220, 8, r.vcsr), (0x228, 8, r.retired),
     (0x230, 8, w.ranNs), (0x238, 4, q + ofB dl * 16 + ofB w.task.isNone * 32 + w.jobIndex % 65536 * 65536)] ++
    (List.range 32).map fun i => (0x400 + 64 * i, 64, getAt 0 i r.v))
  setBits body (8 * 0xFFC) 32 (crcOf body 0xFFC)

/-- The registers that a save slot holds. -/
def unpackRegs (v : Nat) : HartRegs :=
  let f := fun off len => bits v (8 * off) (8 * len)
  { pc := f 0 8, x := 0 :: (rangeFrom 1 31).map fun i => f (8 * i) 8, f := (List.range 32).map fun i => f (0x100 + 8 * i) 8,
    fcsr := f 0x200 4, vstart := f 0x208 8, vl := f 0x210 8, vtype := f 0x218 8, vcsr := f 0x220 8,
    v := (List.range 32).map fun i => f (0x400 + 64 * i) 64, retired := f 0x228 8 }

/-- Running time of a hart's work up to now; preempted and suspended time is left out (R577, R586). -/
def Dev.ranFor (d : Dev) (w : HartWork) : Nat := w.ranNs + (d.now - w.since)

/-- Write a hart's context to its save slot; the hart is free (R575). -/
def Dev.saveHart (x : Ctx) (d : Dev) (h : Nat) : Dev :=
  match tblGet h d.belt.harts with
  | none => d
  | some w =>
    let w := { w with ranNs := d.ranFor w, wait := none }
    let d := ({ d with belt := { d.belt with harts := tblDel h d.belt.harts, saved := tblSet h w d.belt.saved } } : Dev).reserveLr h none
    d.st x (saveSlot h) 0x1000 w.pack

/-- Whether a saved context fails its check (R577). -/
def Dev.savedBad (x : Ctx) (d : Dev) (h : Nat) : Bool :=
  let v := d.ld x (saveSlot h) 0x1000
  d.mediaBad (saveSlot h) 0x1000 || bits v (8 * 0xFFC) 32 != crcOf v 0xFFC

/-- The region of a save slot is there: its quadrant is up (R578). -/
def Dev.saveUp (d : Dev) (h : Nat) : Bool := d.quadUp (h / 2048)

/-! ### The end of work (R568, R573, R586) -/

/-- What the end of a task means for its owner: a completion, or a count (R573). The reply of a hook is the sampler's. -/
def Dev.taskOver (x : Ctx) (d : Dev) (t : Task) (st : Status) (result : Nat) : Dev :=
  match t.owner with
  | .cmd c => d.finish x c st result
  | .hook _ _ _ => d
  | _ => if st == .DONE then d else d.bump Reg.beltTaskFault 1

/-- The job of a partition ends: its harts stop, its contexts are discarded, BELT_NS is charged and its command completes (R568,
R586). -/
def Dev.endJob (x : Ctx) (d : Dev) (p : Nat) (st : Status) (result : Nat) : Dev :=
  match (d.beltPart p).job with
  | none => d
  | some j =>
    let mine := fun (h : Nat) => j.placed.any fun q => q.1 == h
    let ran := sumOf ((d.belt.harts.filter fun h => mine h.1).map fun h => d.ranFor h.2) +
      sumOf ((d.belt.saved.filter fun h => mine h.1).map fun h => h.2.ranNs)
    let d := d.charge x (d.sqComp j.cmd) 5 ran
    let keep := d.belt.harts.filter fun h => !(mine h.1)
    let saved := d.belt.saved.filter fun h => !(mine h.1)
    let lrs := d.belt.reservations.filter fun h => !(mine h.1)
    let d : Dev := { d with belt := { d.belt with harts := keep, saved := saved, reservations := lrs } }
    (d.setBeltPart p { d.beltPart p with job := none }).finish x j.cmd st result

/-- A saved context comes back to its hart; one that fails its check ends its work FAULT_MEDIA (R577). -/
def Dev.restoreHart (x : Ctx) (d : Dev) (h : Nat) : Dev :=
  match tblGet h d.belt.saved with
  | none => d
  | some w =>
    let bad := d.savedBad x h
    let d := (d.eccRead (saveSlot h) 0x1000 true)
    let d : Dev := { d with belt := { d.belt with saved := tblDel h d.belt.saved } }
    if bad then
      let d := d.bump Reg.beltRestoreErr 1
      match w.task with
      | some t => (((d.charge x (d.workComp h w) 5 w.ranNs).bump Reg.beltTasks 1).taskOver x t .FAULT_MEDIA 0)
      | none => d.endJob x (d.partOf h) .FAULT_MEDIA 0
    else d.setHart h { w with regs := unpackRegs (d.ld x (saveSlot h) 0x1000), since := d.now }

/-- The task of a hart is over: BELT_NS is charged and the hart resumes a saved context, if it has one (R577, R582, R586). -/
def Dev.leaveHart (x : Ctx) (d : Dev) (h : Nat) (w : HartWork) : Dev :=
  let d := (d.charge x (d.workComp h w) 5 (d.ranFor w)).bump Reg.beltTasks 1
  let d := ({ d with belt := { d.belt with harts := tblDel h d.belt.harts } } : Dev).reserveLr h none
  d.restoreHart x h

/-! ### Hook tasks (R581) -/

/-- Whether a task is the hook of an entry. -/
def Task.isHook (t : Task) (req entry : Nat) : Bool := match t.owner with | .hook r n _ => r == req && n == entry | _ => false

/-- The hart that runs the hook of an entry. -/
def Dev.hookHart (d : Dev) (req entry : Nat) : Option (Nat × HartWork) :=
  d.belt.harts.find? fun h => match h.2.task with | some t => t.isHook req entry | none => false

/-- The task of a hook leaves the Belt: it is removed from its queue and counted as not started, or the hart that runs it stops (R581). -/
def Dev.dropHook (x : Ctx) (d : Dev) (req entry : Nat) : Dev :=
  let waits := d.belt.parts.any fun p => p.queues.any fun q => q.2.waiting.any fun t => t.isHook req entry
  let qs := fun (p : BeltPart) => { p with queues := p.queues.map fun q => (q.1, { q.2 with waiting := q.2.waiting.filter fun t => !(t.isHook req entry) }) }
  if waits then ({ d with belt := { d.belt with parts := d.belt.parts.map qs } } : Dev).bump Reg.beltHookDrop 1
  else match d.hookHart req entry with
    | some (h, w) => (d.runHart x h).leaveHart x h w
    | none => d

end Sys2Proof.Machine
end

