-- ==== Sys2Proof/Machine/Ledger.lean ====
section
/-! DEFINITION. Machine/Ledger.lean: the capacity ledger: rates, bookings, the earliest-deadline-first test with its hints, and
admission records (R120 to R135, R229, R230). -/

namespace Sys2Proof.Machine

/-! ### Rates (R126 to R131) -/

/-- Whether an attention engine is in service (R54, R223). -/
def Dev.aeOnline (d : Dev) (q a : Nat) : Bool :=
  d.quadUp q && !(d.attn.aeOffline.any fun e => e.1 == q && e.2.1 == a) &&
    !(d.boot.blockResets.any fun r => r.block == Reg.qdAePace q a)

/-- The rate at which the ledger books a block: RATE while BELOW is set, else FLOOR, or NOM at the nominal corner (R59, R126,
R127). -/
def Dev.blockRate (d : Dev) (pace : Nat) : Nat :=
  if bit (d.reg pace) 30 then d.fld pace 0 24
  else if bit (d.reg Reg.sessLedgerCtl) 31 then d.fld (pace + 4) 0 24 else d.fld (pace + 8) 0 24

/-- Whether a tail pipe or text engine is in service. -/
def Pipe.up (p : Pipe) : Bool := !p.offline

/-- Whether a text engine is online. -/
def Dev.textOnline (d : Dev) : Bool := d.text.engines.any (·.up)

/-- Usable pseudo-channels of a stack (R303). -/
def Dev.usablePcs (d : Dev) (s : Nat) : Nat := 32 - (d.kv.pool.retiredPcs.filter fun pc => pc / 32 == s).length

/-- Stacks that serve: fitted, with a controller that has not failed (R696). A quadrant that is off still serves its home stacks (R650). -/
def Dev.liveStacks (x : Ctx) (d : Dev) : List Nat := x.fuses.part.fittedStacks.filter fun s => !(d.err.deadStacks.contains s)

/-- Whether a PWR_GATE of a domain is in progress: its units have left the ledger for new batches (R668). -/
def Dev.leaving (d : Dev) (code : Nat) : Bool := d.pmc.gating.any fun g => g.domain == code

/-- Whether a quadrant's engines are booked for batches opened now (R135, R658, R668). -/
def Dev.quadBooked (d : Dev) (q : Nat) : Bool := d.quadUp q && !(d.leaving q) && d.fld Reg.pmcStat (16 + 2 * q) 2 != 3

/-- Whether the score engine of a stack serves (R222, R667). -/
def Dev.scoreUp (d : Dev) (s : Nat) : Bool := !(d.attn.scoreOffline.contains s) && !(bit (d.reg Reg.pmcGate) (16 + s))

/-- TB_RATE times the lanes in use, for each class of each port that has some (R131, R135, R465). -/
def Dev.egressRates (d : Dev) : List (Nat × Nat) :=
  ((List.range 8).flatMap fun p => (List.range 6).map fun c => (8 * p + c, d.fld (Reg.cvfTbRate p c) 0 24 * d.fld (Reg.cvfStat p) 25 4)).filter
    fun r => r.2 != 0

/-- The figures that a batch opened now is tested with (R126, R135). -/
def Dev.figures (x : Ctx) (d : Dev) : Figures :=
  let aes := fun q => (List.range 16).filter fun a => d.aeOnline q a && d.quadBooked q
  let pipes := d.tail.pipes.zipIdx.filter fun p => p.1.up
  { aeCount := (List.range 4).map fun q => (aes q).length,
    aePool := (List.range 4).map fun q => sumOf ((aes q).map fun a => d.blockRate (Reg.qdAePace q a)),
    merge := (List.range 4).map fun q =>
      if d.attn.mergeOffline.contains q || !(d.quadBooked q) then 0 else d.blockRate (Reg.qdMergePace q),
    stackPcs := (d.liveStacks x).map fun s => (s, d.usablePcs s * (if bit d.pmc.stackCrit s then 3 else 4)),
    score := (x.fuses.part.computeStacks.filter fun s => d.scoreUp s && !(d.leaving (0x10 + s)) && !(bit d.pmc.stackCrit s)).map fun s =>
      (s, d.blockRate (Reg.qdScorePace (s / 3))),
    mask := sumOf (pipes.map fun p => d.blockRate (Reg.tailMaskPace p.2)),
    topk := sumOf (pipes.map fun p => d.blockRate (Reg.tailTopkPace p.2)),
    sampler := sumOf (pipes.map fun p => d.blockRate (Reg.tailSampPace p.2)),
    text := sumOf ((d.text.engines.zipIdx.filter fun e => e.1.up).map fun e => d.blockRate (Reg.textEngPace e.2)),
    egress := d.egressRates,
    rings := d.attn.rings.flatMap fun r => if r.pos == 0 then r.hellos.map fun h => (r.id, h.pos, h.rates) else [] }

/-- Whether a stack is booked at the 1x factors (R130, R665): REFRESH_MODE is 1 and its booking temperature leaves the horizon. -/
def Dev.cool (d : Dev) (s : Nat) : Bool :=
  bit (d.reg Reg.sessLedgerCtl) 30 &&
    decide (toSigned (d.reg (Reg.pmcStemp s)) 16 + 18 + 8 * (d.fld Reg.sessLedgerCtl 0 8 : Nat) ≤ 85 * 16)

/-- The share of a resource in parts per 10,000: RESERVE_PCT is held back (R126), and RING_PCT goes to ring legs while a ring
is up (R229). -/
def Dev.shareOf (d : Dev) (ring : Bool) : Nat :=
  let pct := d.fld Reg.sessOrbitCtl 16 8
  let up := d.attn.rings.any fun r => r.state == .up
  (100 - d.fld Reg.sessLedgerCtl 8 8) * (if ring then pct else if up then 100 - pct else 100)

/-- A rate as (units, nanoseconds): so many units in so many ns. -/
abbrev Rate := Nat × Nat

/-- The booked rate of a resource under some figures (R38, R39, R43, R126 to R130, R303, R666). -/
def Dev.rate (d : Dev) (f : Figures) (share : Nat) (r : Res) : Rate :=
  let bulk := 8 - d.fld Reg.chipEclCtl 0 3
  match r with
  | .ae q => (getAt 0 q f.aePool * share, 1000 * 10000)
  | .merge q => (getAt 0 q f.merge * share, 1000 * 10000)
  | .hbm s => (16896 * (if d.cool s then 96 else 92) * (tblGet s f.stackPcs).getD 0 * share, 10 * 100 * 128 * 10000)
  | .score s => ((tblGet s f.score).getD 0 * (if d.cool s then 100 else 60) * share, 1000 * 100 * 10000)
  | .eclQuad _ => (12000 * bulk * share, 8 * 10000)
  | .eclHif => (300 * bulk * share, 8 * 10000)
  | .eclCvf _ => (800 * bulk * share, 8 * 10000)
  | .eclTail => (1000 * bulk * share, 8 * 10000)
  | .dieCut => (24000 * bulk * share, 8 * 10000)
  | .mask => (f.mask * share, 1000 * 10000)
  | .topk => (f.topk * share, 1000 * 10000)
  | .sampler => (f.sampler * share, 1000 * 10000)
  | .text => (f.text * share, 1000 * 10000)
  | .egress p c =>
    if p < 8 then ((tblGet (8 * p + c) f.egress).getD 0 * share, 8 * 1000 * 10000) else (100 * share, 10000)

/-! ### Rates that a ring's members send to its head (R225, R231) -/

/-- The number of a resource in a HELLO or RATES message. DESIGN CHOICE (log 33): no rule gives the numbers. -/
def Res.code : Res → Nat
  | .ae q => q | .merge q => 4 + q | .hbm s => 8 + s | .score s => 24 + s | .eclQuad q => 40 + q | .eclHif => 44 | .eclCvf g => 45 + g
  | .eclTail => 47 | .dieCut => 48 | .mask => 49 | .topk => 50 | .sampler => 51 | .text => 52 | .egress p c => 64 + 8 * p + c

/-- The resources of R126 that a part has. -/
def allRes (p : Part) : List Res :=
  (List.range 4).map .ae ++ (List.range 4).map .merge ++ p.fittedStacks.map .hbm ++ p.computeStacks.map .score ++ (List.range 4).map .eclQuad ++
    [.eclHif, .eclCvf 0, .eclCvf 1, .eclTail, .dieCut, .mask, .topk, .sampler, .text] ++
    ((List.range 9).flatMap fun q => (List.range 2).map fun c => .egress q c)

/-- What a member offers its head under RING_PCT of every resource (R225, R229), in units per microsecond. -/
def Dev.ringRates (x : Ctx) (d : Dev) : List (Res × Nat) :=
  let f := d.figures x
  (allRes x.fuses.part).filterMap fun r =>
    let k := d.rate f (d.shareOf true) r
    if k.1 * 1000 / k.2 == 0 then none else some (r, k.1 * 1000 / k.2)

/-- Rates as they travel. -/
def rateFields (rs : List (Res × Nat)) : List Nat := rs.flatMap fun p => [p.1.code, p.2]

/-- A member sends its heads new rates, since its units or their rates have changed (R231). -/
def Dev.sendRates (x : Ctx) (d : Dev) : Dev :=
  (d.attn.rings.filter fun r => r.pos != 0 && r.state == .up).foldl (fun (d : Dev) r =>
    d.sendNote r.headAddr 0x06 0 "RATES" 1024 ([r.tag, r.pos] ++ rateFields (d.ringRates x)) r.id) d

/-! ### Demands -/

/-- Add to a demand. -/
def addDemand (r : Res) (n : Nat) : List (Res × Nat) → List (Res × Nat)
  | [] => if n == 0 then [] else [(r, n)]
  | (q, m) :: t => if q == r then (q, m + n) :: t else (q, m) :: addDemand r n t

/-- The sum of two demands. -/
def joinDemand (a b : List (Res × Nat)) : List (Res × Nat) := b.foldl (fun acc p => addDemand p.1 p.2 acc) a

/-- A demand less another, never below zero. -/
def lessDemand (a b : List (Res × Nat)) : List (Res × Nat) :=
  a.filterMap fun p => let n := p.2 - sumOf ((b.filter fun q => q.1 == p.1).map (·.2))
                       if n == 0 then none else some (p.1, n)

/-- An amount split evenly over units (R128). DESIGN CHOICE (log 52): a share that does not divide evenly is rounded up. -/
def evenly (n : Nat) (us : List Nat) (mk : Nat → Res) : List (Res × Nat) :=
  if n == 0 then [] else us.map fun u => (mk u, cdiv n us.length)

/-- An amount split over the quadrants in proportion to their online AEs (R128), rounded up (DESIGN CHOICE, log 52). -/
def byAes (n : Nat) (f : Figures) (mk : Nat → Res) : List (Res × Nat) :=
  let all := sumOf f.aeCount
  if n == 0 || all == 0 then []
  else (List.range 4).filterMap fun q => if getAt 0 q f.aeCount == 0 then none else some (mk q, cdiv (n * getAt 0 q f.aeCount) all)

/-- What a booking has left on a resource. -/
def Booking.on (b : Booking) (r : Res) : Nat :=
  sumOf (b.demand.map fun p => sumOf ((p.2.filter fun q => q.1 == r).map (·.2)))

/-- The effective deadline on a resource: less 16 ns and L_r, which is 0 after egress (R132, R133). -/
def Booking.due (b : Booking) (r : Res) : Nat :=
  b.deadline - 16 - (match r with | .egress _ _ => 0 | _ => b.latNs)

/-- The resources that a booking uses. -/
def Booking.uses (b : Booking) : List Res := ((b.demand.flatMap (·.2)).map (·.1)).eraseDups

/-! ### The test (R132) -/

/-- Whether a demand fits a rate over a time. -/
def fits (r : Rate) (n pct T : Nat) : Bool := n * r.2 * 100 ≤ r.1 * pct * T

/-- The test for one resource: at every effective deadline from the new one's on, the demand due by then fits what the resource
does from t. A prefill booking is also tested against PREFILL_PCT over the prefill bookings alone. -/
def passRes (r : Rate) (pct t : Nat) (new : Booking) (open_ : List Booking) (res : Res) : Bool :=
  let all := new :: open_.filter fun b => 0 < b.on res
  let points := (all.map fun b => b.due res).filter fun e => new.due res ≤ e
  points.all fun e =>
    let by_ := all.filter fun b => b.due res ≤ e
    fits r (sumOf (by_.map fun b => b.on res)) 100 (e - t) &&
      (!new.prefill || fits r (sumOf ((by_.filter (·.prefill)).map fun b => b.on res)) pct (e - t))

/-- The test over every resource the request uses. -/
def passes (rate : Res → Rate) (pct t : Nat) (new : Booking) (open_ : List Booking) : Bool :=
  new.uses.all fun r => passRes (rate r) pct t new open_ r

/-- Time that a rate takes for a demand, rounded up. -/
def timeFor (r : Rate) (n : Nat) : Nat := if r.1 == 0 then 0 else cdiv (n * r.2) r.1

/-- BOOKED_FINISH (R134). -/
def bookedFinish (rate : Res → Rate) (t : Nat) (new : Booking) (open_ : List Booking) : Nat :=
  new.uses.foldl (fun m r =>
    let n := new.on r + sumOf ((open_.filter fun b => b.due r ≤ new.due r).map fun b => b.on r)
    max m (t + (match r with | .egress _ _ => 0 | _ => new.latNs) + timeFor (rate r) n)) 0

/-- Remaining demands after a resource has done `w` units, earliest deadline first. -/
def drainRes (r : Res) : Nat → List Booking → List Booking
  | _, [] => []
  | w, b :: t =>
    let n := b.on r
    let take := min w n
    { b with demand := [(0, addDemand r (n - take) [])] } :: drainRes r (w - take) t

/-- Whether the request would pass after a wait of w ns with the same relative deadline and no further bookings (R122). -/
def passesAfter (rate : Res → Rate) (pct t w : Nat) (new : Booking) (open_ : List Booking) : Bool :=
  let later := { new with deadline := new.deadline + w }
  new.uses.all fun r =>
    let due := sortBy (fun (a b : Booking) => decide (a.due r < b.due r)) open_
    passRes (rate r) pct (t + w) later (drainRes r ((rate r).1 * w / (rate r).2) due) r

/-- The least n in (lo, hi] with p n, where p hi holds and p is monotone. -/
def leastIn (p : Nat → Bool) : Nat → Nat → Nat → Nat
  | 0, _, hi => hi
  | f + 1, lo, hi =>
    if hi ≤ lo + 1 then hi
    else let m := (lo + hi) / 2
         if p m then leastIn p f lo m else leastIn p f m hi

/-- The least multiple of 256 ns, up to a bound of 24 bits of them, for which a test holds; all ones where none does. -/
def leastStep (p : Nat → Bool) : Nat :=
  if p 0 then 0
  else if p 0xFFFFFF then 256 * leastIn p 32 0 0xFFFFFF
  else 0xFFFFFFFF

/-- What the ledger decides: the time it planned, or the two hints of R122. -/
inductive Verdict
  | pass (finish : Nat)
  | full (retry minDeadline : Nat)
  deriving DecidableEq, Repr

/-- The ledger's decision on a new booking: arrival `a`, decision `t`, real deadline `dl`, horizon in ns (R131, R132, R134, R122). `short` is what
the booking's deadline falls short of the request's, as that of a ring leg does (R230, R233); the hint names the request's. -/
def decideLedger (rate : Res → Rate) (pct a t dl horizon short : Nat) (new : Booking) (open_ : List Booking) : Verdict :=
  let cap := fun (n : Nat) => { new with deadline := min n (t + horizon) }
  if passes rate pct t (cap dl) open_ then .pass (bookedFinish rate t (cap dl) open_)
  else
    let never := !(passes rate pct t (cap dl) [])
    .full (if never then 0xFFFFFFFF else max 256 (leastStep fun k => passesAfter rate pct t (256 * k) (cap dl) open_))
      (leastStep fun k => passes rate pct t (cap (a + 256 * k - short)) open_)

/-- HORIZON_MS in ns. -/
def Dev.horizon (d : Dev) : Nat := d.fld Reg.sessLedgerCtl 0 8 * 1000000

/-- L_r of a layer and of a tail request (R133, R145). -/
def lAttn : Nat := 6000
@[inherit_doc lAttn] def lTail : Nat := 4000

/-! ### Bookings -/

/-- Open a booking. -/
def Dev.addBooking (d : Dev) (b : Booking) : Dev :=
  { d with sess := { d.sess with bookings := d.sess.bookings ++ [b], nextBooking := d.sess.nextBooking + 1 } }

/-- A booking that nothing is left of leaves the ledger (R141). -/
def Booking.live (b : Booking) : Bool := !b.demand.isEmpty

/-- Add demand of a session to a booking that is open. -/
def Dev.addToBooking (d : Dev) (id i : Nat) (dem : List (Res × Nat)) : Dev :=
  let more := fun (p : Nat × List (Res × Nat)) => if p.1 == i then (i, joinDemand p.2 dem) else p
  { d with sess := { d.sess with
    bookings := d.sess.bookings.map fun b => if b.id == id then { b with demand := b.demand.map more } else b } }

/-- Release part of a session's demand in a booking. -/
def Dev.releaseDemand (d : Dev) (id i : Nat) (dem : List (Res × Nat)) : Dev :=
  let cut := fun (p : Nat × List (Res × Nat)) => if p.1 == i then (i, lessDemand p.2 dem) else p
  { d with sess := { d.sess with
    bookings := d.sess.bookings.map fun b => if b.id == id then { b with demand := b.demand.map cut } else b } }

/-- The shadow ledgers of the rings of which this device is the head (R229). -/
def Dev.mapShadows (d : Dev) (f : List Booking → List Booking) : Dev :=
  { d with attn := { d.attn with rings := d.attn.rings.map fun r => { r with shadow := r.shadow.map fun s => (s.1, f s.2) } } }

/-- Bookings without what one of them holds for a session; an empty one goes. -/
def cutShare (id i : Nat) (bs : List Booking) : List Booking :=
  (bs.map fun b => if b.id == id then { b with demand := b.demand.filter fun p => p.1 != i } else b).filter (·.live)

/-- Release everything of a session in a booking, in the ledger and in the members' shadow ledgers; an empty booking leaves (R141). -/
def Dev.releaseShare (d : Dev) (id i : Nat) : Dev :=
  ({ d with sess := { d.sess with bookings := cutShare id i d.sess.bookings } } : Dev).mapShadows (cutShare id i)

/-- A booking that has finished leaves the ledger and the shadow ledgers. -/
def Dev.dropBooking (d : Dev) (id : Nat) : Dev :=
  let keep := fun (bs : List Booking) => bs.filter fun b => b.id != id
  ({ d with sess := { d.sess with bookings := keep d.sess.bookings } } : Dev).mapShadows keep

/-! ### Admission records (R121, R122, R526, R527) -/

/-- An admission record (R122). -/
structure Admit where
  tag : Nat
  status : Status
  kind : Nat
  batch : Nat
  decided : Nat
  finish : Nat
  retry : Nat
  minDl : Nat

/-- Its 32 B. -/
def Admit.pack (r : Admit) : Nat :=
  packFields [(0, 4, r.tag), (4, 1, r.status.code), (5, 1, r.kind), (6, 2, r.batch), (8, 8, r.decided), (16, 8, r.finish),
    (24, 4, r.retry), (28, 4, r.minDl)]

/-- Count an outcome (R145). -/
def Dev.countAdmit (d : Dev) (s : Status) : Dev :=
  match s with
  | .DONE => d.bump Reg.sessAdmitAcc 1
  | .REFUSED_CAPACITY => d.bump Reg.sessAdmitCap 1
  | .REFUSED_STATE => d.bump Reg.sessAdmitState 1
  | .REFUSED_RESOURCE => d.bump Reg.sessAdmitRes 1
  | _ => d

/-- Post an ADMIT entry (R526, R527). It is one of the two entries that the command can post (R530). -/
def Dev.postAdmit (x : Ctx) (d : Dev) (c : Cmd) (r : Admit) : Dev :=
  let fs := replaceFirst (fun (f : Flight) => f.cmd.sq == c.sq && f.cmd.cmdId == c.cmdId) (fun f => { f with posts := 1 }) d.hif.flights
  let d : Dev := { d with hif := { d.hif with flights := fs } }
  match tblGet c.sq d.hif.sqs with
  | some q => d.post x q.cq 1 (setBits (packFields [(0, 4, c.cmdId), (4, 1, r.status.code), (6, 2, c.sq)]) 64 192 (r.pack / 2 ^ 64)) c.irqNow
  | none => d

/-- The class that carries a request's messages (R468). -/
def reqClass (kind : Nat) : Nat := if kind == 1 then 0 else 1

/-- Send an admission record back on the request's path (R121, R468, R495): its decision time is its deadline. -/
def Dev.sendAdmit (x : Ctx) (d : Dev) (path : ReqPath) (r : Admit) : Dev :=
  let d := d.countAdmit r.status
  match path with
  | .hp c =>
    let d := d.postAdmit x c r
    if r.status == .DONE then d else d.finish x c r.status 0
  | .cvf port src =>
    let (d, ok) := d.sendOn port src 0x05 (reqClass r.kind) "ADMIT" 32 (leBytes r.pack 32) (some r.decided) 4 (.response port r.tag)
    if ok then d else d.report (sourceOf (0x1600000 + port * 0x20000) 0 0) 0x44 3 r.tag
  | .ring _ => d

end Sys2Proof.Machine
end

