-- ==== Sys2Proof/Machine/Steps.lean ====
section
/-! DEFINITION. Machine/Steps.lean: list blocks (R331, R332), staged rows and coma pages (R153, R180, R199, R724), the commit and
rollback of a step (R117, R139, R726), prefix references (R181) and the end of a session (R105). -/

namespace Sys2Proof.Machine

/-! ### List blocks (R331) -/

/-- A state copy of a list block (R331). -/
structure ListSt where
  hist : List Nat
  histN : Nat
  holdN : Nat
  forceIdx : Nat
  forcePos : Nat
  steps : Nat

/-- A state copy with nothing emitted (R350). -/
def ListSt.fresh : ListSt := ⟨List.replicate 16 0, 0, 0, 0xFFFF, 0, 0⟩

/-- Read a state copy; the current one is copy STEP_SEQ mod 2 (R332). -/
def Dev.listSt (x : Ctx) (d : Dev) (lists copy : Nat) : ListSt :=
  let a := lists + 0x40 + copy % 2 * 128
  let v := d.ld x a 128
  let f := fun off len => bits v (8 * off) (8 * len)
  ⟨(List.range 16).map fun j => f (4 * j) 4, f 64 1, f 65 1, f 66 2, f 68 1, f 72 4⟩

/-- Write a state copy. -/
def Dev.putListSt (x : Ctx) (d : Dev) (lists copy : Nat) (s : ListSt) : Dev :=
  d.st x (lists + 0x40 + copy % 2 * 128) 128 (packFields ((s.hist.zipIdx.map fun p => (4 * p.2, 4, p.1)) ++
    [(64, 1, s.histN), (65, 1, s.holdN), (66, 2, s.forceIdx), (68, 1, s.forcePos), (72, 4, s.steps)]))

/-- The held tokens of a state copy in emission order (R344). -/
def ListSt.held (s : ListSt) : List Nat := (s.hist.take s.holdN).reverse

/-- Copy one state copy into the other (R332). -/
def Dev.dupLists (x : Ctx) (d : Dev) (s : Desc) : Dev :=
  if s.listsAddr == 0 then d
  else d.st x (s.listsAddr + 0x40 + (s.stepSeq + 1) % 2 * 128) 128 (d.ld x (s.listsAddr + 0x40 + s.stepSeq % 2 * 128) 128)

/-- Whether the current state copy of a session meets an uncorrectable word. -/
def Dev.listsBad (d : Dev) (s : Desc) : Bool :=
  s.listsAddr != 0 && d.mediaBad (s.listsAddr + 0x40 + s.stepSeq % 2 * 128) 128

/-! ### Step records -/

/-- Whether an import, an export or a capture of a session is in progress: until it ends the session takes no step, park or move (R185;
for a capture DEDUCED, log 35). -/
def Dev.occupied (d : Dev) (i : Nat) : Bool := d.kv.impexp.any (fun o => o.idx == i) || d.kv.captures.any fun o => o.idx == i

/-- The record of a session's open step. -/
def Dev.stepRec (d : Dev) (i : Nat) : Option StepRec := d.sess.steps.find? fun r => r.idx == i

/-- Change a step record. -/
def Dev.updStep (d : Dev) (i : Nat) (f : StepRec → StepRec) : Dev :=
  { d with sess := { d.sess with steps := replaceFirst (fun (r : StepRec) => r.idx == i) f d.sess.steps } }

/-- The open batch of an identifier. -/
def Dev.batch (d : Dev) (b : Nat) : Option Batch := d.sess.batches.find? fun q => q.id == b

/-- A session leaves its batch; a batch without members closes (R113). -/
def Dev.leaveBatch (d : Dev) (i : Nat) : Dev :=
  let bs := d.sess.batches.map fun b => { b with members := b.members.filter fun m => m != i }
  let live := bs.filter fun b => !b.members.isEmpty
  let gates := d.pmc.gating.map fun g => { g with batches := g.batches.filter fun b => live.any fun o => o.id == b }
  { d with sess := { d.sess with batches := live, steps := d.sess.steps.filter fun r => r.idx != i }, pmc := { d.pmc with gating := gates } }

/-- Whether every layer of the step has received its rows (R110, R117). -/
def Dev.layersDone (d : Dev) (i : Nat) : Bool :=
  match d.stepRec i, d.batch (d.desc i).batch with
  | some r, some b => b.layers ≤ r.layersGot.eraseDups.length
  | _, _ => false

/-! ### Tier of a resident session (R94, R249) -/

/-- TIER of a resident session. -/
def Dev.tierOf (d : Dev) (i : Nat) : Nat :=
  let own := d.kv.pages.any fun p => p.1.owner == .sess i
  let pinned := d.kv.prefixes.any fun p => p.id == (d.desc i).prefixId && p.pinned && 0 < p.len
  if !own && pinned then 0 else 1

/-! ### Row writes (R153, R180, R199, R254, R724) -/

/-- Use up part of a session's reservation on a stack (R254). -/
def Dev.useReserved (d : Dev) (i s n : Nat) : Dev :=
  { d with kv := { d.kv with pool := { d.kv.pool with
    reserved := replaceFirst (fun (r : Nat × Nat × Nat) => r.1 == i && r.2.1 == s) (fun r => (r.1, r.2.1, r.2.2 - n)) d.kv.pool.reserved } } }

/-- Release what is left of a session's reservations (R254). -/
def Dev.dropReserved (d : Dev) (i : Nat) : Dev :=
  { d with kv := { d.kv with pool := { d.kv.pool with
    reserved := d.kv.pool.reserved.filter fun r => r.1 != i, reservedBlocks := d.kv.pool.reservedBlocks.filter fun r => r.1 != i } } }

/-- Open a coma page for a session: two slots of one pseudo-channel of its home stack and a header block of its own; the page
belongs to the step (R118, R153, R250). -/
def Dev.openComa (x : Ctx) (d : Dev) (i : Nat) (k : PKey) (step : Bool) : Option (Dev × Page) :=
  match d.allocSlots x k 2 (!step) step with
  | some (d, [a, b]) =>
    match d.ownBlock x i k.layer k.head (k.page / 64) step with
    | some d =>
      let d := if step then d.useReserved i (stackOf a) 2 else d
      let p := Page.coma a b (a + 256 * d.shape.d)
      let d := if step then { d with kv := { d.kv with stepPages := d.kv.stepPages ++ [(i, k)] } } else d
      some (d.putPage x k p, p)
    | none => none
  | _ => none

/-- Copy the valid rows of a shared coma page into a private one (R180). -/
def Dev.copyRows (x : Ctx) (d : Dev) (src dst : Page) (n : Nat) : Dev :=
  (List.range n).foldl (fun d t => d.putFp8 x dst t (d.fp8At x src t)) d

/-- The coma page that a row of a session goes into: its own, or a new one, copied from its prefix's where that one holds the
place (R153, R180). -/
def Dev.comaFor (x : Ctx) (d : Dev) (i layer head page : Nat) (step : Bool) : Option (Dev × Page) :=
  let k : PKey := ⟨.sess i, layer, head, page⟩
  match d.viewPage i layer head page with
  | some (q, p) =>
    if q == k then some (d, p)
    else (d.openComa x i k step).map fun r => (r.1.copyRows x p r.2 p.rows, { r.2 with nonfinite := p.nonfinite })
  | none => d.openComa x i k step

/-- What keeps a row from being written at a place (R151, R180, R724): the page that the session has there fails its header's check, or rows that
would be copied out of a prefix's page cannot be read. -/
def Dev.placeFails (x : Ctx) (d : Dev) (i layer head page : Nat) : Option (PKey × Page) :=
  match d.viewPage i layer head page with
  | some (q, p) =>
    if d.headerBad x q || (q.owner != POwner.sess i && (p.mediaBad || d.framesBad p p.rows)) then some (q, p) else none
  | none => none

/-- Write one row into its coma page (R164, R199). None where its page is MEDIA_BAD, its header fails its check or the write meets an uncorrectable
word; then PAGE_BAD is reported, and for frames that fail MEDIA_BAD is set (R151, R724). The flag of a row that held NaN or infinity goes to the header
(R163). -/
def Dev.writeRow (x : Ctx) (d : Dev) (i layer head row : Nat) (r : FpRow) (step : Bool) : Dev × Bool :=
  let k : PKey := ⟨.sess i, layer, head, row / 256⟩
  match d.placeFails x i layer head (row / 256) with
  | some (q, p) => (((d.readHeader q).readFrames p p.rows).reportPage i q, false)
  | none => match d.comaFor x i layer head (row / 256) step with
    | none => (d, false)
    | some (d, p) =>
      let t := row % 256
      let hd := d.shape.d
      let at_ := [(p.payload + t * hd, hd), (p.payload2 + t * hd, hd), (p.meta1 + 16 * t, 16)]
      if p.mediaBad || at_.any fun r => d.mediaBad r.1 r.2 then
        ((at_.foldl (fun (d : Dev) r => d.eccRead r.1 r.2 true) d).pageFailed x i k p, false)
      else
        let d := d.putFp8 x p t r
        (d.putPage x k { p with nonfinite := p.nonfinite || r.nonfinite }, true)

/-- A session's rows of a layer could not be written: its entry in a response not yet sent reads FAULT_MEDIA (R724), and what it booked is released.
An entry that has ended otherwise stays. -/
def Dev.failLayer (d : Dev) (i layer : Nat) : Dev :=
  let hit := fun (e : AttnEntry) => e.idx == i && (match e.status with | none | some .DONE | some .DONE_DEGRADED => true | _ => false)
  let mine := d.attn.reqs.filter fun q => q.layer == layer && q.entries.any hit
  let fix := fun (q : LayerReq) => if q.layer == layer && q.entries.any hit then
      let gone := (q.entries.zipIdx.filter fun e => hit e.1).map (·.2)
      { q with tiles := q.tiles.filter (fun t => !(gone.contains t.entry)),
               entries := q.entries.map fun e => (if hit e then { e with status := some .FAULT_MEDIA, outs := [], bound := 0, detail := 0 } else e) }
    else q
  mine.foldl (fun (d : Dev) q => d.releaseShare q.booking i) { d with attn := { d.attn with reqs := d.attn.reqs.map fix } }

/-- Write the staged rows of a session's layer and head into HBM (R199). A failed write makes the layer count as not having its
rows (R724). -/
def Dev.writeStaged (x : Ctx) (d : Dev) (i layer head : Nat) : Dev × Bool :=
  let mine := fun (r : StagedRow) => r.idx == i && r.layer == layer && r.head == head
  let rows := d.kv.staged.filter mine
  let d := { d with kv := { d.kv with staged := d.kv.staged.filter fun r => !(mine r) } }
  let (d, ok) := rows.foldl (fun (a : Dev × Bool) r =>
    if a.2 then a.1.writeRow x i layer head r.row r.data true else a) (d, true)
  (if ok then d else (d.updStep i fun r => { r with layersGot := r.layersGot.filter fun l => l != layer }).failLayer i layer, ok)

/-- Write every staged row of a session. -/
def Dev.writeAllStaged (x : Ctx) (d : Dev) (i : Nat) : Dev × Bool :=
  let places := ((d.kv.staged.filter fun r => r.idx == i).map fun r => (r.layer, r.head)).eraseDups
  places.foldl (fun (a : Dev × Bool) p => let (d, ok) := a.1.writeStaged x i p.1 p.2
                                          (d, a.2 && ok)) (d, true)

/-! ### Commit (R117, R118, R167, R254) -/

/-- Pages that a commit makes 256 rows valid become FULL, and their compression is queued (R118, R167). -/
def Dev.fillPages (x : Ctx) (d : Dev) (i commitLen : Nat) : Dev :=
  (d.kv.pages.filter fun p => p.1.owner == .sess i && p.2.kind == .coma && 256 * (p.1.page + 1) ≤ commitLen).foldl (fun d p =>
    let d := d.putPage x p.1 { p.2 with kind := .full, rows := 256 }
    { d with kv := { d.kv with passes := d.kv.passes ++ [(⟨p.1, none⟩ : CompPass)] } }) d

/-- What a step allocated becomes committed. -/
def Dev.keepStep (d : Dev) (i : Nat) : Dev :=
  let settle := fun (u : AreaUse) => if u.owner == .sess i then { u with step := false } else u
  let d := { d with kv := { d.kv with stepPages := d.kv.stepPages.filter fun p => p.1 != i, pta := d.kv.pta.map settle } }
  d.dropReserved i

/-- The ring binding of a session: its ring and binding. -/
def Dev.bindingOf (d : Dev) (i : Nat) : Option (Ring × RingBinding) :=
  d.attn.rings.findSome? fun r => (r.bindings.find? fun b => b.idx == i).map fun b => (r, b)

/-- Change a ring. -/
def Dev.updRing (d : Dev) (id : Nat) (f : Ring → Ring) : Dev :=
  { d with attn := { d.attn with rings := replaceFirst (fun (r : Ring) => r.id == id) f d.attn.rings } }

/-- A record goes to the other positions: round the ring, and both ways from here in a ring that is broken, so that it reaches what can still be
reached (R237, R239; DEDUCED, log 33). -/
def Dev.ringBoth (d : Dev) (r : Ring) (name : String) (fields : List Nat) : Dev :=
  let d := d.ringRecord r name fields
  if r.state == .broken then (d.sendOn r.prevPort 0 0x06 0 name 64 fields none r.id (.ring r.id)).1 else d

/-- At a head, the STEP record of a committed or rolled-back step goes round the ring, and the ring map follows: GLOBAL_LEN a commit, STEP_SEQ every
step, so that the next record does not match a step which missed its own (R227, R237, R238; DEDUCED, log 33). -/
def Dev.ringStep (d : Dev) (i rows : Nat) (commit : Bool) : Dev :=
  match d.bindingOf i with
  | some (r, b) =>
    if r.pos == 0 && (r.state == .up || r.state == .broken) then
      let d := d.ringBoth r "STEP" [b.rsn, b.stepSeq, ofB commit, rows]
      let adv := fun (q : RingBinding) => { q with globalLen := q.globalLen + (if commit then rows else 0), stepSeq := u32 (q.stepSeq + 1) }
      d.updRing r.id fun r => { r with bindings := replaceFirst (fun (q : RingBinding) => q.rsn == b.rsn) adv r.bindings }
    else d
  | none => d

/-- The rows of a step that this device's session holds: all of them, but at a ring head those that its segment has room for (R227,
R232). -/
def Dev.ownRows (d : Dev) (i rows : Nat) : Nat :=
  match d.bindingOf i with
  | some (r, _) => min rows (r.seg - (d.desc i).commitLen)
  | none => rows

/-- Commit a session's step (R117): its rows reach HBM first; then, in one descriptor write, the commit. The answer tells whether
it committed; a row that cannot be written leaves the session HOT (R724). -/
def Dev.commit (x : Ctx) (d : Dev) (i : Nat) : Dev × Bool :=
  let (d, ok) := d.writeAllStaged x i
  match d.stepRec i with
  | none => (d, false)
  | some r =>
    if !ok || !(d.layersDone i) then (d, false)
    else
      let rows := r.rows.getD 0
      let own := d.ownRows i rows
      let s := d.desc i
      let s := { s with commitLen := s.commitLen + own, stepSeq := u32 (s.stepSeq + 1), lastStamp := d.now, batch := 0xFFFF, state := .idle, sub := .none }
      let s := match r.left with
        | some l => { s with gstate := l.gstate, gsp := l.gsp, gstackTop := l.gstackTop, rngCtr := l.rngCtr, pendBytes := l.pendBytes, pendN := l.pendN }
        | none => s
      let d := (d.putDesc x i s).fillPages x i s.commitLen
      let d := d.putDesc x i { s with tier := d.tierOf i }
      let d := ((d.keepStep i).leaveBatch i).ringStep i rows true
      let tok := match r.left with | some l => l.token | none => 0xFFFFFFFF
      let d := d.life 1 i tok
      match r.left with
      | some l =>
        let d := if l.deadBy != 0 then d.life 8 i l.deadBy else d
        (if l.stopCause != 0 then d.life 9 i l.stopCause else d, true)
      | none => (d, true)

/-! ### Rollback (R138, R139, R141, R726) -/

/-- Entries of accepted requests that a session still has outstanding are stopped with a status, and their share of the booked
demand is released (R138, R141). An entry that is final in a response not yet sent is outstanding too (R141, R142; DEDUCED, log 31).
Tiles of the session go; a tile that serves several sessions stays (R141). A hook task posted for one of its entries leaves the Belt (R138). -/
def Dev.stopEntries (x : Ctx) (d : Dev) (i : Nat) (st : Status) : Dev :=
  let hooked := d.tail.reqs.flatMap fun q => (q.entries.zipIdx.filter fun e => e.1.idx == i && e.1.status.isNone &&
    (match e.1.stage with | .hook .. => true | _ => false)).map fun e => (q.id, e.2)
  let d := hooked.foldl (fun (d : Dev) h => d.dropHook x h.1 h.2) d
  let d := d.attn.reqs.foldl (fun (d : Dev) q =>
    if q.entries.any fun e => e.idx == i && e.status.isNone then d.releaseShare q.booking i else d) d
  let d := d.tail.reqs.foldl (fun (d : Dev) q =>
    if q.entries.any fun e => e.idx == i && e.status.isNone then d.releaseShare q.booking i else d) d
  let open_ := fun (s : Option Status) => match s with
    | none | some .DONE | some .DONE_DEGRADED | some .DONE_PARTIAL | some .STOPPED | some .GRAMMAR_DEAD => true
    | _ => false
  let stopA := fun (q : LayerReq) =>
    let gone := (q.entries.zipIdx.filter fun e => e.1.idx == i && open_ e.1.status).map (·.2)
    { q with entries := q.entries.map fun e => (if e.idx == i && open_ e.status then { e with status := some st, outs := [], bound := 0, detail := 0 } else e),
             tiles := q.tiles.filter fun t => !(gone.contains t.entry) }
  let stopT := fun (q : TailReq) =>
    { q with entries := q.entries.map fun e =>
      (if e.idx == i && open_ e.status then { e with status := some st, stage := .done, token := 0xFFFFFFFF, list := [], nValid := 0 } else e) }
  { d with attn := { d.attn with reqs := d.attn.reqs.map stopA }, tail := { d.tail with reqs := d.tail.reqs.map stopT } }

/-- What a step allocated goes back: pages with their slots, header blocks copied from shared ones, reservations and staged rows
(R139 steps 1 and 2, R181). -/
def Dev.dropStep (x : Ctx) (d : Dev) (i : Nat) : Dev :=
  let pfx := (d.desc i).prefixId
  let keys := (d.kv.stepPages.filter fun p => p.1 == i).map (·.2)
  let d := keys.foldl (fun (d : Dev) k => (d.dropPage k).freeSlots (d.pageSlots k)) d
  let blocks := d.kv.pta.filter fun u => u.owner == .sess i && u.step
  let d := blocks.foldl (fun (d : Dev) u => match u.kind with
    | .hdr l h b => match if pfx == 0xFFFFFFFF then none else d.area (.pfx pfx) (.hdr l h b) with
      | some a => d.linkBlock x i l h b a true
      | none => d.linkBlock x i l h b 0 false
    | _ => d) d
  let d := d.freeAreas fun u => u.owner == POwner.sess i && u.step
  ({ d with kv := { d.kv with
      stepPages := d.kv.stepPages.filter fun p => p.1 != i,
      staged := d.kv.staged.filter fun r => r.idx != i } } : Dev).dropReserved i

/-- Roll a HOT session back (R139, R140, R726). Outstanding entries read `st`. `count` tells whether SESS.CANCEL_CNT counts it. The
answer gives the streamed bytes of the step, or none where the descriptor fails its check. -/
def Dev.rollback (x : Ctx) (d : Dev) (i : Nat) (st : Status) (count : Bool) : Dev × Option Nat :=
  let d := (d.stopEntries x i st).dropStep x i
  match d.readDesc x i with
  | (d, none) => (((d.leaveBatch i).bump Reg.sessCancelCnt 1), none)
  | (d, some s) =>
    let n := match d.stepRec i with | some r => r.streamed | none => 0
    let d := (d.record x i 3 0 (s.stepSeq + 1) (leBytes n 4)).flushPend x i
    let d := d.putDesc x i { s with state := .idle, sub := .none, batch := 0xFFFF, pendN := 0, pendBytes := 0, lastStamp := d.now }
    let d := ((d.leaveBatch i).ringStep i 0 false)
    let d := if count then d.bump Reg.sessCancelCnt 1 else d
    (d.life 2 i n, some n)

/-! ### Prefix references (R181) -/

/-- The copies of a pinned prefix wait for the release of their T0 space (R261). -/
def Dev.dropPins (d : Dev) (id : Nat) : Dev :=
  let gone := fun (c : PinCopy) => if c.key.owner == POwner.pfx id && c.gone.isNone then { c with gone := some d.now } else c
  { d with tier := { d.tier with pins := d.tier.pins.map gone } }

/-- A prefix is freed with its pages, header blocks and pinned space (R181, R261). -/
def Dev.freePrefix (d : Dev) (id : Nat) : Dev :=
  let keys := (d.kv.pages.filter fun p => p.1.owner == .pfx id).map (·.1)
  let d := keys.foldl (fun (d : Dev) k => (d.dropPage k).freeSlots (d.pageSlots k)) d
  let d := d.freeAreas fun u => u.owner == .pfx id
  let d := (d.journal ⟨.pfx id, 0, 0, 0⟩).dropPins id
  { d with kv := { d.kv with prefixes := d.kv.prefixes.filter fun p => p.id != id } }

/-- Drop one reference to a prefix. -/
def Dev.dropRef (d : Dev) (id : Nat) : Dev :=
  if d.kv.prefixes.any fun p => p.id == id && p.refs ≤ 1 then d.freePrefix id
  else { d with kv := { d.kv with prefixes := replaceFirst (fun (p : Prefix) => p.id == id) (fun p => { p with refs := p.refs - 1 }) d.kv.prefixes } }

/-! ### Target areas (R264 to R274) -/

/-- The owner of slots that hold an evacuated target area in T1 (R296): no PREFIX_ID is as large. -/
def areaOwner : POwner := .pfx (2 ^ 32)

/-- Release one target area: T2 space returns to its loan, T3 extents are freed, T4 objects are released by a host request (R274,
R276). -/
def Dev.releaseTarget (x : Ctx) (d : Dev) (t : Target) : Dev :=
  match t.tier with
  | 2 => { d with tier := { d.tier with t2 := d.tier.t2.filter fun a => a.1 != t.location } }
  | 3 => { d with tier := { d.tier with t3 := d.tier.t3.filter fun a => a.1 != t.location } }
  | 4 => if d.hif.hrq.isSome then d.hostRequest x 3 6 t.location 0 0 0 .areaRelease else d
  | 1 => d.freeSlots ((d.kv.pool.used.filter fun u => u.key.owner == areaOwner && t.location ≤ u.addr && u.addr < t.location + t.tbytes).map (·.addr))
  | _ => d

/-- Where the manifest of an index lies (R268). -/
def Dev.manifestAddr (d : Dev) (i : Nat) : Nat := d.gibBase Reg.sessManifestBase + i * 0x100

/-- Whether the stored manifest fails its check (R269). -/
def Dev.manifestBad (x : Ctx) (d : Dev) (i : Nat) : Bool :=
  d.mediaBad (d.manifestAddr i) 256 || !(crc256Ok (d.ld x (d.manifestAddr i) 256))

/-- A parked session's targets are released and its manifest and image go; a manifest that fails its check leaves the areas to the
next start-up (R269, R274). -/
def Dev.dropParked (x : Ctx) (d : Dev) (i : Nat) : Dev :=
  match tblGet i d.tier.manifests with
  | none => d
  | some m =>
    let d := if d.manifestBad x i then d else m.targets.foldl (fun d t => d.releaseTarget x t) d
    { d with tier := { d.tier with manifests := tblDel i d.tier.manifests, images := tblDel i d.tier.images } }

/-! ### The end of a session (R105, R170) -/

/-- Compression and fading of an owner's pages end: queued passes are withdrawn, running ones abandoned with their slots (R170). -/
def Dev.stopPasses (d : Dev) (o : POwner) : Dev :=
  let slots := (d.kv.passes.filter fun p => p.key.owner == o).filterMap (·.running) ++
    (d.kv.fades.filter fun f => f.key.owner == o).map (·.slot)
  ({ d with kv := { d.kv with
      passes := d.kv.passes.filter fun p => p.key.owner != o,
      deferred := d.kv.deferred.filter fun k => k.owner != o,
      withdrawn := d.kv.withdrawn.filter fun k => k.owner != o,
      fades := d.kv.fades.filter fun f => f.key.owner != o } } : Dev).freeSlots slots

/-- Everything of a session in T1 is released: pages, tables, grammar stack and list block (R105). -/
def Dev.freeResident (d : Dev) (i : Nat) : Dev :=
  let d := d.stopPasses (.sess i)
  let slots := (d.kv.pool.used.filter fun u => u.key.owner == POwner.sess i).map (·.addr)
  let d : Dev := { d with kv := { d.kv with pages := d.kv.pages.filter fun p => p.1.owner != POwner.sess i } }
  (d.freeSlots slots).freeAreas fun u => u.owner == POwner.sess i

/-- Held tokens are released, as at SESS_CLOSE and SESS_SET_LISTS (R344, R350); the held bytes go to the descriptor.
The list block of a session parked outside T1 is not resident, and nothing is released from it (DEDUCED, log 32). -/
def Dev.releaseHeld (x : Ctx) (d : Dev) (i : Nat) : Dev :=
  let s := d.desc i
  if s.listsAddr == 0 || (d.area (.sess i) .lists).isNone then d
  else
    let l := d.listSt x s.listsAddr s.stepSeq
    if l.holdN == 0 then d
    else
      let (d, pend, _) := d.releaseTokens x i (l.held.map fun t => (t, false)) s.stepSeq
      let d := d.updDesc x i fun s => { s with pendBytes := leNat pend, pendN := pend.length }
      d.putListSt x s.listsAddr s.stepSeq { l with holdN := 0 }

/-- The index becomes VOID with the void pattern (R725); what the device keeps of the session beside its descriptor goes. -/
def Dev.voidIdx (x : Ctx) (d : Dev) (i gen : Nat) : Dev :=
  let d := { d with text := { d.text with bindings := d.text.bindings.filter fun b => b.idx != i },
                    sess := { d.sess with cache := d.sess.cache.filter fun j => j != i } }
  d.putDesc x i (.void gen d.now)

/-- The owner of space that waits for its release one block timeout later (R272 step 5): no PREFIX_ID is as large. -/
def goneOwner : POwner := .pfx (2 ^ 35)

/-- The T1 space of a session waits for its release: its pages are gone, its slots and areas are still taken. -/
def Dev.retireResident (d : Dev) (i : Nat) : Dev :=
  let mine := (d.kv.pool.used.filter fun u => u.key.owner == POwner.sess i).map (·.addr)
  let areas := ((d.kv.gsl ++ d.kv.pta).filter fun u => u.owner == POwner.sess i).map (·.addr)
  let gone := fun (u : AreaUse) => if u.owner == POwner.sess i then { u with owner := goneOwner } else u
  let used := d.kv.pool.used.map fun (u : SlotUse) => if u.key.owner == POwner.sess i then { u with key := { u.key with owner := goneOwner } } else u
  let pool := { d.kv.pool with used := used }
  { d with kv := { d.kv with
      pages := d.kv.pages.filter fun p => p.1.owner != POwner.sess i, pool := pool, gsl := d.kv.gsl.map gone, pta := d.kv.pta.map gone,
      releases := d.kv.releases ++ [(⟨.sess i, mine, areas, [], d.now⟩ : FrameRelease)] } }

/-- Whether an owner is being captured by a checkpoint run: its frames stay until the capture ends (R428). -/
def Dev.capturing (d : Dev) (o : POwner) : Bool :=
  match d.ckpt.run.bind (·.cur) with
  | some c => o == (if c.pfx then POwner.pfx c.owner else .sess c.owner)
  | none => false

/-- A session in CLOSING becomes VOID (R105, R380): held tokens, the flush, the CLOSE record; pages, target areas and the prefix
reference go; GEN is kept. -/
def Dev.endSession (x : Ctx) (d : Dev) (i : Nat) : Dev :=
  let d := d.setState x i .closing .none
  let d := (d.releaseHeld x i).flushPend x i
  let s := d.desc i
  let d := d.record x i 6 0 s.stepSeq []
  let d := (d.dropParked x i)
  let d := if d.capturing (.sess i) then (d.stopPasses (.sess i)).retireResident i else d.freeResident i
  let d := if s.prefixId == 0xFFFFFFFF then d else d.dropRef s.prefixId
  let d := d.attn.rings.foldl (fun (d : Dev) r =>
    d.updRing r.id fun r => { r with bindings := r.bindings.filter fun b => b.idx != i }) d
  let d := d.voidIdx x i s.gen
  match d.belt.life with
  | some (part, queue, mask) =>
    if bit mask 7 then
      match d.placeTask part queue (lifeRecord 7 (d.desc i) (d.handleOf i) d.now 0) (.life s.composition) with
      | (d, true) => d
      | (d, false) => d.bump Reg.beltLifeDrop 1
    else d
  | none => d

end Sys2Proof.Machine
end

