-- ==== Sys2Proof/Machine/Pins.lean ====
section
/-! DEFINITION. Machine/Pins.lean: pinned prefixes and their copies in T0 (R255, R258 to R263), and changes to requests in flight. -/

namespace Sys2Proof.Machine

/-! ### Requests in flight -/

/-- Change a layer request. -/
def Dev.updReq (d : Dev) (id : Nat) (f : LayerReq → LayerReq) : Dev :=
  { d with attn := { d.attn with reqs := replaceFirst (fun (r : LayerReq) => r.id == id) f d.attn.reqs } }

/-- The pages that a tile reads. -/
def TileSpan.pages : TileSpan → List Nat
  | .decode lo n _ => rangeFrom lo n
  | .prefillPage _ _ p => [p]
  | .prefillRun _ _ _ _ => []

/-! ### T0 (R255, R258) -/

/-- Where a quadrant's SRAM starts (R81). -/
def sramBase (q : Nat) : Nat := 0x400000000000 + q * 0x18000000

/-- The quadrant of an SRAM address. -/
def quadOfSram (a : Nat) : Nat := (a - 0x400000000000) / 0x18000000

/-- Bytes of T0 in a quadrant: what the other SRAM regions leave (R255, R258). -/
def Dev.t0Bytes (x : Ctx) (d : Dev) (q : Nat) : Nat :=
  let a := d.reg (Reg.qdSramPartA q)
  let rcl := if x.fuses.part.hasRecall then bits a 0 8 else 0
  (384 - 16 - (if x.fuses.part.hasBelt then 8 else 0) - bits a 24 8 - bits a 16 8 - bits a 8 8 - rcl) * 0x100000

/-- Where T0 starts in a quadrant: it is its last region (R255). -/
def Dev.t0Base (x : Ctx) (d : Dev) (q : Nat) : Nat := sramBase q + 0x18000000 - d.t0Bytes x q

/-- Bytes of T0 in use in a quadrant. -/
def Dev.pinUsed (d : Dev) (q : Nat) : Nat := sumOf ((d.tier.pins.filter fun c => quadOfSram c.addr == q).map (·.bytes))

/-- A free place in the T0 of a quadrant, clear of its retired lines. DESIGN CHOICE (log 53): places are multiples of 16 B. -/
def Dev.pinPlace (x : Ctx) (d : Dev) (q bytes : Nat) : Option Nat :=
  let base := d.t0Base x q
  let n := cdiv bytes 16
  let taken := ((d.tier.pins.filter fun c => quadOfSram c.addr == q).map fun c => (c.addr, c.addr + c.bytes)) ++
    ((d.err.retiredLines.filter fun l => base ≤ l * 4096 && l * 4096 < sramBase (q + 1)).map fun l => (l * 4096, (l + 1) * 4096))
  (pickFree (taken.map fun t => ((t.1 - base) / 16 + 1 - n, cdiv (t.2 - base) 16)) (d.t0Bytes x q / 16 + 1 - n) (Config.placeHint d.free)).map
    fun k => base + 16 * k

/-! ### Copies (R259 to R262) -/

/-- A page's record with its frames in a copy: the header, then the payload, then the meta bytes. DESIGN CHOICE (log 53): no rule lays a copy out. -/
def Page.inCopy (p : Page) (a bytes hd : Nat) : Page :=
  if p.kfmt == .fp8 then { p with payload := a + 256, payload2 := a + 256 + p.rows * hd, meta1 := a + 256 + 2 * p.rows * hd }
  else { p with payload := a + 256, payload2 := 0, meta1 := a + bytes - 64 * hd }

/-- Copy one prefix page into T0 of the quadrant whose home stack holds it; none without room there (R259, R260). -/
def Dev.pinPage (x : Ctx) (d : Dev) (k : PKey) (p : Page) : Option Dev :=
  let q := quadOfStack (stackOf p.payload)
  let bytes := p.readBytes d.shape.d p.rows
  if !(d.quadUp q) then none
  else (d.pinPlace x q bytes).map fun a =>
    let c := p.inCopy a bytes d.shape.d
    let d := d.st x a 256 (p.pack k d.shape.d)
    let d := (List.zip (d.framesOf c p.rows) (d.framesOf p p.rows)).foldl (fun (d : Dev) r => d.st x r.1.1 r.1.2 (d.ld x r.2.1 r.2.2)) d
    { d with free := d.free + 1, tier := { d.tier with pins := d.tier.pins ++ [(⟨k, a, bytes, none⟩ : PinCopy)] } }

/-- Copy every page of a prefix; none where one of them finds no room (R260). -/
def Dev.pinPages (x : Ctx) (d : Dev) : List (PKey × Page) → Option Dev
  | [] => some d
  | p :: t => (d.pinPage x p.1 p.2).bind fun d => d.pinPages x t

/-- The copy of a page that a request reads: of several the one made last (R261). -/
def Dev.pinCopy (d : Dev) (k : PKey) : Option PinCopy := d.tier.pins.reverse.find? fun c => c.key == k

/-- Whether a request planned to read a page from its copy (R261). -/
def LayerReq.planned (q : LayerReq) (k : PKey) : Bool :=
  match k.owner with | .pfx id => q.pinned.contains id | .sess _ => false

/-- Whether a prefix has copies in the T0 of a quadrant. -/
def Dev.pinnedIn (d : Dev) (q id : Nat) : Bool := d.tier.pins.any fun c => c.key.owner == POwner.pfx id && quadOfSram c.addr == q

/-! ### PINNED set and cleared (R249, R259, R261, R263) -/

/-- Change a prefix. -/
def Dev.updPrefix (d : Dev) (id : Nat) (f : Prefix → Prefix) : Dev :=
  { d with kv := { d.kv with prefixes := replaceFirst (fun (p : Prefix) => p.id == id) f d.kv.prefixes } }

/-- A loaded prefix: one that has not been freed (R178, R181). -/
def Dev.loadedPrefix (d : Dev) (id : Nat) : Option Prefix := d.kv.prefixes.find? fun p => p.id == id

/-- TIER of the resident sessions that read a prefix follows its pin (R94, R249). -/
def Dev.retier (x : Ctx) (d : Dev) (id : Nat) : Dev :=
  let mine := d.sess.table.filter fun s => s.2.prefixId == id && (match s.2.state with | .hot | .idle | .closing => true | _ => false)
  mine.foldl (fun (d : Dev) s => if s.2.tier == d.tierOf s.1 then d else d.updDesc x s.1 fun e => { e with tier := d.tierOf s.1 }) d

/-- A prefix loses its pin; its T0 space is released one block timeout later (R261). -/
def Dev.unpin (x : Ctx) (d : Dev) (id : Nat) : Dev := ((d.updPrefix id fun p => { p with pinned := false }).dropPins id).retier x id

/-- The bytes that a tile still has to read of pages of a prefix. -/
def Dev.tilePfxBytes (d : Dev) (q : LayerReq) (id : Nat) (t : WorkTile) : Nat :=
  if t.done then 0
  else sumOf (t.span.pages.map fun n => match d.viewPage t.idx q.layer t.head n with
    | some v => if v.1.owner == POwner.pfx id then v.2.readBytes d.shape.d v.2.rows else 0
    | none => 0)

/-- An accepted request that planned on copies of a prefix reads HBM instead, and books it (R263). What then comes late is handled as unit loss. -/
def Dev.replan (x : Ctx) (d : Dev) (id : Nat) (q : LayerReq) : Dev :=
  let f := match d.batch q.batch with | some b => b.figures | none => d.figures x
  let more := fun (t : WorkTile) => evenly (d.tilePfxBytes q id t) (f.stackPcs.map (·.1)) .hbm
  let hbm := fun (t : WorkTile) (s : Nat × Page) =>
    if inSram s.2.payload && s.2.prefixId == id then (s.1, (d.page ⟨.pfx id, q.layer, t.head, s.1⟩).getD s.2) else s
  let d := q.tiles.foldl (fun (d : Dev) t => d.addToBooking q.booking t.idx (more t)) d
  d.updReq q.id fun q => { q with pinned := q.pinned.filter (fun k => k != id),
                                  tiles := q.tiles.map fun t => { t with demand := joinDemand t.demand (more t), snap := t.snap.map (hbm t) } }

/-- A prefix loses its pin because copies of it are lost: those in the quadrants `gone` are there no more, the others wait for their release, and
requests that planned on the copies read HBM (R263, R679). -/
def Dev.losePins (x : Ctx) (d : Dev) (id : Nat) (gone : Nat → Bool) : Dev :=
  let d := d.unpin x id
  let d : Dev := { d with tier := { d.tier with pins := d.tier.pins.filter fun c => !(c.key.owner == POwner.pfx id && gone (quadOfSram c.addr)) } }
  (d.attn.reqs.filter fun q => q.pinned.contains id).foldl (fun (d : Dev) q => d.replan x id q) d

end Sys2Proof.Machine
end

