-- ==== Sys2Proof/Machine/Attention.lean ====
section
/-! DEFINITION. Machine/Attention.lean: layer requests: images, admission, row intake, tiles, partials, merging and responses (R120 to
R124, R136 to R141, R195 to R223, R727). -/

namespace Sys2Proof.Machine

/-! ### Request images (R213 to R216, R727) -/

/-- A request image as it arrived: how to read bytes of it, and where it lies in device memory on the HP path. -/
structure ReqImg where
  path : ReqPath
  rd : Nat → Nat → Nat
  addr : Option Nat
  len : Option Nat

/-- The image of a request source. -/
def Dev.reqImg (x : Ctx) (d : Dev) : ReqSrc → ReqImg
  | .hp e => ⟨.hp e.cmd, fun off len => d.ld x (e.f 16 6 + off) len, some (e.f 16 6), none⟩
  | .cvf port src len val => ⟨.cvf port src, fun off n => bits val (8 * off) (8 * n), none, some len⟩

/-- Whether a part of the image meets an uncorrectable HBM word (R727); staging has none. -/
def ReqImg.bad (g : ReqImg) (d : Dev) (off len : Nat) : Bool :=
  match g.addr with
  | some a => d.mediaBad (a + off) len
  | none => false

/-- A part of the image is read through ECC: the error-log entry names the address (R727). -/
def ReqImg.log (g : ReqImg) (d : Dev) (off len : Nat) : Dev :=
  match g.addr with
  | some a => d.eccRead (a + off) len true
  | none => d

/-- An image whose form is an error of the sender's own making (R29 to R31). -/
def Dev.reqUnpredictable (x : Ctx) (d : Dev) : ReqPath → Dev
  | .hp c => d.unpredictable x c
  | _ => d.contained x

/-- The layer request header (R213). -/
structure LHead where
  tag : Nat
  kind : Nat
  flags : Nat
  batch : Nat
  layer : Nat
  count : Nat
  qfmt : Nat
  kvfmt : Nat
  ofmt : Nat
  scale : Nat
  deadline : Nat
  resp : Nat
  bytes : Nat
  reserved : Bool

/-- Whether the unused bits of RESP_ADDR are set; over CVF the field is ignored (R213, R311). -/
def ReqImg.respOdd (g : ReqImg) : Bool := match g.path with | .hp _ => g.rd 38 2 != 0 | _ => false

/-- Read the header. -/
def ReqImg.lhead (g : ReqImg) : LHead :=
  let f := g.rd
  ⟨f 0 4, f 4 1, f 5 1, f 6 2, f 8 2, f 10 2, f 12 1, f 13 1, f 14 1, f 16 4, f 24 8, f 32 6, f 40 8,
    f 15 1 != 0 || f 20 4 != 0 || f 48 16 != 0 || 4 ≤ f 5 1 || g.respOdd⟩

/-- Round up to 256. -/
def al256 (n : Nat) : Nat := cdiv n 256 * 256

/-- Offsets inside a data block: K array, V array, end (R215). -/
def Dev.blockOffs (d : Dev) (kvfmt rows : Nat) : Nat × Nat × Nat :=
  let sh := d.shape
  let q := al256 (rows * (sh.g * sh.hkv) * sh.d * 2)
  let k := al256 (rows * sh.hkv * sh.d * (elemFmt kvfmt).2)
  (q, q + k, q + 2 * k)

/-- Elements from a number: `n` of them of a format, as FP32 patterns. -/
def elemsOf (fmt : Fmt × Nat) (v n : Nat) : List Nat :=
  (List.range n).map fun i => fmt.1.to fp32 .near (bits v (8 * fmt.2 * i) (8 * fmt.2))

/-- The query of a row and query head (R215). -/
def Dev.queryOf (d : Dev) (q : LayerReq) (e : AttnEntry) (row qh : Nat) : List Nat :=
  let sh := d.shape
  elemsOf (elemFmt q.qfmt) (bits q.img (8 * (e.dataOff + ((row * (sh.g * sh.hkv) + qh) * sh.d) * 2)) (16 * sh.d)) sh.d

/-- The new K and V rows of a token and KV head in their FP8 form (R162, R199). -/
def Dev.newRow (d : Dev) (img kvfmt dataOff rows j head : Nat) : FpRow :=
  let sh := d.shape
  let (ko, vo, _) := d.blockOffs kvfmt rows
  let w := (elemFmt kvfmt).2
  let at_ := fun o => bits img (8 * (dataOff + o + ((j * sh.hkv + head) * sh.d) * w)) (8 * w * sh.d)
  fp8Row (elemsOf (elemFmt kvfmt) (at_ ko) sh.d) (elemsOf (elemFmt kvfmt) (at_ vo) sh.d)

/-! ### Tiles and their cost (R189, R195 to R197, R206, R209, R210, R128, R168, R180) -/

/-- w(n) of R189, times 2 so that it is whole. -/
def waves2 (hd n : Nat) : Nat := 2 * cdiv (n * max hd 128) 1024 * min hd 128 / 128

/-- Raw cost of a tile: HBM bytes, pace operations of AEs, score-engine waves by stack, bytes on the Ecliptic. -/
structure Cost where
  hbm : Nat
  ae : Nat
  score : List (Nat × Nat)
  ecl : Nat

/-- Add costs. -/
def Cost.add (a b : Cost) : Cost := ⟨a.hbm + b.hbm, a.ae + b.ae, a.score ++ b.score, a.ecl + b.ecl⟩

/-- What of so many bytes crosses the die-to-die cut (R39), in both directions together, when they go from the stacks evenly to the AEs in proportion:
with the same stacks and AEs on both dies it is half, as the worked example of admission books it (log 27). Rounded up (log 52). -/
def cutBytes (f : Figures) (n : Nat) : Nat :=
  let s1 := ((f.stackPcs.map (·.1)).filter fun s => 2 ≤ quadOfStack s).length
  let a0 := sumOf (f.aeCount.take 2)
  let all := f.stackPcs.length * sumOf f.aeCount
  if all == 0 then 0 else cdiv (n * ((f.stackPcs.length - s1) * (sumOf f.aeCount - a0) + s1 * a0)) all

/-- A cost spread over the resources of R126 (R128): HBM evenly over the stacks, AE work and Ecliptic bytes by online AEs, and what crosses over the die
cut (R39, log 27). -/
def Cost.spread (c : Cost) (f : Figures) : List (Res × Nat) :=
  let d := joinDemand (evenly c.hbm (f.stackPcs.map (·.1)) .hbm) (byAes c.ae f .ae)
  let d := joinDemand d (byAes c.ecl f .eclQuad)
  addDemand .dieCut (cutBytes f c.ecl) (c.score.foldl (fun d s => addDemand (.score s.1) s.2 d) d)

/-- The page at a place as a request sees it, with its valid rows. -/
def Dev.seenPage (d : Dev) (i layer head n : Nat) : Option (PKey × Page × Nat) :=
  (d.viewPage i layer head n).map fun p => (p.1, p.2, p.2.valid (d.desc i).commitLen (256 * n))

/-- Whether a page is read from a pinned copy (R261, R262). -/
def Dev.isPinned (d : Dev) (k : PKey) : Bool :=
  match k.owner with
  | .pfx id => d.kv.prefixes.any fun p => p.id == id && p.pinned
  | .sess _ => false

/-- Whether a page can be offloaded (R209). -/
def Dev.canOffload (x : Ctx) (d : Dev) (k : PKey) (p : Page) : Bool :=
  let sh := d.shape
  bit (d.reg Reg.sessAttnCtl) 0 && p.kfmt == .k4s && x.fuses.part.computeStacks.contains (stackOf p.payload) &&
    !(d.isPinned k) && 1024 * sh.g ≤ 144 * sh.d + 256 * outLimit sh.d

/-- The cost of one decode page (R168, R195, R210, R262). A coma page without committed rows costs no AE work, as the worked example
of admission books it; one with rows costs a whole page (DEDUCED, log 28). -/
def Dev.pageCost (d : Dev) (k : PKey) (p : Page) (valid : Nat) (off : Bool) : Cost :=
  let sh := d.shape
  let bytes := p.readBytes sh.d valid
  let w2 := waves2 sh.d sh.g
  let full := if valid == 0 then 0 else 256 * w2 * (if p.kfmt == .fp8 then 2 else 1)
  let hbm := if d.isPinned k then 0 else bytes
  if off then
    ⟨hbm, full - 128 * w2, [(stackOf p.payload, 128 * w2)], bytes + 1024 * sh.g - min bytes (144 * sh.d + 256 * outLimit sh.d)⟩
  else ⟨hbm, full, [], bytes⟩

/-- P_T (R196). -/
def Dev.splitPages (d : Dev) : Nat :=
  let cp := 256 * waves2 d.shape.d d.shape.g
  max 1 (min (d.fld Reg.sessAttnCtl 16 8) (if cp == 0 then 1 else 16384 / cp))

/-- A new tile. -/
def mkTile (entry i head order : Nat) (span : TileSpan) (demand : List (Res × Nat)) (off : List Nat) : WorkTile :=
  ⟨0, entry, i, head, order, span, demand, none, [], [], off, [], false, false, [], false⟩

/-- The cost of a coma page that no row has been written into yet: its 256 B header, as the worked example of admission books it (R153, R168). -/
def emptyComa : Cost := ⟨256, 0, [], 256⟩

/-- The decode tiles of an entry for one KV head (R196, R197), with their raw costs. -/
def Dev.decodeTiles (x : Ctx) (d : Dev) (f : Figures) (n i layer head : Nat) (offload : Bool) : List (WorkTile × Cost) :=
  let pages := (d.desc i).commitLen / 256 + 1
  let pt := d.splitPages
  (List.range (cdiv pages pt)).map fun t =>
    let lo := t * pt
    let cnt := min pt (pages - lo)
    let seen := (rangeFrom lo cnt).filterMap fun p => (d.seenPage i layer head p).map fun s => (p, s)
    let off := if offload then (seen.filter fun s => d.canOffload x s.2.1 s.2.2.1 &&
      d.scoreUp (stackOf s.2.2.1.payload) && (tblGet (stackOf s.2.2.1.payload) f.score).isSome).map (·.1) else []
    let own := if lo + cnt == pages && (d.seenPage i layer head (pages - 1)).isNone then emptyComa else ⟨0, 0, [], 0⟩
    let c := (seen.map fun s => d.pageCost s.2.1 s.2.2.1 s.2.2.2 (off.contains s.1)).foldl Cost.add own
    (mkTile n i head t (.decode lo cnt (lo + cnt == pages)) (c.spread f) off, c)

/-- The staged runs of a chunk: (first row, rows), cut at page boundaries (R206). -/
def stagedRuns : Nat → Nat → Nat → Nat → List (Nat × Nat)
  | 0, _, _, _ => []
  | f + 1, base, row, rows =>
    if rows ≤ row then []
    else
      let len := min (256 - (base + row) % 256) (rows - row)
      (row, len) :: stagedRuns f base (row + len) rows

/-- The rows of a chunk with which a device deals: the query rows that it attends, and the new rows that its segment holds, each as
(first row, rows) (R206, R232, R235). -/
structure Span where
  qLo : Nat
  qN : Nat
  kLo : Nat
  kN : Nat

/-- The prefill tiles of an entry for one KV head (R206), with their raw costs. Tiles are ordered by the place of their tokens; `first` is
the number of the session's first page here in a ring session. -/
def Dev.prefillTiles (d : Dev) (f : Figures) (n i layer head first : Nat) (sp : Span) : List (WorkTile × Cost) :=
  let sh := d.shape
  let base := (d.desc i).commitLen
  let rp := min 64 (if sh.g * sh.d == 0 then 64 else 32768 / (sh.g * sh.d))
  let runs := (stagedRuns (sp.kN + 1) base 0 sp.kN).map fun r => (sp.kLo + r.1, r.2)
  let pages := (List.range (cdiv base 256)).filterMap fun p => (d.seenPage i layer head p).map fun s => (p, s)
  (List.range (cdiv sp.qN rp)).flatMap fun gI =>
    let lo := sp.qLo + gI * rp
    let cnt := min rp (sp.qLo + sp.qN - lo)
    let w := 256 * waves2 sh.d (cnt * sh.g)
    let pt := (pages.filter fun p => 0 < p.2.2.2).map fun p =>
      let bytes := p.2.2.1.readBytes sh.d p.2.2.2
      let c : Cost := ⟨if d.isPinned p.2.1 then 0 else bytes, w * (if p.2.2.1.kfmt == .fp8 then 2 else 1), [], bytes⟩
      (mkTile n i head (first + p.1) (.prefillPage lo cnt p.1) (c.spread f) [], c)
    let rt := (runs.zipIdx.filter fun r => r.1.1 < lo + cnt).map fun r =>
      let c : Cost := ⟨0, 2 * w, [], r.1.2 * 2 * sh.d⟩
      (mkTile n i head (first + cdiv base 256 + r.2) (.prefillRun lo cnt r.1.1 r.1.2) (c.spread f) [], c)
    pt ++ rt

/-- Header blocks and coma pages that the rows of an entry open for a layer: (head, page) to open, (head, block) to allocate (R153,
R180, R254). -/
def Dev.opensOf (d : Dev) (i layer rows : Nat) : List (Nat × Nat) × List (Nat × Nat) :=
  let base := (d.desc i).commitLen
  let pages := rangeFrom (base / 256) ((base + rows - 1) / 256 + 1 - base / 256)
  let heads := List.range d.shape.hkv
  let open_ := heads.flatMap fun h => (pages.filter fun p => (d.page ⟨.sess i, layer, h, p⟩).isNone).map fun p => (h, p)
  let blocks := heads.flatMap fun h => ((pages.map (· / 64)).eraseDups.filter fun b => (d.area (.sess i) (.hdr layer h b)).isNone).map fun b => (h, b)
  (open_, blocks)

/-- The HBM demand of copying shared blocks on write (R180). -/
def Dev.copyCost (d : Dev) (i layer rows : Nat) : Nat :=
  let (open_, blocks) := d.opensOf i layer rows
  let shared := blocks.filter fun b => (d.area (.pfx (d.desc i).prefixId) (.hdr layer b.1 b.2)).isSome
  let r := sumOf (open_.map fun p => match d.viewPage i layer p.1 p.2 with
    | some q => q.2.rows
    | none => 0)
  2 * (16384 * shared.length + r * (2 * d.shape.d + 16))

/-! ### Admission (R114, R120 to R123, R201, R216, R254) -/

/-- One entry as the request names it. -/
structure LEnt where
  handle : Nat
  rows : Nat
  dataOff : Nat
  status : Option Status
  deriving DecidableEq, Repr

/-- The quadrant that merges a session's partials: that of its index class, or the one that serves it (R202, R221). -/
def Dev.mergeQuad (d : Dev) (i : Nat) : Nat :=
  let n := d.cacheQuad i
  match (List.range 4).find? fun k => !(d.attn.mergeOffline.contains ((n + k) % 4)) && d.quadUp ((n + k) % 4) with
  | some k => (n + k) % 4
  | none => n

/-- Decide one entry before the ledger (R123, R116, R200, R216, R727). Ring sessions come only with FLAGS[1] (R213; log 29). -/
def Dev.entryCheck (x : Ctx) (d : Dev) (g : ReqImg) (h : LHead) (before : List Nat) (e : LEnt) : Dev × LEnt :=
  let refuse := { e with status := some .REFUSED_STATE }
  let i := handleIdx e.handle
  let (_, _, size) := d.blockOffs h.kvfmt e.rows
  if before.contains e.handle || e.rows == 0 || 16384 < e.rows then (d, refuse)
  else match d.readDesc x i with
    | (d, none) => (d, { e with status := some .FAULT_MEDIA })
    | (d, some s) =>
      let ring := (d.bindingOf i).isSome
      let stepBad := match d.stepRec i with
        | some r => r.named.contains h.layer || (match r.rows with | some n => n != e.rows | none => false)
        | none => true
      if s.gen % 1024 != handleGen e.handle || s.state != .hot || s.batch != h.batch || stepBad || ring != bit h.flags 1 then (d, refuse)
      else if g.bad d e.dataOff size then (g.log d e.dataOff size, { e with status := some .FAULT_MEDIA })
      else (d, e)

/-- Decide the entries in order. -/
def Dev.entryChecks (x : Ctx) (g : ReqImg) (h : LHead) : List Nat → List LEnt → Dev → Dev × List LEnt
  | _, [], d => (d, [])
  | before, e :: t, d =>
    let (d, e') := d.entryCheck x g h before e
    let (d, r) := Dev.entryChecks x g h (e.handle :: before) t d
    (d, e' :: r)

/-- Whether data blocks break the form of the image: unaligned, past its end or overlapping (R214, R216). -/
def blocksBad (bytes : Nat) (bs : List (Nat × Nat)) : Bool :=
  (bs.any fun b => b.1 % 256 != 0 || bytes < b.1 + b.2) ||
    bs.zipIdx.any fun p => bs.zipIdx.any fun q => p.2 < q.2 && p.1.1 < q.1.1 + q.1.2 && q.1.1 < p.1.1 + p.1.2

/-- Staging that requests hold in a quadrant (R201). -/
def Dev.stagingUsed (d : Dev) (q : Nat) : Nat :=
  sumOf ((d.attn.reqs.flatMap (·.share) ++ d.tail.reqs.flatMap (·.share)).filterMap fun s => if s.1 == q then some s.2 else none)

/-- Whether an image's shares fit the free reserved staging (R201). -/
def Dev.stagingFits (d : Dev) (share : List (Nat × Nat)) : Bool :=
  (List.range 4).all fun q =>
    sumOf (share.filterMap fun s => if s.1 == q then some s.2 else none) + d.stagingUsed q ≤ d.fld Reg.sessAttnCtl 8 8 * 0x100000

/-- One ledger that a request must pass: its rates, the time from which capacity counts, its deadline and how far that falls short of the request's, the
booking and those open. -/
structure LedgerAt where
  rate : Res → Rate
  start : Nat
  deadline : Nat
  short : Nat
  new : Booking
  open_ : List Booking

/-- The verdict over several ledgers: every one passes, or the largest hints (R230). -/
def verdictAll (pct arrival horizon : Nat) (ls : List LedgerAt) : Verdict :=
  let vs := ls.map fun l => decideLedger l.rate pct arrival l.start l.deadline (arrival + horizon - l.start) l.short l.new l.open_
  if vs.all fun v => match v with | .pass _ => true | _ => false then
    .pass (vs.foldl (fun m v => match v with | .pass f => max m f | _ => m) 0)
  else
    .full (vs.foldl (fun m v => match v with | .full r _ => max m r | _ => m) 0)
      (vs.foldl (fun m v => match v with | .full _ r => max m r | _ => m) 0)

/-- The committed tokens of a ring session that a position holds (R227). -/
def segLen (seg global pos : Nat) : Nat := min seg (global - pos * seg)

/-- The bytes of one layer of a session's first tokens as a ring counts them: full pages at K4S sizes, the rest as FP8 rows (R168; DEDUCED, log 33). -/
def Dev.legBytes (d : Dev) (tokens : Nat) : Nat :=
  let sh := d.shape
  let rest := tokens % 256
  sh.hkv * (tokens / 256 * (320 * sh.d + 256) + (if rest == 0 then 0 else 256 + rest * (2 * sh.d + 16)))

/-- The groups of query rows into which R206 cuts `n` rows. -/
def Dev.rowGroups (d : Dev) (n : Nat) : List Nat :=
  let sh := d.shape
  let rp := min 64 (if sh.g * sh.d == 0 then 64 else 32768 / (sh.g * sh.d))
  (List.range (cdiv n rp)).map fun k => min rp (n - k * rp)

/-- The work of one member's leg (R230, R232, R235, R236): the tokens before the step that its segment holds, those of other positions that it reads as
KV tiles, its query rows, and whether its segment holds new rows. Its raw cost, and the partials that its merge units take. A decode costs its
pages once; a chunk costs the tiles of R206. -/
def Dev.legCost (d : Dev) (own other rows : Nat) (decode staged : Bool) : Cost × Nat :=
  let sh := d.shape
  let pages := fun (n : Nat) => (n / 256, if n % 256 == 0 then 0 else 1)
  let (f1, c1) := pages own
  let (f2, c2) := pages other
  if rows == 0 then (⟨0, 0, [], 0⟩, 0)
  else if decode then
    let c1 := if staged then 1 else c1
    (⟨max (d.legBytes own) (if staged then sh.hkv * 256 else 0), sh.hkv * 256 * waves2 sh.d sh.g * (f1 + 2 * c1), [],
      max (d.legBytes own) (if staged then sh.hkv * 256 else 0)⟩, sh.hkv * sh.g * cdiv (f1 + c1) (max 1 d.splitPages))
  else
    let gs := d.rowGroups rows
    let ae := sumOf (gs.map fun n => 256 * waves2 sh.d (n * sh.g)) * sh.hkv * (f1 + f2 + 2 * (c1 + c2 + ofB staged))
    (⟨gs.length * d.legBytes own, ae, [], gs.length * (d.legBytes own + d.legBytes other) + ofB staged * sh.hkv * rows * 2 * sh.d⟩,
      sh.hkv * sh.g * rows * (f1 + c1 + f2 + c2 + ofB staged))

/-- The figures that a member's rates stand for: its stacks, and its AE pools as their weights (R231). -/
def memberFigures (f : Figures) (rates : List (Res × Nat)) : Figures :=
  { f with stackPcs := rates.filterMap fun p => (match p.1 with | .hbm s => some (s, 1) | _ => none),
           aeCount := (List.range 4).map fun q => sumOf ((rates.filter fun p => p.1 == Res.ae q).map (·.2)) }

/-- Bytes of the request's outputs for an entry (R217). -/
def Dev.outBytes (d : Dev) (ofmt rows : Nat) : Nat := rows * (d.shape.g * d.shape.hkv) * d.shape.d * (elemFmt ofmt).2

/-- The port index of a path's egress, and the Ecliptic port it leaves by: 8 stands for HP. -/
def ReqPath.port : ReqPath → Nat
  | .hp _ => 8
  | .cvf p _ => p
  | .ring _ => 8

/-- The Ecliptic port resource of an egress port. -/
def eclOf (p : Nat) : Res := if p < 8 then .eclCvf (p / 4) else .eclHif

/-- Partials that the merges of a session's entry take, each as ⌈d / 128⌉ operations (R719). -/
def mergeOps (hd g : Nat) (ts : List WorkTile) : Nat :=
  sumOf (ts.map fun t => match t.span with
    | .decode _ _ _ => g
    | .prefillPage _ n _ => g * n
    | .prefillRun _ n _ _ => g * n) * cdiv hd 128

/-- The tokens before a session's step: its committed rows, or GLOBAL_LEN of a ring session (R227). -/
def Dev.lenBefore (d : Dev) (i : Nat) : Nat :=
  match d.bindingOf i with
  | some (_, b) => b.globalLen
  | none => (d.desc i).commitLen

/-- The tiles and the demand of an entry, with or without offload; `extra` is the header and entry table of the response, booked with the first live entry (log
27); `ring` is the ring of a ring request, with the form of R235. At the head of a ring
the running partial is merged too (R232), and in KV form the pages that its segment sends on leave by the port of its hop (R236). -/
def Dev.entryWork (x : Ctx) (d : Dev) (f : Figures) (h : LHead) (path : ReqPath) (extra n : Nat) (e : LEnt) (offload : Bool)
    (ring : Option (Ring × Option Nat)) : List WorkTile × List (Res × Nat) :=
  let kv := match ring with | some (_, some _) => true | _ => false
  let i := handleIdx e.handle
  let tc := (List.range d.shape.hkv).flatMap fun head =>
    if e.rows == 1 then d.decodeTiles x f n i h.layer head offload
    else
      let own := d.ownRows i e.rows
      d.prefillTiles f n i h.layer head 0 ⟨0, if kv then own else e.rows, 0, own⟩
  let c := (tc.map (·.2)).foldl Cost.add ⟨d.copyCost i h.layer e.rows, 0, [], 0⟩
  let out := d.outBytes h.ofmt e.rows + extra
  let run := match ring with | some (_, none) => e.rows * d.shape.g * d.shape.hkv * cdiv d.shape.d 128 | _ => 0
  let dem := addDemand (.merge (d.mergeQuad i)) (mergeOps d.shape.d d.shape.g (tc.map (·.1)) + run) (c.spread f)
  let dem := match ring with
    | some (r, some top) =>
      let hop := if top == 0 then 0 else d.legBytes (min r.seg (d.lenBefore i + e.rows))
      addDemand (.egress r.nextPort 0) hop (addDemand (eclOf r.nextPort) hop dem)
    | _ => dem
  (tc.map (·.1), addDemand (.egress path.port 0) out (addDemand (eclOf path.port) out dem))

/-- The rows of a chunk that the segment of a position holds, as (first row, rows) (R227). -/
def segRows (seg global rows pos : Nat) : Nat × Nat :=
  let lo := max global (pos * seg)
  let hi := min (global + rows) ((pos + 1) * seg)
  (lo - global, hi - lo)

/-- The form of a ring request (R232, R235): none is partial form; otherwise the highest position that holds query rows. The volumes are
those of the busiest hop; the pages of other positions are counted as K4S pages, their rest as FP8 rows (DEDUCED, log 33). -/
def Dev.ringForm (d : Dev) (r : Ring) (h : LHead) (live : List LEnt) : Option Nat :=
  let sh := d.shape
  let hq := sh.g * sh.hkv
  if live.all fun e => e.rows == 1 then none
  else
    let gl := fun (e : LEnt) => d.lenBefore (handleIdx e.handle)
    let top := (live.map fun e => if r.seg == 0 then 0 else (gl e + e.rows - 1) / r.seg).foldl max 0
    let part := sumOf (live.map fun e => e.rows * hq * (sh.d * (elemFmt h.qfmt).2 + 4 * sh.d + 32))
    let kv := sumOf (live.map fun e => if top == 0 then 0 else d.legBytes (min (gl e + e.rows) (top * r.seg)))
    if kv < part then some top else none

/-- The demand of one member's leg for an entry (R230, R232, R236). Its merges are spread evenly over its merge units, as the head does not know which of
them serves the session (DESIGN CHOICE, log 33); behind position 1 they take the running partial too. In KV form the member books its own query
rows over every token before them, and the bytes of the tiles that it passes on, on the egress of its hop. -/
def Dev.legDemand (d : Dev) (r : Ring) (f : Figures) (j : Nat) (kvTop : Option Nat) (e : LEnt) : List (Res × Nat) :=
  let sh := d.shape
  let gl := d.lenBefore (handleIdx e.handle)
  let seg := segLen r.seg gl j
  let new := (segRows r.seg gl e.rows j).2
  let done := fun (w : Cost × Nat) (run : Nat) => joinDemand (w.1.spread f) (evenly ((w.2 + run) * cdiv sh.d 128) (List.range 4) .merge)
  match kvTop with
  | none => done (d.legCost seg 0 e.rows (e.rows == 1) (new != 0)) (if j == 1 then 0 else e.rows * sh.g * sh.hkv)
  | some top =>
    let dem := done (d.legCost seg (min gl (j * r.seg)) new false (new != 0)) 0
    if j < top then addDemand (.egress r.nextPort 0) (d.legBytes (min (gl + e.rows) ((j + 1) * r.seg))) dem else dem

/-- The shadow ledgers of a ring request (R229, R230, R236), with the rates that stood when the batch opened (R231): one per member that is not the head. -/
def Dev.shadowLedgers (d : Dev) (r : Ring) (f : Figures) (t dl : Nat) (prefill : Bool) (live : List LEnt) (kvTop : Option Nat) : List LedgerAt :=
  let hop := d.fld Reg.sessOrbitCtl 0 16
  (List.range (r.m - 1)).map fun k =>
    let j := k + 1
    let rates := match f.rings.find? fun h => h.1 == r.id && h.2.1 == j with | some h => h.2.2 | none => []
    let dem := live.map fun (e : LEnt) => (handleIdx e.handle, d.legDemand r (memberFigures f rates) j kvTop e)
    let dj := dl - 6000 - (r.m - j) * hop
    let used := match r.shadow.find? fun s => s.1 == j with | some s => s.2 | none => []
    ⟨fun q => ((rates.filter fun p => p.1 == q).foldl (fun n (p : Res × Nat) => n + p.2) 0, 1000), t + j * hop, dj, dl - dj,
      ⟨d.sess.nextBooking, dj, lAttn, prefill, dem⟩, used⟩

/-- Reservations that an accepted request makes (R254): slots by stack and header blocks, for each entry. -/
def Dev.needs (x : Ctx) (d : Dev) (layer : Nat) (es : List LEnt) : List (Nat × Nat × Nat) × List (Nat × Nat) :=
  let per := es.map fun e =>
    let i := handleIdx e.handle
    let (open_, blocks) := d.opensOf i layer e.rows
    let sts := open_.map fun (p : Nat × Nat) => (homeOf x.fuses.part ⟨.sess i, layer, p.1, p.2⟩).1
    (sts.eraseDups.map fun s => (i, s, 2 * (sts.filter fun t => t == s).length), (i, blocks.length))
  (per.flatMap (·.1), (per.map (·.2)).filter fun p => p.2 != 0)

/-- Whether they fit. -/
def Dev.needsFit (x : Ctx) (d : Dev) (n : List (Nat × Nat × Nat) × List (Nat × Nat)) : Bool :=
  (x.fuses.part.fittedStacks.all fun s => sumOf (n.1.filterMap fun r => if r.2.1 == s then some r.2.2 else none) ≤ d.stackOpen x s) &&
    sumOf (n.2.map (·.2)) ≤ d.blocksFree

/-- The record of a refusal. -/
def refusal (h tag kind : Nat) (t : Nat) (s : Status) : Admit := ⟨tag, s, kind, h, t, 0, 0xFFFFFFFF, 0xFFFFFFFF⟩

/-- The words of a leg as it travels (R232): the request's formats and deadline, and for each session its RSN, STEP_SEQ, rows, GLOBAL_LEN and data block. -/
def RingLeg.fields (l : RingLeg) (tag : Nat) : List Nat :=
  [tag, l.leg, l.deadline, l.batch, l.layer, l.qfmt, l.kvfmt, l.ofmt, l.scale, match l.kvTop with | some t => t + 1 | none => 0] ++
    l.entries.flatMap fun e => [e.rsn, e.stepSeq, e.rows, e.globalLen, e.len, e.block]

/-- Send a leg onward at the head or a member (R232), with the leg deadline of the next position (R233). -/
def Dev.sendLeg (d : Dev) (r : Ring) (l : RingLeg) : Dev :=
  (d.sendOn r.nextPort 0 0x06 0 "LEG" (64 + sumOf (l.entries.map fun e => 32 + e.len)) (l.fields r.tag) (some l.deadline) r.id (.ring r.id)).1

/-- The leg that a head forwards for its request (R232, R233). -/
def Dev.headLeg (d : Dev) (r : Ring) (q : LayerReq) : RingLeg :=
  { leg := q.id, batch := q.batch, layer := q.layer, qfmt := q.qfmt, kvfmt := q.kvfmt, ofmt := q.ofmt, scale := q.scale,
    deadline := q.deadline - 6000 - (r.m - 1) * d.fld Reg.sessOrbitCtl 0 16, kvTop := q.kvTop,
    entries := (q.entries.filter fun e => e.status.isNone).map fun e =>
      let b := match r.bindings.find? fun b => b.idx == e.idx with | some b => (b.rsn, b.stepSeq) | none => (0, 0)
      let len := (d.blockOffs q.kvfmt e.rows).2.2
      ⟨b.1, b.2, e.rows, e.base, len, bits q.img (8 * e.dataOff) (8 * len)⟩ }

/-- A tile of rows that are FP8: the committed ones of a page and those that the step stages (R164, R265). -/
def Dev.fp8Tile (d : Dev) (k : PKey) (p : Page) (rows : List FpRow) : Tile :=
  let h : Page := { p with kind := .coma, kfmt := .fp8, vfmt := .fp8, rows := rows.length, payload := 0, payload2 := 0, meta1 := 0 }
  ⟨k, h, 16 * rows.length, packFields (rows.zipIdx.map fun r => (16 * r.2, 16, r.1.metaBytes)), 2 * rows.length * d.shape.d,
    leNat (rows.flatMap (·.k) ++ rows.flatMap (·.v))⟩

/-- A page of a position's segment as a KV tile (R235), its page numbered over the whole ring session. A page that fails its checks travels marked
(DEDUCED, log 33). -/
def Dev.ringTile (x : Ctx) (d : Dev) (r : Ring) (rsn i layer head page : Nat) : Tile :=
  let k : PKey := ⟨.sess rsn, layer, head, r.pos * r.seg / 256 + page⟩
  let new := (d.kv.staged.filter fun t => t.idx == i && t.layer == layer && t.head == head && t.row / 256 == page).map (·.data)
  match d.seenPage i layer head page with
  | none => d.fp8Tile k (Page.coma 0 0 0) new
  | some (q, p, valid) =>
    let bad := p.mediaBad || d.headerBad x q || d.framesBad p valid
    let t := if p.kfmt == .fp8 then d.fp8Tile k p ((List.range valid).map (fun t => d.fp8At x p t) ++ new)
      else { d.tileOf x q p (d.desc i).commitLen with key := k }
    { t with header := { t.header with mediaBad := bad } }

/-- A KV tile goes to the next position (R235): its place, its header and its bytes. -/
def Dev.sendTile (d : Dev) (r : Ring) (leg : Nat) (dl : Ns) (t : Tile) : Dev :=
  (d.sendOn r.nextPort 0 0x06 0 "KV_TILE" (256 + t.metaLen + t.payLen) [r.tag, leg, t.key.owner.index, t.key.layer, t.key.head, t.key.page,
    t.header.pack t.key d.shape.d, t.metaLen, t.metaVal, t.payLen, t.payVal] (some dl) r.id (.ring r.id)).1

/-- In KV form a position sends its pages of the sessions towards higher positions, one message a page (R235). Sessions are given as index, RSN and the
tokens of the ring session with the step's. -/
def Dev.sendPages (x : Ctx) (d : Dev) (r : Ring) (leg layer : Nat) (dl : Ns) (top : Nat) (es : List (Nat × Nat × Nat)) : Dev :=
  if top ≤ r.pos then d
  else es.foldl (fun (d : Dev) e =>
    (List.range d.shape.hkv).foldl (fun (d : Dev) head => (List.range (cdiv (segLen r.seg e.2.2 r.pos) 256)).foldl (fun (d : Dev) p =>
      d.sendTile r leg dl (d.ringTile x r e.2.1 e.1 layer head p)) d) d) d

/-- A head forwards its request to the ring (R232, R235). -/
def Dev.startRing (x : Ctx) (d : Dev) (r : Ring) (q : LayerReq) : Dev :=
  let l := d.headLeg r q
  let d := d.sendLeg r l
  match q.kvTop with
  | some top => d.sendPages x r q.id q.layer l.deadline top ((q.entries.filter fun e => e.status.isNone).map fun e => (e.idx,
      (match r.bindings.find? fun b => b.idx == e.idx with | some b => b.rsn | none => 0), e.base + e.rows))
  | none => d

/-! ### Tiles over the quadrants (R198) -/

/-- The quadrant that takes the next tile: with the tile, the least loaded for its online AEs. -/
def nextQuad (aes load : List Nat) : Nat :=
  (minBy (fun (a b : Nat) => decide ((getAt 0 a load + 1) * getAt 0 b aes < (getAt 0 b load + 1) * getAt 0 a aes))
    ((List.range 4).filter fun q => getAt 0 q aes != 0)).getD 0

/-- The quadrants of `n` tiles, in proportion to the online AEs (R198). DESIGN CHOICE (log 53): which tile goes where is not given. -/
def quadTurns (aes : List Nat) : Nat → List Nat → List Nat
  | 0, _ => []
  | n + 1, load =>
    let q := nextQuad aes load
    q :: quadTurns aes n (setAt 0 (getAt 0 q load + 1) q load)

/-- The tiles that quadrants have not finished. -/
def Dev.quadLoad (d : Dev) : List Nat :=
  (List.range 4).map fun q => sumOf (d.attn.reqs.map fun r => (r.tiles.filter fun t => t.quad == q && !t.done).length) +
    sumOf (d.tail.reqs.map fun r => (r.deltas.filter fun t => t.quad == q && !t.done).length)

/-- The quadrants that take `n` new tiles. -/
def Dev.newTurns (d : Dev) (n : Nat) : List Nat :=
  quadTurns ((List.range 4).map fun q => ((List.range 16).filter fun a => d.aeOnline q a).length) n d.quadLoad

/-- Layer tiles with their quadrants. -/
def Dev.placeTiles (d : Dev) (ts : List WorkTile) : List WorkTile :=
  List.zipWith (fun (t : WorkTile) q => { t with quad := q }) ts (d.newTurns ts.length)

/-! ### Acceptance -/

/-- A request that came over the CVF crosses the Ecliptic into the staging of its quadrants, in class DEADLINE (R36, R201). -/
def Dev.imageCrosses (d : Dev) (path : ReqPath) (share : List (Nat × Nat)) (op : EclOp) : Dev :=
  match path with
  | .cvf port _ => share.foldl (fun (d : Dev) s => d.cross ⟨eclCvf port, s.1, 1, s.2, Reg.cvfPace port, false, op⟩) d
  | _ => d

/-- New rows that held NaN or infinity are counted, a token and KV head once (R163; DESIGN CHOICE, log 52: also where both its rows did). -/
def Dev.countNonfinite (d : Dev) (rows : List StagedRow) : Dev := d.bump Reg.sessKvNonfinite ((rows.filter fun r => r.data.nonfinite).length)

/-- An accepted layer request takes effect (R116, R137, R198 to R201, R232, R254): rows staged, step records and reservations
updated, tiles queued, the demand booked. -/
def Dev.acceptLayer (x : Ctx) (d : Dev) (g : ReqImg) (h : LHead) (dl : Nat) (es : List LEnt) (work : List (List WorkTile × List (Res × Nat)))
    (share : List (Nat × Nat)) (needs : List (Nat × Nat × Nat) × List (Nat × Nat)) (ring : Option Ring) (kvTop : Option Nat) : Dev :=
  let img := g.rd 0 h.bytes
  let live := es.filter fun e => e.status.isNone
  let id := d.sess.nextBooking
  let pinned := (live.map fun e => (d.desc (handleIdx e.handle)).prefixId).filter fun k => d.kv.prefixes.any fun p => p.id == k && p.pinned
  let d := d.addBooking ⟨id, min dl (d.now + d.horizon), lAttn, es.any fun e => 2 ≤ e.rows,
    List.zipWith (fun e w => (handleIdx e.handle, w.2)) live (work.map fun w => w)⟩
  let d := live.foldl (fun (d : Dev) e =>
    let i := handleIdx e.handle
    let base := (d.desc i).commitLen
    let own := d.ownRows i e.rows
    let rows := (List.range own).flatMap fun j => (List.range d.shape.hkv).map fun hd =>
        (⟨i, h.layer, hd, base + j, d.newRow img h.kvfmt e.dataOff e.rows j hd⟩ : StagedRow)
    let d := d.countNonfinite rows
    let d := d.updStep i fun r => { r with rows := some e.rows, named := h.layer :: r.named, layersGot := if own == e.rows then h.layer :: r.layersGot else r.layersGot, lastDl := dl }
    { d with kv := { d.kv with staged := d.kv.staged ++ rows } }) d
  let d := { d with kv := { d.kv with pool := { d.kv.pool with
    reserved := d.kv.pool.reserved ++ needs.1, reservedBlocks := d.kv.pool.reservedBlocks ++ needs.2 } } }
  let q : LayerReq :=
    { id := d.attn.nextReq, path := g.path, tag := h.tag, batch := h.batch, layer := h.layer, qfmt := h.qfmt, kvfmt := h.kvfmt,
      ofmt := h.ofmt, scale := h.scale, deadline := dl, respAddr := h.resp, img := img, imgBytes := h.bytes, share := share,
      entries := es.map fun e => ⟨e.handle, handleIdx e.handle, if e.status.isNone then e.rows else 0, e.dataOff, d.lenBefore (handleIdx e.handle), 0,
        e.status, 0, 0, []⟩,
      tiles := d.placeTiles (work.flatMap (·.1)), booking := id, prefill := es.any fun e => 2 ≤ e.rows, ring := ring.map (·.id), running := none,
      kvTop := kvTop, memberOuts := [], pinned := pinned.eraseDups }
  let d := ({ d with attn := { d.attn with reqs := d.attn.reqs ++ [q], nextReq := d.attn.nextReq + 1 } } : Dev).imageCrosses g.path share (.layerImage q.id)
  match ring with
  | some r => d.startRing x r q
  | none => d

/-- The ring of a ring request: that of its first live entry (log 29). -/
def Dev.ringOfReq (d : Dev) (h : LHead) (live : List LEnt) : Option Ring :=
  if bit h.flags 1 then match live with
    | e :: _ => (d.bindingOf (handleIdx e.handle)).map (·.1)
    | [] => none
  else none

/-- What the first part of a decision finds: a refusal, an image whose form is the sender's own error, or entries for the ledger with
their batch and deadline. -/
inductive ReqForm (E : Type)
  | refuse (d : Dev) (st : Status)
  | odd (d : Dev)
  | good (d : Dev) (b : Batch) (dl : Ns) (es : List E)
  deriving DecidableEq

/-- The form and the sessions of a layer request (R114, R123, R213 to R216, R727). -/
def Dev.layerForm (x : Ctx) (d : Dev) (g : ReqImg) : ReqForm LEnt :=
  let h := g.lhead
  if g.bad d 0 (64 + 16 * min h.count 8192) then .refuse (g.log d 0 (64 + 16 * min h.count 8192)) .FAULT_MEDIA
  else if h.reserved || h.bytes % 256 != 0 || (match g.len with | some n => n != h.bytes | none => false) then .odd d
  else if h.kind != 1 || 1 < h.qfmt || 2 < h.kvfmt || 2 < h.ofmt || !(isFin h.scale) || fabs h.scale == 0 || d.shape.layers ≤ h.layer ||
      h.count == 0 || 8192 < h.count then .refuse d .REFUSED_STATE
  else match d.batch h.batch with
    | none => .refuse d .REFUSED_STATE
    | some b =>
      let es := (List.range h.count).map fun k =>
        (⟨g.rd (64 + 16 * k) 4, g.rd (64 + 16 * k + 4) 4, g.rd (64 + 16 * k + 8) 8, none⟩ : LEnt)
      let (d, es) := Dev.entryChecks x g h [] es d
      let live := es.filter fun e => e.status.isNone
      if live.isEmpty then .refuse d (if es.all fun e => e.status == some .FAULT_MEDIA then .FAULT_MEDIA else .REFUSED_STATE)
      else if blocksBad h.bytes (live.map fun e => (e.dataOff, (d.blockOffs h.kvfmt e.rows).2.2)) then .odd d
      else .good d b (if h.deadline == 0 then b.winEnd else h.deadline) es

/-- The shares of an image by quadrant (R201): the header and the entry table with the first entry's session, each block that lies in the image with its
own session, whatever its entry's status; blocks are given as (handle, offset, bytes). -/
def Dev.imageShares (d : Dev) (bytes head : Nat) (blocks : List (Nat × Nat × Nat)) (handles : List Nat) : List (Nat × Nat) :=
  let held := blocks.filter fun b => b.2.2 != 0 && b.2.1 + b.2.2 ≤ bytes
  let once := held.zipIdx.filter fun b => !((held.take b.2).any fun c => c.2 == b.1.2)
  (match handles with | h :: _ => [(d.cacheQuad (handleIdx h), al256 head)] | [] => []) ++
    once.map fun b => (d.cacheQuad (handleIdx b.1.1), al256 b.1.2.2)

/-- What the ledger weighs for a layer request: its work and reservations, whether there is room for them, and the verdict. -/
structure LayerPlan where
  share : List (Nat × Nat)
  needs : List (Nat × Nat × Nat) × List (Nat × Nat)
  ring : Option Ring
  kvTop : Option Nat
  shadows : List LedgerAt
  room : Bool
  work : List (List WorkTile × List (Res × Nat))
  verdict : Verdict

/-- The ledger's part of a layer request's decision, once its form and its sessions stand (R125, R132, R201, R210, R230, R254). -/
def Dev.layerPlan (x : Ctx) (d : Dev) (g : ReqImg) (b : Batch) (dl : Ns) (es : List LEnt) : LayerPlan :=
  let h := g.lhead
  let live := es.filter fun e => e.status.isNone
  let idxs := live.map fun e => handleIdx e.handle
  let f := b.figures
  let prefill := es.any fun e => 2 ≤ e.rows
  let share := d.imageShares h.bytes (64 + 16 * h.count) ((es.filter fun e => e.rows ≤ 16384).map fun e => (e.handle, e.dataOff, (d.blockOffs h.kvfmt e.rows).2.2))
    (es.map (·.handle))
  let wr := (live.map fun e => ({ e with rows := d.ownRows (handleIdx e.handle) e.rows } : LEnt)).filter fun e => e.rows != 0
  let needs := d.needs x h.layer wr
  let ring := d.ringOfReq h live
  let kvTop := match ring with | some r => d.ringForm r h live | none => none
  let mk := fun (off : Bool) => (es.zipIdx.filter fun e => e.1.status.isNone).zipIdx.map fun e =>
    d.entryWork x f h g.path (if e.2 == 0 then al256 (64 + 16 * h.count) else 0) e.1.2 e.1.1 off
    (ring.map fun r => (r, kvTop))
  let open_ := d.sess.bookings
  let pct := d.fld Reg.sessLedgerCtl 16 8
  let rate := d.rate f (d.shareOf false)
  let bk := fun (w : List (List WorkTile × List (Res × Nat))) =>
    (⟨d.sess.nextBooking, dl, lAttn, prefill, List.zip idxs (w.map (·.2))⟩ : Booking)
  let shadows := match ring with | some r => d.shadowLedgers r f d.now dl prefill live kvTop | none => []
  let tooLong := live.any fun e => 1048576 < (d.desc (handleIdx e.handle)).commitLen + d.ownRows (handleIdx e.handle) e.rows
  let broken := match ring with | some r => r.state != .up | none => false
  let wOff := mk (!prefill && bit h.flags 0)
  let scoreOk := (bk wOff).uses.all fun r => match r with
    | .score _ => passRes (rate r) pct d.now { bk wOff with deadline := min dl (d.now + d.horizon) } open_ r
    | _ => true
  let w := if scoreOk then wOff else mk false
  { share := share, needs := needs, ring := ring, kvTop := kvTop, shadows := shadows,
    room := d.stagingFits share && decide (open_.length < 4096) && d.needsFit x needs && !tooLong && !broken,
    work := w, verdict := verdictAll pct d.now d.horizon (⟨rate, d.now, dl, 0, bk w, open_⟩ :: shadows) }

/-- A layer request that the ledger passes: it is accepted, with the planned finish in its admission record (R116, R121, R230). -/
def Dev.takeLayer (x : Ctx) (d : Dev) (g : ReqImg) (dl : Ns) (es : List LEnt) (p : LayerPlan) (fin : Nat) : Dev :=
  let h := g.lhead
  let d := (d.acceptLayer x g h dl es p.work p.share p.needs p.ring p.kvTop).sendAdmit x g.path ⟨h.tag, .DONE, 1, h.batch, d.now, fin, 0, 0⟩
  match p.ring with
  | some r => d.updRing r.id fun r => { r with shadow := (p.shadows.zipIdx.foldl (fun (sh : List (Nat × List Booking)) l =>
      tblSet (l.2 + 1) ((tblGet (l.2 + 1) sh).getD [] ++ [l.1.new]) sh) r.shadow) }
  | none => d

/-- The decision on a layer request (R114, R121, R123, R201, R216, R727). Arrival and decision fall together. -/
def Dev.layerReq (x : Ctx) (d : Dev) (g : ReqImg) : Dev :=
  let h := g.lhead
  match d.layerForm x g with
  | .refuse d st => d.sendAdmit x g.path (refusal h.batch h.tag 1 d.now st)
  | .odd d => d.reqUnpredictable x g.path
  | .good d b dl es =>
    let p := d.layerPlan x g b dl es
    if !p.room then d.sendAdmit x g.path (refusal h.batch h.tag 1 d.now .REFUSED_RESOURCE)
    else match p.verdict with
      | .full retry minDl =>
        d.sendAdmit x g.path ⟨h.tag, .REFUSED_CAPACITY, 1, h.batch, d.now, 0, if dl ≤ d.now then 0xFFFFFFFF else retry, minDl⟩
      | .pass fin => d.takeLayer x g dl es p fin

/-- Run a request command: the reserved bytes of its entry on the HP path, then its decision. -/
def State.request (s : State) (src : ReqSrc) (f : Ctx → Dev → ReqImg → Dev) : Host.Outcome State Fault Refusal :=
  match src with
  | .hp e => s.ring e [(16, 8)] [(176, 16)] fun x d _ => f x d (d.reqImg x src)
  | .cvf _ _ _ _ => s.run fun x d => f x d (d.reqImg x src)

/-- A layer request arrives (R120 to R123, R213). -/
def execLayerReq (src : ReqSrc) (s : State) : Host.Outcome State Fault Refusal := s.request src fun x d g => d.layerReq x g

/-- A request is not decided within 1 us of its arrival (R121). -/
def execDecisionTimeout (tail : Bool) (src : ReqSrc) (s : State) : Host.Outcome State Fault Refusal :=
  s.request src fun x d g =>
    d.sendAdmit x g.path ⟨g.rd 0 4, .REFUSED_CAPACITY, if tail then 2 else 1, g.rd 6 2, d.now, 0, 1024, 0xFFFFFFFF⟩

/-! ### Running tiles (R193 to R198, R204, R208, R209, R220, R223) -/

/-- Whether an AE runs a tile. -/
def Dev.aeBusy (d : Dev) (q a : Nat) : Bool :=
  (d.attn.reqs.any fun r => r.tiles.any fun t => t.ae == some (q, a) && !t.done) ||
    d.tail.reqs.any fun r => r.deltas.any fun t => t.ae == some (q, a) && !t.done

/-- A tile that waits: when its request is due and in what order requests were accepted (R36), its request, whether it is a delta tile, its number, its
quadrant, and whether any quadrant may take it. -/
structure Waiting where
  due : Ns
  arrival : Nat
  req : Nat
  delta : Bool
  n : Nat
  quad : Nat
  free : Bool

/-- Whether one waiting tile goes before another: earliest deadline first, among equals the earlier request (R36). -/
def Waiting.before (a b : Waiting) : Bool := decide (a.due < b.due) || (a.due == b.due && decide (a.arrival < b.arrival))

/-- The tiles that wait. -/
def Dev.waitingTiles (d : Dev) : List Waiting :=
  (d.attn.reqs.flatMap fun r => (r.tiles.zipIdx.filter fun t => t.1.ae.isNone && !t.1.done).map fun t =>
    ⟨r.deadline, r.booking, r.id, false, t.2, t.1.quad, t.1.reissued⟩) ++
  d.tail.reqs.flatMap fun r => (r.deltas.zipIdx.filter fun t => t.1.ae.isNone && !t.1.done).map fun t =>
    ⟨r.deadline, r.booking, r.id, true, t.2, t.1.quad, t.1.reissued⟩

/-- Whether a quadrant's dispatcher may take a tile: it was given to the quadrant, it is reissued (R136), or the quadrant it was given to has no AE left. -/
def Dev.mayTake (d : Dev) (q : Nat) (w : Waiting) : Bool :=
  w.quad == q || w.free || !((List.range 16).any fun a => d.aeOnline w.quad a)

/-- Change a tail request. -/
def Dev.updTail (d : Dev) (id : Nat) (f : TailReq → TailReq) : Dev :=
  { d with tail := { d.tail with reqs := replaceFirst (fun (r : TailReq) => r.id == id) f d.tail.reqs } }

/-- Change position n of a list. -/
def updAt {α : Type} (f : α → α) : Nat → List α → List α
  | _, [] => []
  | 0, a :: t => f a :: t
  | n + 1, a :: t => a :: updAt f n t

/-- The query rows of a tile: (first, count). -/
def TileSpan.rows : TileSpan → Nat × Nat
  | .decode _ _ _ => (0, 1)
  | .prefillPage lo n _ => (lo, n)
  | .prefillRun lo n _ _ => (lo, n)

/-- The number of a tile within its request: its entry, KV head, place and first query row. -/
def WorkTile.key (t : WorkTile) : Nat := ((t.entry * 64 + t.head) * 65536 + t.order) * 65536 + t.span.rows.1

/-- A tile reads the header of one page as it starts (R168): from the copy where its request planned on it (R261). A header that fails its check makes
the page fail for the session (R151): the record that the tile keeps is marked. -/
def Dev.snapPage (x : Ctx) (d : Dev) (q : LayerReq) (t : WorkTile) (n : Nat) (k : PKey) (p : Page) : Dev × (Nat × Page) :=
  let copy := if q.planned k then d.pinCopy k else none
  match copy with
  | some c =>
    if d.mediaBad c.addr c.bytes then
      let id := match k.owner with | .pfx id => id | .sess i => i
      ((d.eccRead c.addr c.bytes false).losePins x id (fun _ => false), (n, p))
    else (d, (n, p.inCopy c.addr c.bytes d.shape.d))
  | none => if d.headerBad x k then ((d.readHeader k).reportPage t.idx k, (n, { p with mediaBad := true })) else (d, (n, p))

/-- The headers that a tile reads as it starts (R168). -/
def Dev.snapFor (x : Ctx) (d : Dev) (q : LayerReq) (t : WorkTile) : Dev × List (Nat × Page) :=
  t.span.pages.foldl (fun (a : Dev × List (Nat × Page)) n => match a.1.seenPage t.idx q.layer t.head n with
    | some s => let (d, p) := a.1.snapPage x q t n s.1 s.2.1
                (d, a.2 ++ [p])
    | none => a) (d, [])

/-- What the lanes of an AE hold as a tile starts: a query slot for each of its query rows and each query head of its group (R188, R195). -/
def Dev.loadLanes (d : Dev) (q : LayerReq) (e : AttnEntry) (t : WorkTile) : List Lane :=
  let sh := d.shape
  (rangeFrom t.span.rows.1 t.span.rows.2).flatMap fun row => (List.range sh.g).map fun gI =>
    let at_ := e.dataOff + ((row * (sh.g * sh.hkv) + t.head * sh.g + gI) * sh.d) * 2
    ⟨(List.range sh.d).map fun c => bits q.img (8 * (at_ + 2 * c)) 16, List.replicate sh.d 0, 0xFF800000, 0⟩

/-- The requester number of an AE at the pseudo-channel ports (log 51). -/
def aeRequester (q a : Nat) : Nat := 64 * q + a

/-- A tile's reads are under way (R34 to R36): its AE waits at the pseudo-channel ports of its pages, and what lies in another quadrant crosses the
Ecliptic in class DEADLINE. -/
def Dev.startReads (d : Dev) (q a : Nat) (r : LayerReq) (t : WorkTile) (snap : List (Nat × Page)) : Dev :=
  let hbm := (snap.filter fun s => !(inSram s.2.payload)).map fun s => s.2
  let d := d.cellRequests (aeRequester q a) ((hbm.map fun p => portOfAddr p.payload).eraseDups)
  let d := d.crossed fun o => o == .layerImage r.id
  snap.foldl (fun (d : Dev) s =>
    let p := s.2
    let src := if inSram p.payload then quadOfSram p.payload else quadOfStack (stackOf p.payload)
    d.cross ⟨src, q, 1, p.readBytes d.shape.d 256, if inSram p.payload then Reg.qdEclPace src else (portOfAddr p.payload).1, false, .pages r.id t.key⟩) d

/-- Pages whose score engine serves no more are scored on the AE, with their K data (R222). -/
def Dev.stillOffload (d : Dev) (t : WorkTile) (snap : List (Nat × Page)) : List Nat :=
  t.offload.filter fun p => match tblGet p snap with
    | some g => d.scoreUp (stackOf g.payload) && !(d.boot.blockResets.any fun b => b.block == Reg.qdScorePace (quadOfStack (stackOf g.payload)))
    | none => false

/-- An AE takes a layer tile. A tile keeps the headers of its first run (R168). -/
def Dev.startTile (x : Ctx) (d : Dev) (q a : Nat) (r : LayerReq) (n : Nat) (t : WorkTile) : Dev :=
  let (d, snap) := if t.snap.isEmpty then d.snapFor x r t else (d, t.snap)
  let lanes := match r.entries[t.entry]? with | some e => d.loadLanes r e t | none => []
  let off := d.stillOffload t snap
  (d.updReq r.id fun r => { r with tiles := updAt (fun t => { t with ae := some (q, a), snap := snap, lanes := lanes, offload := off }) n r.tiles }).startReads q a r t snap

/-- A free AE takes the waiting tile of its quadrant with the earliest deadline (R36, R198). -/
def Dev.dispatchTile (x : Ctx) (d : Dev) (q a : Nat) : Dev :=
  match minBy Waiting.before (d.waitingTiles.filter fun w => d.mayTake q w) with
  | none => d
  | some w =>
    if w.delta then d.updTail w.req fun r => { r with deltas := updAt (fun t => { t with ae := some (q, a) }) w.n r.deltas }
    else match d.attn.reqs.find? fun r => r.id == w.req with
      | none => d
      | some r => match r.tiles[w.n]? with
        | none => d
        | some t => d.startTile x q a r w.n t

/-- The dispatcher gives a tile to an AE that is free (R198). -/
def execTileDispatch (q ae : Nat) (s : State) : Host.Outcome State Fault Refusal :=
  s.run fun x d =>
    if q < 4 && ae < 16 && d.aeOnline q ae && !(d.aeBusy q ae) && !(d.attn.aePendingOffline.contains (q, ae)) then d.dispatchTile x q ae
    else d

/-- The page that a tile's record came from. -/
def pageKey (i layer head n : Nat) (p : Page) : PKey :=
  match p.kind with
  | .pfx | .pfxComa => ⟨.pfx p.prefixId, layer, head, n⟩
  | _ => ⟨.sess i, layer, head, n⟩

/-- A tile has read the frames of a page (R169, R261, R679): the record with which it goes on, and whether the page failed. An uncorrectable word in a
copy makes it read HBM. -/
def Dev.checkPage (x : Ctx) (d : Dev) (i : Nat) (k : PKey) (p : Page) (valid : Nat) : Dev × Page × Bool :=
  let (d, p) := if inSram p.payload && d.framesBad p valid then
      let id := match k.owner with | .pfx id => id | .sess i => i
      let d := ((d.framesOf p valid).foldl (fun (d : Dev) r => d.eccRead r.1 r.2 false) d).losePins x id (fun _ => false)
      (d, (d.page k).getD p)
    else (d, p)
  if p.mediaBad then (d, p, true)
  else if d.framesBad p valid then ((d.readFrames p valid).pageFailed x i k p, p, true)
  else (d.readFrames p valid, p, false)

/-- The tokens of a page from the header that the tile read. -/
def Dev.tokensOf (x : Ctx) (d : Dev) (p : Page) (base valid : Nat) : Tokens :=
  if p.kfmt == .fp8 then .fp8 base ((List.range valid).map fun t => d.fp8At x p t)
  else .page base (d.tensorAt x p 0) (d.tensorAt x p 1) p.kEn p.vEn p.vNmax

/-- The new rows of the step that a tile reads, from the staged image (R137, R199). -/
def Dev.stagedTokens (d : Dev) (q : LayerReq) (e : AttnEntry) (head lo n : Nat) : Tokens :=
  .fp8 (e.base + lo - e.off) ((rangeFrom lo n).map fun j => d.newRow q.img q.kvfmt e.dataOff e.rows j head)

/-- What a tile reads: the token runs in ascending order, and whether a page failed its checks. -/
def Dev.readTile (x : Ctx) (d : Dev) (q : LayerReq) (e : AttnEntry) (t : WorkTile) : Dev × List Tokens × Bool :=
  let (d, toks, bad) := t.snap.foldl (fun (a : Dev × List Tokens × Bool) s =>
    let (d, toks, bad) := a
    let valid := s.2.valid (e.base - e.off) (256 * s.1)
    let (d, p, b) := d.checkPage x t.idx (pageKey t.idx q.layer t.head s.1 s.2) s.2 valid
    if b then (d, toks, true) else (d, toks ++ [d.tokensOf x p (256 * s.1) valid], bad)) (d, [], false)
  let own : Bool := match q.path with
    | .ring id => match d.attn.rings.find? fun r => r.id == id with
      | some r => (segRows r.seg e.base e.rows r.pos).2 != 0
      | none => false
    | _ => d.ownRows t.idx e.rows != 0
  match t.span with
  | .decode _ _ true => (d, if own then toks ++ [d.stagedTokens q e t.head 0 e.rows] else toks, bad)
  | .prefillRun _ _ lo n => (d, toks ++ [d.stagedTokens q e t.head lo n], bad)
  | _ => (d, toks, bad)

/-- The partials of a tile: for each of its query rows, for each query head of the group (R193, R194, R206). -/
def Dev.tilePartials (d : Dev) (q : LayerReq) (e : AttnEntry) (t : WorkTile) (toks : List Tokens) (media : Bool) : List Partial :=
  let sh := d.shape
  let (lo, n) := t.span.rows
  (rangeFrom lo n).flatMap fun row => (List.range sh.g).map fun gI =>
    let qv := d.queryOf q e row (t.head * sh.g + gI)
    let p := toks.foldl (fun p r => p.run sh.d q.scale (e.base + row + 1 - e.off) qv r) (Partial.zero sh.d)
    { p with media := media }

/-- The AE that a tile held is free: its requests at the ports end, and one that waits to go offline goes (R223). -/
def Dev.aeFreed (x : Ctx) (d : Dev) (q a : Nat) : Dev :=
  let d := d.cellRelease (aeRequester q a)
  if d.attn.aePendingOffline.contains (q, a) then
    let d := { d with attn := { d.attn with aePendingOffline := d.attn.aePendingOffline.filter fun p => p != (q, a),
                                            aeOffline := d.attn.aeOffline ++ [(q, a, 1)] } }
    (((d.setFld (Reg.qdAeStat q a) 30 2 1).setFld (Reg.qdAePace q a) 28 2 2).setFld (Reg.qdAeCtl q a) 0 1 0).sendRates x
  else d

/-- A layer tile completes on its AE: its partials leave for the merge unit, across the Ecliptic where that lies in another quadrant (R202), its lanes
are empty, and its demand is done. -/
def Dev.completeTile (x : Ctx) (d : Dev) (q a busy : Nat) (r : LayerReq) (n : Nat) (t : WorkTile) (e : AttnEntry) : Dev :=
  let (d, toks, media) := d.readTile x r e t
  let ps := d.tilePartials r e t toks media
  let d := d.updReq r.id fun r => { r with tiles := updAt (fun t => { t with done := true, partials := ps, lanes := [] }) n r.tiles }
  let d := (d.crossed fun o => o == .pages r.id t.key).cross ⟨q, d.mergeQuad t.idx, 1, ps.length * (4 * d.shape.d + 32), Reg.qdAePace q a, false,
    .partials r.id t.key⟩
  let d := (d.releaseDemand r.booking t.idx t.demand).bump (Reg.qdAeTiles q a) 1
  let d := if ps.any fun p => p.nonfinite then d.bump (Reg.qdAeNonfinite q a) 1 else d
  (d.charge x (d.desc t.idx).composition 0 busy).aeFreed x q a

/-- A layer tile on an AE ends (R54, R194). It waits for the scores of the pages it offloads (R211). -/
def execTileComplete (q ae busyNs : Nat) (s : State) : Host.Outcome State Fault Refusal :=
  s.run fun x d =>
    match d.attn.reqs.findSome? fun r => (findPos (fun (t : WorkTile) => t.ae == some (q, ae) && !t.done) r.tiles).map fun n => (r, n) with
    | none => d
    | some (r, n) => match r.tiles[n]? with
      | none => d
      | some t => match r.entries[t.entry]? with
        | none => d
        | some e => if t.offload.all fun p => t.scored.contains p then d.completeTile x q ae busyNs r n t e else d

/-- The score engine has formed the scores of one offloaded page (R211, R244). -/
def execScorePageDone (req entry head tile page : Nat) (s : State) : Host.Outcome State Fault Refusal :=
  s.run fun x d =>
    match d.attn.reqs.find? fun r => r.id == req with
    | none => d
    | some r =>
      match findPos (fun (t : WorkTile) => t.entry == entry && t.head == head && t.order == tile && t.offload.contains page && !(t.scored.contains page)) r.tiles with
      | none => d
      | some n =>
        let i := match r.tiles[n]? with | some t => t.idx | none => 0
        let snap := match r.tiles[n]? with | some t => tblGet page t.snap | none => none
        let st := match snap with | some p => stackOf p.payload | none => 0
        let d := d.updReq req fun r => { r with tiles := updAt (fun t => { t with scored := page :: t.scored }) n r.tiles }
        (d.bump (Reg.qdScorePages (st / 3)) 1).chargeSome x (d.desc i).composition 1

/-! ### Merging (R202 to R205) -/

/-- The tiles of an entry for a KV head that hold a query row, in merge order. -/
def LayerReq.tilesFor (q : LayerReq) (entry head row : Nat) : List WorkTile :=
  sortBy (fun (a b : WorkTile) => decide (a.order < b.order)) (q.tiles.filter fun t =>
    t.entry == entry && t.head == head && t.span.rows.1 ≤ row && row < t.span.rows.1 + t.span.rows.2)

/-- The merged partial of a query row and query head (R203, R204). -/
def Dev.mergedOf (d : Dev) (q : LayerReq) (entry row qh : Nat) : Partial :=
  let g := d.shape.g
  let ts := q.tilesFor entry (qh / g) row
  mergeAll d.shape.d (ts.map fun t => getAt (Partial.zero d.shape.d) ((row - t.span.rows.1) * g + qh % g) t.partials)

/-- The partials of an entry, by row and query head. -/
def Dev.entryPartials (d : Dev) (q : LayerReq) (n rows : Nat) : List Partial :=
  (List.range rows).flatMap fun row => (List.range (d.shape.g * d.shape.hkv)).map fun qh => d.mergedOf q n row qh

/-- The worse of two statuses by the order of R218. -/
def worse (a b : Status) : Status :=
  let rank := fun (s : Status) => match s with
    | .FAULT_UNIT => 4 | .FAULT_MEDIA => 3 | .CANCELLED => 2 | .DONE_DEGRADED => 1 | _ => 0
  if rank a < rank b then b else a

/-- The query rows that this device attends for an entry (R232, R235): in KV form those whose tokens its segment holds. -/
def Dev.queryRows (d : Dev) (q : LayerReq) (e : AttnEntry) : Nat × Nat :=
  match q.kvTop, q.ring.bind fun id => d.attn.rings.find? fun r => r.id == id with
  | some _, some r => segRows r.seg e.base e.rows r.pos
  | _, _ => (0, e.rows)

/-- What a running partial holds for a session. -/
def runOf (run : List RunEntry) (rsn : Nat) : Option RunEntry := run.find? fun r => r.rsn == rsn

/-- The RSN of a session. -/
def Dev.rsnOf (d : Dev) (i : Nat) : Nat := match d.bindingOf i with | some (_, b) => b.rsn | none => 0

/-- An entry is final: its outputs, bound and status (R204, R205, R175 to R177). At a ring head the running partial is merged first, its
own last (R232); in KV form the outputs of the members follow its own (R235). A session that the running partial does not hold lacks a member (R239). -/
def Dev.finalEntry (d : Dev) (q : LayerReq) (n : Nat) (e : AttnEntry) : AttnEntry :=
  let (lo, cnt) := d.queryRows q e
  let own := (rangeFrom lo cnt).flatMap fun row => (List.range (d.shape.g * d.shape.hkv)).map fun qh => d.mergedOf q n row qh
  let rsn := d.rsnOf e.idx
  let run := q.running.bind fun run => runOf run rsn
  let ps := match run with
    | some r => List.zipWith Partial.merge r.ps own
    | none => own
  let qs := (rangeFrom lo cnt).flatMap fun row => (List.range (d.shape.g * d.shape.hkv)).map fun qh => d.queryOf q e row qh
  let outs := (sortBy (fun (a b : Nat × List MemberOut) => decide (a.1 < b.1)) q.memberOuts).filterMap fun m => m.2.find? fun o => o.rsn == rsn
  let b := fmaxs (List.zipWith (fun (p : Partial) v => p.bound q.scale q.ofmt v) ps qs ++ outs.map (·.bound))
  let past := flt (d.desc e.idx).errBudget b
  let unit := (q.tiles.any fun t => t.entry == n && t.reissued) || outs.any fun o => bit o.detail 1
  let nf := (ps.any (·.nonfinite)) || outs.any fun o => bit o.detail 2
  let st := outs.foldl (fun s o => worse s o.status) (match run with | some r => r.status | none => .DONE)
  if q.running.isSome && run.isNone then { e with status := some .FAULT_UNIT, outs := [], bound := 0 }
  else if (ps.any (·.media)) || st == .FAULT_MEDIA then { e with status := some .FAULT_MEDIA, outs := [], bound := 0 }
  else if st == .FAULT_UNIT || st == .CANCELLED then { e with status := some st, outs := [], bound := 0 }
  else { e with status := some (if past || unit || nf || st == .DONE_DEGRADED then .DONE_DEGRADED else .DONE),
                detail := ofB past + 2 * ofB unit + 4 * ofB nf, bound := b, outs := (ps.flatMap fun p => p.final q.ofmt) ++ outs.flatMap (·.outs) }

/-- Whether everything that a ring head waits for has come: the running partial, or in KV form the outputs of every other position that
holds query rows of the entry (R232, R235). -/
def Dev.ringGathered (d : Dev) (q : LayerReq) (e : AttnEntry) : Bool :=
  match q.ring.bind fun id => d.attn.rings.find? fun r => r.id == id with
  | none => true
  | some r => match q.kvTop with
    | none => q.running.isSome
    | some top => (rangeFrom 1 top).all fun j => (segRows r.seg e.base e.rows j).2 == 0 || q.memberOuts.any fun m => m.1 == j

/-- Whether every tile of an entry has reached the merge unit. -/
def LayerReq.gathered (q : LayerReq) (n : Nat) : Bool := (q.tiles.filter fun t => t.entry == n).all (·.delivered)

/-! ### Responses (R218, R217, R136, R124) -/

/-- The overall status (R218). -/
def overall (ss : List Status) : Status :=
  if ss.contains .FAULT_UNIT then .FAULT_UNIT
  else if ss.contains .FAULT_MEDIA then .FAULT_MEDIA
  else if !(ss.filter fun s => s != .REFUSED_STATE).isEmpty && (ss.filter fun s => s != .REFUSED_STATE).all fun s => s == .CANCELLED then .CANCELLED
  else if ss.contains .DONE_DEGRADED then .DONE_DEGRADED
  else .DONE

/-- The response image of a layer request as bytes (R217), stamped in the time of the quadrant whose merge unit completes it (R64, R65). -/
def Dev.layerResponse (d : Dev) (q : LayerReq) (by_ : Nat) : List Nat :=
  let w := (elemFmt q.ofmt).2
  let base := al256 (64 + 16 * q.entries.length)
  let outs := q.entries.foldl (fun (a : List (Nat × List Nat) × Nat) e =>
    if e.outs.isEmpty then (a.1 ++ [(0, [])], a.2)
    else
      let bs := e.outs.flatMap fun v => leBytes v w
      let pad := bs ++ List.replicate (al256 bs.length - bs.length) 0
      (a.1 ++ [(a.2 / 256, pad)], a.2 + pad.length)) ([], base)
  let size := outs.2
  let st := overall (q.entries.map fun e => e.status.getD .FAULT_UNIT)
  let head := leBytes (packFields [(0, 4, q.tag), (4, 1, 0x81), (5, 1, st.code), (6, 2, q.batch), (8, 2, q.layer), (10, 2, q.entries.length),
    (16, 8, d.quadTime by_), (24, 8, size)]) 64
  let ents := List.zipWith (fun (e : AttnEntry) (o : Nat × List Nat) => leBytes (packFields [(0, 4, e.handle),
    (4, 1, (e.status.getD .FAULT_UNIT).code), (5, 1, e.detail), (8, 4, e.bound), (12, 4, o.1)]) 16) q.entries outs.1
  let body := head ++ ents.flatten
  body ++ List.replicate (base - body.length) 0 ++ (outs.1.map (·.2)).flatten

/-- Send a response image back on its path and complete the command (R217, R314, R527). -/
def Dev.sendResponse (x : Ctx) (d : Dev) (path : ReqPath) (kind tag resp dl : Nat) (st : Status) (bytes : List Nat) : Dev :=
  match path with
  | .hp c => ((d.holeCheck x resp bytes.length).stBytes x resp bytes).finish x c st (u32 bytes.length)
  | .cvf port src =>
    let (d, ok) := d.sendOn port src (2 * kind) (reqClass kind) "RESPONSE" bytes.length bytes (some dl) 4 (.response port tag)
    if ok then d else d.report (sourceOf (0x1600000 + port * 0x20000) 0 0) 0x44 3 tag
  | .ring _ => d

/-! ### A member's leg of a ring request (R232, R234, R235) -/

/-- The words of a partial as they travel (R234). -/
def Partial.words (p : Partial) : List Nat := p.o ++ [p.m, p.l, p.kEn, p.vEn, p.vNmax, p.n, ofB p.nonfinite + 2 * ofB p.media]

/-- What a member adds to the running partial for an entry: its own partials merged into those of the positions before it, the worst
status, and ROWS_WRITTEN once the position that holds the step's last row has it (R232, R234, R237). -/
def Dev.runEntry' (d : Dev) (q : LayerReq) (r : Ring) (n : Nat) (e : AttnEntry) : RunEntry :=
  let own := d.entryPartials q n e.rows
  let rsn := d.rsnOf e.idx
  let old := q.running.bind fun run => runOf run rsn
  let unit := q.tiles.any fun t => t.entry == n && t.reissued
  let (lo, cnt) := segRows r.seg e.base e.rows r.pos
  let mine := e.status.getD (if own.any (·.media) then .FAULT_MEDIA else if unit then .DONE_DEGRADED else .DONE)
  let wrote := cnt != 0 && lo + cnt == e.rows && mine != .FAULT_MEDIA
  match old with
  | some o => ⟨rsn, worse o.status mine, o.rowsWritten || wrote, List.zipWith Partial.merge o.ps own⟩
  | none => ⟨rsn, mine, wrote, own⟩

/-- A member's outputs for an entry in KV form. -/
def Dev.memberOut (d : Dev) (q : LayerReq) (r : Ring) (n : Nat) (e : AttnEntry) : MemberOut :=
  let e' := if e.status.isSome then e else d.finalEntry q n e
  let (lo, cnt) := segRows r.seg e.base e.rows r.pos
  ⟨d.rsnOf e.idx, e'.status.getD .FAULT_UNIT, e'.detail, e'.bound, cnt != 0 && lo + cnt == e.rows, e'.outs⟩

/-- Whether every tile that a member waits for in KV form has come: a page of each KV head for each page below its segment. -/
def Dev.tilesCame (d : Dev) (q : LayerReq) (n : Nat) (e : AttnEntry) : Bool :=
  (List.range d.shape.hkv).all fun head =>
    e.off / 256 ≤ (q.tiles.filter fun t => t.entry == n && t.head == head && t.order < e.off / 256).length

/-- A member sends on what its leg has come to, once all of it is there: in partial form the running partial, to the next position; in KV
form its outputs, to the head. The leg ends. A leg whose entries were all stopped ends too (R238). -/
def Dev.settleLeg (d : Dev) (q : LayerReq) : Dev :=
  match q.ring.bind fun id => d.attn.rings.find? fun r => r.id == id with
  | none => d
  | some r =>
    let drop := { d with attn := { d.attn with reqs := d.attn.reqs.filter fun k => k.id != q.id } }
    let es := q.entries.zipIdx
    if q.entries.all fun e => e.status == some .CANCELLED then drop
    else if !(es.all fun e => e.1.status.isSome || q.gathered e.2) then d
    else match q.kvTop with
      | none =>
        if 1 < r.pos && q.running.isNone then d
        else
          let run := es.map fun e => d.runEntry' q r e.2 e.1
          let fields := [r.tag, q.tag] ++ run.flatMap fun e => [e.rsn, e.status.code, ofB e.rowsWritten] ++ e.ps.flatMap Partial.words
          (drop.sendOn r.nextPort 0 0x06 0 "RUNNING_PARTIAL" (sumOf (run.map fun e => 8 + e.ps.length * (4 * d.shape.d + 32))) fields (some q.deadline)
            r.id (.ring r.id)).1
      | some _ =>
        let mine := es.filter fun e => (segRows r.seg e.1.base e.1.rows r.pos).2 != 0
        if mine.isEmpty then drop
        else if !(mine.all fun e => e.1.status.isSome || d.tilesCame q e.2 e.1) then d
        else
          let outs := mine.map fun e => d.memberOut q r e.2 e.1
          let fields := [r.tag, q.tag, r.pos] ++ outs.flatMap fun o => [o.rsn, o.status.code, o.detail, o.bound, ofB o.rowsWritten] ++ o.outs
          (drop.sendTo r.headAddr 0x06 0 "MEMBER_OUTPUTS" (sumOf (outs.map fun o => 16 + o.outs.length * (elemFmt q.ofmt).2)) fields
            (some q.deadline) r.id (.ring r.id)).1

/-! ### Settling -/

/-- A layer request whose entries are all final is answered; its booking and staging are released (R124, R136, R141). A ring member's leg sends what it
has come to instead. -/
def Dev.settleLayer (x : Ctx) (d : Dev) (q : LayerReq) (by_ : Nat) : Dev :=
  if (match q.path with | .ring _ => true | _ => false) then d.settleLeg q
  else if q.entries.any fun e => e.status.isNone then d
  else
    let ss := q.entries.map fun e => e.status.getD .FAULT_UNIT
    let d := { d with attn := { d.attn with reqs := d.attn.reqs.filter fun r => r.id != q.id } }
    let d := d.dropBooking q.booking
    let d := if ss.contains .FAULT_UNIT then d.bump Reg.sessLateCnt 1 else d
    let d := d.bump Reg.sessAttnDegr ((ss.filter fun s => s == .DONE_DEGRADED).length)
    d.sendResponse x q.path 1 q.tag q.respAddr q.deadline (overall ss) (d.layerResponse q by_)

/-- Whether what a transfer of a layer request carries is still wanted. -/
def Dev.wanted (d : Dev) (o : EclOp) : Bool :=
  match o with
  | .layerImage r => d.attn.reqs.any fun q => q.id == r
  | .tailImage r => d.tail.reqs.any fun q => q.id == r
  | .pages r t => d.attn.reqs.any fun q => q.id == r && q.tiles.any fun u => u.key == t && u.ae.isSome && !u.done
  | .partials r t => d.attn.reqs.any fun q => q.id == r && q.tiles.any fun u => u.key == t && u.done && !u.delivered
  | .stream _ _ => true

/-- AEs whose tiles have gone are free (R223), and what only those tiles wanted crosses no more. -/
def Dev.sweepAes (x : Ctx) (d : Dev) : Dev :=
  let d := d.crossed fun o => !(d.wanted o)
  let held := (d.attn.aePendingOffline ++ (d.arb.cells.flatMap fun (c : CellArb) => c.granted.toList ++ c.waiting).map fun r => (r / 64, r % 64)).eraseDups
  (held.filter fun (p : Nat × Nat) => !(d.aeBusy p.1 p.2)).foldl (fun (d : Dev) p => d.aeFreed x p.1 p.2) d

/-- Answer every layer request that is complete. -/
def Dev.settleLayers (x : Ctx) (d : Dev) : Dev :=
  (d.attn.reqs.foldl (fun (d : Dev) q => d.settleLayer x q (match q.entries with | e :: _ => d.mergeQuad e.idx | [] => 0)) d).sweepAes x

/-- Finish an entry whose partials are all there. One that is late by the time of the quadrant that completes it, because units were lost or pace fell,
reads FAULT_UNIT (R65, R127, R136). A ring head waits for the running partial (R232). -/
def Dev.settleEntry (x : Ctx) (d : Dev) (id n : Nat) : Dev :=
  match d.attn.reqs.find? fun r => r.id == id with
  | none => d
  | some q => match q.entries[n]? with
    | none => d
    | some e =>
      let member := match q.path with | .ring _ => true | _ => false
      if member then d.settleLeg q
      else if e.status.isSome || !(q.gathered n) || !(d.ringGathered q e) then d
      else
        let by_ := d.mergeQuad e.idx
        let e' := if q.deadline < d.quadTime by_ then { e with status := some .FAULT_UNIT } else d.finalEntry q n e
        let d := (d.updReq id fun q => { q with entries := updAt (fun _ => e') n q.entries }).releaseShare q.booking e.idx
        match d.attn.reqs.find? fun r => r.id == id with
        | some q => d.settleLayer x q by_
        | none => d

/-- The partials of a completed tile reach the merge unit of the session's quadrant, which merges what it can in tile order (R202,
R204). -/
def execPartialArrive (req entry head tile : Nat) (s : State) : Host.Outcome State Fault Refusal :=
  s.run fun x d =>
    match d.attn.reqs.find? fun r => r.id == req with
    | none => d
    | some r =>
      match (r.tiles.zipIdx.filter fun t => t.1.entry == entry && t.1.head == head)[tile]? with
      | none => d
      | some (t, n) =>
        if !t.done || t.delivered then d
        else
          let d := (d.updReq req fun r => { r with tiles := updAt (fun t => { t with delivered := true }) n r.tiles }).crossed fun o => o == .partials req t.key
          let d := d.bump (Reg.qdMergeCount (d.mergeQuad t.idx)) t.partials.length
          d.settleEntry x req entry

/-! ### Row writes (R199, R724) -/

/-- The rows of a session's layer and head go to their coma pages in HBM (R199, R724). `fail` says that the write met stored data
it could not complete. -/
def execComaRowWrite (idx layer head : Nat) (fail : Bool) (s : State) : Host.Outcome State Fault Refusal :=
  s.run fun x d =>
    match d.kv.staged.find? fun r => r.idx == idx && r.layer == layer && r.head == head with
    | none => d
    | some r0 =>
      let k : PKey := ⟨.sess idx, layer, head, r0.row / 256⟩
      let d := if fail && (d.placeFails x idx layer head (r0.row / 256)).isNone then match d.comaFor x idx layer head (r0.row / 256) true with
          | some (d, p) => d.putPage x k { p with mediaBad := true }
          | none => d
        else d
      let (d, ok) := d.writeStaged x idx layer head
      if ok then d else d.settleLayers x

/-! ### AEs in and out of service (R54, R223) -/

/-- A W1S bit of a BAR0 register that software sets. -/
def Dev.w1sWrite (x : Ctx) (d : Dev) (off lo : Nat) (f : Dev → Dev) : Dev := d.bar0 x off fun d => f (d.setFld off lo 1 1)

/-- Software takes an AE offline: at once when it is free, after its tile otherwise (R223). -/
def Dev.aeOfflineReq (x : Ctx) (d : Dev) (q a : Nat) : Dev :=
  if !(d.aeOnline q a) then d.setFld (Reg.qdAeCtl q a) 0 1 0
  else
    let d : Dev := { d with attn := { d.attn with aePendingOffline := d.attn.aePendingOffline.filter (fun p => p != (q, a)) ++ [(q, a)] } }
    if d.aeBusy q a then d else d.aeFreed x q a

/-- Software returns an AE whose CAUSE reads software (R223). -/
def Dev.aeOnlineReq (x : Ctx) (d : Dev) (q a : Nat) : Dev :=
  let d := d.setFld (Reg.qdAeCtl q a) 1 1 0
  if d.attn.aeOffline.contains (q, a, 1) then
    let d := { d with attn := { d.attn with aeOffline := d.attn.aeOffline.filter fun p => p != (q, a, 1) } }
    ((d.setFld (Reg.qdAeStat q a) 30 2 0).setFld (Reg.qdAePace q a) 28 2 1).sendRates x
  else d

/-- Software sets QDn.AEaa.CTL.OFFLINE_REQ (R223). -/
def execAeOfflineReq (q ae : Nat) (s : State) : Host.Outcome State Fault Refusal :=
  s.run fun x d => if q < 4 && ae < 16 then d.w1sWrite x (Reg.qdAeCtl q ae) 0 fun d => d.aeOfflineReq x q ae else d

/-- Software sets QDn.AEaa.CTL.ONLINE_REQ (R223). -/
def execAeOnlineReq (q ae : Nat) (s : State) : Host.Outcome State Fault Refusal :=
  s.run fun x d => if q < 4 && ae < 16 then d.w1sWrite x (Reg.qdAeCtl q ae) 1 fun d => d.aeOnlineReq x q ae else d

/-! ### Unit loss (R136, R220) -/

/-- Whether a request still has time for a reissued tile (R136, R208, R124): its deadline less L_r and 16 ns lies ahead. -/
def LayerReq.inTime (q : LayerReq) (now : Nat) : Bool := now + lAttn + 16 < q.deadline

/-- Whether any AE is online. -/
def Dev.anyAe (d : Dev) : Bool := (List.range 4).any fun k => (List.range 16).any fun a => d.aeOnline k a

/-- What an AE and the merge unit held of a tile is discarded (R220): the tile waits again. The choice of pages to offload stays (R210, R222); their scores
are formed anew. -/
def WorkTile.reissue (t : WorkTile) : WorkTile :=
  { t with ae := none, lanes := [], done := false, partials := [], delivered := false, reissued := true, scored := [] }

/-- A layer tile is lost with its unit: it is reissued, or, where no time or no AE is left, its entry reads FAULT_UNIT (R136,
R220). -/
def Dev.loseTile (x : Ctx) (d : Dev) (id n : Nat) (t : WorkTile) : Dev :=
  match d.attn.reqs.find? fun r => r.id == id with
  | none => d
  | some q =>
    if q.inTime d.now && d.anyAe then (d.updReq id fun q => { q with tiles := updAt WorkTile.reissue n q.tiles }).sweepAes x
    else
      let fix := fun (e : AttnEntry) => if e.status.isNone then { e with status := some .FAULT_UNIT } else e
      let d := (d.updReq id fun q => { q with entries := updAt fix t.entry q.entries, tiles := q.tiles.filter fun u => u.entry != t.entry }).releaseShare
        q.booking t.idx
      d.settleLayers x

/-- A delta tile is lost with its AE: it is reissued, or, where no time or no AE is left, the entries that it serves read FAULT_UNIT (R136, R321). -/
def Dev.loseDelta (d : Dev) (id n : Nat) : Dev :=
  match d.tail.reqs.find? fun r => r.id == id with
  | none => d
  | some q =>
    if d.now + lTail + 16 < q.deadline && d.anyAe then
      d.updTail id fun r => { r with deltas := updAt (fun t => { t with ae := none, reissued := true }) n r.deltas }
    else
      let es := match q.deltas[n]? with | some t => t.entries | none => []
      let hit := fun (e : TailEntry × Nat) => es.contains e.2 && e.1.status.isNone
      let fix := fun (e : TailEntry × Nat) => if hit e then { e.1 with stage := .done, status := some .FAULT_UNIT, token := 0xFFFFFFFF } else e.1
      let d := (q.entries.zipIdx.filter hit).foldl (fun (d : Dev) e => d.releaseShare q.booking e.1.idx) d
      d.updTail id fun r => { r with entries := r.entries.zipIdx.map fix, deltas := updAt (fun t => { t with ae := none }) n r.deltas }

/-- Every tile in flight on an AE is lost (R220); those that are reissued are counted (R242). -/
def Dev.loseAe (x : Ctx) (d : Dev) (q a : Nat) : Dev :=
  let lost := d.attn.reqs.flatMap fun r => (r.tiles.zipIdx.filter fun t => t.1.ae == some (q, a) && !t.1.done).map fun t => (r, t.2, t.1)
  let d := lost.foldl (fun (d : Dev) l =>
    let again := l.1.inTime d.now && d.anyAe
    let d := d.loseTile x l.1.id l.2.1 l.2.2
    if again then d.bump (Reg.qdAeReissue q a) 1 else d) d
  let dl := d.tail.reqs.flatMap fun r => (r.deltas.zipIdx.filter fun t => t.1.ae == some (q, a) && !t.1.done).map fun t => (r, t.2)
  dl.foldl (fun (d : Dev) l =>
    let again := d.now + lTail + 16 < l.1.deadline && d.anyAe
    let d := d.loseDelta l.1.id l.2
    if again then d.bump (Reg.qdAeReissue q a) 1 else d) d

end Sys2Proof.Machine
end

