-- ==== Sys2Proof/Machine/Errors.lean ====
section
/-! DEFINITION. Machine/Errors.lean: error reports, the five logs, vector 0 and error injection (chapter 16). -/

namespace Sys2Proof.Machine

/-! ### Report types (R684) -/

/-- The SEV values that a report type carries; two where the owner of the outcome chooses. -/
def typeSevs : Nat → List Nat
  | 0x01 | 0x03 | 0x05 => [0]
  | 0x02 | 0x04 | 0x46 => [1, 3]
  | 0x10 => [1, 2]
  | 0x20 | 0x42 | 0x43 | 0x50 | 0x62 | 0x70 | 0x72 => [1]
  | 0x06 | 0x07 | 0x21 | 0x22 | 0x28 | 0x29 | 0x2A | 0x30 | 0x31 | 0x32 | 0x33 | 0x40 | 0x41 | 0x51 => [2]
  | 0x11 | 0x12 | 0x23 | 0x24 | 0x34 | 0x35 | 0x36 | 0x44 | 0x45 | 0x60 | 0x61 | 0x63 | 0x71 | 0x73 => [3]
  | _ => []

/-- A report reaches the device's logs (R681, R687). -/
def execErrorReport (r : ReportIn) (s : State) : Host.Outcome State Fault Refusal :=
  s.run fun _ d => d.report r.source r.type r.sev r.info

/-! ### Intake (R685 to R689) -/

/-- Entries of a log in the order in which they were opened. -/
def ErrLog.entries (l : ErrLog) : List LogEntry := l.fixed ++ l.ring

/-- Whether a report joins an entry (R685): the same SOURCE, TYPE and INJECTED value, within 1 ms of its first report. -/
def LogEntry.takes (e : LogEntry) (r : Report) : Bool :=
  e.source == r.source && e.type == r.type && e.injected == r.injected

/-- The newest entry of the same kind, if the report's stamp lies in its window (R685). -/
def ErrLog.openFor (l : ErrLog) (r : Report) : Option LogEntry :=
  match (l.entries.filter fun e => e.takes r).getLast? with
  | some e => if e.first ≤ r.stamp && r.stamp < e.first + 1000000 then some e else none
  | none => none

/-- An entry with a report coalesced into it (R685). -/
def LogEntry.add (e : LogEntry) (r : Report) : LogEntry :=
  { e with count := min (e.count + r.count) 0xFFFFFFFF, lastOfs := max e.lastOfs (r.lastStamp - e.first), sev := max e.sev r.sev }

/-- Replace the entry with a given SEQ. -/
def ErrLog.put (l : ErrLog) (e : LogEntry) : ErrLog :=
  let f := replaceFirst (fun (q : LogEntry) => q.seq == e.seq && q.takes ⟨e.source, e.type, 0, 0, e.injected, 0, 0, 0, 0⟩) fun _ => e
  { l with fixed := f l.fixed, ring := f l.ring }

/-- Open an entry: the first 2,048 stay, the others form a ring whose oldest entry is replaced when it is full (R686). The
second component tells whether a ring entry was replaced. -/
def ErrLog.openEntry (l : ErrLog) (r : Report) : ErrLog × Bool :=
  let e : LogEntry := ⟨r.stamp, r.lastStamp - r.stamp, r.count, r.source, r.type, r.sev, r.level, r.injected, l.seqNext % 65536, r.info⟩
  let l := { l with seqNext := (l.seqNext + 1) % 65536 }
  if l.fixed.length < 2048 then ({ l with fixed := l.fixed ++ [e] }, false)
  else if l.ring.length < 2048 then ({ l with ring := l.ring ++ [e] }, false)
  else ({ l with ring := l.ring.drop 1 ++ [e], oldest := if l.oldest == 4095 then 2048 else l.oldest + 1 }, true)

/-- Vector 0 is raised, for the entries that wait for a raise as well, or one raise is kept for 100 us after the last (R689). -/
def Dev.logRaise (d : Dev) : Dev :=
  let due := match d.err.lastVec0 with
    | none => true
    | some t => t + 100000 ≤ d.now
  if due then ({ d with err := { d.err with lastVec0 := some d.now, vec0Deferred := false } } : Dev).raise 0
  else { d with err := { d.err with vec0Deferred := true } }

/-- A log takes one report from the head of its queue (R687, R689). -/
def Dev.logIntake (d : Dev) (k : Nat) : Dev :=
  let l := getAt ErrLog.reset k d.err.logs
  match l.queue with
  | [] => d
  | r :: rest =>
    let l := { l with queue := rest }
    match l.openFor r with
    | some e => { d with err := { d.err with logs := setAt ErrLog.reset (l.put (e.add r)) k d.err.logs } }
    | none =>
      let (l', lost) := l.openEntry r
      let d := { d with err := { d.err with logs := setAt ErrLog.reset l' k d.err.logs } }
      let d := if lost then d.bump (Reg.errlogLOvf k) 1 else d
      if bit (d.reg Reg.errlogCtl) r.sev then (d.setFld Reg.errlogPend k 1 1).logRaise else d

/-- Every 40 ns a log takes one report (R687). -/
def execLogIntake (log : Nat) (s : State) : Host.Outcome State Fault Refusal :=
  s.run fun _ d => if log < 5 then d.logIntake log else d

/-- A deferred raise of vector 0 fires (R689). -/
def execVector0Deferred (s : State) : Host.Outcome State Fault Refusal :=
  s.run fun _ d =>
    if d.err.vec0Deferred && (match d.err.lastVec0 with | some t => decide (t + 100000 ≤ d.now) | none => true) then ({ d with err := { d.err with vec0Deferred := false, lastVec0 := some d.now } } : Dev).raise 0
    else d

/-- A log emptied; SEQ numbering and its queue go on (R688, R690, R700). -/
def ErrLog.cleared (l : ErrLog) : ErrLog := { l with fixed := [], ring := [], oldest := 2048 }

/-- Empty log k. -/
def Dev.clearLog (d : Dev) (k : Nat) : Dev :=
  { d with err := { d.err with logs := setAt ErrLog.reset (getAt ErrLog.reset k d.err.logs).cleared k d.err.logs } }

/-- Software sets bit `log` of ERRLOG.CTL.CLEAR: the log is emptied and the bit clears (R688, R700). -/
def execLogClear (log : Nat) (s : State) : Host.Outcome State Fault Refusal :=
  s.run fun x d => d.bar0 x Reg.errlogCtl fun d =>
    if log < 5 then (d.clearLog log).setFld Reg.errlogCtl (16 + log) 1 0 else d

/-! ### ELOG_READ (R690) -/

/-- The 32 B of an entry (R683). -/
def LogEntry.pack (e : LogEntry) : Nat :=
  packFields [(0, 8, e.first), (8, 4, e.lastOfs), (12, 4, e.count), (16, 4, e.source), (20, 1, e.type),
    (21, 1, e.sev % 4 + ofB e.injected * 4 + e.level % 4 * 16), (22, 2, e.seq), (24, 8, e.info)]

/-- The 32-byte records of a list, one after the other from an address. -/
def Dev.stRecords (x : Ctx) (d : Dev) (a size : Nat) : List Nat → Dev
  | [] => d
  | v :: t => (d.st x a size v).stRecords x (a + size) size t

/-- Buffers that a command names as (address, bytes): where one is unmapped the access is logged and the outcome is
UNPREDICTABLE (contained) (R84); otherwise the effect takes place. -/
def Dev.buffers (x : Ctx) (d : Dev) (c : Cmd) (bs : List (Nat × Nat)) (f : Dev → Dev) : Dev :=
  match bs.find? fun b => !(mappedRange x.fuses.part d b.1 b.2) with
  | some b => (d.holeCheck x b.1 b.2).unpredictable x c
  | none => f d

/-- What ELOG_READ does to a log it may read. -/
def Dev.elogRead (x : Ctx) (d : Dev) (c : Cmd) (log : Nat) (clear : Bool) (dst max' : Nat) : Dev :=
  let es := (getAt ErrLog.reset log d.err.logs).entries
  let n := min max' es.length
  d.buffers x c [(dst, 32 * n)] fun d =>
    let d := d.stRecords x dst 32 ((es.take n).map LogEntry.pack)
    if n < es.length then d.finish x c .DONE_PARTIAL n
    else (if clear then d.clearLog log else d).finish x c .DONE n

/-- ELOG_READ (R690). -/
def execElogRead (e : Entry) (s : State) : Host.Outcome State Fault Refusal :=
  s.ring e [(16, 2), (24, 12)] [(137, 7)] fun x d c =>
    d.checked x c [(4 < e.f 16 1, .REFUSED_STATE)] fun d =>
      d.elogRead x c (e.f 16 1) (bit (e.f 17 1) 0) (e.f 24 8) (e.f 32 4)

/-! ### ERR_INJECT (R691) -/

/-- The ECC word that an address lies in. -/
def wordBase (a : Nat) : Nat := a / eccWord a * eccWord a

/-- The store a word belongs to, for the limit of 16 words: a stack, or a quadrant's SRAM. -/
def injectGroup (a : Nat) : Nat := if a < 0x12000000000 then stackOf a else 100 + (a - 0x400000000000) / 0x18000000

/-- The checks of ERR_INJECT (R691). -/
def injectChecks (x : Ctx) (d : Dev) (e : Entry) : List (Bool × Status) :=
  let m := e.f 16 1
  let a := e.f 24 6
  [(m == 0 || 5 < m || (m == 1 && (typeSevs (e.f 17 1)).isEmpty), .REFUSED_STATE),
   (m != 1 && a < 0x20000000, .REFUSED_STATE),
   ((m == 2 || m == 3) && !(inHbm x.fuses.part a), .REFUSED_STATE),
   ((m == 4 || m == 5) && !(inSram a), .REFUSED_STATE),
   (m != 1 && !(d.err.bad.any fun b => b.held && b.addr == wordBase a) &&
      16 ≤ (d.err.bad.filter fun b => b.held && injectGroup b.addr == injectGroup a).length, .REFUSED_RESOURCE)]

/-- A stored check word is corrupted. An earlier injection into the word is taken back first. -/
def Dev.corrupt (d : Dev) (a : Nat) (uncorrectable : Bool) : Dev :=
  let w := wordBase a
  let natural := d.err.bad.any fun b => b.addr == w && !b.held
  let keep := d.err.bad.filter fun b => b.addr != w
  { d with err := { d.err with bad := keep ++ [⟨w, uncorrectable || natural, true, true⟩] } }

/-- A synthetic report (R691). Where a type has two SEV values the owner of the outcome chooses (R684); a synthetic report has no
owner, and its SEV is a free value between the two. -/
def Dev.synthetic (d : Dev) (source type info : Nat) : Dev :=
  match typeSevs type with
  | [a, b] =>
    let (v, d) := d.draw
    d.reportAs true source type (if v % 2 == 0 then a else b) info
  | a :: _ => d.reportAs true source type a info
  | [] => d

/-- ERR_INJECT (R691). -/
def execErrInject (e : Entry) (s : State) : Host.Outcome State Fault Refusal :=
  s.ring e [(16, 2), (20, 4), (24, 16)] [(240, 16)] fun x d c => d.checked x c (injectChecks x d e) fun d =>
    let d := match e.f 16 1 with
      | 1 => d.synthetic (e.f 20 4) (e.f 17 1) (e.f 32 8)
      | 2 | 4 => d.corrupt (e.f 24 6) false
      | _ => d.corrupt (e.f 24 6) true
    d.finish x c .DONE 0

end Sys2Proof.Machine
end

