-- ==== Sys2Proof/Machine/TailMath.lean ====
section
/-! DEFINITION. Machine/TailMath.lean: what a tail pipe computes: intake (R317, R318), grammar (R324 to R327), lists (R331, R333, R343,
R344), ranking (R336), sampling (R339 to R341). FP32 values are bit patterns. -/

namespace Sys2Proof.Machine

/-! ### Loaded images (R319, R324) -/

/-- A loaded image by identifier. -/
def imageOf (l : List TailImage) (id : Nat) : Option TailImage := l.find? fun g => g.id == id

/-- The header of a grammar image (R324). -/
structure GHead where
  states : Nat
  start : Nat
  vocab : Nat
  maxR : Nat
  stateOff : Nat
  recOff : Nat

/-- Read it. -/
def Dev.gHead (x : Ctx) (d : Dev) (a : Nat) : GHead :=
  let h := d.ld x a 256
  let f := fun off len => bits h (8 * off) (8 * len)
  ⟨f 8 4, f 12 4, f 16 4, f 24 4, f 32 8, f 40 8⟩

/-- A grammar record (R324). -/
structure GRec where
  first : Nat
  last : Nat
  op : Nat
  needTop : Bool
  topClass : Nat
  next : Nat
  pushWord : Nat

/-- The record of a number of an image at an address. -/
def Dev.gRec (x : Ctx) (d : Dev) (a : Nat) (h : GHead) (n : Nat) : GRec :=
  let w := d.ld x (a + h.recOff + 16 * n) 16
  ⟨bits w 0 19, bits w 19 19, bits w 38 2, bit w 40, bits w 41 12, bits w 64 20, bits w 96 32⟩

/-- The state entry of a state: REC_FIRST, REC_N, FINAL. -/
def Dev.gState (x : Ctx) (d : Dev) (a : Nat) (h : GHead) (st : Nat) : Nat × Nat × Bool :=
  let w := d.ld x (a + h.stateOff + 8 * st) 8
  (bits w 0 32, bits w 32 16, bit w 48)

/-- The records of a state in order. -/
def Dev.gRecs (x : Ctx) (d : Dev) (a : Nat) (h : GHead) (st : Nat) : List GRec :=
  let (first, n, _) := d.gState x a h st
  (List.range n).map fun k => d.gRec x a h (first + k)

/-- Whether a record applies (R326). -/
def GRec.applies (r : GRec) (topc gsp : Nat) : Bool :=
  (!r.needTop || topc == r.topClass) && (r.op != 1 || gsp < 256) && (r.op < 2 || 0 < gsp)

/-- Whether a record's range holds a token. -/
def GRec.holds (r : GRec) (t : Nat) : Bool := r.first ≤ t && t ≤ r.last

/-- TOPC: the class of the top entry; 0xFFF for an empty stack (R325). -/
def Desc.topc (s : Desc) : Nat := s.gstackTop / 2 ^ 20 % 4096

/-- The records that apply in a session's grammar state; none for a session without a grammar. -/
def Dev.applying (x : Ctx) (d : Dev) (s : Desc) : Option (List GRec) :=
  (imageOf d.tail.grammars s.grammar).map fun g =>
    (d.gRecs x g.addr (d.gHead x g.addr) s.gstate).filter fun r => r.applies s.topc s.gsp

/-- The grammar state after a record: GSTATE, GSP and GSTACK_TOP (R326). -/
def Dev.gAdvance (x : Ctx) (d : Dev) (s : Desc) (r : GRec) : Dev × Nat × Nat × Nat :=
  let entry := fun (n : Nat) => if n == 0 then 0xFFFFFFFF else d.ld x (s.gstackAddr + 4 * (n - 1)) 4
  match r.op with
  | 0 => (d, r.next, s.gsp, s.gstackTop)
  | 1 => (d.st x (s.gstackAddr + 4 * s.gsp) 4 r.pushWord, r.next, s.gsp + 1, r.pushWord)
  | 2 => (d, r.next, s.gsp - 1, entry (s.gsp - 1))
  | _ => (d, s.gstackTop % 2 ^ 20, s.gsp - 1, entry (s.gsp - 1))

/-! ### Ban, force and stop lists (R331, R333) -/

/-- The header of a list block. -/
structure ListHead where
  nSeq : Nat
  nStopSeq : Nat
  nStopTok : Nat
  stopText : Bool
  maxSteps : Nat

/-- Read it. -/
def Dev.listHead (x : Ctx) (d : Dev) (a : Nat) : ListHead :=
  let h := d.ld x a 64
  let f := fun off len => bits h (8 * off) (8 * len)
  ⟨f 0 2, f 2 1, f 3 1, bit (f 4 1) 0, f 8 4⟩

/-- A sequence record: its tokens (as many as its length) and whether it forces. -/
def Dev.seqRec (x : Ctx) (d : Dev) (a : Nat) : List Nat × Bool :=
  let w := d.ld x a 128
  ((List.range (bits w 512 8)).map fun j => bits w (32 * j) 32, bits w 520 8 == 1)

/-- Ban and force sequences by index. -/
def Dev.sequences (x : Ctx) (d : Dev) (a : Nat) : List (List Nat × Bool) :=
  (List.range (d.listHead x a).nSeq).map fun k => d.seqRec x (a + 0x1000 + 128 * k)

/-- Stop sequences by index. -/
def Dev.stopSeqs (x : Ctx) (d : Dev) (a : Nat) : List (List Nat) :=
  (List.range (d.listHead x a).nStopSeq).map fun k => (d.seqRec x (a + 0x400 + 128 * k)).1

/-- Stop tokens. -/
def Dev.stopToks (x : Ctx) (d : Dev) (a : Nat) : List Nat :=
  (List.range (d.listHead x a).nStopTok).map fun k => d.ld x (a + 0x200 + 4 * k) 4

/-- The newest emitted tokens, newest first. -/
def ListSt.newest (s : ListSt) : List Nat := s.hist.take s.histN

/-- Whether the newest tokens spell a sequence, oldest first. -/
def endsWith (newest seq : List Nat) : Bool := seq.length ≤ newest.length && (newest.take seq.length).reverse == seq

/-- Tokens that the bans make invalid (R333). -/
def bans (seqs : List (List Nat × Bool)) (newest : List Nat) : List Nat :=
  seqs.filterMap fun q => if q.2 then none else match q.1.reverse with
    | [] => none
    | last :: rest => if endsWith newest rest.reverse then some last else none

/-- The force record that a token engages: the first of LEN 2 or more that begins with it (R333). -/
def engages (seqs : List (List Nat × Bool)) (t : Nat) : Option Nat :=
  findPos (fun q => q.2 && 2 ≤ q.1.length && q.1.head? == some t) seqs

/-- FORCE_IDX and FORCE_POS after a token is emitted with no force engaged. -/
def engageOn (seqs : List (List Nat × Bool)) (t : Nat) : Nat × Nat :=
  match engages seqs t with
  | some k => (k, 1)
  | none => (0xFFFF, 0)

/-- The token that an engaged force asks for. -/
def forcedToken (seqs : List (List Nat × Bool)) (s : ListSt) : Option Nat :=
  if s.forceIdx == 0xFFFF then none else (seqs[s.forceIdx]?).map fun q => getAt 0 s.forcePos q.1

/-! ### Ranking (R336, R337) -/

/-- The rank key of an FP32 value. -/
def rankKey (b : Nat) : Nat := if bit b 31 then 0xFFFFFFFF - b % 2 ^ 32 else b % 2 ^ 32 + 2 ^ 31

/-- Valid entries of a row as (index, value), ranked by key descending, then by index. The radix passes of R336 select the first
`k` of this order. -/
def rankRow (vals : List (Option Nat)) (k : Nat) : List (Nat × Nat) :=
  let valid := vals.zipIdx.filterMap fun p => p.1.map fun v => (p.2, v)
  (sortBy (fun (a b : Nat × Nat) => decide (rankKey b.2 < rankKey a.2)) valid).take k

/-- A logit as intake takes it (R317): −0 becomes +0, NaN and infinities are invalid. -/
def intakeVal (b : Nat) : Option Nat := if !(isFin b) then none else if fabs b == 0 then some 0 else some b

/-! ### Sampling (R339 to R341) -/

/-- (x − M) / T. -/
def scaled (v m t : Nat) : Nat := fdiv .near (fsub .near v m) t

/-- M and Z over the valid entries in ascending token order, with the rescaling of R193 (R318, R339). -/
def normaliser (t : Nat) (vals : List (Option Nat)) : Nat × Nat :=
  vals.foldl (fun (a : Nat × Nat) v => match v with
    | none => a
    | some v =>
      let a := if flt a.1 v then (v, if a.1 == 0xFF800000 then 0 else fmul .near a.2 (fexp (scaled a.1 v t))) else a
      (a.1, fadd .near a.2 (fexp (scaled v a.1 t)))) (0xFF800000, 0)

/-- The running sums of a list of values. -/
def runningSums (acc : Nat) : List Nat → List Nat
  | [] => []
  | p :: t => fadd .near acc p :: runningSums (fadd .near acc p) t

/-- The generator's 24-bit draw as FP32 (R341). -/
def drawOf (key ctr : Nat) : Nat := fp32.round .near false (mix64 (u64 (key ^^^ mix64 ctr)) / 2 ^ 40) (-24) false

/-- K_EFF (R339). -/
def kEff (s : Desc) : Nat := if fabs s.temp == 0 then 1 else if 0 < s.topK then s.topK else 4096

/-- T (R339). -/
def tempOf (s : Desc) : Nat := if flt 0 s.temp then s.temp else 0x3F800000

/-- The candidates with their probabilities, in rank order. -/
def candidates (s : Desc) (ranked : List (Nat × Nat)) (m z : Nat) : List (Nat × Nat) :=
  (ranked.take (kEff s)).map fun c => (c.1, fdiv .near (fexp (scaled c.2 m (tempOf s))) z)

/-- The built-in choice (R339) from the candidates. -/
def choose (s : Desc) (cs : List (Nat × Nat)) : Nat :=
  match cs with
  | [] => 0xFFFFFFFF
  | c0 :: _ =>
    if fabs s.temp == 0 then c0.1
    else
      let kept := if flt 0 s.minP then cs.filter fun c => fle (fmul .near s.minP c0.2) c.2 else cs
      let kept := if flt s.topP 0x3F800000 then
          match findPos (fun r => fle s.topP r) (runningSums 0 (kept.map (·.2))) with
          | some n => kept.take (n + 1)
          | none => kept
        else kept
      let sums := runningSums 0 (kept.map (·.2))
      let target := fmul .near (drawOf s.rngKey s.rngCtr) (sums.getLast?.getD 0)
      match findPos (fun r => flt target r) sums with
      | some n => (getAt (0, 0) n kept).1
      | none => (kept.getLast?.getD (0xFFFFFFFF, 0)).1

/-- Whether the nucleus is cut at 4,096 candidates (R340); without sampling (TEMP 0) there is none (DEDUCED, log 30). -/
def truncated (s : Desc) (nValid : Nat) (cs : List (Nat × Nat)) : Bool :=
  fabs s.temp != 0 && s.topK == 0 && 4096 < nValid && flt ((runningSums 0 (cs.map (·.2))).getLast?.getD 0) s.topP

/-- Natural log of a probability: (x − M) / T − ln Z (R339). -/
def logProb (s : Desc) (v m z : Nat) : Nat := fsub .near (scaled v m (tempOf s)) (fln z)

/-- The rules of R342 on TEMP, TOP_P, MIN_P and TOP_K. -/
def samplingOk (temp topP minP topK : Nat) : Bool :=
  isFin temp && fle 0 temp && flt 0 topP && fle topP 0x3F800000 && fle 0 minP && flt minP 0x3F800000 && topK ≤ 4096

end Sys2Proof.Machine
end

