-- ==== Sys2Proof/Machine/Tail.lean ====
section
/-! DEFINITION. Machine/Tail.lean: tail requests and responses, the tail store, the mask cache, pipes and hooks (R307 to R353). -/

namespace Sys2Proof.Machine

/-- A command reads data that the host named: where it meets an uncorrectable word it completes FAULT_MEDIA (R25, R676). -/
def Dev.source (x : Ctx) (d : Dev) (c : Cmd) (a len : Nat) (f : Dev → Dev) : Dev :=
  if d.mediaBad a len then (d.eccRead a len true).finish x c .FAULT_MEDIA 0 else f (d.eccRead a len true)

/-! ### The tail store and its shadow (R322, R323, R330) -/

/-- HIDDEN (R312). -/
def Dev.hidden (d : Dev) : Nat := 128 * d.fld Reg.tailVarCtl 0 8

/-- Units of 64 KiB that the tail store has free (R322, R351). -/
def Dev.storeFree (d : Dev) : Nat :=
  64 * d.fld (Reg.qdSramPartA 0) 24 8 - sumOf ((d.tail.variants ++ d.tail.grammars).map (·.units))

/-- A place in the shadow area for an image. -/
def Dev.shadowPlace (d : Dev) (bytes : Nat) : Option Nat :=
  let base := d.gibBase Reg.tailShadowBase
  let n := cdiv bytes 65536
  let taken := (d.tail.variants ++ d.tail.grammars).map fun g => ((g.addr - base) / 65536 + 1 - n, (g.addr - base) / 65536 + g.units)
  (pickFree taken (16384 + 1 - n) (Config.placeHint d.free)).map fun k => base + 65536 * k

/-- Copy a checked image into the tail store and its shadow; without room the command completes REFUSED_RESOURCE. -/
def Dev.storeImage (x : Ctx) (d : Dev) (c : Cmd) (id src bytes : Nat) (full : Bool) (put : Dev → TailImage → Dev) : Dev :=
  match d.shadowPlace bytes with
  | none => d.finish x c .REFUSED_RESOURCE 0
  | some a =>
    if full || d.storeFree < cdiv bytes 65536 then d.finish x c .REFUSED_RESOURCE 0
    else
      let d := ({ d with free := d.free + 1 } : Dev).st x a bytes (d.ld x src bytes)
      ((put d ⟨id, a, bytes, cdiv bytes 65536⟩).measureAt x 4 c.opcode id src bytes).finish x c .DONE 0

/-- Bytes of a variant row with its padding (R319). -/
def rowBytes (hidden : Nat) : Nat := cdiv (hidden + hidden / 32) 256 * 256

/-- Whether an image at an address can be loaded as a variant (R319, R323). -/
def Dev.variantOk (x : Ctx) (d : Dev) (a bytes : Nat) : Bool :=
  let h := d.ld x a 256
  let f := fun off len => bits h (8 * off) (8 * len)
  f 0 4 == 0x56524B59 && f 4 1 == 1 && crc256Ok h && f 16 4 == d.shape.vocab && f 12 4 == d.hidden && 1 ≤ f 8 4 && f 8 4 ≤ 16384 &&
    256 + cdiv (4 * f 8 4) 256 * 256 + f 8 4 * rowBytes d.hidden ≤ bytes

/-- Whether an index table is not ascending, not unique or names tokens beyond V: an error of the host's own making (R319, R323). -/
def Dev.variantOdd (x : Ctx) (d : Dev) (a : Nat) : Bool :=
  let rows := d.ld x (a + 8) 4
  let ix := (List.range rows).map fun r => d.ld x (a + 256 + 4 * r) 4
  (List.zip ix (ix.drop 1)).any (fun p => p.2 ≤ p.1) || ix.any fun t => d.shape.vocab ≤ t

/-- VARIANT_LOAD (R323). -/
def execVariantLoad (e : Entry) (s : State) : Host.Outcome State Fault Refusal :=
  s.ring e [(16, 2), (24, 16)] [(240, 16)] fun x d c =>
    d.buffers x c [(e.f 24 6, e.f 32 8)] fun d => d.source x c (e.f 24 6) (e.f 32 8) fun d =>
      d.checked x c [(e.f 16 2 == 0 || e.f 16 2 == 0xFFFF || (imageOf d.tail.variants (e.f 16 2)).isSome, .REFUSED_STATE),
        (!(d.variantOk x (e.f 24 6) (e.f 32 8)), .REFUSED_STATE)] fun d => if d.variantOdd x (e.f 24 6) then d.unpredictable x c else
        d.storeImage x c (e.f 16 2) (e.f 24 6) (e.f 32 8) (64 ≤ d.tail.variants.length) fun d g =>
          { d with tail := { d.tail with variants := d.tail.variants ++ [g] } }

/-- VARIANT_UNLOAD (R323). -/
def execVariantUnload (e : Entry) (s : State) : Host.Outcome State Fault Refusal :=
  s.ring e [(16, 2)] [] fun x d c =>
    d.checked x c [((imageOf d.tail.variants (e.f 16 2)).isNone, .REFUSED_STATE),
      (d.sess.table.any fun p => p.2.state != .void && p.2.variant == e.f 16 2, .REFUSED_STATE)] fun d =>
      ({ d with tail := { d.tail with variants := d.tail.variants.filter fun g => g.id != e.f 16 2 } } : Dev).finish x c .DONE 0

/-- Whether an image at an address can be loaded as a grammar (R324, R330). -/
def Dev.grammarOk (x : Ctx) (d : Dev) (a : Nat) : Bool :=
  let h := d.gHead x a
  let w := d.ld x a 256
  bits w 0 32 == 0x4D524750 && bits w 32 8 == 1 && crc256Ok w && h.vocab == d.shape.vocab && 1 ≤ h.states && h.states ≤ 1048576 &&
    h.start < h.states

/-- Whether a grammar record names states or tokens outside the image; a PUSH names the state that POP_RET returns to (R324, R325, R330). -/
def GRec.odd (r : GRec) (states voc : Nat) : Bool :=
  r.last < r.first || voc ≤ r.last || (r.op != 3 && states ≤ r.next) || (r.op == 1 && (states ≤ r.pushWord % 2 ^ 20 || r.pushWord / 2 ^ 20 == 4095)) ||
    (r.needTop && r.topClass == 4095)

/-- Whether a grammar image holds records outside its own tables, states or tokens: an error of the host's own making (R330). -/
def Dev.grammarOdd (x : Ctx) (d : Dev) (a bytes : Nat) : Bool :=
  let h := d.gHead x a
  let records := d.ld x (a + 20) 4
  bytes < h.stateOff + 8 * h.states || bytes < h.recOff + 16 * records ||
    ((List.range h.states).any fun s => let (first, n, _) := d.gState x a h s
      decide (records < first + n)) ||
    (List.range records).any fun k => (d.gRec x a h k).odd h.states h.vocab

/-- GRAMMAR_LOAD (R330). -/
def execGrammarLoad (e : Entry) (s : State) : Host.Outcome State Fault Refusal :=
  s.ring e [(16, 2), (24, 16)] [(240, 16)] fun x d c =>
    d.buffers x c [(e.f 24 6, e.f 32 8)] fun d => d.source x c (e.f 24 6) (e.f 32 8) fun d =>
      d.checked x c [(e.f 16 2 == 0xFFFF || (imageOf d.tail.grammars (e.f 16 2)).isSome, .REFUSED_STATE),
        (!(d.grammarOk x (e.f 24 6)), .REFUSED_STATE)] fun d => if d.grammarOdd x (e.f 24 6) (e.f 32 8) then d.unpredictable x c else
        d.storeImage x c (e.f 16 2) (e.f 24 6) (e.f 32 8) (1024 ≤ d.tail.grammars.length) fun d g =>
          { d with tail := { d.tail with grammars := d.tail.grammars ++ [g] } }

/-- GRAMMAR_UNLOAD invalidates every mask of its grammar (R329, R330). -/
def execGrammarUnload (e : Entry) (s : State) : Host.Outcome State Fault Refusal :=
  s.ring e [(16, 2)] [] fun x d c =>
    d.checked x c [((imageOf d.tail.grammars (e.f 16 2)).isNone, .REFUSED_STATE),
      (d.sess.table.any fun p => p.2.state != .void && p.2.grammar == e.f 16 2, .REFUSED_STATE)] fun d =>
      ({ d with tail := { d.tail with grammars := d.tail.grammars.filter (fun g => g.id != e.f 16 2),
                                      masks := d.tail.masks.filter (fun k => k.grammar != e.f 16 2),
                                      prefetch := d.tail.prefetch.filter fun k => k.grammar != e.f 16 2 } } : Dev).finish x c .DONE 0

/-! ### The mask cache (R328, R329) -/

/-- The key of a session's mask. -/
def Desc.maskKey (s : Desc) : MaskKey := ⟨s.grammar, s.gstate, s.topc, s.gsp == 256⟩

/-- The set of a key. -/
def Dev.maskSet (d : Dev) (k : MaskKey) : Nat :=
  let sets := 4 * d.fld (Reg.qdSramPartA 0) 8 8 * 0x100000 / (4 * max 256 (cdiv (d.shape.vocab / 8) 256 * 256))
  mix64 (u64 (Config.maskKey (((k.grammar * 2 ^ 20 + k.gstate) * 4096 + k.topc) * 2 + ofB k.full))) % max 1 sets

/-- Insert a mask, or make it the most recently used; its set keeps four. -/
def Dev.insertMask (d : Dev) (k : MaskKey) : Dev :=
  let rest := d.tail.masks.filter fun m => m != k
  let mates := rest.filter fun m => d.maskSet m == d.maskSet k
  let rest := match mates.drop 3 with
    | [] => rest
    | out => rest.filter fun m => !(out.contains m)
  { d with tail := { d.tail with masks := k :: rest } }

/-- A session that joins a batch has its mask prefetched, unless it is cached or already queued. -/
def Dev.queueMask (d : Dev) (s : Desc) : Dev :=
  if s.grammar == 0xFFFF || d.tail.masks.contains s.maskKey || d.tail.prefetch.contains s.maskKey then d
  else { d with tail := { d.tail with prefetch := d.tail.prefetch ++ [s.maskKey] } }

/-- A queued prefetch ends: its mask is in the cache (R329). Without an online mask unit it waits. -/
def execMaskPrefetch (s : State) : Host.Outcome State Fault Refusal :=
  s.run fun _ d => match d.tail.prefetch with
    | [] => d
    | k :: rest =>
      if d.tail.pipes.any (·.up) then
        (({ d with tail := { d.tail with prefetch := rest } } : Dev).insertMask k).bump Reg.tailMaskPrefetch 1
      else d

/-! ### Tail requests (R311 to R313, R347) -/

/-- An entry as the request names it, with the decision on it. -/
structure TEnt where
  handle : Nat
  lfmt : Nat
  hfmt : Nat
  hid : Bool
  retK : Nat
  dataOff : Nat
  status : Option Status
  deriving DecidableEq, Repr

/-- The tail request header (R311). -/
structure THead where
  tag : Nat
  kind : Nat
  batch : Nat
  count : Nat
  deadline : Nat
  resp : Nat
  bytes : Nat
  reserved : Bool

/-- Read it. -/
def ReqImg.thead (g : ReqImg) : THead :=
  let f := g.rd
  ⟨f 0 4, f 4 1, f 6 2, f 10 2, f 24 8, f 32 6, f 40 8, f 5 1 != 0 || f 8 2 != 0 || f 12 12 != 0 || f 48 16 != 0 || g.respOdd⟩

/-- Bytes of an entry's data block (R312). -/
def Dev.tailBlock (d : Dev) (hid : Bool) : Nat := if hid then al256 (2 * d.shape.vocab) + 2 * d.hidden else 2 * d.shape.vocab

/-- Decide one entry before the ledger (R123, R313, R727). -/
def Dev.tailCheck (x : Ctx) (d : Dev) (g : ReqImg) (h : THead) (before : List Nat) (e : TEnt) : Dev × TEnt :=
  let refuse := { e with status := some .REFUSED_STATE }
  let i := handleIdx e.handle
  if before.contains e.handle || 1 < e.lfmt || 1 < e.hfmt || 4096 < e.retK then (d, refuse)
  else match d.readDesc x i with
    | (d, none) => (d, { e with status := some .FAULT_MEDIA })
    | (d, some s) =>
      let had := match d.stepRec i with | some r => r.hasTail | none => true
      if s.gen % 1024 != handleGen e.handle || s.state != .hot || s.batch != h.batch || had || (!e.hid && s.variant != 0) then (d, refuse)
      else if g.bad d e.dataOff (d.tailBlock e.hid) then (g.log d e.dataOff (d.tailBlock e.hid), { e with status := some .FAULT_MEDIA })
      else (d, e)

/-- Decide the entries in order. -/
def Dev.tailChecks (x : Ctx) (g : ReqImg) (h : THead) : List Nat → List TEnt → Dev → Dev × List TEnt
  | _, [], d => (d, [])
  | before, e :: t, d =>
    let (d, e') := d.tailCheck x g h before e
    let (d, r) := Dev.tailChecks x g h (e.handle :: before) t d
    (d, e' :: r)

/-- R_D: delta rows of a tile (R321). -/
def Dev.deltaRows (d : Dev) : Nat := if d.hidden == 0 then 256 else max 1 (min 256 (2097152 / d.hidden))

/-- ROWS of a loaded variant. -/
def Dev.variantRows (x : Ctx) (d : Dev) (v : Nat) : Nat :=
  match imageOf d.tail.variants v with
  | some g => d.ld x (g.addr + 8) 4
  | none => 0

/-- The demand of a delta tile: its AE work, and its rows over the quadrant ports, half of them over the die cut, as the tail store lies in all quadrants
(R39, R321, R322; log 27). -/
def Dev.deltaDemand (d : Dev) (f : Figures) (rows : Nat) : List (Res × Nat) :=
  let bytes := rows * rowBytes d.hidden
  addDemand .dieCut (cdiv bytes 2) (joinDemand (byAes (2 * d.deltaRows * d.hidden / 128) f .ae) (byAes bytes f .eclQuad))

/-- The delta tiles of a request (R321), from its live entries as (number, variant). -/
def Dev.deltaTiles (x : Ctx) (d : Dev) (f : Figures) (es : List (Nat × Nat)) : List DeltaTile :=
  let vs := ((es.map (·.2)).filter fun v => v != 0).eraseDups
  vs.flatMap fun v =>
    let ns := (es.filter fun e => e.2 == v).map (·.1)
    let rows := d.variantRows x v
    (chunksOf 8 ns.length ns).flatMap fun grp =>
      (List.range (cdiv rows d.deltaRows)).map fun k =>
        let n := min d.deltaRows (rows - k * d.deltaRows)
        ⟨0, v, k * d.deltaRows, n, grp, d.deltaDemand f n, none, false, false, []⟩

/-- The key under which a booking holds the demand of a variant's tiles, which serves several sessions (R141). -/
def deltaKey (v : Nat) : Nat := 2 ^ 32 + v

/-- The rows of a step that are still to be written into a session's coma pages, counted over the layers and KV heads of its batch (R199). -/
def Dev.rowsLeft (d : Dev) (i layers : Nat) : Nat :=
  match d.stepRec i with
  | none => 0
  | some r =>
    let staged := ((d.kv.staged.filter fun t => t.idx == i).map fun t => (t.layer, t.head)).eraseDups.length
    let written := r.layersGot.eraseDups.length * d.shape.hkv - staged
    d.ownRows i (r.rows.getD 1) * (layers * d.shape.hkv - written)

/-- How often bytes cross the die cut on their way from a port to the staging of a quadrant and on to the TAIL port (R39, R137, R201). -/
def tailCuts (port q : Nat) : Nat :=
  let p := if port < 8 then eclCvf port else eclHif
  ofB (crossesCut p q) + ofB (crossesCut q eclTail)

/-- The demand of one entry (R199, R347, R384). Logits and hidden state enter by the port of the path, wait in their quadrant's staging and reach the TAIL
port; the response leaves by both ports, `extra` being what of it belongs to no live entry; over the die cut go those bytes whose way crosses it (R39, log 27). The step's rows are written to HBM on
this request (R199). -/
def Dev.tailDemand (x : Ctx) (d : Dev) (f : Figures) (layers : Nat) (path : ReqPath) (extra : Nat) (e : TEnt) : List (Res × Nat) :=
  let s := d.desc (handleIdx e.handle)
  let v := cdiv d.shape.vocab 64
  let kp := cdiv (max (max (kEff s) e.retK) 1) 64
  let maxR := match imageOf d.tail.grammars s.grammar with | some g => (d.gHead x g.addr).maxR | none => 0
  let mask := v + (if s.grammar == 0xFFFF then 0 else v + maxR) + (if s.listsAddr == 0 then 0 else 16)
  let hook := if s.hook == 0xFFFF then 0 else cdiv (d.fld Reg.tailHookCtl 0 16 * d.fld (Reg.tailSampPaceFloor 0) 0 24) 1000
  let held := if s.listsAddr == 0 then 0 else (d.listSt x s.listsAddr s.stepSeq).holdN
  let maxLen := match d.text.tokenizer with | some z => (d.tokHead x z.addr).maxLen | none => 0
  let inBytes := 2 * d.shape.vocab + (if e.hid then 2 * d.hidden else 0)
  let out := 32 + al256 (8 * e.retK) + extra
  let port := if path.port < 8 then eclCvf path.port else eclHif
  let i := handleIdx e.handle
  let cut := inBytes * tailCuts path.port (d.cacheQuad i) + out * ofB (crossesCut eclTail port)
  let rows := evenly (d.rowsLeft i layers * (2 * d.shape.d + 16)) (f.stackPcs.map (·.1)) .hbm
  let dem := joinDemand [(.mask, mask), (.topk, 5 * v + 12 * kp), (.sampler, 2 * kp + 8 + hook), (.text, (held + 1) * (maxLen + 16) + 64)]
    [(.eclTail, inBytes + out), (eclOf path.port, inBytes + out)]
  addDemand (.egress path.port 1) out (addDemand .dieCut cut (joinDemand dem rows))

/-- The demand of the tiles that serve a variant. -/
def variantDemand (ts : List DeltaTile) (v : Nat) : Nat × List (Res × Nat) :=
  (deltaKey v, (ts.filter fun t => t.variant == v).foldl (fun a t => joinDemand a t.demand) [])

/-- An accepted tail request takes effect. -/
def Dev.acceptTail (d : Dev) (g : ReqImg) (h : THead) (dl : Nat) (es : List TEnt) (share : List (Nat × Nat)) (deltas : List DeltaTile)
    (b : Booking) : Dev :=
  let d := d.addBooking { b with deadline := min dl (d.now + d.horizon) }
  let d := (es.filter fun e => e.status.isNone).foldl (fun (d : Dev) e => d.updStep (handleIdx e.handle) fun r => { r with hasTail := true }) d
  let q : TailReq :=
    { id := d.tail.nextReq, path := g.path, tag := h.tag, batch := h.batch, deadline := dl, respAddr := h.resp, img := g.rd 0 h.bytes,
      imgBytes := h.bytes, share := share, booking := b.id,
      deltas := List.zipWith (fun (t : DeltaTile) q => { t with quad := q }) deltas (d.newTurns deltas.length),
      entries := es.map fun e => ⟨e.handle, handleIdx e.handle, e.lfmt, e.hfmt, e.hid, e.retK, e.dataOff,
        if e.status.isNone then .waiting else .done, e.status, 0, 0, 0, 0xFFFFFFFF, 0, 0xFF800000, 0, []⟩ }
  ({ d with tail := { d.tail with reqs := d.tail.reqs ++ [q], nextReq := d.tail.nextReq + 1 } } : Dev).imageCrosses g.path share (.tailImage q.id)

/-- Whether a session's tail entry would have to wait: layers are missing, or a layer request that names it is still to be answered (R119). -/
def Dev.awaitsLayers (d : Dev) (i : Nat) : Bool :=
  !(d.layersDone i) || d.attn.reqs.any fun r => r.entries.any fun a => a.idx == i && (match r.path with | .ring _ => false | _ => true)

/-- The form and the sessions of a tail request (R114, R123, R311 to R313, R727). -/
def Dev.tailForm (x : Ctx) (d : Dev) (g : ReqImg) : ReqForm TEnt :=
  let h := g.thead
  if g.bad d 0 (64 + 16 * min h.count 8192) then .refuse (g.log d 0 (64 + 16 * min h.count 8192)) .FAULT_MEDIA
  else if h.reserved || h.bytes % 256 != 0 || (match g.len with | some n => n != h.bytes | none => false) then .odd d
  else if h.kind != 2 || h.count == 0 || 8192 < h.count then .refuse d .REFUSED_STATE
  else match d.batch h.batch with
    | none => .refuse d .REFUSED_STATE
    | some b =>
      let f := fun k off len => g.rd (64 + 16 * k + off) len
      let resv := (List.range h.count).any fun k => 16 ≤ f k 4 1 || 2 ≤ f k 5 1
      let es := (List.range h.count).map fun k =>
        (⟨f k 0 4, f k 4 1 % 4, f k 4 1 / 4 % 4, bit (f k 5 1) 0, f k 6 2, f k 8 8, none⟩ : TEnt)
      if resv then .odd d
      else
        let (d, es) := Dev.tailChecks x g h [] es d
        let live := es.filter fun e => e.status.isNone
        if live.isEmpty then .refuse d (if es.all fun e => e.status == some .FAULT_MEDIA then .FAULT_MEDIA else .REFUSED_STATE)
        else if blocksBad h.bytes (live.map fun e => (e.dataOff, d.tailBlock e.hid)) then .odd d
        else .good d b (if h.deadline == 0 then b.winEnd else h.deadline) es

/-- What the ledger weighs for a tail request. -/
structure TailPlan where
  share : List (Nat × Nat)
  deltas : List DeltaTile
  new : Booking
  room : Bool
  verdict : Verdict

/-- The ledger's part of a tail request's decision (R119, R125, R132, R201, R347). The work is booked from the deadline of the last
layer request while the entry has to wait. DEDUCED (log 48). -/
def Dev.tailPlan (x : Ctx) (d : Dev) (g : ReqImg) (b : Batch) (dl : Ns) (es : List TEnt) : TailPlan :=
  let h := g.thead
  let live := es.filter fun e => e.status.isNone
  let idxs := live.map fun e => handleIdx e.handle
  let f := b.figures
  let share := d.imageShares h.bytes (64 + 16 * h.count) (es.map fun e => (e.handle, e.dataOff, d.tailBlock e.hid)) (es.map (·.handle))
  let deltas := d.deltaTiles x f ((es.zipIdx.filter fun e => e.1.status.isNone).map fun e => (e.2, (d.desc (handleIdx e.1.handle)).variant))
  let vs := (deltas.map (·.variant)).eraseDups
  let refused := es.filter fun e => e.status.isSome
  let rest := al256 (64 + 32 * h.count) - 32 * live.length + sumOf (refused.map fun e => al256 (8 * min e.retK 4096))
  let dem := List.zip idxs (live.zipIdx.map fun e => d.tailDemand x f b.layers g.path (if e.2 == 0 then rest else 0) e.1) ++ vs.map fun v => variantDemand deltas v
  let new : Booking := ⟨d.sess.nextBooking, dl, lTail, false, dem⟩
  let start := idxs.foldl (fun t i => if !(d.awaitsLayers i) then t else max t (match d.stepRec i with | some r => r.lastDl | none => t)) d.now
  { share := share, deltas := deltas, new := new, room := d.stagingFits share && decide (d.sess.bookings.length < 4096),
    verdict := verdictAll (d.fld Reg.sessLedgerCtl 16 8) d.now d.horizon [⟨d.rate f (d.shareOf false), start, dl, 0, new, d.sess.bookings⟩] }

/-- A tail request that the ledger passes is accepted (R116, R121). -/
def Dev.takeTail (x : Ctx) (d : Dev) (g : ReqImg) (dl : Ns) (es : List TEnt) (p : TailPlan) (fin : Nat) : Dev :=
  let h := g.thead
  (d.acceptTail g h dl es p.share p.deltas p.new).sendAdmit x g.path ⟨h.tag, .DONE, 2, h.batch, d.now, fin, 0, 0⟩

/-- The decision on a tail request (R114, R121, R123, R313). -/
def Dev.tailReq (x : Ctx) (d : Dev) (g : ReqImg) : Dev :=
  let h := g.thead
  match d.tailForm x g with
  | .refuse d st => d.sendAdmit x g.path (refusal h.batch h.tag 2 d.now st)
  | .odd d => d.reqUnpredictable x g.path
  | .good d b dl es =>
    let p := d.tailPlan x g b dl es
    if !p.room then d.sendAdmit x g.path (refusal h.batch h.tag 2 d.now .REFUSED_RESOURCE)
    else match p.verdict with
      | .full retry minDl =>
        d.sendAdmit x g.path ⟨h.tag, .REFUSED_CAPACITY, 2, h.batch, d.now, 0, if dl ≤ d.now then 0xFFFFFFFF else retry, minDl⟩
      | .pass fin => d.takeTail x g dl es p fin

/-- A tail request arrives (R311, R121). -/
def execTailReq (src : ReqSrc) (s : State) : Host.Outcome State Fault Refusal := s.request src fun x d g => d.tailReq x g

/-! ### Pipes (R307, R309, R351) -/

/-- Whether a pipe works on an entry. -/
def Dev.pipeBusy (d : Dev) (p : Nat) : Bool :=
  d.tail.reqs.any fun q => q.entries.any fun e => match e.stage with
    | .running r => r == p
    | .hook r _ _ _ => r == p
    | _ => false

/-- A pipe of a number. -/
def Dev.pipe (d : Dev) (p : Nat) : Pipe := getAt .reset p d.tail.pipes

/-- STATE of a pipe's three blocks (R54, R309). -/
def Dev.pipeState (d : Dev) (p st : Nat) : Dev :=
  ((d.setFld (Reg.tailMaskPace p) 28 2 st).setFld (Reg.tailTopkPace p) 28 2 st).setFld (Reg.tailSampPace p) 28 2 st

/-- A pipe goes offline with a cause. -/
def Dev.pipeDown (d : Dev) (p cause : Nat) : Dev :=
  ({ d with tail := { d.tail with pipes := setAt .reset ⟨cause, true, false⟩ p d.tail.pipes } } : Dev).pipeState p 2

/-- Pipes that wait to go offline and work on nothing go (R223, R351). -/
def Dev.sweepPipes (d : Dev) : Dev :=
  (List.range 4).foldl (fun (d : Dev) p =>
    if (d.pipe p).pendingOff && !(d.pipeBusy p) then (d.pipeDown p 1).setFld Reg.tailPipeCtl p 1 0 else d) d

/-- Software sets an OFFLINE_REQ bit of TAIL.PIPE_CTL (R223, R351). -/
def execPipeOfflineReq (p : Nat) (s : State) : Host.Outcome State Fault Refusal :=
  s.run fun x d => if 4 ≤ p then d else d.w1sWrite x Reg.tailPipeCtl p fun d =>
    if (d.pipe p).offline then d.setFld Reg.tailPipeCtl p 1 0
    else
      let q := d.pipe p
      ({ d with tail := { d.tail with pipes := setAt .reset { q with pendingOff := true } p d.tail.pipes } } : Dev).sweepPipes

/-- Software sets an ONLINE_REQ bit of TAIL.PIPE_CTL (R223, R351). -/
def execPipeOnlineReq (p : Nat) (s : State) : Host.Outcome State Fault Refusal :=
  s.run fun x d => if 4 ≤ p then d else d.w1sWrite x Reg.tailPipeCtl (4 + p) fun d =>
    let d := d.setFld Reg.tailPipeCtl (4 + p) 1 0
    if (d.pipe p).offline && (d.pipe p).cause == 1 then
      ({ d with tail := { d.tail with pipes := setAt .reset .reset p d.tail.pipes } } : Dev).pipeState p 1
    else d

/-! ### Delta tiles (R320, R321) -/

/-- The delta of one row for a hidden state (R320), as an FP32 pattern. -/
def deltaSum (hidden : Nat) (h w : List Nat) (scales : List Nat) : Nat :=
  (List.range (hidden / 32)).foldl (fun acc b =>
    let blk := (rangeFrom (32 * b) 32).foldl (fun blk c => macc blk (getAt 0 c h) (e4m3.to fp32 .near (getAt 0 c w))) 0
    fadd .near acc (fmul .near blk (fpow2 (((getAt 0 b scales : Nat) : Int) - 127)))) 0

/-- The sums of a delta tile: (entry, token, delta). -/
def Dev.deltaSums (x : Ctx) (d : Dev) (q : TailReq) (t : DeltaTile) : List (Nat × Nat × Nat) :=
  match imageOf d.tail.variants t.variant with
  | none => []
  | some g =>
    let rows := d.variantRows x t.variant
    let data := g.addr + 256 + cdiv (4 * rows) 256 * 256
    t.entries.flatMap fun n => match q.entries[n]? with
      | none => []
      | some e =>
        let h := elemsOf (elemFmt e.hfmt) (bits q.img (8 * (e.dataOff + al256 (2 * d.shape.vocab))) (16 * d.hidden)) d.hidden
        (rangeFrom t.rowLo t.rowN).map fun r =>
          let a := data + r * rowBytes d.hidden
          (n, d.ld x (g.addr + 256 + 4 * r) 4, deltaSum d.hidden h (d.ldBytes x a d.hidden) (d.ldBytes x (a + d.hidden) (d.hidden / 32)))

/-- A delta tile ends on its AE (R321): its sums are there, its demand is done. -/
def execDeltaTileComplete (req n : Nat) (s : State) : Host.Outcome State Fault Refusal :=
  s.run fun x d => match d.tail.reqs.find? fun q => q.id == req with
    | none => d
    | some q => match q.deltas[n]? with
      | none => d
      | some t => match t.ae with
        | none => d
        | some (k, a) =>
          if t.done then d
          else
            let sums := d.deltaSums x q t
            let d := d.updTail req fun q => { q with deltas := updAt (fun t => { t with done := true, sums := sums }) n q.deltas }
            let d := (d.releaseDemand q.booking (deltaKey t.variant) t.demand).bump (Reg.qdAeTiles k a) 1
            let d := t.entries.foldl (fun (d : Dev) m => match q.entries[m]? with
              | some e => d.chargeSome x (d.desc e.idx).composition 0
              | none => d) d
            d.aeFreed x k a

/-! ### One tail entry (R317 to R346) -/

/-- What intake, ranking and selection give for an entry: values after stage 4, whether values were non-finite, DEAD_BY, the ranked
list, n_valid, M, Z, the built-in token, whether a force chose it, whether a force was broken, and TRUNC. -/
structure Pick where
  vals : List (Option Nat)
  nonfinite : Bool
  deadBy : Nat
  ranked : List (Nat × Nat)
  nValid : Nat
  m : Nat
  z : Nat
  token : Nat
  forced : Bool
  broken : Bool
  trunc : Bool

/-- Add deltas to a row; a non-finite result is invalid (R320). -/
def addDeltas (sums : List (Nat × Nat)) (vals : List (Option Nat)) : List (Option Nat) :=
  sums.foldl (fun vs t => updAt (fun v => v.bind fun v => let r := fadd .near v t.2
                                                          if isFin r then some r else none) t.1 vs) vals

/-- Stages 1 to 7 of R334 for an entry. Where values and bans together leave none, DEAD_BY names the values (DEDUCED, log 30). -/
def Dev.pick (x : Ctx) (d : Dev) (q : TailReq) (n : Nat) (e : TailEntry) : Pick :=
  let s := d.desc e.idx
  let voc := d.shape.vocab
  let v1 := (elemsOf (elemFmt e.lfmt) (bits q.img (8 * e.dataOff) (16 * voc)) voc).map intakeVal
  let v2 := addDeltas ((q.deltas.flatMap (·.sums)).filterMap fun t => if t.1 == n then some t.2 else none) v1
  let rs := d.applying x s
  let allowed := fun (t : Nat) => match rs with | none => true | some rs => rs.any fun r => r.holds t
  let v3 := v2.zipIdx.map fun v => if allowed v.2 then v.1 else none
  let seqs := if s.listsAddr == 0 then [] else d.sequences x s.listsAddr
  let ls := if s.listsAddr == 0 then ListSt.fresh else d.listSt x s.listsAddr s.stepSeq
  let banned := bans seqs ls.newest
  let v4 := v3.zipIdx.map fun v => if banned.contains v.2 then none else v.1
  let nValid := (v4.filter (·.isSome)).length
  let dead := if 0 < nValid then 0
    else if !((List.range voc).any allowed) then 1
    else if v3.all (·.isNone) then 3 else 2
  let ranked := rankRow v4 (max (max (kEff s) e.retK) 1)
  let (m, z) := normaliser (tempOf s) v4
  let cs := candidates s ranked m z
  let want := forcedToken seqs ls
  let ok := match want with | some t => (getAt none t v4).isSome | none => false
  { vals := v4, nonfinite := v2.any (·.isNone), deadBy := dead, ranked := ranked, nValid := nValid, m := m, z := z,
    token := match want with | some t => (if ok then t else choose s cs) | none => choose s cs,
    forced := ok, broken := want.isSome && !ok, trunc := truncated s nValid cs }

/-- What an emitted token does to the list state, the stop conditions and the held tokens (R333, R343, R344): the new state, STOP_CAUSE
and the tokens released in order. -/
def Dev.afterToken (x : Ctx) (d : Dev) (s : Desc) (t : Nat) (final forced broken : Bool) : ListSt × Nat × List Nat :=
  if s.listsAddr == 0 then (.fresh, if final then 3 else 0, [t])
  else
    let a := s.listsAddr
    let h := d.listHead x a
    let st := d.listSt x a s.stepSeq
    let seqs := d.sequences x a
    let newest := t :: st.newest
    let stops := d.stopSeqs x a
    let hit := stops.find? fun q => !q.isEmpty && endsWith (newest.take 16) q
    let cause := if (d.stopToks x a).contains t then 1 else if hit.isSome then 2 else if final then 3
      else if h.maxSteps != 0 && h.maxSteps ≤ st.steps + 1 then 4 else 0
    let pool := st.held ++ [t]
    let holds := fun (j : Nat) => stops.any fun q => j < q.length && endsWith newest (q.take j)
    let hold := if cause != 0 then 0 else (((List.range (min 15 (st.holdN + 1))).map (· + 1)).filter holds).foldl max 0
    let out := match cause with
      | 0 => pool.take (pool.length - hold)
      | 1 => if h.stopText then pool else pool.dropLast
      | 2 => if h.stopText then pool else pool.take (pool.length - (hit.getD []).length)
      | _ => pool
    let len := match seqs[st.forceIdx]? with | some q => q.1.length | none => 0
    let (fi, fp) := if forced && st.forcePos + 1 < len then (st.forceIdx, st.forcePos + 1)
      else if forced || broken || st.forceIdx == 0xFFFF then engageOn seqs t else (st.forceIdx, st.forcePos)
    (⟨(t :: st.hist).take 16, min 16 (st.histN + 1), hold, fi, fp, u32 (st.steps + 1)⟩, cause, out)

/-- Change an entry of a tail request. -/
def Dev.updTailEntry (d : Dev) (req n : Nat) (f : TailEntry → TailEntry) : Dev :=
  d.updTail req fun q => { q with entries := updAt f n q.entries }

/-- An entry ends without a commit: FAULT_UNIT or FAULT_MEDIA (R316); its demand is released. -/
def Dev.faultEntry (d : Dev) (q : TailReq) (n : Nat) (e : TailEntry) (st : Status) : Dev :=
  (d.updTailEntry q.id n fun e => { e with stage := .done, status := some st, token := 0xFFFFFFFF }).releaseShare q.booking e.idx

/-- The status of an entry that commits (R315). -/
def tailStatus (deadBy cause : Nat) (partial_ unit : Bool) : Status :=
  if deadBy != 0 then .GRAMMAR_DEAD else if cause != 0 then .STOPPED else if partial_ then .DONE_PARTIAL else if unit then .DONE_DEGRADED else .DONE

/-- The ranked list of the response as (token, log-probability), and the log-probability of a token (R339). -/
def Pick.logOf (p : Pick) (s : Desc) (t : Nat) : Nat :=
  match getAt none t p.vals with
  | some v => logProb s v p.m p.z
  | none => 0xFF800000

/-- An entry is finished with a token, or with none at a dead end (R326, R335, R341, R343, R344): the grammar advances, the list state
is written, text goes out, and what the commit will take is kept. `flags` are the hook's bits of DETAIL; `escape` marks the escape
token of DEAD_ACTION 0x1. DESIGN CHOICE (log 52): `streamed`, which a cancel returns (R140), counts all text that the step released, also that of tokens and
bytes held back from earlier steps. -/
def Dev.finishEntry (x : Ctx) (d : Dev) (q : TailReq) (n : Nat) (e : TailEntry) (p : Pick) (tok flags rngAdv : Nat) (escape : Bool) : Dev :=
  let i := e.idx
  let s := d.desc i
  let none_ := tok == 0xFFFFFFFF
  let rec_ := if p.deadBy != 0 then none else (d.applying x s).bind fun rs => rs.find? fun r => r.holds tok
  let (d, gs, gsp, top) := match rec_ with | some r => d.gAdvance x s r | none => (d, s.gstate, s.gsp, s.gstackTop)
  let final := match imageOf d.tail.grammars s.grammar with
    | some g => (d.gState x g.addr (d.gHead x g.addr) gs).2.2
    | none => false
  let old := d.listSt x s.listsAddr s.stepSeq
  let (st, cause, out) := if none_ then ({ old with forceIdx := 0xFFFF, forcePos := 0 }, 0, [])
    else d.afterToken x s tok final (p.forced && p.deadBy == 0) p.broken
  let d := if s.listsAddr == 0 then d else d.putListSt x s.listsAddr (s.stepSeq + 1) st
  let last := (if s.listsAddr == 0 then 0 else old.holdN)
  let (d, pend, bytes) := d.releaseTokens x i (out.zipIdx.map fun t => (t.1, escape && t.2 == last)) (u32 (s.stepSeq + 1))
  let d := if p.deadBy == 0 && cause != 0 then d.record x i 4 0 (u32 (s.stepSeq + 1)) [cause] else d
  let d := if out.isEmpty then d else d.chargeSome x s.composition 3
  let d := d.chargeSome x s.composition 2
  let left : TailLeft := ⟨gs, gsp, top, u64 (s.rngCtr + 1 + rngAdv), leNat pend, pend.length, tok, p.deadBy, if p.deadBy != 0 then 0 else cause⟩
  let d := d.updStep i fun r => { r with streamed := r.streamed + bytes, left := some left }
  let unit := bit e.detail 0 || q.deltas.any fun t => t.entries.contains n && t.reissued
  let status := tailStatus p.deadBy cause (p.nValid < e.retK) unit
  let detail := ofB unit + 2 * ofB p.nonfinite + 4 * ofB p.trunc + 8 * ofB (p.forced && p.deadBy == 0) + 16 * ofB p.broken + flags
  let d := d.updTailEntry q.id n fun e => { e with
    stage := .done, status := some status, detail := detail, detail2 := setBits e.detail2 0 1 (ofB escape), cause := cause + 16 * p.deadBy,
    token := tok, nValid := min e.retK p.nValid, logprob := if none_ then 0xFF800000 else p.logOf s tok, textBytes := bytes,
    list := (p.ranked.take e.retK).map fun t => (t.1, logProb s t.2 p.m p.z) }
  let d := d.releaseShare q.booking i
  let d := if p.deadBy != 0 then d.bump Reg.tailDeadCnt 1 else d
  let d := if status == .STOPPED then d.bump Reg.tailStopCnt 1 else d
  let d := if p.forced && p.deadBy == 0 then d.bump Reg.tailForceCnt 1 else d
  let d := if p.broken then d.bump Reg.tailForceBroken 1 else d
  let d := if p.trunc then d.bump Reg.tailTruncCnt 1 else d
  let d := if p.nonfinite then d.bump Reg.tailNonfinite 1 else d
  if status == .DONE_PARTIAL then d.bump Reg.tailPartialCnt 1 else d

/-! ### Responses (R314, R218, R117) -/

/-- The response image of a tail request as bytes (R314). -/
def Dev.tailResponse (d : Dev) (q : TailReq) : List Nat :=
  let base := al256 (64 + 32 * q.entries.length)
  let lists := q.entries.foldl (fun (a : List (Nat × List Nat) × Nat) e =>
    if e.retK == 0 then (a.1 ++ [(0, [])], a.2)
    else
      let recs := e.list ++ List.replicate (e.retK - e.list.length) (0xFFFFFFFF, 0xFF800000)
      let bs := recs.flatMap fun r => leBytes r.1 4 ++ leBytes r.2 4
      (a.1 ++ [(a.2 / 256, bs ++ List.replicate (al256 bs.length - bs.length) 0)], a.2 + al256 bs.length)) ([], base)
  let st := overall (q.entries.map fun e => e.status.getD .FAULT_UNIT)
  let head := leBytes (packFields [(0, 4, q.tag), (4, 1, 0x82), (5, 1, st.code), (6, 2, q.batch), (10, 2, q.entries.length), (16, 8, d.now),
    (24, 8, lists.2)]) 64
  let ents := List.zipWith (fun (e : TailEntry) (l : Nat × List Nat) => leBytes (packFields [(0, 4, e.handle),
    (4, 1, (e.status.getD .FAULT_UNIT).code), (5, 1, e.detail), (6, 1, e.detail2), (7, 1, e.cause), (8, 4, e.token), (12, 2, e.nValid),
    (16, 4, e.logprob), (20, 4, e.textBytes), (24, 4, l.1)]) 32) q.entries lists.1
  let body := head ++ ents.flatten
  body ++ List.replicate (base - body.length) 0 ++ (lists.1.map (·.2)).flatten

/-- Whether an entry's status commits its session (R117). -/
def Status.commits : Status → Bool
  | .DONE | .DONE_DEGRADED | .DONE_PARTIAL | .GRAMMAR_DEAD | .STOPPED => true
  | _ => false

/-- Delta tiles that serve no live entry any more go, and their demand with them (R141). -/
def Dev.pruneDeltas (d : Dev) (q : TailReq) : Dev :=
  let live := fun (t : DeltaTile) => t.entries.any fun n => match q.entries[n]? with | some e => e.status.isNone | none => false
  let dead := q.deltas.filter fun t => !(live t) && !t.done
  let d := d.updTail q.id fun r => { r with deltas := r.deltas.filter fun t => live t || t.done }
  dead.foldl (fun (d : Dev) t => d.releaseDemand q.booking (deltaKey t.variant) t.demand) d

/-- A tail request whose entries are all final is answered, and its sessions commit (R117, R218, R314). A commit whose rows cannot be written makes
the layer's entry in a response not yet sent read FAULT_MEDIA (R724). -/
def Dev.settleTail (x : Ctx) (d : Dev) (q : TailReq) : Dev :=
  if q.entries.any fun e => e.status.isNone then d.pruneDeltas q
  else
    let ss := q.entries.map fun e => e.status.getD .FAULT_UNIT
    let d := ({ d with tail := { d.tail with reqs := d.tail.reqs.filter fun r => r.id != q.id } } : Dev).dropBooking q.booking
    let d := if ss.contains .FAULT_UNIT then d.bump Reg.sessLateCnt 1 else d
    let d := d.sendResponse x q.path 2 q.tag q.respAddr q.deadline (overall ss) (d.tailResponse q)
    q.entries.foldl (fun (d : Dev) e => if (e.status.getD .FAULT_UNIT).commits then (d.commit x e.idx).1 else d) d

/-- Answer every tail request that is complete. -/
def Dev.settleTails (x : Ctx) (d : Dev) : Dev := ((d.tail.reqs.foldl (fun (d : Dev) q => d.settleTail x q) d).sweepPipes).settleLayers x

/-- Answer everything that is complete. -/
def Dev.settleAll (x : Ctx) (d : Dev) : Dev := (d.settleLayers x).settleTails x

/-! ### Running an entry (R318, R335, R345, R346, R580 to R582) -/

/-- Whether data that an entry reads is uncorrectable: its grammar image, its list block or its grammar stack (R329, R348; log 30). -/
def Dev.tailMedia (d : Dev) (s : Desc) : Bool :=
  (match imageOf d.tail.grammars s.grammar with | some g => d.mediaBad g.addr g.bytes | none => false) ||
    (s.listsAddr != 0 && d.mediaBad s.listsAddr 36864) || (s.grammar != 0xFFFF && d.mediaBad s.gstackAddr 1024)

/-- The mask is looked up, or generated in line, in which case a prefetch for it is abandoned (R328, R329). The answer tells whether it
was generated. -/
def Dev.useMask (d : Dev) (s : Desc) : Dev × Bool :=
  if s.grammar == 0xFFFF then (d, false)
  else
    let hit := d.tail.masks.contains s.maskKey
    let d := { d with tail := { d.tail with prefetch := d.tail.prefetch.filter fun k => k != s.maskKey } }
    ((d.insertMask s.maskKey).bump (if hit then Reg.tailMaskHit else Reg.tailMaskMiss) 1, !hit)

/-- The address of a pipe's hook view (R564). -/
def Dev.hookView (d : Dev) (p : Nat) : Nat := d.gibBase Reg.beltHeapBase + p * 0x18000

/-- Write the hook view of a pipe: the ranked list and the mask bitmap (R564). -/
def Dev.writeView (x : Ctx) (d : Dev) (p : Nat) (s : Desc) (k : Pick) : Dev :=
  let d := d.stBytes x (d.hookView p) (k.ranked.flatMap fun r => leBytes r.1 4 ++ leBytes r.2 4)
  match d.applying x s with
  | none => d
  | some rs =>
    let set := (List.range d.shape.vocab).filter fun t => rs.any fun r => r.holds t
    d.st x (d.hookView p + 0x8000) (cdiv d.shape.vocab 8) (sumOf (set.map fun t => 2 ^ t))

/-- The hook record (R345, R580). -/
def Dev.hookRecord (d : Dev) (p : Nat) (e : TailEntry) (s : Desc) (k : Pick) (dead : Bool) (builtin : Nat) : Nat :=
  packFields [(0, 4, e.handle), (4, 4, s.stepSeq), (8, 8, s.rngKey), (16, 8, s.rngCtr), (24, 8, d.hookView p), (32, 4, k.nValid),
    (36, 2, max (max (kEff s) e.retK) 1), (38, 1, ofB dead), (40, 4, k.m), (44, 4, k.z), (48, 4, tempOf s), (52, 4, builtin),
    (56, 8, if s.grammar == 0xFFFF then 0 else d.hookView p + 0x8000)]

/-- A hook that gives no usable answer (R335, R346): the built-in token stands, or the dead end emits none. -/
def Dev.hookMissed (x : Ctx) (d : Dev) (q : TailReq) (n : Nat) (e : TailEntry) (k : Pick) (flags : Nat) : Dev :=
  d.finishEntry x q n e k (if k.deadBy != 0 then 0xFFFFFFFF else k.token) flags 0 false

/-- Post the hook record of an entry; a full or missing queue makes it late at once (R345, R581). -/
def Dev.postHook (x : Ctx) (d : Dev) (q : TailReq) (n : Nat) (e : TailEntry) (k : Pick) (pipe : Nat) : Dev :=
  let s := d.desc e.idx
  let dead := k.deadBy != 0
  let builtin := if dead then 0xFFFFFFFF else k.token
  let dl := d.now + d.fld Reg.tailHookCtl 0 16
  match d.belt.hooks.find? fun h => h.1 == s.hook with
  | none => (d.bump Reg.tailHookLate 1).hookMissed x q n e k 0x40
  | some (_, part, queue) =>
    let d := d.writeView x pipe s k
    match d.placeTask part queue (d.hookRecord pipe e s k dead builtin) (.hook q.id n dl) with
    | (d, true) => d.updTailEntry q.id n fun e => { e with stage := .hook pipe d.now dead builtin }
    | (d, false) => ((d.bump Reg.beltHookDrop 1).bump Reg.tailHookLate 1).hookMissed x q n e k 0x40

/-- Selection for an entry on a pipe: a dead end takes its action, a force or a session without a hook finishes, a hook is posted
(R334, R335, R345). -/
def Dev.selectEntry (x : Ctx) (d : Dev) (q : TailReq) (n : Nat) (e : TailEntry) (pipe : Nat) : Dev :=
  let s := d.desc e.idx
  let k := d.pick x q n e
  if k.deadBy != 0 then
    if s.deadAction == 1 then d.finishEntry x q n e k s.escapeToken 0 0 true
    else if s.deadAction == 2 && s.hook != 0xFFFF then d.postHook x q n e k pipe
    else d.finishEntry x q n e k 0xFFFFFFFF 0 0 false
  else if s.hook != 0xFFFF && !k.forced then d.postHook x q n e k pipe
  else d.finishEntry x q n e k k.token 0 0 false

/-- Whether an entry is ready: its session has all its layers and has been answered on each (R119), and its delta tiles are done. -/
def Dev.tailReady (d : Dev) (q : TailReq) (n : Nat) (e : TailEntry) : Bool :=
  e.stage == .waiting && e.status.isNone &&
    !(d.attn.reqs.any fun r => r.entries.any fun a => a.idx == e.idx && r.batch == q.batch && (match r.path with | .ring _ => false | _ => true)) &&
    (match d.stepRec e.idx, d.batch q.batch with
      | some r, some b => b.layers ≤ r.named.eraseDups.length
      | _, _ => false) &&
    q.deltas.all fun t => !(t.entries.contains n) || t.done

/-- A pipe takes an entry (R318, R356, R724): without a text engine it reads FAULT_UNIT; rows reach HBM, data is checked, and the entry runs. -/
def Dev.runEntry (x : Ctx) (d : Dev) (q : TailReq) (n : Nat) (e : TailEntry) (pipe : Nat) : Dev :=
  let s := d.desc e.idx
  let d := d.crossed fun o => o == .tailImage q.id
  let (d, ok) := d.writeAllStaged x e.idx
  if !ok || !(d.layersDone e.idx) then d.faultEntry q n e .FAULT_MEDIA
  else if d.tailMedia s then d.faultEntry q n e .FAULT_MEDIA
  else if q.deadline < d.now || (d.text.tokenizer.isSome && !d.textOnline) then d.faultEntry q n e .FAULT_UNIT
  else
    let (d, inline_) := d.useMask s
    let d := d.updTailEntry q.id n fun e => { e with stage := .running pipe, detail2 := 2 * ofB inline_ }
    d.selectEntry x q n { e with detail2 := 2 * ofB inline_ } pipe

/-- Whether a block of a pipe is being reset, and takes no new entry (R619). -/
def Dev.pipeResets (d : Dev) (p : Nat) : Bool :=
  d.boot.blockResets.any fun b => b.block == Reg.tailMaskPace p || b.block == Reg.tailTopkPace p || b.block == Reg.tailSampPace p

/-- A free pipe takes a ready entry, none being ready with an earlier deadline, or of an earlier request with the same (R36, R318). -/
def execTailEntryRun (req entry pipe : Nat) (s : State) : Host.Outcome State Fault Refusal :=
  s.run fun x d => match d.tail.reqs.find? fun q => q.id == req with
    | none => d
    | some q => match q.entries[entry]? with
      | none => d
      | some e =>
        let before := fun (r : TailReq) => decide (r.deadline < q.deadline) || (r.deadline == q.deadline && decide (r.booking < q.booking))
        let earlier := d.tail.reqs.any fun r => before r && r.entries.zipIdx.any fun a => d.tailReady r a.2 a.1
        if pipe < 4 && (d.pipe pipe).up && !(d.pipe pipe).pendingOff && !(d.pipeBusy pipe) && !(d.pipeResets pipe) && d.tailReady q entry e &&
            !earlier then
          (d.runEntry x q entry e pipe).settleTails x
        else d

/-- What a hook's reply does (R346, R582): accepted, rejected, or keeping the built-in token. -/
def Dev.hookReply (x : Ctx) (d : Dev) (q : TailReq) (n : Nat) (e : TailEntry) (token rngAdv : Nat) : Dev :=
  let k := d.pick x q n e
  let dead := k.deadBy != 0
  let reject := fun (d : Dev) => (d.bump Reg.tailHookReject 1).hookMissed x q n e k 0x80
  if 15 < rngAdv then reject d
  else if token == 0xFFFFFFFF then d.finishEntry x q n e k (if dead then 0xFFFFFFFF else k.token) 0x20 rngAdv false
  else if (dead && token < d.shape.vocab) || (!dead && (getAt none token k.vals).isSome) then d.finishEntry x q n e k token 0x20 rngAdv false
  else reject d

/-- The entry that waits for a hook. -/
def Dev.hooked (d : Dev) (req entry : Nat) : Option (TailReq × TailEntry) :=
  match d.tail.reqs.find? fun q => q.id == req with
  | none => none
  | some q => match q.entries[entry]? with
    | none => none
    | some e => match e.stage, e.status with
      | .hook _ _ _ _, none => some (q, e)
      | _, _ => none

/-- A hook reply reaches the sampler (R346). One past HOOK_NS is late. -/
def Dev.onHookReply (x : Ctx) (d : Dev) (req entry token rngAdv : Nat) : Dev :=
  match d.hooked req entry with
  | none => d
  | some (q, e) =>
    let posted := match e.stage with | .hook _ t _ _ => t | _ => d.now
    let late := posted + d.fld Reg.tailHookCtl 0 16 < d.now
    let d := if late then (d.bump Reg.tailHookLate 1).hookMissed x q entry e (d.pick x q entry e) 0x40
      else d.hookReply x q entry e token rngAdv
    d.settleTails x

/-- A hook reply (R346). -/
def execHookReply (req entry token rngAdv : Nat) (s : State) : Host.Outcome State Fault Refusal :=
  s.run fun x d => d.onHookReply x req entry token rngAdv

/-- A hook is late (R346, R581): its task is removed or stopped, and the built-in token stands. -/
def Dev.hookLate (x : Ctx) (d : Dev) (req entry : Nat) : Dev :=
  match d.hooked req entry with
  | none => d
  | some (q, e) =>
    (((d.dropHook x req entry).bump Reg.tailHookLate 1).hookMissed x q entry e (d.pick x q entry e) 0x40).settleTails x

/-- HOOK_NS expires (R346, R581): the hook is late, and its task is removed or stopped. -/
def execHookDeadline (req entry : Nat) (s : State) : Host.Outcome State Fault Refusal :=
  s.run fun x d => match d.hooked req entry with
    | some (_, e) => match e.stage with
      | .hook _ posted _ _ => if d.now < posted + d.fld Reg.tailHookCtl 0 16 then d else d.hookLate x req entry
      | _ => d
    | none => d

/-! ### Pipe faults (R309, R348, R136) -/

/-- A pipe gives up its entry: it is restarted from the staged image, or reads FAULT_UNIT where no other pipe is left (R348). -/
def Dev.dropPipe (x : Ctx) (d : Dev) (p : Nat) : Dev :=
  let mine := d.tail.reqs.flatMap fun q => (q.entries.zipIdx.filter fun e => match e.1.stage with
    | .running r => r == p
    | .hook r _ _ _ => r == p
    | _ => false).map fun e => (q, e.2, e.1)
  let d := mine.foldl (fun (d : Dev) m =>
    let d := d.dropHook x m.1.id m.2.1
    if ((List.range 4).any fun k => k != p && (d.pipe k).up) && d.now + lTail + 16 < m.1.deadline then
      (d.updTailEntry m.1.id m.2.1 fun e => { e with stage := .waiting, detail := 1, detail2 := 0 }).bump Reg.tailReissue 1
    else d.faultEntry m.1 m.2.1 m.2.2 .FAULT_UNIT) d
  d.settleTails x

/-- A pipe fails with its block (R348). -/
def Dev.losePipe (x : Ctx) (d : Dev) (p cause : Nat) : Dev := (d.pipeDown p cause).dropPipe x p

/-! ### TOPK_ROW (R338) -/

/-- The element format of TOPK_ROW's FMT. -/
def topkFmt : Nat → Fmt × Nat
  | 0 => (bf16, 2) | 1 => (fp16, 2) | _ => (fp32, 4)

/-- TOPK_ROW (R338). Without an online top-k unit it completes FAULT_UNIT (DESIGN CHOICE, log 30). -/
def execTopkRow (e : Entry) (s : State) : Host.Outcome State Fault Refusal :=
  s.ring e [(16, 1), (20, 20), (40, 2)] [(240, 16), (304, 16)] fun x d c =>
    let f := topkFmt (e.f 16 1)
    let n := e.f 20 4
    let k := e.f 40 2
    d.checked x c [(2 < e.f 16 1 || n == 0 || 1048576 < n || k == 0 || 4096 < k, .REFUSED_STATE), (!(d.tail.pipes.any (·.up)), .FAULT_UNIT)] fun d =>
      d.buffers x c [(e.f 24 6, n * f.2), (e.f 32 6, 8 * k)] fun d => d.source x c (e.f 24 6) (n * f.2) fun d =>
        let vals := (elemsOf f (d.ld x (e.f 24 6) (n * f.2)) n).map intakeVal
        let top := rankRow vals k
        let nValid := (vals.filter (·.isSome)).length
        let recs := top ++ List.replicate (k - top.length) (0xFFFFFFFF, 0xFF800000)
        let d := d.stBytes x (e.f 32 6) (recs.flatMap fun r => leBytes r.1 4 ++ leBytes r.2 4)
        let d := (if vals.any (·.isNone) then d.bump Reg.tailNonfinite 1 else d).chargeSome x (d.sqComp c) 2
        if nValid < k then (d.bump Reg.tailPartialCnt 1).finish x c .DONE_PARTIAL nValid else d.finish x c .DONE nValid

end Sys2Proof.Machine
end

