-- ==== Sys2Proof/Machine/TierOps.lean ====
section
/-! DEFINITION. Machine/TierOps.lean: tiles, target areas, manifests, and the shared parts of parks, revives and moves (R247 to R289). -/

namespace Sys2Proof.Machine

/-! ### Tiles (R264 to R266) -/

/-- Bytes of a tile, padded (R265). -/
def Dev.tileBytes (d : Dev) (p : Page) (valid : Nat) : Nat := cdiv (p.readBytes d.shape.d valid) 256 * 256

/-- Valid rows that a tile's header implies for a committed length. -/
def Tile.valid (t : Tile) (commitLen : Nat) : Nat := t.header.valid commitLen (256 * t.key.page)

/-- Whether a page cannot travel: MEDIA_BAD, a bad header, or an uncorrectable word (R273). -/
def Dev.tileBad (x : Ctx) (d : Dev) (k : PKey) (p : Page) (commitLen : Nat) : Bool :=
  d.pageBad x k p (p.valid commitLen (256 * k.page))

/-- The pages of an owner that cannot be read are found and reported (R151, R169, R273). -/
def Dev.reportUnread (x : Ctx) (d : Dev) (i : Nat) (o : POwner) (commitLen : Nat) : Dev :=
  (d.pagesOf o).foldl (fun (d : Dev) p => d.pageUnread x i p.1 p.2 (p.2.valid commitLen (256 * p.1.page))) d

/-- The bytes of a tile: the header with its address words 0 and TILE_CRC, the meta and payload bytes, padding (R265). -/
def Tile.bytes (t : Tile) (hd : Nat) : List Nat :=
  let body := leBytes t.metaVal t.metaLen ++ leBytes t.payVal t.payLen
  let h := ({ t.header with payload := 0, payload2 := 0, meta1 := 0 } : Page).pack t.key hd
  let bs := leBytes (withCrc256 (setBits h (8 * 0x78) 32 (crc32c body))) 256 ++ body
  bs ++ List.replicate (cdiv bs.length 256 * 256 - bs.length) 0

/-- Bytes of a session block (R264). -/
def ParkedImage.blockBytes (c : ParkedImage) : Nat := 1280 + (if c.lists.isSome then 36864 else 0)

/-- Bytes of a session block as they travel. -/
def ParkedImage.block (c : ParkedImage) : List Nat :=
  leBytes c.desc.pack 256 ++ c.gstack ++ (match c.lists with | some v => leBytes v 36864 | none => [])

/-- What a park or move of a session carries, and whether a page of it cannot be read. With `flat` the prefix's pages travel as private
ones (R283). -/
def Dev.contentOf (x : Ctx) (d : Dev) (i : Nat) (flat : Bool) : ParkedImage × Bool :=
  let s := d.desc i
  let own := d.pagesOf (.sess i)
  let shared := if flat && s.prefixId != 0xFFFFFFFF then
      ((d.pagesOf (.pfx s.prefixId)).filter fun p => (d.page ⟨.sess i, p.1.layer, p.1.head, p.1.page⟩).isNone) else []
  let all := sortBy (fun (a b : PKey × Page) => a.1.before b.1) (own ++ shared)
  let tiles := all.map fun p =>
    let t := d.tileOf x p.1 p.2 s.commitLen
    let kind := match t.header.kind with | .pfx => .closed | .pfxComa => .coma | k => k
    { t with key := { p.1 with owner := .sess i }, header := { t.header with kind := kind, prefixId := 0xFFFFFFFF } }
  let bad := (all.any fun p => d.tileBad x p.1 p.2 s.commitLen) || d.mediaBad s.gstackAddr 1024 ||
    (s.listsAddr != 0 && d.mediaBad s.listsAddr 36864)
  (⟨s, d.ldBytes x s.gstackAddr 1024, if s.listsAddr == 0 then none else some (d.ld x s.listsAddr 36864), tiles⟩, bad)

/-- Bytes of each tile of some content. -/
def Dev.tileSizes (d : Dev) (c : ParkedImage) : List Nat :=
  c.tiles.map fun t => d.tileBytes t.header (t.valid c.desc.commitLen)

/-- Bytes of each of `n` target areas over which an image of `total` bytes is striped (R266). -/
def stripeSizes (total n : Nat) : List Nat :=
  let mib := 0x100000
  (List.range n).map fun j => sumOf ((List.range (cdiv total mib)).map fun k => if k % n == j then min mib (total - k * mib) else 0)

/-- Bytes of each of `n` target areas (R266). -/
def Dev.areaSizes (d : Dev) (c : ParkedImage) (image : Bool) (n : Nat) : List Nat :=
  let ts := d.tileSizes c
  if image then stripeSizes (256 + c.blockBytes + sumOf ts) n
  else (List.range n).map fun j =>
    (if j == 0 then c.blockBytes else 0) + sumOf ((ts.zipIdx.filter fun t => t.2 % n == j).map (·.1))

/-! ### Target areas (R272, R293, R294, R299, R540, R629) -/

/-- Bytes of a loan unit. -/
def Dev.unitBytes (d : Dev) : Nat := 16384 * d.slotBytes

/-- The window of a lender: its number (R485). -/
def Dev.windowOf (d : Dev) (peer : Nat) : Option Nat :=
  (List.range 64).find? fun w => bit (d.reg (Reg.fabWin w)) 31 && d.fld (Reg.fabWin w) 0 16 == peer

/-- The base address of a window (R81). -/
def windowBase (w : Nat) : Nat := 0xC00000000000 + w * 0x10000000000

/-- What the checkpoint store holds in a tier: places and bytes (R436). -/
def Dev.storePlaces (d : Dev) (tier : Nat) : List (Nat × Nat) :=
  ((d.ckpt.shards.filter fun s => s.target.tier == tier).map fun s => (s.place, s.bytes)) ++
    (d.ckpt.cats.filter fun c => c.target.tier == tier).map fun c => (c.place, c.bytes)

/-- A place in T2: within one unit of a reachable loan that passes a test, where no REVOKE names the unit. -/
def Dev.placeT2In (d : Dev) (p : Loan → Bool) (bytes : Nat) : Option (Nat × Nat × Nat) :=
  (d.tier.borrowed.filter p).findSome? fun l => match d.windowOf l.peer with
    | none => none
    | some w => if !l.reachable then none else l.units.findSome? fun u =>
      if (match l.revoking with | some r => r.1 == u | none => false) then none
      else
        let base := windowBase w + u * d.unitBytes
        let held := (d.tier.t2.map fun a => (a.1, a.2.1)) ++ d.storePlaces 2
        let taken := (held.filter fun a => base ≤ a.1 && a.1 < base + d.unitBytes).map fun a =>
          ((a.1 - base) / 256 + 1 - cdiv bytes 256, cdiv (a.1 - base + a.2) 256)
        (pickFree taken (d.unitBytes / 256 + 1 - cdiv bytes 256) (Config.placeHint d.free)).map fun k => (base + 256 * k, l.number, u)

/-- A place for a T2 area. -/
def Dev.placeT2 (d : Dev) (bytes : Nat) : Option (Nat × Nat × Nat) := d.placeT2In (fun _ => true) bytes

/-- Bytes that PP has mapped (R299, R552). -/
def Dev.poolBytes (d : Dev) : Nat := if d.hif.ppUp then d.fld Reg.hifPpStat 0 13 * gib else 0

/-- A place for a T3 area: a run of 2 MiB extents. -/
def Dev.placeT3 (d : Dev) (bytes : Nat) : Option Nat :=
  let n := cdiv bytes 0x200000
  let base := 0x800000000000
  let held := (d.tier.t3.map fun a => (a.1, 0x200000 * a.2.1)) ++ d.storePlaces 3
  let taken := held.map fun a => ((a.1 - base) / 0x200000 + 1 - n, cdiv (a.1 - base + a.2) 0x200000)
  (pickFree taken (d.poolBytes / 0x200000 + 1 - n) (Config.placeHint d.free)).map fun k => base + 0x200000 * k

/-- Whether T4 can hold anything: an HRQ exists and a store key is held. -/
def Dev.t4Open (d : Dev) : Bool := d.hif.hrq.isSome && d.sec.storeKey.isSome

/-- Place one target area of a size in the fastest tier of a chain that has room. -/
def Dev.placeArea (d : Dev) (first last bytes object : Nat) : Option (Dev × Target) :=
  let d' := { d with free := d.free + 1 }
  let two := if first ≤ 2 && 2 ≤ last then d.placeT2 bytes else none
  let three := if first ≤ 3 && 3 ≤ last then d.placeT3 bytes else none
  match two, three with
  | some (a, loan, u), _ => some ({ d' with tier := { d.tier with t2 := d.tier.t2 ++ [(a, bytes, loan, u)] } }, ⟨a, bytes, 2, loan⟩)
  | none, some a => some ({ d' with tier := { d.tier with t3 := d.tier.t3 ++ [(a, cdiv bytes 0x200000, 0)] } }, ⟨a, bytes, 3, 0⟩)
  | none, none => if 4 ≤ last && d.t4Open then some (d', ⟨object, bytes, 4, 0⟩) else none

/-- Place several areas; none where one does not fit. -/
def Dev.placeAreas (d : Dev) (first last object : Nat) : List Nat → Option (Dev × List Target)
  | [] => some (d, [])
  | b :: t => match d.placeArea first last b object with
    | none => none
    | some (d, a) => (d.placeAreas first last (object + 1) t).map fun r => (r.1, a :: r.2)

/-- The smallest number of targets, not over a limit, for which every area fits (R272). -/
def Dev.placeContent (d : Dev) (c : ParkedImage) (image : Bool) (first last stripeN object : Nat) : Option (Dev × List Target) :=
  ((List.range stripeN).map (· + 1)).findSome? fun n => d.placeAreas first last object (d.areaSizes c image n)

/-- Release target areas. -/
def Dev.releaseTargets (x : Ctx) (d : Dev) (ts : List Target) : Dev := ts.foldl (fun d t => d.releaseTarget x t) d

/-- Whether a target can be reached (R278). -/
def Dev.reachable (d : Dev) (t : Target) : Bool :=
  match t.tier with
  | 2 => d.tier.borrowed.any fun l => l.number == t.loan && l.reachable &&
      (match d.windowOf l.peer with | some w => windowBase w ≤ t.location && t.location < windowBase (w + 1) | none => false)
  | 3 => d.hif.ppUp
  | 4 => d.t4Open
  | _ => true

/-- The lender of a T2 location. -/
def Dev.lenderAt (d : Dev) (a : Nat) : Nat := d.fld (Reg.fabWin ((a - 0xC00000000000) / 0x10000000000)) 0 16

/-- The transfer over the Ecliptic that a message owner's work is part of. -/
def MsgOwner.stream : MsgOwner → Option EclOp
  | .park i _ _ => some (.stream 1 i)
  | .revive i _ => some (.stream 1 i)
  | .shard n => some (.stream 3 n)
  | _ => Option.none

/-- The bytes of a target area cross the Ecliptic between the stacks and a port, in class BULK (R37). -/
def Dev.bulkOf (d : Dev) (port block bytes : Nat) (out : Bool) (o : MsgOwner) : Dev :=
  match o.stream with | some op => d.crossBulk port block bytes out op | none => d

/-- What a session's park or revive had crossing has ended. -/
def Dev.streamEnds (d : Dev) (i : Nat) : Dev := d.crossed fun o => o == .stream 1 i

/-- Start the transfer of a target area: over CVF to a lender in messages of at most 1 MiB, through PP, or as a host request (R272,
R276, R486, R538). The answer gives the transfers that an acknowledgement will answer, and whether the transfer could start. -/
def Dev.transfer (x : Ctx) (d : Dev) (t : Target) (write : Bool) (origin cls : Nat) (msg : MsgOwner) (req : T4Owner) : Dev × Nat × Bool :=
  match t.tier with
  | 2 =>
    let dst := d.lenderAt t.location
    let port := (d.route dst).getD 0
    let d := d.bulkOf (eclCvf port) (Reg.cvfPace port) t.tbytes write msg
    (List.range (cdiv t.tbytes 0x100000)).foldl (fun (a : Dev × Nat × Bool) k =>
      let len := min 0x100000 (t.tbytes - k * 0x100000)
      let off := t.location % 0x10000000000 + k * 0x100000
      let (d, ok) := a.1.sendTo dst (if write then 0x11 else 0x13) cls (if write then "MEM_WR" else "MEM_RD") (if write then 16 + len else 16) [off, len] none t.loan msg
      (d, a.2.1 + ofB ok, a.2.2 && ok)) (d, 0, true)
  | 3 => if d.hif.ppUp then ((d.bulkOf eclHif 0 t.tbytes write msg).send (.pool write t.location t.tbytes), 0, true) else (d, 0, false)
  | 4 =>
    if d.hif.hrq.isSome then ((d.bulkOf eclHif 0 t.tbytes write msg).hostRequest x (if write then 1 else 2) origin t.location 0 (d.gibBase Reg.ckptBufBase)
      t.tbytes req, 1, true)
    else (d, 0, false)
  | _ => (d, 0, true)

/-- Read a part of a target area once more: `len` bytes from an offset in it (R266, R278). -/
def Dev.rereadPart (x : Ctx) (d : Dev) (t : Target) (off len : Nat) (msg : MsgOwner) (req : T4Owner) : Dev × Bool :=
  match t.tier with
  | 4 => if d.hif.hrq.isSome then (d.hostRequest x 2 2 t.location off (d.gibBase Reg.ckptBufBase) len req, true) else (d, false)
  | _ =>
    let (d, _, ok) := d.transfer x ⟨t.location + off, len, t.tier, t.loan⟩ false 2 2 msg req
    (d, ok)

/-- Where part n of some content lies in tile mode, as (target, offset, bytes): tile n, or as number `tiles` the session block (R266). -/
def Dev.partPlace (d : Dev) (c : ParkedImage) (targets n : Nat) : Nat × Nat × Nat :=
  let ts := d.tileSizes c
  if ts.length ≤ n then (0, 0, c.blockBytes)
  else
    let j := n % max 1 targets
    (j, (if j == 0 then c.blockBytes else 0) + sumOf ((ts.zipIdx.filter fun t => t.2 < n && t.2 % max 1 targets == j).map (·.1)), getAt 0 n ts)

/-- A target area that does not find room in T2 makes the device ask the lender that has offered most for the units it lacks (R272 step 2, R293). DESIGN
CHOICE (log 34): whom to ask is not given, and the area does not wait for the grant. -/
def Dev.askLoan (d : Dev) (first last : Nat) (sizes : List Nat) : Dev :=
  let short := sizes.filter fun b => (d.placeT2 b).isNone
  let best := minBy (fun (a b : Nat × Nat) => decide (b.2 < a.2)) d.tier.offers
  match best with
  | some o =>
    if first ≤ 2 && 2 ≤ last && bit (d.reg Reg.sessLendCtl) 30 && !short.isEmpty && o.2 != 0 then
      d.sendNote o.1 0x30 5 "LOAN_REQ" 64 [min o.2 (cdiv (sumOf short) (max 1 d.unitBytes))] 0
    else d
  | none => d

/-! ### Manifests (R268, R269) -/

/-- The 256 B of a manifest. -/
def Manifest.pack (m : Manifest) (sh : Shape) : Nat :=
  withCrc256 (packFields ([(0x00, 4, 1 + ofB m.image * 0x100 + ofB m.inPlace * 0x200 + ofB m.lost * 0x400 + ofB m.flat * 0x800 +
      m.targets.length % 16 * 0x1000 + m.lostMap % 256 * 0x10000), (0x04, 4, m.tiles), (0x08, 8, m.bytes), (0x10, 4, m.commitLen),
    (0x14, 2, sh.layers), (0x16, 1, sh.hkv), (0x17, 1, hdimCode sh.d), (0x18, 8, m.parkStamp), (0xA0, 4, m.imgCrc)] ++
    m.targets.zipIdx.flatMap fun t => [(0x20 + 16 * t.2, 8, t.1.location), (0x28 + 16 * t.2, 6, t.1.tbytes), (0x2E + 16 * t.2, 1, t.1.tier),
      (0x2F + 16 * t.2, 1, t.1.loan)]))

/-- Write a manifest. -/
def Dev.putManifest (x : Ctx) (d : Dev) (i : Nat) (m : Manifest) : Dev :=
  ({ d with tier := { d.tier with manifests := tblSet i m d.tier.manifests } } : Dev).st x (d.manifestAddr i) 256 (m.pack d.shape)

/-- The bytes of an image: its header, which is the manifest with the target words zero, the session block, and every tile (R266). -/
def Dev.imageBytes (d : Dev) (c : ParkedImage) (m : Manifest) : List Nat :=
  let zero : Target := ⟨0, 0, 0, 0⟩
  leBytes (({ m with targets := m.targets.map fun _ => zero } : Manifest).pack d.shape) 256 ++ c.block ++ c.tiles.flatMap fun t => t.bytes d.shape.d

/-- The manifest of a park of some content at a stamp. IMG_CRC covers the image: its header is the manifest with the target words zero, and with IMG_CRC
zero as it is not yet known (DEDUCED, log 34), then the session block and every tile (R266, R268). -/
def Dev.manifestOf (d : Dev) (c : ParkedImage) (image flat : Bool) (ts : List Target) : Manifest :=
  let m : Manifest := ⟨image, false, false, flat, 0, c.tiles.length, sumOf (ts.map (·.tbytes)), c.desc.commitLen, d.now, ts, 0⟩
  if image then
    { m with imgCrc := crc32c (d.imageBytes c m) }
  else m

/-- TIER of a parked session: the slowest among its targets. -/
def slowest (ts : List Target) : Nat := (ts.map (·.tier)).foldl max 1

/-! ### Leaving and entering T1 -/

/-- Space that waits is released: the oldest entry of an owner that satisfies a test (R167 step 5, R272 step 5, R282 step 5). -/
def Dev.releaseFrames (x : Ctx) (d : Dev) (p : FrameRelease → Bool) : Dev :=
  match d.kv.releases.find? p with
  | none => d
  | some r =>
    let d := { d with kv := { d.kv with releases := d.kv.releases.eraseP p } }
    ((d.freeSlots r.slots).freeAreas fun u => r.areas.contains u.addr).releaseTargets x r.targets

/-- Queued compressions of a session are withdrawn, its fade trials dropped (R170, R173). DESIGN CHOICE (log 52): a running pass is abandoned and withdrawn
with them, where R170 names the queued ones. -/
def Dev.withdraw (d : Dev) (i : Nat) : Dev :=
  let o := POwner.sess i
  let keys := (d.kv.passes.filter fun p => p.key.owner == o).map (·.key) ++ d.kv.deferred.filter fun k => k.owner == o
  let old := d.kv.withdrawn
  let d := d.stopPasses o
  { d with kv := { d.kv with withdrawn := old ++ keys } }

/-- Withdrawn passes of a session that is resident again are queued again (R170). -/
def Dev.requeue (d : Dev) (i : Nat) : Dev :=
  let mine := d.kv.withdrawn.filter fun k => k.owner == POwner.sess i
  let still := mine.filter fun k => match d.page k with | some p => p.kind == .full | none => false
  { d with kv := { d.kv with withdrawn := d.kv.withdrawn.filter (fun k => k.owner != POwner.sess i),
                             passes := d.kv.passes ++ still.map fun k => (⟨k, none⟩ : CompPass) } }

/-- The T1 space that some content needs for an index: root, directories, areas, header blocks and slots, placed by R252 and R253. -/
def Dev.reserveT1 (x : Ctx) (d : Dev) (i : Nat) (c : ParkedImage) : Option Dev :=
  let pfx := if c.desc.prefixId == 0xFFFFFFFF then none else some c.desc.prefixId
  let kinds := [AreaKind.root, .gstack] ++ (if c.lists.isSome then [AreaKind.lists] else []) ++ (List.range d.shape.layers).map AreaKind.dir
  match d.allocAll (.sess i) kinds with
  | none => none
  | some d =>
    let d := d.linkTables x i pfx
    c.tiles.foldl (fun (a : Option Dev) t => a.bind fun d =>
      let n := match t.header.kind with | .coma | .full => 2 | _ => 1
      let k : PKey := { t.key with owner := .sess i }
      (d.allocSlots x k n true false).bind fun r => r.1.ownBlock x i k.layer k.head (k.page / 64) false) (some d)

/-- A page's header at the frames that it got. -/
def Page.at (p : Page) (slots : List Nat) (hd : Nat) : Page :=
  match slots with
  | [a, b] => { p with payload := a, payload2 := b, meta1 := a + 256 * hd }
  | a :: _ => { p with payload := a, payload2 := 0, meta1 := a + 256 * hd }
  | [] => p

/-- A tile lands: its bytes go to the slots of its page. -/
def Dev.landTile (x : Ctx) (d : Dev) (i : Nat) (t : Tile) (commitLen : Nat) : Dev :=
  let p := t.header.at (d.pageSlots { t.key with owner := .sess i }) d.shape.d
  let (m, ml, ps) := d.tileParts p (t.valid commitLen)
  let d := d.st x m ml t.metaVal
  (ps.foldl (fun (a : Dev × Nat) r => (a.1.st x r.1 r.2 (a.2 % 2 ^ (8 * r.2)), a.2 / 2 ^ (8 * r.2))) (d, t.payVal)).1

/-- The headers of landed tiles, the grammar stack and the list block; FULL pages are queued for compression (R276 step 4, R277). -/
def Dev.buildTables (x : Ctx) (d : Dev) (i : Nat) (c : ParkedImage) : Dev :=
  let d := c.tiles.foldl (fun (d : Dev) t =>
    let k : PKey := { t.key with owner := .sess i }
    let d := d.putPage x k (t.header.at (d.pageSlots k) d.shape.d)
    if t.header.kind == .full then { d with kv := { d.kv with passes := d.kv.passes ++ [(⟨k, none⟩ : CompPass)] } } else d) d
  let d := d.stBytes x ((d.area (.sess i) .gstack).getD 0) c.gstack
  match c.lists with
  | some v => d.st x ((d.area (.sess i) .lists).getD 0) 36864 v
  | none => d

/-- The addresses of a session's structures in its descriptor. -/
def Dev.placed (d : Dev) (i : Nat) (s : Desc) : Desc :=
  { s with ptRoot := (d.area (.sess i) .root).getD 0, gstackAddr := (d.area (.sess i) .gstack).getD 0,
           listsAddr := (d.area (.sess i) .lists).getD 0 }

/-! ### Modes (R14, R267) -/

/-- The checks of tile mode. -/
def Dev.tileMode (x : Ctx) (d : Dev) (image : Bool) : List (Bool × Status) :=
  [(!image && !x.fuses.part.tileMove, .NOT_PRESENT), (!image && bit (d.reg Reg.sessMoveCtl) 31, .REFUSED_STATE)]

/-! ### Ends of parks and revives (R104, R272, R273, R278) -/

/-- What the local part of a ring command leaves to report: the ring, the session's index and the status (R275). -/
structure Report1 where
  ring : Nat
  idx : Nat
  status : Status

/-- The local part of an operation ends: its command completes, or, in a ring command, the report is recorded at the head or sent to it
(R275). -/
def Dev.localDone (x : Ctx) (d : Dev) (ring : Option Nat) (c : Option Cmd) (i : Nat) (st : Status) (result : Nat) : Dev :=
  match ring with
  | none => d.finish? x c st result
  | some id => match d.attn.rings.find? fun r => r.id == id with
    | none => d.finish? x c st result
    | some r => match r.bindings.find? fun b => b.idx == i with
      | none => d
      | some b =>
        if r.pos == 0 then
          let add := fun (o : RingOp) => { o with reports := o.reports ++ [(0, st)], result := result }
          d.updRing id fun r => { r with ops := replaceFirst (fun (o : RingOp) => o.rsn == b.rsn && o.kind != 3) add r.ops }
        else (d.sendTo r.headAddr 0x06 0 "REPORT" 64 [r.tag, b.rsn, r.pos, st.code] none r.id (.ring id)).1

/-- The outcome of a move tag is kept: the last 1,024 (R285). -/
def Dev.keepOutcome (d : Dev) (tag : Nat) (ok : Bool) : Dev :=
  let l := d.tier.outcomes.filter (fun o => o.1 != tag) ++ [(tag, ok)]
  { d with tier := { d.tier with outcomes := l.drop (l.length - 1024) } }

/-- Whether a status says that a command was refused (R26). -/
def Status.refuses (st : Status) : Bool := st == .REFUSED_STATE || st == .REFUSED_RESOURCE || st == .NOT_PRESENT

/-- A move in ends without the session: its copy is released, its index is VOID, and its command completes (R104, R281, R284). One that is refused leaves
the index, its generation and the outcomes as they were (R26). -/
def Dev.endMoveIn (x : Ctx) (d : Dev) (m : MoveIn) (st : Status) : Dev :=
  let d := d.releaseTargets x (m.targets ++ (d.tier.parks.filter fun p => p.idx == m.idx).flatMap (·.targets))
  let d := { d with tier := { d.tier with movesIn := d.tier.movesIn.filter (fun q => q.idx != m.idx), parks := d.tier.parks.filter fun p => p.idx != m.idx } }
  let d := (d.freeResident m.idx).voidIdx x m.idx (if st.refuses then m.former.1 else (d.desc m.idx).gen)
  let d := if !st.refuses then d.keepOutcome m.tag false
    else if d.sess.lastAlloc == m.idx then { d with sess := { d.sess with lastAlloc := m.former.2 } } else d
  d.finish x m.cmd st 0

/-- The end of a position's part of a ring move is told to the other positions of its ring: by the head to its members, by a member to its head (R288).
READY reports of the ring session go. -/
def Dev.tellRing (d : Dev) (m : MoveIn) (st : Status) : Dev :=
  match m.ring with
  | none => d
  | some g => match d.attn.rings.find? fun (r : Ring) => r.id == g.ringId with
    | none => d
    | some r =>
      if r.pos == 0 then
        (d.updRing r.id fun r => { r with ops := r.ops.filter fun o => !(o.rsn == g.rsn && o.kind == 3) }).ringRecord r "MOVE_ABORT" [m.tag, st.code]
      else d.sendNote r.headAddr 0x10 2 "MOVE_ABORT" 64 [m.tag, st.code] r.id

/-- A move in fails: the source, and in a ring move the other positions, are told (R284, R288). -/
def Dev.failMoveIn (x : Ctx) (d : Dev) (m : MoveIn) (st : Status) : Dev :=
  ((d.sendNote m.src 0x10 2 "MOVE_ABORT" 64 [m.tag, st.code] 0).tellRing m st).endMoveIn x m st

/-- A park ends without parking: its areas are released and the session is as before (R104, R273). The park that a move-in writes ends the move (R284). -/
def Dev.endPark (x : Ctx) (d : Dev) (p : ParkOp) (st : Status) : Dev :=
  let d := (d.streamEnds p.idx).releaseTargets x p.targets
  let d := { d with tier := { d.tier with parks := d.tier.parks.filter fun q => q.idx != p.idx } }
  if p.demotion then d
  else match d.tier.movesIn.find? fun m => m.idx == p.idx with
    | some m => d.failMoveIn x m st
    | none => ((d.setState x p.idx .idle .none).requeue p.idx).localDone x p.ring p.cmd p.idx st 0

/-- A revive ends without reviving: its reservation is released and the session is PARKED as before (R278). -/
def Dev.endRevive (x : Ctx) (d : Dev) (r : ReviveOp) (st : Status) : Dev :=
  let d := (d.streamEnds r.idx).freeResident r.idx
  let d := { d with tier := { d.tier with revives := d.tier.revives.filter fun q => q.idx != r.idx, reviveWaiters := d.tier.reviveWaiters.filter fun j => j != r.idx } }
  (d.setState x r.idx .parked .none).localDone x r.ring r.cmd r.idx st 0

/-- The result word of SESS_PARK (R270). -/
def parkResult (ts : List Target) (written : Nat) : Nat := slowest ts + ts.length * 16 + cdiv written 0x100000 % 2 ^ 24 * 256

/-- Whether a park may take a session in place (R271). -/
def Dev.inPlaceOk (x : Ctx) (d : Dev) : Bool := !(d.freeBelow x (d.fld Reg.sessPoolWater 0 8))

/-- A park in place (R271): the manifest, then one descriptor write. DESIGN CHOICE (log 52): the session's passes are withdrawn here too, where no TRANSIT is
entered, and queued again at its revive (R170). -/
def Dev.parkInPlace (x : Ctx) (d : Dev) (i : Nat) (ring : Option Nat) (c : Option Cmd) (image : Bool) : Dev :=
  let d := d.withdraw i
  let (content, _) := d.contentOf x i false
  let s := d.desc i
  let bytes := sumOf (d.areaSizes content image 1)
  let m : Manifest := ⟨image, true, false, false, 0, content.tiles.length, bytes, s.commitLen, d.now, [⟨s.ptRoot, bytes, 1, 0⟩], 0⟩
  let d := d.putManifest x i m
  let d := d.putDesc x i { s with state := .parked, sub := .none, tier := 1, image := image, stripeN := 1, locAddr := d.manifestAddr i, lastStamp := d.now }
  ((d.bump Reg.sessParkCnt 1).life 3 i 1).localDone x ring c i .DONE (1 + 16)

/-- Start the writes of a park (R272 step 3). A target whose transfer cannot start fails the park with FAULT_LINK. -/
def Dev.startWrites (x : Ctx) (d : Dev) (p : ParkOp) : Dev :=
  let (d, waits, ok) := p.targets.zipIdx.foldl (fun (a : Dev × List (Nat × Nat × Nat) × Bool) t =>
    let (d, k, ok) := a.1.transfer x t.1 true 1 2 (.park p.idx t.2 t.1.tier) (.park p.idx t.2)
    (d, a.2.1 ++ [(t.2, t.1.tier, k)], a.2.2 && ok)) (d, [], true)
  let d := { d with tier := { d.tier with parks := d.tier.parks ++ [({ p with waits := waits } : ParkOp)] } }
  if ok then d else d.endPark x p .FAULT_LINK

/-- Park a session outside T1 (R272): TRANSIT, areas reserved, writes started. A page that cannot be read ends it with FAULT_MEDIA
(R273). -/
def Dev.parkOut (x : Ctx) (d : Dev) (i : Nat) (ring : Option Nat) (c : Option Cmd) (image demotion : Bool) (first last stripeN store : Nat) : Dev :=
  let (content, bad) := d.contentOf x i false
  let d := d.askLoan (max 2 first) last (d.areaSizes content image stripeN)
  match d.placeContent content image (max 2 first) last stripeN store with
  | none => d.localDone x ring c i .REFUSED_RESOURCE 0
  | some (d, ts) =>
    let d := if demotion then d else (d.setState x i .transit .parking).withdraw i
    let p : ParkOp := ⟨i, c, demotion, image, max 2 first, last, stripeN, store, ts, content, [], ring⟩
    if bad then (d.reportUnread x i (.sess i) content.desc.commitLen).endPark x p .FAULT_MEDIA else d.startWrites x p

/-- The last write of a park is acknowledged (R272 step 4, R291): the manifest, then one descriptor write, then the completion. -/
def Dev.parkDone (x : Ctx) (d : Dev) (p : ParkOp) : Dev :=
  let i := p.idx
  let d := d.streamEnds i
  let m := d.manifestOf p.content p.image false p.targets
  let d := { d with tier := { d.tier with parks := d.tier.parks.filter fun q => q.idx != i, images := tblSet i p.content d.tier.images } }
  let d := d.putManifest x i m
  let d := d.updDesc x i fun s => { s with state := .parked, sub := .none, tier := slowest p.targets, image := p.image, stripeN := p.targets.length,
                                           locAddr := d.manifestAddr i, ptRoot := 0, lastStamp := d.now }
  let d := (d.retireResident i)
  let d := if p.demotion then d else (d.bump Reg.sessParkCnt 1).life 3 i (slowest p.targets)
  let d := if p.cmd.isNone && p.ring.isNone then (d.bump Reg.sessAutoparkCnt 1).event x 1 (d.handleOf i) (ofB p.demotion) 0 else d
  d.localDone x p.ring p.cmd i .DONE (parkResult p.targets m.bytes)

/-- Change a park. -/
def Dev.updPark (d : Dev) (i : Nat) (f : ParkOp → ParkOp) : Dev :=
  { d with tier := { d.tier with parks := replaceFirst (fun (q : ParkOp) => q.idx == i) f d.tier.parks } }

/-- Transfers of a park that have not been acknowledged. -/
def ParkOp.waiting (p : ParkOp) : Nat := sumOf (p.waits.map (·.2.2))

/-- A write of a park to an area fails, or its unit is revoked: the area is abandoned and placed again in the next tier of the chain; with the
chain exhausted the park completes FAULT_LINK (R273). What an abandoned area still answers counts no more. -/
def Dev.parkFailed (x : Ctx) (d : Dev) (i target tier : Nat) : Dev :=
  match d.tier.parks.find? fun p => p.idx == i with
  | none => d
  | some p => match p.targets[target]? with
    | none => d
    | some t =>
      if t.tier != tier then d
      else
        let d := d.releaseTarget x t
        match d.placeArea (t.tier + 1) p.last t.tbytes (p.storeBase + target) with
        | none => d.endPark x { p with targets := p.targets.eraseIdx target } .FAULT_LINK
        | some (d, t') =>
          let (d, n, ok) := d.transfer x t' true 1 2 (.park i target t'.tier) (.park i target)
          let ts := p.targets.set target t'
          let d := d.updPark i fun q => { q with targets := ts, waits := q.waits.filter (fun w => w.1 != target) ++ [(target, t'.tier, n)] }
          if ok then d else d.endPark x { p with targets := ts } .FAULT_LINK

/-- One transfer of a park to an area is acknowledged. -/
def Dev.parkAck (d : Dev) (i target tier : Nat) : Dev :=
  d.updPark i fun q => { q with waits := replaceFirst (fun (w : Nat × Nat × Nat) => w.1 == target && w.2.1 == tier) (fun w => (w.1, w.2.1, w.2.2 - 1)) q.waits }

/-- A demotion of a session is abandoned (R291). -/
def Dev.dropDemotion (x : Ctx) (d : Dev) (i : Nat) : Dev :=
  match d.tier.parks.find? fun p => p.idx == i && p.demotion with
  | some p => d.endPark x p .DONE
  | none => d

/-! ### Revives (R276 to R279) -/

/-- What a ring record revives is kept as it was parked, in case another position fails (R275). -/
def Dev.keepUndo (d : Dev) (ring : Option Nat) (i : Nat) (image : Option ParkedImage) : Dev :=
  match ring, tblGet i d.tier.manifests with
  | some _, some m => { d with tier := { d.tier with undo := d.tier.undo.filter (fun u => u.idx != i) ++ [(⟨i, m, image⟩ : RevivedFrom)] } }
  | _, _ => d

/-- A ring revive is over: the areas that were kept for its undoing are released (R276). DEDUCED (log 33): at a member the next leg or record for the
session tells it. -/
def Dev.dropUndo (x : Ctx) (d : Dev) (i : Nat) : Dev :=
  match d.tier.undo.find? fun u => u.idx == i with
  | none => d
  | some u =>
    let d := { d with tier := { d.tier with undo := d.tier.undo.filter fun u => u.idx != i } }
    if u.image.isSome then d.releaseTargets x u.manifest.targets else d

/-- A session that a ring record revived returns to the state in which it was parked (R275): its manifest, its targets and its mode. -/
def Dev.unrevive (x : Ctx) (d : Dev) (i : Nat) : Dev :=
  match d.tier.undo.find? fun u => u.idx == i with
  | none => d
  | some u =>
    let d := { d with tier := { d.tier with undo := d.tier.undo.filter fun u => u.idx != i } }
    let d := (d.withdraw i).putManifest x i u.manifest
    let d := d.updDesc x i fun s => { s with state := .parked, sub := .none, tier := slowest u.manifest.targets, image := u.manifest.image,
                                             stripeN := u.manifest.targets.length, locAddr := d.manifestAddr i, lastStamp := d.now }
    match u.image with
    | none => d
    | some c => (({ d with tier := { d.tier with images := tblSet i c d.tier.images } } : Dev).updDesc x i fun s => { s with ptRoot := 0 }).retireResident i

/-- A revive of a session parked in place: one descriptor write (R279). -/
def Dev.reviveInPlace (x : Ctx) (d : Dev) (i : Nat) (ring : Option Nat) (c : Option Cmd) : Dev :=
  let d := (d.dropDemotion x i).keepUndo ring i none
  let d := { d with tier := { d.tier with manifests := tblDel i d.tier.manifests } }
  let d := d.updDesc x i fun s => { s with state := .idle, sub := .none, stripeN := 0, locAddr := 0, tier := d.tierOf i, lastStamp := d.now }
  (((d.requeue i).bump Reg.sessReviveCnt 1).life 4 i 0).localDone x ring c i .DONE 0

/-- Step 1 of a revive (R267, R276, R278): its mode is tested and the manifest checked, then the session is REVIVING. -/
def Dev.startRevive (x : Ctx) (d : Dev) (i : Nat) (ring : Option Nat) (c : Option Cmd) : Dev :=
  match tblGet i d.tier.manifests, firstFail (d.tileMode x (d.desc i).image) with
  | _, some st => d.localDone x ring c i st 0
  | none, _ => d.localDone x ring c i .FAULT_MEDIA 0
  | some m, none =>
    if d.manifestBad x i then (d.eccRead (d.manifestAddr i) 256 true).localDone x ring c i .FAULT_MEDIA 0
    else if m.inPlace then d.reviveInPlace x i ring c
    else if m.lost then d.localDone x ring c i .FAULT_MEDIA 0
    else if !(m.targets.all fun t => d.reachable t) then d.localDone x ring c i .FAULT_LINK 0
    else if !(d.canPin i) then d.localDone x ring c i .REFUSED_RESOURCE 0
    else
      let d := d.setState x i .reviving .none
      { d with tier := { d.tier with revives := d.tier.revives ++ [(⟨i, c, false, [], [], [], [], ring⟩ : ReviveOp)] } }

/-- Parts that a revive or move-in waits for: in tile mode every tile and, as number `tiles`, the session block; in whole-image mode
every stripe of 1 MiB. -/
def partsOf (image : Bool) (tiles bytes : Nat) : Nat := if image then cdiv bytes 0x100000 else tiles + 1

/-- The content is whole: tables are built and, in one descriptor write, the session is IDLE; its targets are released (R276). -/
def Dev.reviveDone (x : Ctx) (d : Dev) (r : ReviveOp) (m : Manifest) (c : ParkedImage) : Dev :=
  let i := r.idx
  let d := (d.streamEnds i).keepUndo r.ring i (some c)
  let d := if m.image then c.tiles.foldl (fun (d : Dev) t => d.landTile x i t c.desc.commitLen) d else d
  let d := d.buildTables x i c
  let d := { d with tier := { d.tier with revives := d.tier.revives.filter fun q => q.idx != i, manifests := tblDel i d.tier.manifests,
                                          images := tblDel i d.tier.images } }
  let d := d.updDesc x i fun s => { d.placed i s with state := .idle, sub := .none, stripeN := 0, locAddr := 0, lastStamp := d.now }
  let d := d.updDesc x i fun s => { s with tier := d.tierOf i }
  let d := { d with kv := { d.kv with withdrawn := d.kv.withdrawn.filter fun k => k.owner != POwner.sess i } }
  let d := (d.bump Reg.sessReviveCnt 1).life 4 i 0
  let d := d.localDone x r.ring r.cmd i .DONE 0
  if r.ring.isSome then d else d.releaseTargets x m.targets

/-- A tile or stripe of a revive lands (R276, R278). A tile that fails TILE_CRC is read once more from its target. -/
def Dev.reviveTile (x : Ctx) (d : Dev) (r : ReviveOp) (m : Manifest) (c : ParkedImage) (n : Nat) (ok : Bool) : Dev :=
  let upd := fun (d : Dev) (r : ReviveOp) => { d with tier := { d.tier with revives := replaceFirst (fun (q : ReviveOp) => q.idx == r.idx) (fun _ => r) d.tier.revives } }
  if !r.reserved || r.landed.contains n || partsOf m.image m.tiles m.bytes ≤ n then d
  else if !ok then
    if m.image || r.reread.contains n then d.endRevive x r .FAULT_MEDIA
    else
      let d := upd d { r with reread := n :: r.reread }
      let (j, off, len) := d.partPlace c m.targets.length n
      match m.targets[j]? with
      | none => d
      | some t => match d.rereadPart x t off len (.revive r.idx j) (.revive r.idx j) with
        | (d, true) => d
        | (d, false) => d.endRevive x r .FAULT_LINK
  else
    let d := if m.image then d else match c.tiles[n]? with
      | some t => d.landTile x r.idx t c.desc.commitLen
      | none => d
    let r := { r with landed := n :: r.landed }
    if r.landed.length == partsOf m.image m.tiles m.bytes then d.reviveDone x r m c else upd d r

end Sys2Proof.Machine
end

