-- ==== Sys2Proof/Machine/Rings.lean ====
section
/-! DEFINITION. Machine/Rings.lean: orbit rings: forming, binding and closing, the legs of ring requests, the records that drive the
members, and the loss of a member (R224 to R241, R275). -/

namespace Sys2Proof.Machine

/-- A ring of a local number. -/
def Dev.ringAt (d : Dev) (id : Nat) : Option Ring := d.attn.rings.find? fun r => r.id == id

/-- Whether a session is bound at a member that is not its ring's head: there its host's session commands are refused (R228). -/
def Dev.memberBound (d : Dev) (i : Nat) : Bool := match d.bindingOf i with | some (r, _) => r.pos != 0 | none => false

/-- Whether a session's ring is broken (R240). -/
def Dev.ringBroken (d : Dev) (i : Nat) : Bool := match d.bindingOf i with | some (r, _) => r.state == .broken | none => false

/-! ### RING_OPEN, RING_BIND, RING_CLOSE (R224 to R228) -/

/-- The ring that a RING_OPEN names, as it would be once open. -/
def ringOf (e : Entry) (c : Cmd) (now : Ns) : Ring :=
  { id := e.f 16 1, m := e.f 17 1, pos := e.f 18 1, nextPort := e.f 19 1, prevPort := e.f 20 1, seg := e.f 24 4, tag := e.f 28 4,
    headAddr := e.f 32 8, state := .forming, bindings := [], hellos := [], shadow := [], lostPos := 0, reopening := false,
    cmd := some c, since := now, ops := [] }

/-- The checks of RING_OPEN, in the order of R225. -/
def Dev.ringOpenChecks (x : Ctx) (d : Dev) (e : Entry) : List (Bool × Status) :=
  let old := d.ringAt (e.f 16 1)
  let busy := match old with | some r => r.state == .forming || r.state == .up | none => false
  let differs := match old with
    | some r => r.state == .broken && !(r.tag == e.f 28 4 && r.m == e.f 17 1 && r.pos == e.f 18 1 && r.seg == e.f 24 4)
    | none => false
  [(d.fld Reg.sessOrbitCtl 16 8 == 0 || busy, .REFUSED_RESOURCE),
   (3 < e.f 16 1 || e.f 17 1 < 2 || capReg x.fuses 3 / 2 ^ 28 + 1 < e.f 17 1 || e.f 17 1 ≤ e.f 18 1 || e.f 24 4 == 0 || e.f 24 4 % 256 != 0 ||
      1048576 < e.f 24 4 || differs, .REFUSED_STATE),
   (8 ≤ e.f 19 1 || 8 ≤ e.f 20 1, .NOT_PRESENT)]

/-- A ring forms, or a broken one is reopened with its bindings; a member sends HELLO to the head, with its booked rates, its CHIP.CAP0 and the lengths of its
bound sessions (R225, R240). -/
def Dev.ringOpen (x : Ctx) (d : Dev) (e : Entry) (c : Cmd) : Dev :=
  let new := ringOf e c d.now
  let r := match d.ringAt new.id with
    | some old => { new with bindings := old.bindings, reopening := true, lostPos := old.lostPos }
    | none => new
  let d := { d with attn := { d.attn with rings := d.attn.rings.filter (fun q => q.id != r.id) ++ [r] } }
  if r.pos == 0 then d
  else
    let rates := d.ringRates x
    (d.sendTo r.headAddr 0x06 0 "HELLO" 1024 ([r.tag, r.pos, r.seg, capReg x.fuses 0, rates.length] ++ rateFields rates ++
      r.bindings.flatMap fun b => [b.rsn, (d.desc b.idx).commitLen]) none r.id (.ring r.id)).1

/-- RING_OPEN (R224, R225). -/
def execRingOpen (e : Entry) (s : State) : Host.Outcome State Fault Refusal :=
  s.ring e [(16, 5), (24, 16)] [(272, 48)] fun x d c => d.checked x c (d.ringOpenChecks x e) fun d => d.ringOpen x e c

/-- RING_BIND (R226). A session that is bound already is refused like an RSN that is (DEDUCED, log 33). -/
def execRingBind (e : Entry) (s : State) : Host.Outcome State Fault Refusal :=
  s.ring e [(16, 5), (24, 4)] [] fun x d c => d.withSession x c (e.f 16 4) fun d i ds =>
    let rsn := e.f 24 4
    let ring := d.ringAt (e.f 20 1)
    let st := match ring with | some r => r.state | none => .closed
    let bound := d.attn.rings.any fun r => r.bindings.any fun b => b.rsn == rsn || b.idx == i
    let pfx := match ring with | some r => r.pos != 0 && ds.prefixId != 0xFFFFFFFF | none => false
    let full := match ring with | some r => 131071 ≤ r.bindings.length | none => false
    d.checked x c [(ds.state != .idle || bound || st == .closed || st == .forming || pfx, .REFUSED_STATE),
                   (full || st == .broken, .REFUSED_RESOURCE)] fun d =>
      (d.updRing (e.f 20 1) fun r => { r with bindings := r.bindings ++ [(⟨rsn, i, ds.commitLen, ds.stepSeq⟩ : RingBinding)] }).finish x c .DONE 0

/-- Legs of a member whose entries were all stopped end. -/
def Dev.sweepLegs (d : Dev) : Dev :=
  { d with attn := { d.attn with reqs := d.attn.reqs.filter fun q =>
      match q.path with
      | .ring _ => !(q.entries.all fun e => e.status == some .CANCELLED)
      | _ => true } }

/-- A member's part of a step is rolled back (R138, R139, R238). -/
def Dev.rollbackLeg (x : Ctx) (d : Dev) (i : Nat) : Dev := ((d.rollback x i .CANCELLED false).1).sweepLegs

/-- Entries of a head's request whose result lacks a member read FAULT_UNIT, and their sessions are rolled back (R239). -/
def Dev.lackMember (x : Ctx) (d : Dev) (q : LayerReq) : Dev :=
  let late := q.entries.filter fun e => e.status.isNone
  let fix := fun (e : AttnEntry) => if e.status.isNone then { e with status := some .FAULT_UNIT, outs := [], bound := 0 } else e
  let d := d.updReq q.id fun q => { q with entries := q.entries.map fix, tiles := [] }
  late.foldl (fun (d : Dev) e => if (d.desc e.idx).state == .hot then (d.rollback x e.idx .FAULT_UNIT false).1 else d) d

/-- What goes on over a ring that is closed ends (R228; DEDUCED, log 33): entries of its requests lack a member, a member's parts of steps are rolled
back, and commands that wait for reports complete FAULT_LINK. -/
def Dev.stopRing (x : Ctx) (d : Dev) (r : Ring) : Dev :=
  let d := (d.attn.reqs.filter fun q => q.ring == some r.id && r.pos == 0).foldl (fun (d : Dev) q => d.lackMember x q) d
  let d := r.bindings.foldl (fun (d : Dev) b =>
    (if r.pos != 0 && (d.desc b.idx).state == .hot then d.rollbackLeg x b.idx else d).dropUndo x b.idx) d
  let d := { d with attn := { d.attn with rings := d.attn.rings.filter fun q => q.id != r.id } }
  let d := r.ops.foldl (fun (d : Dev) o => d.finish? x o.cmd .FAULT_LINK 0) d
  d.settleAll x

/-- RING_CLOSE (R228). A RING_OPEN that still waits ends as one whose ring did not form. -/
def execRingClose (e : Entry) (s : State) : Host.Outcome State Fault Refusal :=
  s.ring e [(16, 2)] [(137, 7)] fun x d c =>
    match d.ringAt (e.f 16 1) with
    | none => d.finish x c .REFUSED_STATE 0
    | some r => d.checked x c [(!r.bindings.isEmpty && !(bit (e.f 17 1) 0), .REFUSED_STATE)] fun d =>
      ((d.stopRing x r).finish? x r.cmd .FAULT_TIMEOUT 0).finish x c .DONE 0

/-! ### Forming (R225, R231, R240) -/

/-- A ring is up; its RING_OPEN completes. -/
def Dev.ringUp (x : Ctx) (d : Dev) (r : Ring) : Dev :=
  (d.updRing r.id fun r => { r with state := .up, cmd := none, reopening := false }).finish? x r.cmd .DONE 0

/-- A HELLO reaches the head. With one from every member the ring is up, its members are told, and after a reopening GLOBAL_LEN is the sum of
the members' lengths (R225, R240). -/
def execHello (ring : Nat) (h : Hello) (s : State) : Host.Outcome State Fault Refusal :=
  s.run fun x d =>
    match d.ringAt ring with
    | none => d
    | some r =>
      if r.pos != 0 || r.state != .forming || h.tag != r.tag || h.seg != r.seg || h.pos == 0 || r.m ≤ h.pos then d
      else
        let hs := r.hellos.filter (fun o => o.pos != h.pos) ++ [h]
        let d := d.updRing ring fun r => { r with hellos := hs }
        if hs.length < r.m - 1 then d
        else
          let d := if !r.reopening then d else
            let lens := d.sess.table
            d.updRing ring fun r => { r with bindings := r.bindings.map fun b =>
              { b with globalLen := ((tblGet b.idx lens).getD (.void 0 0)).commitLen +
                  sumOf (hs.map fun o => sumOf ((o.lens.filter fun l => l.1 == b.rsn).map (·.2))) } }
          (d.ringUp x r).ringRecord r "HELLO_ACK" [r.tag]

/-- The head's acknowledgement puts the ring up at a member, which passes it on (R225). -/
def execHelloAck (ring : Nat) (s : State) : Host.Outcome State Fault Refusal :=
  s.run fun x d =>
    match d.ringAt ring with
    | none => d
    | some r =>
      if r.pos == 0 || r.state != .forming then d
      else
        let d := d.ringUp x r
        if r.pos + 1 < r.m then d.ringRecord r "HELLO_ACK" [r.tag] else d

/-- A ring does not form within ACK_MS (R225): it is closed again, or, when it was a reopening, broken with its bindings. -/
def execRingFormTimeout (ring : Nat) (s : State) : Host.Outcome State Fault Refusal :=
  s.run fun x d =>
    match d.ringAt ring with
    | none => d
    | some r =>
      if r.state != .forming || d.now < r.since + d.fld Reg.sessOrbitTo 0 16 * 1000000 then d
      else
        let d := if r.reopening then d.updRing ring fun r => { r with state := .broken, cmd := none, reopening := false }
          else { d with attn := { d.attn with rings := d.attn.rings.filter fun q => q.id != ring } }
        d.finish? x r.cmd .FAULT_TIMEOUT 0

/-- A member's new rates reach the head's shadow ledger (R231): batches opened from then on use them, those that are open keep theirs. -/
def execRingRates (ring pos : Nat) (rates : List (Res × Nat)) (s : State) : Host.Outcome State Fault Refusal :=
  s.run fun _ d => d.updRing ring fun r =>
    if r.pos == 0 then { r with hellos := r.hellos.map fun h => if h.pos == pos then { h with rates := rates } else h } else r

/-! ### Legs at a member (R232 to R237) -/

/-- The first leg of a step sets a member's session HOT with the head's batch (R237). A session takes part where its open step is the one that the leg
names (R238). The answer tells whether it does. -/
def Dev.joinLeg (x : Ctx) (d : Dev) (i : Nat) (leg : RingLeg) (e : LegEntry) : Dev × Bool :=
  match (d.desc i).state with
  | .idle =>
    let d := d.dropUndo x i
    let d := d.updDesc x i fun s => { s with state := .hot, sub := .none, batch := leg.batch, lastStamp := d.now }
    let d := { d with sess := { d.sess with steps := d.sess.steps ++ [(⟨i, none, [], [], false, 0, 0, none⟩ : StepRec)] } }
    (d.attn.rings.foldl (fun (d : Dev) r => d.updRing r.id fun r =>
      { r with bindings := r.bindings.map fun b => if b.idx == i then { b with stepSeq := e.stepSeq, globalLen := e.globalLen } else b }) d, true)
  | .hot => (d, (d.desc i).batch == leg.batch && (match d.bindingOf i with | some (_, b) => b.stepSeq == e.stepSeq | none => false))
  | _ => (d, false)

/-- An entry of a leg is staged: the rows that this position's segment holds (R227, R232). -/
def Dev.stageLeg (d : Dev) (r : Ring) (i : Nat) (leg : RingLeg) (e : LegEntry) : Dev :=
  let (lo, n) := segRows r.seg e.globalLen e.rows r.pos
  let rows := (rangeFrom lo n).flatMap fun j => (List.range d.shape.hkv).map fun hd =>
    (⟨i, leg.layer, hd, e.globalLen + j - r.pos * r.seg, d.newRow e.block leg.kvfmt 0 e.rows j hd⟩ : StagedRow)
  let d := d.countNonfinite rows
  let d := d.updStep i fun t => { t with rows := some n, named := leg.layer :: t.named, layersGot := leg.layer :: t.layersGot, lastDl := leg.deadline }
  { d with kv := { d.kv with staged := d.kv.staged ++ rows } }

/-- The tiles of an entry of a leg (R232, R235). A position with no rows of the session has none. -/
def Dev.legTiles (x : Ctx) (d : Dev) (r : Ring) (n i : Nat) (leg : RingLeg) (e : LegEntry) : List WorkTile :=
  let f := d.figures x
  let (lo, k) := segRows r.seg e.globalLen e.rows r.pos
  if (d.desc i).commitLen == 0 && k == 0 then []
  else (List.range d.shape.hkv).flatMap fun head =>
    if e.rows == 1 then (d.decodeTiles x f n i leg.layer head false).map (·.1)
    else
      let q := if leg.kvTop.isSome then (lo, k) else (0, e.rows)
      (d.prefillTiles f n i leg.layer head (r.pos * r.seg / 256) ⟨q.1, q.2, lo, k⟩).map (·.1)

/-- A leg reaches a member (R232, R235): it goes onward, the sessions join the step, their rows are staged and
their tiles queued. Its arrival has a number of its own, by which it stands among equal deadlines (R36). -/
def Dev.ringLeg (x : Ctx) (d : Dev) (r : Ring) (leg : RingLeg) : Dev :=
  let next := leg.deadline + d.fld Reg.sessOrbitCtl 0 16
  let d := if r.pos + 1 < r.m then d.sendLeg r { leg with deadline := next } else d
  let found := leg.entries.map fun e => (match r.bindings.find? fun b => b.rsn == e.rsn with | some b => some b.idx | none => none, e)
  let (d, es) := found.foldl (fun (a : Dev × List (Option Nat × LegEntry)) f =>
    match f.1 with
    | none => (a.1, a.2 ++ [(none, f.2)])
    | some i =>
      let (d, ok) := a.1.joinLeg x i leg f.2
      if ok then (d.stageLeg r i leg f.2, a.2 ++ [(some i, f.2)]) else (d, a.2 ++ [(none, f.2)])) (d, [])
  let live := es.filterMap fun (f : Option Nat × LegEntry) => f.1.map fun i => (i, f.2)
  let packed := live.foldl (fun (a : Nat × Nat × List Nat) f => (a.1 + f.2.block * 2 ^ (8 * a.2.1), a.2.1 + f.2.len, a.2.2 ++ [a.2.1])) (0, 0, [])
  let q : LayerReq :=
    { id := d.attn.nextReq, path := .ring r.id, tag := leg.leg, batch := leg.batch, layer := leg.layer, qfmt := leg.qfmt, kvfmt := leg.kvfmt,
      ofmt := leg.ofmt, scale := leg.scale, deadline := leg.deadline, respAddr := 0, img := packed.1, imgBytes := packed.2.1,
      share := live.map fun f => (d.cacheQuad f.1, f.2.len),
      entries := (List.zip live packed.2.2).map fun f =>
        (⟨d.handleOf f.1.1, f.1.1, f.1.2.rows, f.2, f.1.2.globalLen, r.pos * r.seg, none, 0, 0, []⟩ : AttnEntry),
      tiles := d.placeTiles (live.zipIdx.flatMap fun f => d.legTiles x r f.2 f.1.1 leg f.1.2), booking := d.sess.nextBooking,
      prefill := live.any fun f => 2 ≤ f.2.rows, ring := some r.id, running := none, kvTop := leg.kvTop, memberOuts := [], pinned := [] }
  let d : Dev := { d with attn := { d.attn with reqs := d.attn.reqs ++ [q], nextReq := d.attn.nextReq + 1 },
                          sess := { d.sess with nextBooking := d.sess.nextBooking + 1 } }
  let d := q.share.foldl (fun (d : Dev) s => d.cross ⟨eclCvf r.prevPort, s.1, 1, s.2, Reg.cvfPace r.prevPort, false, .layerImage q.id⟩) d
  let d := match leg.kvTop with
    | some top => d.sendPages x r leg.leg leg.layer next top (live.map fun (f : Nat × LegEntry) => (f.1, f.2.rsn, f.2.globalLen + f.2.rows))
    | none => d
  d.settleLeg q

/-- A leg reaches a member (R232). -/
def execRingLeg (ring : Nat) (leg : RingLeg) (s : State) : Host.Outcome State Fault Refusal :=
  s.run fun x d =>
    match d.ringAt ring with
    | none => d
    | some r => if r.pos == 0 || r.state != .up then d else d.ringLeg x r leg

/-- The request that a leg's number names: at the head its own number, at a member the tag. -/
def Dev.legReq (d : Dev) (r : Ring) (leg : Nat) : Option LayerReq :=
  d.attn.reqs.find? fun q => q.ring == some r.id && (if r.pos == 0 then q.id == leg else q.tag == leg && q.path == .ring r.id)

/-- At the head, rows written on the ring count as received (R237). -/
def Dev.rowsOnRing (d : Dev) (q : LayerReq) (rsns : List Nat) : Dev :=
  q.entries.foldl (fun (d : Dev) e =>
    if rsns.contains (d.rsnOf e.idx) then d.updStep e.idx fun t => if t.layersGot.contains q.layer then t else { t with layersGot := q.layer :: t.layersGot }
    else d) d

/-- Finish what can be finished of a head's request. -/
def Dev.settleEntries (x : Ctx) (d : Dev) (q : LayerReq) : Dev :=
  (List.range q.entries.length).foldl (fun (d : Dev) n => d.settleEntry x q.id n) d

/-- A running partial reaches the next position, or the head (R232, R234, R237). -/
def execRunningPartial (ring leg : Nat) (ps : List RunEntry) (s : State) : Host.Outcome State Fault Refusal :=
  s.run fun x d =>
    match d.ringAt ring with
    | none => d
    | some r => match d.legReq r leg with
      | none => d
      | some q =>
        if q.running.isSome || q.kvTop.isSome then d
        else
          let d := d.updReq q.id fun q => { q with running := some ps }
          if r.pos == 0 then (d.rowsOnRing q ((ps.filter (·.rowsWritten)).map (·.rsn))).settleEntries x q
          else d.settleLeg { q with running := some ps }

/-- The tokens of a tile as a device reads them out of its staging. -/
def Dev.tileTokens (x : Ctx) (d : Dev) (t : Tile) (base : Nat) : Tokens :=
  let m := 0x400100000000
  let p := m + 0x100000
  let hd := d.shape.d
  let pg := { t.header with meta1 := m, payload := p, payload2 := p + t.header.rows * hd }
  let d := (d.st x m t.metaLen t.metaVal).st x p t.payLen t.payVal
  d.tokensOf x pg base (if t.header.kfmt == .fp8 then t.header.rows else 256)

/-- A KV-form tile reaches a member (R235), its page numbered over the whole ring session: the member attends it for its own query rows
and passes it on below the highest position that holds query rows. -/
def Dev.kvTile (x : Ctx) (d : Dev) (r : Ring) (q : LayerReq) (top : Nat) (t : Tile) : Dev :=
  let d := if r.pos < top then d.sendTile r q.tag (q.deadline + d.fld Reg.sessOrbitCtl 0 16) t else d
  match findPos (fun (e : AttnEntry) => d.rsnOf e.idx == t.key.owner.index) q.entries with
  | none => d
  | some n => match q.entries[n]? with
    | none => d
    | some e =>
      let (lo, k) := segRows r.seg e.base e.rows r.pos
      if k == 0 || e.off / 256 ≤ t.key.page || q.tiles.any fun u => u.entry == n && u.head == t.key.head && u.order == t.key.page then d
      else
        let tok := d.tileTokens x t 0
        let w := mkTile n e.idx t.key.head t.key.page (.prefillPage lo k t.key.page) [] []
        let ps := d.tilePartials q { e with base := e.base + 256, off := 0 } w [tok] t.header.mediaBad
        let w := { w with done := true, delivered := true, partials := ps }
        let d := d.updReq q.id fun q => { q with tiles := q.tiles ++ [w] }
        d.settleLeg { q with tiles := q.tiles ++ [w] }

/-- A KV-form tile reaches a member. -/
def execKvTile (ring leg : Nat) (tile : Tile) (s : State) : Host.Outcome State Fault Refusal :=
  s.run fun x d =>
    match d.ringAt ring with
    | none => d
    | some r => if r.pos == 0 then d else match d.legReq r leg with
      | none => d
      | some q => match q.kvTop with
        | none => d
        | some top => d.kvTile x r q top tile

/-- A member's finished outputs reach the head (R235, R237). -/
def execMemberOutputs (ring leg pos : Nat) (outs : List MemberOut) (s : State) : Host.Outcome State Fault Refusal :=
  s.run fun x d =>
    match d.ringAt ring with
    | none => d
    | some r => if r.pos != 0 then d else match d.legReq r leg with
      | none => d
      | some q =>
        if q.kvTop.isNone || pos == 0 || r.m ≤ pos || q.memberOuts.any fun m => m.1 == pos then d
        else
          let d := d.updReq q.id fun q => { q with memberOuts := q.memberOuts ++ [(pos, outs)] }
          (d.rowsOnRing q ((outs.filter (·.rowsWritten)).map (·.rsn))).settleEntries x q

/-! ### Records (R237, R238) -/

/-- A member's part of a step is committed, in one descriptor write (R237). Rows that cannot be written roll it back. -/
def Dev.commitLeg (x : Ctx) (d : Dev) (i : Nat) (rows : Nat) : Dev :=
  let (d, ok) := d.writeAllStaged x i
  if !ok then d.rollbackLeg x i
  else
    let own := match d.stepRec i with | some t => t.rows.getD 0 | none => 0
    let s := d.desc i
    let s := { s with commitLen := s.commitLen + own, stepSeq := u32 (s.stepSeq + 1), lastStamp := d.now, batch := 0xFFFF, state := .idle, sub := .none }
    let d := (d.putDesc x i s).fillPages x i s.commitLen
    let d := d.putDesc x i { s with tier := d.tierOf i }
    let d := (d.keepStep i).leaveBatch i
    let adv := fun (b : RingBinding) => if b.idx == i then { b with globalLen := b.globalLen + rows, stepSeq := b.stepSeq + 1 } else b
    (d.attn.rings.foldl (fun (d : Dev) r => d.updRing r.id fun r => { r with bindings := r.bindings.map adv }) d).life 1 i 0xFFFFFFFF

/-- A STEP record commits or rolls back a member's local session and goes on round the ring (R237). A record whose STEP_SEQ is not that of
the open step discards it (R238). In a ring that is not up a record has come from either side, and a member on which it acts passes it on both ways
(R239; DEDUCED, log 33). -/
def execStepRecord (ring rsn stepSeq : Nat) (commit : Bool) (rows : Nat) (s : State) : Host.Outcome State Fault Refusal :=
  s.run fun x d =>
    match d.ringAt ring with
    | none => d
    | some r =>
      if r.pos == 0 then d
      else
        let acts := r.bindings.find? fun b => b.rsn == rsn && (d.desc b.idx).state == .hot
        let d := if r.state == .up || acts.isSome then d.ringBoth r "STEP" [rsn, stepSeq, ofB commit, rows] else d
        match acts with
        | none => d
        | some b => if commit && b.stepSeq == stepSeq then d.commitLeg x b.idx rows else d.rollbackLeg x b.idx

/-- A CANCEL record is back at the head, or ACK_MS has passed: cancels that wait for no other record complete (R238). -/
def Dev.endCancel (x : Ctx) (d : Dev) (ring rsn : Nat) : Dev :=
  let left := d.attn.cancels.map fun w => { w with waits := w.waits.filter fun p => p != (ring, rsn) }
  let d : Dev := { d with attn := { d.attn with cancels := left.filter fun w => !w.waits.isEmpty } }
  (left.filter fun w => w.waits.isEmpty).foldl (fun (d : Dev) w => d.finish x w.cmd .DONE w.result) d

/-- A CANCEL record rolls a member's leg back; back at the head it completes the cancel (R238). -/
def execCancelRecord (ring rsn : Nat) (s : State) : Host.Outcome State Fault Refusal :=
  s.run fun x d =>
    match d.ringAt ring with
    | none => d
    | some r =>
      if r.pos == 0 then d.endCancel x ring rsn
      else
        let d := d.ringCancel r rsn
        match r.bindings.find? fun b => b.rsn == rsn with
        | some b => if (d.desc b.idx).state == .hot then d.rollbackLeg x b.idx else d
        | none => d

/-- The head posts the completion of a cancel at ACK_MS (R238). -/
def execCancelAckTimeout (ring rsn : Nat) (s : State) : Host.Outcome State Fault Refusal :=
  s.run fun x d =>
    if d.attn.cancels.any fun w => w.waits.contains (ring, rsn) && w.since + d.fld Reg.sessOrbitTo 0 16 * 1000000 ≤ d.now then d.endCancel x ring rsn else d

/-! ### Loss of a member (R239, R240) -/

/-- A ring breaks (R240). -/
def Dev.breakRing (x : Ctx) (d : Dev) (ring lost : Nat) : Dev :=
  ((d.updRing ring fun r => { r with state := .broken, lostPos := lost % 16 }).bump Reg.sessOrbitBreakCnt 1).event x 5 ring lost 0

/-- This device finds a member lost: it tells the head by any path, and the ring is broken here (R239). -/
def Dev.memberLost (x : Ctx) (d : Dev) (r : Ring) (lost : Nat) : Dev :=
  let d := d.breakRing x r.id lost
  if r.pos == 0 then d else d.sendNote r.headAddr 0x32 5 "RING_BREAK" 64 [r.tag, lost] r.id

/-- A running partial does not come by d_j + HOP_NS: the position before is lost (R239). -/
def execRingPartialTimeout (ring leg : Nat) (s : State) : Host.Outcome State Fault Refusal :=
  s.run fun x d =>
    match d.ringAt ring with
    | none => d
    | some r => match d.legReq r leg with
      | none => d
      | some q =>
        if r.state != .up || q.running.isSome || q.kvTop.isSome || r.pos == 1 || d.now < (if r.pos == 0 then q.deadline - 6000 else q.deadline) then d
        else d.memberLost x r (if r.pos == 0 then r.m - 1 else r.pos - 1)

/-- A RING_BREAK record breaks the ring (R240). One that reaches a broken ring is counted, and LOST_POS is the position that it names (R245). -/
def execRingBreak (ring lost : Nat) (s : State) : Host.Outcome State Fault Refusal :=
  s.run fun x d =>
    match d.ringAt ring with
    | none => d
    | some r => match r.state with
      | .up => d.breakRing x ring lost
      | .broken => (d.updRing ring fun r => { r with lostPos := lost % 16 }).bump Reg.sessOrbitBreakCnt 1
      | _ => d

/-- Whether a member has everything of its own for an entry of its leg. -/
def Dev.legReady (d : Dev) (q : LayerReq) (n : Nat) (e : AttnEntry) : Bool := q.gathered n && (q.kvTop.isNone || d.tilesCame q n e)

/-- At d the head sends the response: entries without a member's result read FAULT_UNIT, and their sessions are rolled back at every member
that can be reached (R239). At d_j a member sends on what it has: entries whose tiles are late read FAULT_UNIT (R233, R234). -/
def execRingResponseDeadline (ring leg : Nat) (s : State) : Host.Outcome State Fault Refusal :=
  s.run fun x d =>
    match d.ringAt ring with
    | none => d
    | some r => match d.legReq r leg with
      | none => d
      | some q =>
        if d.now < q.deadline then d
        else if r.pos == 0 then (d.lackMember x q).settleAll x
        else
          let late := (q.entries.zipIdx.filter fun e => e.1.status.isNone && !(d.legReady q e.2 e.1)).map (·.2)
          let fix := fun (e : AttnEntry × Nat) => if late.contains e.2 then { e.1 with status := some .FAULT_UNIT } else e.1
          let d := d.updReq q.id fun q =>
            { q with entries := q.entries.zipIdx.map fix, tiles := q.tiles.filter fun t => !(late.contains t.entry) }
          d.settleLayers x

/-! ### Ring records of parks, revives and closes (R228, R275) -/

/-- A position's part of a ring command that has failed elsewhere is undone: a session that parked is revived, one that revived is parked as it was
(R275). -/
def Dev.undoPart (x : Ctx) (d : Dev) (i kind : Nat) : Dev :=
  if kind == 2 then d.unrevive x i else if (d.desc i).state == .parked then d.startRevive x i none none else d

/-- A ring operation of the head whose local part and members' parts have all ended: its command completes; when one failed, those that
succeeded return to the state before, and the command completes with the failing status (R275). -/
def Dev.settleRing (x : Ctx) (d : Dev) (ring : Nat) : Dev :=
  match d.ringAt ring with
  | none => d
  | some r =>
    (r.ops.filter fun o => o.kind != 3 && r.m ≤ o.reports.length).foldl (fun (d : Dev) o =>
      let d := d.updRing ring fun r => { r with ops := r.ops.eraseP fun p => p.rsn == o.rsn && p.kind == o.kind }
      let idx := match r.bindings.find? fun b => b.rsn == o.rsn with | some b => b.idx | none => 0
      match o.reports.find? fun p => p.2 != .DONE with
      | none =>
        let d := if o.kind == 4 then (d.bump Reg.sessAutoparkCnt 1).event x 1 (d.handleOf idx) 0 0 else d
        (d.dropUndo x idx).finish? x o.cmd .DONE o.result
      | some bad =>
        let who := (o.reports.filter fun p => p.2 == .DONE).map (·.1)
        let d := d.ringRecord r "UNDO" ([o.rsn, o.kind] ++ who)
        let d := if who.contains 0 then d.undoPart x idx o.kind else d
        d.finish? x o.cmd bad.2 0) d

/-- A ring record of a task as it travels: its name and its words after the RSN. -/
def RingTask.words : RingTask → String × List Nat
  | .park image first last n store => ("PARK", [ofB image, first, last, n, store])
  | .revive => ("REVIVE", [])
  | .close => ("CLOSE", [])
  | .undo kind who => ("UNDO", kind :: who)

/-- A member parks, revives, closes or returns its local session, and passes the record on (R228, R241, R275). -/
def execRingParkRecord (ring rsn : Nat) (task : RingTask) (s : State) : Host.Outcome State Fault Refusal :=
  s.run fun x d =>
    match d.ringAt ring with
    | none => d
    | some r =>
      if r.pos == 0 then d
      else
        let d := if r.pos + 1 < r.m then d.ringRecord r task.words.1 (rsn :: task.words.2) else d
        match r.bindings.find? fun b => b.rsn == rsn with
        | none => d
        | some b =>
          let i := b.idx
          let st := (d.desc i).state
          match task with
          | .park image first last n store =>
            let d := d.dropUndo x i
            if st != .idle || d.occupied i then d.localDone x (some ring) none i .REFUSED_STATE 0
            else match firstFail (d.tileMode x image) with
              | some bad => d.localDone x (some ring) none i bad 0
              | none =>
                if first == 1 && d.inPlaceOk x then d.parkInPlace x i (some ring) none image
                else if !(d.canPin i) then d.localDone x (some ring) none i .REFUSED_RESOURCE 0
                else d.parkOut x i (some ring) none image false first last n store
          | .revive => if st != .parked then d.localDone x (some ring) none i .REFUSED_STATE 0 else d.startRevive x i (some ring) none
          | .close => ((if st == .hot then d.rollbackLeg x i else d).dropUndo x i).dropDemotion x i |>.endSession x i
          | .undo kind who => if who.contains r.pos then d.undoPart x i kind else d

/-- A member's report reaches the head (R275); a failure that no operation waits for is that of a checkpoint capture (R446). -/
def execRingMemberReport (ring rsn pos : Nat) (status : Status) (s : State) : Host.Outcome State Fault Refusal :=
  s.run fun x d =>
    match d.ringAt ring with
    | none => d
    | some r =>
      if r.pos != 0 || pos == 0 || r.m ≤ pos then d
      else
        let waits := r.ops.any fun o => o.rsn == rsn && o.kind != 3
        let d := if waits || status == .DONE then d else d.bump Reg.ckptRingFail 1
        let add := fun (o : RingOp) => if o.reports.any fun p => p.1 == pos then o else { o with reports := o.reports ++ [(pos, status)] }
        (d.updRing ring fun r => { r with ops := replaceFirst (fun (o : RingOp) => o.rsn == rsn && o.kind != 3) add r.ops }).settleRing x ring

/-- Settle the rings whose operations may have ended. -/
def Dev.settleRings (x : Ctx) (d : Dev) : Dev := d.attn.rings.foldl (fun (d : Dev) r => d.settleRing x r.id) d

end Sys2Proof.Machine
end

