-- ==== Sys2Proof/Machine/Moves.lean ====
section
/-! DEFINITION. Machine/Moves.lean: moving sessions between devices, and ring moves (R280 to R288). -/

namespace Sys2Proof.Machine

/-! ### The source (R282 to R287) -/

/-- What a moving session carries; for one parked outside T1 what its targets hold, with its prefix's pages where FLAT asks for them
(R282, R283), at the places that it has no page of its own for. -/
def Dev.moveContent (x : Ctx) (d : Dev) (i : Nat) (flat : Bool) : ParkedImage × Bool :=
  match tblGet i d.tier.manifests, tblGet i d.tier.images with
  | some m, some c =>
    if m.inPlace then d.contentOf x i flat
    else if !flat then (c, false)
    else
      let (shared, bad) := d.contentOf x i true
      let place := fun (t : Tile) => (t.key.layer, t.key.head, t.key.page)
      let more := shared.tiles.filter fun t => !(c.tiles.any fun u => place u == place t)
      ({ c with tiles := sortBy (fun (a b : Tile) => a.key.before b.key) (c.tiles ++ more) }, bad)
  | _, _ => d.contentOf x i flat

/-- The move out of a session under a tag. -/
def Dev.moveOut (d : Dev) (p : MoveOut → Bool) : Option MoveOut := d.tier.movesOut.find? p

/-- Change a move out. -/
def Dev.updMoveOut (d : Dev) (i : Nat) (f : MoveOut → MoveOut) : Dev :=
  { d with tier := { d.tier with movesOut := replaceFirst (fun (m : MoveOut) => m.idx == i) f d.tier.movesOut } }

/-- A move out ends without moving: the session returns to its prior state (R104, R282, R284). -/
def Dev.endMoveOut (x : Ctx) (d : Dev) (m : MoveOut) (st : Status) : Dev :=
  let d := { d with tier := { d.tier with movesOut := d.tier.movesOut.filter fun q => q.idx != m.idx } }
  let d := (d.setState x m.idx m.prior .none)
  let d := if m.prior == .idle then d.requeue m.idx else d
  let d := match m.cancel with | some (c, _) => d.finish x c .DONE 0 | none => d
  if m.unresolved then d else d.finish? x m.cmd st 0

/-- A source enters TRANSIT and sends its offer (R282 step 1). Without a path to the destination the move ends at once. -/
def Dev.startMove (x : Ctx) (d : Dev) (i : Nat) (c : Option Cmd) (tag dest : Nat) (image flat : Bool) (ring : Option Nat) : Dev :=
  let s := d.desc i
  let (content, _) := d.moveContent x i flat
  let bytes := sumOf (d.areaSizes content image 1)
  let m : MoveOut := ⟨i, c, tag, dest, image, flat, s.state, false, false, d.now, none, false, ring⟩
  let d := (d.setState x i .transit .movingOut).withdraw i
  let d := { d with tier := { d.tier with movesOut := d.tier.movesOut ++ [m] } }
  let pfx := match d.kv.prefixes.find? fun p => p.id == s.prefixId with | some p => p.len | none => 0
  let ringOf := match d.bindingOf i with | some (r, b) => [r.m, r.seg, b.globalLen] | none => []
  let (d, ok) := d.sendTo dest 0x10 2 "MOVE_OFFER" 512 ([tag, ofB image, ofB flat, ofB (s.state == .parked), d.shape.record, content.tiles.length, bytes, pfx, s.pack]
    ++ ringOf) none 0 (.move i tag 0xFFFFFFFF)
  if ok then d else d.endMoveOut x m .FAULT_LINK

/-- What stops a move of a parked session before it begins (R269, R278). -/
def Dev.parkedMoveFault (x : Ctx) (d : Dev) (i : Nat) : Option Status :=
  if (d.desc i).state != .parked then none
  else match tblGet i d.tier.manifests with
    | none => some .FAULT_MEDIA
    | some m =>
      if d.manifestBad x i || m.lost then some .FAULT_MEDIA
      else if !m.inPlace && !(m.targets.all fun t => d.reachable t) then some .FAULT_LINK
      else none

/-- SESS_MOVE_OUT (R280, R282, R287). -/
def execSessMoveOut (e : Entry) (s : State) : Host.Outcome State Fault Refusal :=
  s.ring e [(16, 5), (24, 4), (32, 8)] [(162, 6), (272, 48)] fun x d c => d.withSession x c (e.f 16 4) fun d i ds =>
    let image := bit (e.f 20 1) 0
    let flat := bit (e.f 20 1) 1
    let fault := d.parkedMoveFault x i
    d.checked x c (d.tileMode x image ++ [((ds.state != .idle && ds.state != .parked) || d.occupied i, .REFUSED_STATE),
       (d.memberBound i || (flat && (d.bindingOf i).isSome), .REFUSED_STATE), (fault == some .FAULT_MEDIA, .FAULT_MEDIA),
       (fault == some .FAULT_LINK, .FAULT_LINK), (!(d.canPin i), .REFUSED_RESOURCE)]) fun d =>
      (d.dropDemotion x i).startMove x i (some c) (e.f 24 4) (e.f 32 8) image flat ((d.bindingOf i).map (·.1.id))

/-- A tile of a move goes to the destination, its bytes with it; as number `tiles`, the grammar stack and list block (R282 step 3). -/
def Dev.sendMoveTile (d : Dev) (m : MoveOut) (c : ParkedImage) (n : Nat) : Dev × Bool :=
  match c.tiles[n]? with
  | some t => d.sendTo m.dest 0x10 2 "MOVE_TILE" (getAt 0 n (d.tileSizes c)) [m.tag, n, leNat (t.bytes d.shape.d)] none 0 (.move m.idx m.tag n)
  | none => d.sendTo m.dest 0x10 2 "MOVE_TILE" c.blockBytes [m.tag, n, leNat c.block] none 0 (.move m.idx m.tag n)

/-- The content of a move is sent: every tile, then the session block; or every stripe of 1 MiB of the image. The answer tells whether each could be
sent. -/
def Dev.sendContent (d : Dev) (m : MoveOut) (c : ParkedImage) : Dev × Bool :=
  if m.image then
    let bs := d.imageBytes c (d.manifestOf c true m.flat [])
    (List.range (cdiv bs.length 0x100000)).foldl (fun (a : Dev × Bool) k =>
      let part := (bs.drop (k * 0x100000)).take 0x100000
      let (d, ok) := a.1.sendTo m.dest 0x10 2 "MOVE_STRIPE" part.length [m.tag, k, leNat part] none 0 (.move m.idx m.tag k)
      (d, a.2 && ok)) (d, true)
  else (List.range (c.tiles.length + 1)).foldl (fun (a : Dev × Bool) n =>
    let (d, ok) := a.1.sendMoveTile m c n
    (d, a.2 && ok)) (d, true)

/-- MOVE_ACCEPT reaches the source: a parked source's targets are read, and everything is sent (R282 step 3). At the head of a ring it goes to
the members as a MOVE record with the RSN, ring B and the addresses of its positions (R288). -/
def execMoveAccept (tag : Nat) (src : MoveAccepter) (s : State) : Host.Outcome State Fault Refusal :=
  s.run fun x d =>
    let (ringB, addrs) := (src.ringB, src.addrs)
    let src := src.src
    match d.moveOut fun m => m.tag == tag && m.dest == src && !m.accepted with
    | none => d
    | some m =>
      let parked : List Target := match tblGet m.idx d.tier.manifests with
        | some f => if m.prior == .parked && !f.inPlace then f.targets else []
        | none => []
      let (d, read) := parked.zipIdx.foldl (fun (a : Dev × Bool) t =>
        let (d, _, ok) := a.1.transfer x t.1 false 2 2 (.move m.idx tag 0xFFFFFFFF) (.revive m.idx t.2)
        (d, a.2 && ok)) (d, true)
      let (c, bad) := d.moveContent x m.idx m.flat
      let (d, sent) := if bad then (d, true) else d.sendContent m c
      let d := d.updMoveOut m.idx fun m => { m with accepted := true, sentAll := true, sentAt := d.now }
      let d := if bad then d.reportUnread x m.idx (.sess m.idx) c.desc.commitLen else d
      let st := if bad then Status.FAULT_MEDIA else .FAULT_LINK
      if read && sent && !bad then match m.ring.bind fun id => d.ringAt id with
        | some r => if r.pos == 0 then d.ringRecord r "MOVE" ([d.rsnOf m.idx, ringB, tag, ofB m.image] ++ addrs) else d
        | none => d
      else (d.sendNote m.dest 0x10 2 "MOVE_ABORT" 64 [tag, st.code] 0).endMoveOut x m st

/-- MOVE_REJECT reaches the source (R282, R288). A member of ring A tells its head, which ends the move at every position. -/
def execMoveReject (tag : Nat) (status : Status) (s : State) : Host.Outcome State Fault Refusal :=
  s.run fun x d => match d.moveOut fun m => m.tag == tag && !m.accepted with
    | some m =>
      let d := match m.ring.bind fun id => d.ringAt id with
        | some r => if r.pos == 0 then d else d.sendNote r.headAddr 0x10 2 "MOVE_ABORT" 64 [tag, status.code] r.id
        | none => d
      d.endMoveOut x m status
    | none => d

/-- The destination holds the session: the source becomes VOID with its GEN, its T1 space or its targets wait for their release (R282 step
5). A cancel that waited is refused (R286). -/
def Dev.finishMove (x : Ctx) (d : Dev) (m : MoveOut) : Dev :=
  let i := m.idx
  let s := d.desc i
  let ts := match tblGet i d.tier.manifests with
    | some f => if f.inPlace || d.manifestBad x i then [] else f.targets
    | none => []
  let d := (d.dropUndo x i).retireResident i
  let add := fun (r : FrameRelease) => if r.owner == POwner.sess i && r.at_ == d.now then { r with targets := ts } else r
  let d := { d with kv := { d.kv with releases := d.kv.releases.map add },
                    tier := { d.tier with movesOut := d.tier.movesOut.filter (fun q => q.idx != i), manifests := tblDel i d.tier.manifests,
                                          images := tblDel i d.tier.images } }
  let d := if s.prefixId == 0xFFFFFFFF then d else d.dropRef s.prefixId
  let d := match d.bindingOf i with
    | some (r, _) => d.updRing r.id fun r => { r with bindings := r.bindings.filter fun b => b.idx != i }
    | none => d
  let d := (d.voidIdx x i s.gen).life 5 i m.tag
  let d := if m.unresolved then d else d.finish? x m.cmd .DONE 0
  match m.cancel with | some (c, _) => d.finish x c .REFUSED_STATE 0 | none => d

/-- MOVE_DONE reaches the source (R282 step 5); a head passes it to its members (R288). -/
def execMoveDone (tag src gen : Nat) (s : State) : Host.Outcome State Fault Refusal :=
  s.run fun x d => match d.moveOut fun m => m.tag == tag && (m.dest == src || m.ring.isSome) with
    | none => d
    | some m =>
      if !m.accepted then d
      else
        let d := match m.ring.bind fun id => d.ringAt id with
          | some r => if r.pos + 1 < r.m then d.ringRecord r "MOVE_DONE" [tag, gen] else d
          | none => d
        d.finishMove x m

/-- The space of a moved source is released one block timeout later (R282 step 5). -/
def execMoveSourceRelease (idx : Nat) (s : State) : Host.Outcome State Fault Refusal :=
  s.run fun x d => d.releaseFrames x fun r => !(d.capturing (.sess idx)) && r.owner == POwner.sess idx && (!r.areas.isEmpty || !r.targets.isEmpty)

/-- Every 1 ms an unresolved source asks for the outcome (R285). -/
def execMoveStatusTick (s : State) : Host.Outcome State Fault Refusal :=
  s.run fun _ d => (d.tier.movesOut.filter fun m => m.sentAll && !m.unresolved).foldl (fun (d : Dev) m =>
    d.sendNote m.dest 0x10 2 "MOVE_STATUS" 64 [m.tag] 0) d

/-- The destination's answer reaches the source (R285, R286). -/
def execMoveStatusAnswer (tag : Nat) (committed : Bool) (s : State) : Host.Outcome State Fault Refusal :=
  s.run fun x d => match d.moveOut fun m => m.tag == tag && (m.sentAll || m.cancel.isSome) with
    | none => d
    | some m =>
      if m.unresolved then d
      else if committed then d.finishMove x m
      else d.endMoveOut x m (if m.cancel.isSome then .CANCELLED else .FAULT_LINK)

/-- No answer within RESOLVE_MS (R285, R286): what waits completes FAULT_LINK, and the session stays TRANSIT. -/
def execMoveResolveTimeout (tag : Nat) (s : State) : Host.Outcome State Fault Refusal :=
  s.run fun x d => match d.moveOut fun m => m.tag == tag && (m.sentAll || m.cancel.isSome) && !m.unresolved &&
      (match m.cancel with | some (_, t) => t | none => m.sentAt) + d.fld Reg.sessMoveTo 16 16 * 1000000 ≤ d.now with
    | none => d
    | some m =>
      let d := (d.bump Reg.sessMoveUnres 1).report sessSource 0x63 3 (d.handleOf m.idx)
      let d := d.event x 9 (d.handleOf m.idx) tag 0
      match m.cancel with
      | some (c, _) => (d.updMoveOut m.idx fun m => { m with cancel := none }).finish x c .FAULT_LINK 0
      | none => (d.updMoveOut m.idx fun m => { m with unresolved := true }).finish? x m.cmd .FAULT_LINK 1

/-! ### The destination (R281 to R285, R288) -/

/-- Change a move in. -/
def Dev.updMoveIn (d : Dev) (i : Nat) (f : MoveIn → MoveIn) : Dev :=
  { d with tier := { d.tier with movesIn := replaceFirst (fun (m : MoveIn) => m.idx == i) f d.tier.movesIn } }

/-- Whether the fields of a park are in range (R270, R272). -/
def parkFieldsOk (chain n : Nat) : Bool :=
  1 ≤ n && n ≤ 8 && (chain == 0 || (1 ≤ bits chain 0 3 && bits chain 0 3 ≤ 4 && bits chain 0 3 ≤ bits chain 4 3 && bits chain 4 3 ≤ 4))

/-- What a destination answers to an offer (R282, R288). CHAIN and STRIPE_N count for a parked source only, and are tested then (R280; DEDUCED, log 34). -/
def Dev.offerFault (x : Ctx) (d : Dev) (m : MoveIn) (o : MoveOffer) : Option Status :=
  let s := o.desc
  let variant := s.variant != 0 && (imageOf d.tail.variants s.variant).isNone
  let grammar := s.grammar != 0xFFFF && (imageOf d.tail.grammars s.grammar).isNone
  let pfx := !o.flat && s.prefixId != 0xFFFFFFFF && !(d.kv.prefixes.any fun p => p.id == s.prefixId && p.len == o.prefixLen)
  let fields := o.parked && !(parkFieldsOk m.chain m.stripeN)
  let ring := match m.ring with
    | none => false
    | some g => match d.ringAt g.ringId, o.ringSession with
      | some r, some (n, seg, _) => r.pos == 0 && (r.state != .up || r.m != n || r.seg != seg || r.bindings.any fun b => b.rsn == g.rsn)
      | _, _ => true
  firstFail ([(d.shape.record != o.shapeRecord || d.kv.shape.isNone || variant || grammar || pfx || ring || fields, .REFUSED_STATE),
    (s.hook != 0xFFFF && !x.fuses.part.hasBelt, .NOT_PRESENT)] ++ d.tileMode x o.image)

/-- FIRST and LAST of a CHAIN byte (R270); 0 takes the defaults. -/
def Dev.chain (d : Dev) (b : Nat) : Nat × Nat :=
  if b == 0 then (d.fld Reg.sessMoveCtl 0 3, d.fld Reg.sessMoveCtl 4 3) else (bits b 0 3, bits b 4 3)

/-- The prefix under which a move in builds its tables. -/
def MoveOffer.pfx (o : MoveOffer) : Nat := if o.flat then 0xFFFFFFFF else o.desc.prefixId

/-- The places of the private pages that an offered session has: from the page that holds its first private token to its last (R153, R180, R283). -/
def Dev.offeredPages (d : Dev) (o : MoveOffer) : List (Nat × Nat × Nat) :=
  let from_ := if o.pfx == 0xFFFFFFFF then 0 else o.prefixLen
  let n := o.desc.commitLen
  if n ≤ from_ then []
  else (List.range d.shape.layers).flatMap fun l => (List.range d.shape.hkv).flatMap fun h =>
    (rangeFrom (from_ / 256) (cdiv n 256 - from_ / 256)).map fun p => (l, h, p)

/-- The T1 space of a page that moves in: its header block, and two slots until its tile tells that one is enough. -/
def Dev.pageSpace (x : Ctx) (d : Dev) (i pfx layer head page n : Nat) : Option Dev :=
  (d.allocSlots x ⟨.sess i, layer, head, page⟩ n true false).bind fun r => r.1.blockFor x pfx i layer head (page / 64) false

/-- The most bytes of each of `n` target areas that hold an offered session (R266): an image is striped by its size; for tiles no one has more bytes than
a full FP8 page, and no area more than all of them. -/
def Dev.offerAreas (d : Dev) (o : MoveOffer) (n : Nat) : List Nat :=
  if o.image then stripeSizes o.bytes n
  else (List.range n).map fun _ => min o.bytes (38144 + cdiv o.tiles n * (cdiv (256 + 256 * (2 * d.shape.d + 16)) 256 * 256))

/-- The space that an accepted offer takes at once (R282 step 2). For a resident source, and for one that parks in place here (R271), it is everything in
T1: root, directories and areas, and for every page a header block and slots; for a parked source target areas along the chain. None where there is no
room. -/
def Dev.offerSpace (x : Ctx) (d : Dev) (m : MoveIn) (o : MoveOffer) : Option (Dev × List Target) :=
  let (first, last) := d.chain m.chain
  if o.parked && !(first == 1 && d.inPlaceOk x) then
    let d := d.askLoan (max 2 first) last (d.offerAreas o m.stripeN)
    (List.range m.stripeN).findSome? fun n => d.placeAreas (max 2 first) last m.storeBase (d.offerAreas o (n + 1))
  else
    let kinds := [AreaKind.root, .gstack] ++ (if o.desc.listsAddr != 0 then [AreaKind.lists] else []) ++ (List.range d.shape.layers).map AreaKind.dir
    (d.allocAll (.sess m.idx) kinds).bind fun d =>
      let d := d.linkTables x m.idx (if o.pfx == 0xFFFFFFFF then none else some o.pfx)
      ((d.offeredPages o).foldl (fun (a : Option Dev) p => a.bind fun d => d.pageSpace x m.idx o.pfx p.1 p.2.1 p.2.2 2) (some d)).map fun d => (d, [])

/-- The fabric addresses of a ring's positions as its head knows them: its own, and those that the HELLOs came from (R288). -/
def Dev.ringAddrs (d : Dev) (r : Ring) : List Nat :=
  (List.range r.m).map fun j => if j == 0 then d.fabricAddr else match r.hellos.find? fun h => h.pos == j with | some h => h.addr | none => 0

/-- An offer meets its SESS_MOVE_IN: it is accepted or rejected (R282 step 2). A rejected move-in ends with the same status. The head of a ring answers
with its tag and the addresses of its positions (R288). -/
def Dev.matchOffer (x : Ctx) (d : Dev) (m : MoveIn) (o : MoveOffer) : Dev :=
  let reject := fun (d : Dev) (st : Status) => ((d.sendNote o.src 0x10 2 "MOVE_REJECT" 64 [o.tag, st.code] 0).tellRing m st).endMoveIn x m st
  match d.offerFault x m o with
  | some st => reject d st
  | none => match d.offerSpace x m o with
    | none => reject d .REFUSED_RESOURCE
    | some (d, ts) =>
      let d := d.updMoveIn m.idx fun m => { m with offer := some o, targets := ts }
      let ring := match m.ring.bind fun g => d.ringAt g.ringId with | some r => if r.pos == 0 then r.tag :: d.ringAddrs r else [] | none => []
      (d.sendTo o.src 0x10 2 "MOVE_ACCEPT" 64 (o.tag :: ring) none 0 .none).1

/-- The place of an offer that waits for a move in. -/
def MoveIn.meets (m : MoveIn) (o : MoveOffer) : Bool := m.tag == o.tag && m.src == o.src && m.offer.isNone

/-- A MOVE_OFFER reaches the destination (R281, R282). -/
def execMoveOffer (offer : MoveOffer) (s : State) : Host.Outcome State Fault Refusal :=
  s.run fun x d => match d.tier.movesIn.find? fun m => m.meets offer with
    | some m => d.matchOffer x m offer
    | none => { d with tier := { d.tier with offersWaiting := d.tier.offersWaiting ++ [(offer, d.now)] } }

/-- A MOVE_OFFER has met no SESS_MOVE_IN within ACK_MS (R281). -/
def execMoveOfferTimeout (tag : Nat) (s : State) : Host.Outcome State Fault Refusal :=
  s.run fun _ d =>
    let late := fun (o : MoveOffer × Ns) => o.1.tag == tag && o.2 + d.fld Reg.sessMoveTo 0 16 * 1000000 ≤ d.now
    match d.tier.offersWaiting.find? late with
    | none => d
    | some o =>
      ({ d with tier := { d.tier with offersWaiting := d.tier.offersWaiting.eraseP late } } : Dev).sendNote o.1.src 0x10 2
        "MOVE_REJECT" 64 [tag, Status.REFUSED_STATE.code] 0

/-- SESS_MOVE_IN (R280, R281, R288). -/
def execSessMoveIn (e : Entry) (s : State) : Host.Outcome State Fault Refusal :=
  s.ring e [(16, 2), (20, 12), (32, 16)] [(129, 7), (163, 1), (167, 1), (272, 48)] fun x d c =>
    let ring := if bit (e.f 16 1) 0 then some (⟨e.f 17 1, e.f 28 4⟩ : MoveRing) else none
    let noRing := match ring with | some g => (d.ringAt g.ringId).isNone | none => false
    match d.allocIdx with
    | none => d.checked x c [(noRing, .REFUSED_STATE)] fun d => d.finish x c .REFUSED_RESOURCE 0
    | some i => d.checked x c [(noRing, .REFUSED_STATE), (!(d.canPin i), .REFUSED_RESOURCE)] fun d =>
      let gen := d.nextGen i
      let former := ((gen + 1023) % 1024, d.sess.lastAlloc)
      let d := { d with sess := { d.sess with lastAlloc := i } }
      let d := (d.putDesc x i { Desc.void gen d.now with state := .transit, sub := .movingIn, composition := e.f 22 2 }).touch i
      let m : MoveIn := ⟨i, c, e.f 24 4, e.f 32 8, e.f 20 1, e.f 21 1, e.f 22 2, e.f 40 8, ring, d.now, none, [], [], none, [], false, [], former⟩
      let d := { d with tier := { d.tier with movesIn := d.tier.movesIn ++ [m] } }
      match d.tier.offersWaiting.find? fun o => m.meets o.1 with
      | none => d
      | some o =>
        ({ d with tier := { d.tier with offersWaiting := d.tier.offersWaiting.eraseP fun p => m.meets p.1 } } : Dev).matchOffer x m o.1

/-- No MOVE_OFFER within ACK_MS (R281). -/
def execMoveInTimeout (tag : Nat) (s : State) : Host.Outcome State Fault Refusal :=
  s.run fun x d => match d.tier.movesIn.find? fun m => m.tag == tag && m.offer.isNone && m.since + d.fld Reg.sessMoveTo 0 16 * 1000000 ≤ d.now with
    | some m => (d.tellRing m .FAULT_TIMEOUT).endMoveIn x m .FAULT_TIMEOUT
    | none => d

/-- The content that has arrived. -/
def MoveIn.content (m : MoveIn) (o : MoveOffer) : ParkedImage :=
  ⟨o.desc, m.gstack, m.lists, sortBy (fun (a b : Tile) => a.key.before b.key) m.got⟩

/-- The slots and the header block of a tile that moves in: those reserved for its page, less a slot that it does not need; new ones where none were. -/
def Dev.tileSpace (x : Ctx) (d : Dev) (i pfx : Nat) (t : Tile) : Option Dev :=
  let n := match t.header.kind with | .coma | .full => 2 | _ => 1
  let k : PKey := { t.key with owner := .sess i }
  match d.pageSlots k with
  | [] => d.pageSpace x i pfx k.layer k.head k.page n
  | as => some (d.freeSlots (as.drop n))

/-- The descriptor that the destination commits (R283). -/
def MoveIn.desc (m : MoveIn) (o : MoveOffer) (old : Desc) (now : Ns) : Desc :=
  { o.desc with gen := old.gen, composition := m.composition, ckptEpoch := 0, prefixId := if o.flat then 0xFFFFFFFF else o.desc.prefixId,
                sub := .none, batch := 0xFFFF, lastStamp := now }

/-- One more reference to a prefix. -/
def Dev.addRef (d : Dev) (id : Nat) : Dev :=
  if id == 0xFFFFFFFF then d
  else { d with kv := { d.kv with prefixes := replaceFirst (fun (p : Prefix) => p.id == id) (fun p => { p with refs := p.refs + 1 }) d.kv.prefixes } }

/-- The copy of a session that parks outside T1 here: the manifest and the descriptor (R282 step 4, R283). FLAT is kept as the offer has it (R268). A
session with a list block has LISTS_ADDR at the base of the device's own area, as the block is not resident (DESIGN CHOICE, log 34). -/
def Dev.commitParked (x : Ctx) (d : Dev) (m : MoveIn) (o : MoveOffer) (s : Desc) : Dev :=
  let i := m.idx
  let c := m.content o
  let man := d.manifestOf c o.image o.flat m.targets
  let d := ({ d with tier := { d.tier with images := tblSet i { c with desc := s } d.tier.images } } : Dev).putManifest x i man
  d.putDesc x i { s with state := .parked, tier := slowest m.targets, image := o.image, stripeN := m.targets.length, locAddr := d.manifestAddr i, ptRoot := 0,
                         gstackAddr := 0, listsAddr := if c.lists.isSome then d.gibBase Reg.sessGslBase else 0 }

/-- The copy of a session that stays in T1 here, resident or parked in place: tiles land, tables are built, and the descriptor is written (R282 step 4,
R283). None where space for a tile is lacking. -/
def Dev.commitResident (x : Ctx) (d : Dev) (m : MoveIn) (o : MoveOffer) (s : Desc) : Option Dev :=
  let i := m.idx
  let c := m.content o
  (c.tiles.foldl (fun (a : Option Dev) t => a.bind fun d => d.tileSpace x i o.pfx t) (some d)).map fun d =>
    let d := c.tiles.foldl (fun (d : Dev) t => d.landTile x i t o.desc.commitLen) d
    let d := d.buildTables x i c
    let s := { d.placed i s with state := if o.parked then .parked else .idle, image := o.parked && o.image, stripeN := 0, locAddr := 0 }
    let d := d.putDesc x i s
    let d := d.putDesc x i { s with tier := d.tierOf i }
    if o.parked then
      let bytes := sumOf (d.areaSizes c o.image 1)
      let d := d.putManifest x i ⟨o.image, true, false, o.flat, 0, c.tiles.length, bytes, s.commitLen, d.now, [⟨s.ptRoot, bytes, 1, 0⟩], 0⟩
      d.updDesc x i fun s => { s with tier := 1, stripeN := 1, locAddr := d.manifestAddr i }
    else d

/-- The destination's copy is committed in the source's prior state (R282 step 4, R283); a ring session is bound (R288). None where space for it
is lacking. -/
def Dev.commitMoveIn (x : Ctx) (d : Dev) (m : MoveIn) (o : MoveOffer) : Option Dev :=
  let i := m.idx
  let s := m.desc o (d.desc i) d.now
  (if m.targets.isEmpty then d.commitResident x m o s else some (d.commitParked x m o s)).map fun d =>
    let d := d.addRef s.prefixId
    let d := match m.ring, o.ringSession with
      | some g, some (_, _, len) => d.updRing g.ringId fun r => { r with bindings := r.bindings ++ [(⟨g.rsn, i, len, s.stepSeq⟩ : RingBinding)] }
      | _, _ => d
    let d := { d with tier := { d.tier with movesIn := d.tier.movesIn.filter fun q => q.idx != i } }
    let d := ((d.keepOutcome m.tag true).life 6 i m.tag).finish x m.cmd .DONE (d.handleOf i)
    let head := match m.ring.bind fun g => d.ringAt g.ringId with | some r => r.pos == 0 | none => true
    if head then (d.sendTo m.src 0x10 2 "MOVE_DONE" 64 [m.tag, (d.desc i).gen] none 0 .none).1 else d

/-- The move-in that holds a copy for an RSN of a ring. -/
def Dev.heldFor (d : Dev) (ring rsn : Nat) : Option MoveIn :=
  d.tier.movesIn.find? fun m => m.held && (match m.ring with | some g => g.ringId == ring && g.rsn == rsn | none => false)

/-- A member of ring B commits what it holds and binds the session. -/
def Dev.ringCommitMove (x : Ctx) (d : Dev) (ring rsn : Nat) : Dev :=
  match d.heldFor ring rsn with
  | none => d
  | some m => match m.offer with
    | none => d
    | some o => (d.commitMoveIn x m o).getD (d.failMoveIn x m .REFUSED_RESOURCE)

/-- A position of ring B is ready; when every position has reported, the head sends COMMIT to its members and MOVE_DONE to the head of A, and
commits its own copy. -/
def Dev.ringReady (x : Ctx) (d : Dev) (r : Ring) (rsn pos : Nat) : Dev :=
  let mine := fun (o : RingOp) => o.rsn == rsn && o.kind == 3
  let add := fun (o : RingOp) => if o.reports.any fun p => p.1 == pos then o else { o with reports := o.reports ++ [(pos, Status.DONE)] }
  let ops := if r.ops.any mine then r.ops else r.ops ++ [(⟨rsn, 3, none, [], d.now, 0⟩ : RingOp)]
  let ops := replaceFirst mine add ops
  let d := d.updRing r.id fun r => { r with ops := ops }
  match ops.find? mine with
  | some o =>
    if o.reports.length == r.m then
      ((d.updRing r.id fun r => { r with ops := r.ops.eraseP mine }).ringRecord r "COMMIT" [rsn]).ringCommitMove x r.id rsn
    else d
  | none => d

/-- The copy is whole and where it belongs: it is committed, or, in a ring move, held and reported (R282 step 4, R288). -/
def Dev.moveHeld (x : Ctx) (d : Dev) (m : MoveIn) (o : MoveOffer) : Dev :=
  match m.ring.bind fun g => (d.ringAt g.ringId).map fun r => (g, r) with
  | none => (d.commitMoveIn x m o).getD (d.failMoveIn x m .REFUSED_RESOURCE)
  | some (g, r) =>
    let d := d.updMoveIn m.idx fun m => { m with held := true }
    if r.pos == 0 then d.ringReady x r g.rsn 0
    else (d.sendTo r.headAddr 0x06 0 "READY" 64 [r.tag, g.rsn, r.pos] none r.id (.ring r.id)).1

/-- The last part has come (R282 step 4). A copy that parks outside T1 is first written to its targets, as a park is. -/
def Dev.moveWhole (x : Ctx) (d : Dev) (m : MoveIn) (o : MoveOffer) : Dev :=
  if m.targets.isEmpty then d.moveHeld x m o
  else
    let (first, last) := d.chain m.chain
    let c := m.content o
    let ts := List.zipWith (fun (t : Target) n => { t with tbytes := n }) m.targets (d.areaSizes c o.image m.targets.length)
    let d := d.updMoveIn m.idx fun m => { m with targets := [] }
    d.startWrites x ⟨m.idx, none, false, o.image, max 2 first, last, m.stripeN, m.storeBase, ts, c, [], none⟩

/-- The destination park of a move is written (R282 step 4). -/
def Dev.moveWritten (x : Ctx) (d : Dev) (m : MoveIn) (p : ParkOp) : Dev :=
  let d := { d with tier := { d.tier with parks := d.tier.parks.filter fun q => q.idx != p.idx } }
  let m := { m with targets := p.targets }
  let d := d.updMoveIn m.idx fun _ => m
  match m.offer with
  | some o => d.moveHeld x m o
  | none => d

/-- One part of a move has come in. -/
def Dev.moveTile (x : Ctx) (d : Dev) (m : MoveIn) (o : MoveOffer) (item : MoveItem) : Dev :=
  let last := fun (m' : MoveIn) => !o.image && o.tiles ≤ m'.got.length && !m'.gstack.isEmpty && (m'.lists.isSome == (o.desc.listsAddr != 0))
  let put := fun (d : Dev) (m' : MoveIn) =>
    let d := d.updMoveIn m.idx fun _ => m'
    if last m' then d.moveWhole x m' o else d
  match item with
  | .again _ => d
  | .tile n t ok =>
    if o.image || o.tiles ≤ n then d
    else if ok then
      if m.got.any fun u => u.key == t.key then d else put d { m with got := m.got ++ [t] }
    else if m.reread.contains n then d.failMoveIn x m .FAULT_MEDIA
    else (d.updMoveIn m.idx fun m => { m with reread := n :: m.reread }).sendNote m.src 0x10 2 "TILE_AGAIN" 64 [m.tag, n] 0
  | .extras g l => if o.image then d else put d { m with gstack := g, lists := l }
  | .stripe n c ok =>
    if !o.image || cdiv o.bytes 0x100000 ≤ n || m.reread.contains n then d
    else if !ok then d.failMoveIn x m .FAULT_MEDIA
    else
      let m' := { m with reread := n :: m.reread, got := c.tiles, gstack := c.gstack, lists := c.lists }
      let d := d.updMoveIn m.idx fun _ => m'
      if m'.reread.length == cdiv o.bytes 0x100000 then d.moveWhole x m' o else d

/-- The source sends a tile once more (R284). -/
def Dev.tileAgain (x : Ctx) (d : Dev) (m : MoveOut) (n : Nat) : Dev :=
  let (c, bad) := d.moveContent x m.idx m.flat
  let (d, ok) := if bad then (d, true) else d.sendMoveTile m c n
  let st := if bad then Status.FAULT_MEDIA else .FAULT_LINK
  if ok && !bad then d else (d.sendNote m.dest 0x10 2 "MOVE_ABORT" 64 [m.tag, st.code] 0).endMoveOut x m st

/-- A tile, the extras or a stripe of a move reach the destination; or the destination's request for a tile reaches the source (R282, R284). -/
def execMoveTile (tag src : Nat) (item : MoveItem) (s : State) : Host.Outcome State Fault Refusal :=
  s.run fun x d => match item with
    | .again n => match d.moveOut fun m => m.tag == tag && m.dest == src && m.sentAll with
      | none => d
      | some m => d.tileAgain x m n
    | _ => match d.tier.movesIn.find? fun m => m.tag == tag && m.src == src && !m.held && !(d.tier.parks.any fun p => p.idx == m.idx) with
      | none => d
      | some m => match m.offer with
        | none => d
        | some o => d.moveTile x m o item

/-- MOVE_STATUS reaches the destination, which answers from the outcomes that it keeps; a move still under way is not answered, and a tag of
which it knows nothing has not been committed (R285; DEDUCED, log 34). -/
def execMoveStatus (tag src : Nat) (s : State) : Host.Outcome State Fault Refusal :=
  s.run fun _ d =>
    if d.tier.movesIn.any fun m => m.tag == tag && m.src == src then d
    else
      let ok := match d.tier.outcomes.find? fun o => o.1 == tag with | some o => o.2 | none => false
      d.sendNote src 0x10 2 (if ok then "COMMITTED" else "ABORTED") 64 [tag] 0

/-- MOVE_ABORT at a destination that has not committed: it releases the copy and answers. In a ring move the head of B passes it on to the head of A and
to its members, and a member to its source and its head (R288). -/
def Dev.abortIn (x : Ctx) (d : Dev) (m : MoveIn) (peer : Nat) (status : Status) : Dev :=
  let d := if m.src == peer then d else d.sendNote m.src 0x10 2 "MOVE_ABORT" 64 [m.tag, status.code] 0
  let head := match m.ring.bind fun g => d.ringAt g.ringId with | some r => r.headAddr | none => peer
  let d := if head == peer then d else d.tellRing m status
  (d.endMoveIn x m status).sendNote peer 0x10 2 "ABORTED" 64 [m.tag] 0

/-- MOVE_ABORT at a source: the session returns to its prior state with the status it names. In a ring move the head of A tells its members, and the head
of B where it was a member that told it (R288). -/
def Dev.abortOut (x : Ctx) (d : Dev) (m : MoveOut) (peer : Nat) (status : Status) : Dev :=
  let d := match m.ring.bind fun id => d.ringAt id with
    | some r => if r.pos == 0 then
        let d := if m.dest == peer then d else d.sendNote m.dest 0x10 2 "MOVE_ABORT" 64 [m.tag, status.code] 0
        d.ringRecord r "MOVE_ABORT" [m.tag, status.code]
      else if r.pos + 1 < r.m then d.ringRecord r "MOVE_ABORT" [m.tag, status.code] else d
    | none => d
  d.endMoveOut x m (if m.cancel.isSome then .CANCELLED else status)

/-- MOVE_ABORT (R284, R286, R288). A destination that knows the tag only from an offer that waits, or not at all, has not committed and holds nothing: the
offer goes, and it answers ABORTED. -/
def execMoveAbort (tag peer : Nat) (status : Status) (s : State) : Host.Outcome State Fault Refusal :=
  s.run fun x d =>
    match d.tier.movesIn.find? fun m => m.tag == tag && (m.src == peer || m.ring.isSome) with
    | some m => d.abortIn x m peer status
    | none => match d.moveOut fun m => m.tag == tag && (m.dest == peer || m.ring.isSome) with
      | some m => d.abortOut x m peer status
      | none =>
        if d.tier.outcomes.any fun o => o.1 == tag && o.2 then d.sendNote peer 0x10 2 "COMMITTED" 64 [tag] 0
        else
          let d := { d with tier := { d.tier with offersWaiting := d.tier.offersWaiting.filter fun o => !(o.1.tag == tag && o.1.src == peer) } }
          (d.keepOutcome tag false).sendNote peer 0x10 2 "ABORTED" 64 [tag] 0

/-! ### Ring moves (R288) -/

/-- Why a member of ring A cannot move its local session; none where it can. -/
def Dev.moveRecordFault (x : Ctx) (d : Dev) (i : Nat) (image : Bool) : Option Status :=
  let st := (d.desc i).state
  firstFail (d.tileMode x image ++ [((st != .idle && st != .parked) || d.occupied i, .REFUSED_STATE),
    ((d.parkedMoveFault x i).isSome, (d.parkedMoveFault x i).getD .FAULT_LINK), (!(d.canPin i), .REFUSED_RESOURCE)])

/-- A MOVE record makes a member of ring A move its local session to its position of ring B, whose address it names, in the head's mode, on a YVS9-0576
as a whole image; it goes onward. A member that cannot tells its destination, which ends the move (R288). -/
def execMoveRecord (ring rsn ringB tag : Nat) (dests : MoveDests) (s : State) : Host.Outcome State Fault Refusal :=
  s.run fun x d =>
    let (dests, image) := (dests.addrs, dests.image)
    match d.ringAt ring with
    | none => d
    | some r =>
      if r.pos == 0 then d
      else
        let d := if r.pos + 1 < r.m then d.ringRecord r "MOVE" ([rsn, ringB, tag, ofB image] ++ dests) else d
        let dest := getAt 0 r.pos dests
        let image := image || !x.fuses.part.tileMove
        match r.bindings.find? fun b => b.rsn == rsn with
        | none => d.sendNote dest 0x10 2 "MOVE_ABORT" 64 [tag, Status.REFUSED_STATE.code] 0
        | some b => match d.moveRecordFault x b.idx image with
          | some st => d.sendNote dest 0x10 2 "MOVE_ABORT" 64 [tag, st.code] 0
          | none => ((d.dropUndo x b.idx).dropDemotion x b.idx).startMove x b.idx none tag dest image false (some ring)

/-- A member's READY reaches the head of B. -/
def execMoveReady (ring rsn pos : Nat) (s : State) : Host.Outcome State Fault Refusal :=
  s.run fun x d => match d.ringAt ring with
    | none => d
    | some r =>
      if r.pos != 0 || pos == 0 || r.m ≤ pos then d
      else d.ringReady x r rsn pos

/-- COMMIT makes a member of ring B complete its move and bind the session; it goes onward. -/
def execMoveCommit (ring rsn : Nat) (s : State) : Host.Outcome State Fault Refusal :=
  s.run fun x d => match d.ringAt ring with
    | none => d
    | some r =>
      if r.pos == 0 then d
      else
        let d := if r.pos + 1 < r.m then d.ringRecord r "COMMIT" [rsn] else d
        d.ringCommitMove x ring rsn

end Sys2Proof.Machine
end

