-- ==== Sys2Proof/Machine/Tiers.lean ====
section
/-! DEFINITION. Machine/Tiers.lean: parking and reviving, pressure, pinned prefixes, slot retirement and the usage meters (R247 to R279,
R289 to R291, R301 to R304, R549 to R551). -/

namespace Sys2Proof.Machine

/-! ### SESS_PARK (R270 to R275) -/

/-- Whether the ring of a bound session is not up. -/
def Dev.ringDown (d : Dev) (i : Nat) : Bool := match d.bindingOf i with | some (r, _) => r.state != .up | none => false

/-- A park of one session, here (R271, R272). -/
def Dev.parkHere (x : Ctx) (d : Dev) (i : Nat) (ring : Option Nat) (c : Option Cmd) (image : Bool) (first last n store : Nat) : Dev :=
  if first == 1 && d.inPlaceOk x then d.parkInPlace x i ring c image
  else if !(d.canPin i) then d.localDone x ring c i .REFUSED_RESOURCE 0
  else d.parkOut x i ring c image false first last n store

/-- A park of a ring session at the head reaches every member (R275); without a command it is one that pressure started (R290). -/
def Dev.ringPark (x : Ctx) (d : Dev) (r : Ring) (b : RingBinding) (c : Option Cmd) (image : Bool) (first last n store : Nat) : Dev :=
  let d := d.updRing r.id fun r => { r with ops := r.ops ++ [(⟨b.rsn, if c.isSome then 1 else 4, c, [], d.now, 0⟩ : RingOp)] }
  let d := d.ringRecord r "PARK" [b.rsn, ofB image, first, last, n, store]
  (d.parkHere x b.idx (some r.id) none image first last n store).settleRing x r.id

/-- SESS_PARK (R270 to R275). -/
def execSessPark (e : Entry) (s : State) : Host.Outcome State Fault Refusal :=
  s.ring e [(16, 7), (24, 8)] [(161, 7), (171, 1), (175, 1)] fun x d c => d.withSession x c (e.f 16 4) fun d i ds =>
    let image := bit (e.f 20 1) 0
    d.checked x c (d.tileMode x image ++
      [(ds.state != .idle || d.memberBound i || d.occupied i || !(parkFieldsOk (e.f 21 1) (e.f 22 1)), .REFUSED_STATE),
       (d.ringDown i, .REFUSED_RESOURCE)]) fun d =>
      let (first, last) := d.chain (e.f 21 1)
      match d.bindingOf i with
      | some (r, b) => d.ringPark x r b (some c) image first last (e.f 22 1) (e.f 24 8)
      | none => d.parkHere x i none (some c) image first last (e.f 22 1) (e.f 24 8)

/-- The last write of a park is acknowledged (R272 step 4), or of the park that a move-in writes (R282 step 4). -/
def execParkWritesDone (idx : Nat) (s : State) : Host.Outcome State Fault Refusal :=
  s.run fun x d => match d.tier.parks.find? fun p => p.idx == idx && p.waiting == 0 with
    | some p => (match d.tier.movesIn.find? fun (m : MoveIn) => m.idx == idx with
      | some m => d.moveWritten x m p
      | none => d.parkDone x p).settleRings x
    | none => d

/-- One block timeout later the T1 space of a parked session is released (R272 step 5). -/
def execParkRelease (idx : Nat) (s : State) : Host.Outcome State Fault Refusal :=
  s.run fun x d => d.releaseFrames x fun r => !(d.capturing (.sess idx)) && r.owner == POwner.sess idx && !r.areas.isEmpty

/-! ### Pressure (R290) -/

/-- Whether a command or operation of a session is in progress. -/
def Dev.busyIdx (d : Dev) (i : Nat) : Bool :=
  d.kv.impexp.any (fun o => o.idx == i) || d.kv.captures.any (fun o => o.idx == i) || d.tier.parks.any (fun p => p.idx == i) ||
    d.tier.revives.any (fun r => r.idx == i) || d.tier.movesOut.any (fun m => m.idx == i) || d.tier.movesIn.any (fun m => m.idx == i)

/-- Whether a session is parked in place. -/
def Dev.inPlace (d : Dev) (i : Nat) : Bool := match tblGet i d.tier.manifests with | some m => m.inPlace | none => false

/-- Slots that a session holds. -/
def Dev.slotsHeld (d : Dev) (i : Nat) : Nat := (d.kv.pool.used.filter fun u => u.key.owner == POwner.sess i).length

/-- The sessions that pressure may evict, in order: those parked in place, then IDLE ones that are not pinned, each by ascending LAST_STAMP. An IDLE session
of a ring is parked by the head of the ring alone, with every position of it (R228, R275; DEDUCED, log 34). -/
def Dev.evictable (d : Dev) : List Nat :=
  let free := d.sess.table.filter fun p => !(d.busyIdx p.1)
  let byStamp := sortBy (fun (a b : Nat × Desc) => decide (a.2.lastStamp < b.2.lastStamp))
  let idle := fun (p : Nat × Desc) => p.2.state == .idle && (match d.bindingOf p.1 with
    | some (r, b) => r.pos == 0 && r.state == .up && !(r.ops.any fun o => o.rsn == b.rsn)
    | none => true)
  ((byStamp (free.filter fun p => p.2.state == .parked && d.inPlace p.1)) ++ byStamp (free.filter idle)).map (·.1)

/-- Firmware demotes or parks one session. One that cannot be parked is skipped. -/
def Dev.evictOne (x : Ctx) (d : Dev) (i : Nat) : Dev :=
  let image := bit (d.reg Reg.sessMoveCtl) 31 || !x.fuses.part.tileMove
  let demotion := (d.desc i).state == .parked
  let (first, last) := (d.fld Reg.sessMoveCtl 0 3, d.fld Reg.sessMoveCtl 4 3)
  if !demotion && !(d.canPin i) then d
  else if demotion then d.parkOut x i none none ((tblGet i d.tier.manifests).any (·.image)) true first last 8 0
  else match d.bindingOf i with
    | some (r, b) => d.ringPark x r b none image (max 2 first) last 8 0
    | none => d.parkOut x i none none image false first last 8 0

/-- Slots that evictions under way, space that waits for its release and units under a REVOKE will give back. -/
def Dev.comingSlots (d : Dev) : Nat :=
  sumOf ((d.tier.parks.filter fun p => p.cmd.isNone).map fun p => d.slotsHeld p.idx) + sumOf (d.kv.releases.map fun r => r.slots.length) +
    16384 * (d.tier.lent.filter fun l => l.revoking.isSome).length

/-- A lender below RECLAIM_PCT revokes the most recently granted unit of each loan that has no REVOKE outstanding (R292, R295). -/
def Dev.revokeUnits (x : Ctx) (d : Dev) : Dev :=
  if !(d.freeBelow x (d.fld Reg.sessPoolWater 16 8)) then d
  else (d.tier.lent.filter fun l => l.revoking.isNone).foldl (fun (d : Dev) l => match l.units.getLast? with
    | none => d
    | some u =>
      let upd := fun (k : Loan) => if k.peer == l.peer && k.number == l.number then { k with revoking := some (u, d.now) } else k
      ({ d with tier := { d.tier with lent := d.tier.lent.map upd } } : Dev).sendNote l.peer 0x30 5 "REVOKE" 64 [l.number, u] 0) d

/-- Whether the device's own sessions wait for units that it has lent: below RECLAIM_PCT those come back first (R292). -/
def Dev.lentFirst (x : Ctx) (d : Dev) : Bool := d.freeBelow x (d.fld Reg.sessPoolWater 16 8) && d.tier.lent.any fun l => !l.units.isEmpty

/-- Evict until the free slots to come reach HIGH_PCT. Lent units come back before own sessions go (R292). -/
def Dev.evictAll (x : Ctx) (d : Dev) : Dev :=
  let d := d.revokeUnits x
  if d.lentFirst x then d
  else d.evictable.foldl (fun (d : Dev) i =>
    if (d.poolFree x + d.comingSlots) * 100 < d.fld Reg.sessPoolWater 8 8 * d.poolSlots x then d.evictOne x i else d) d

/-- Free slots are below LOW_PCT (R290). -/
def execPressureEviction (s : State) : Host.Outcome State Fault Refusal :=
  s.run fun x d => if d.freeBelow x (d.fld Reg.sessPoolWater 0 8) then (d.evictAll x).settleRings x else d

/-! ### SESS_REVIVE (R275 to R279) -/

/-- SESS_REVIVE (R276 to R279). -/
def execSessRevive (e : Entry) (s : State) : Host.Outcome State Fault Refusal :=
  s.ring e [(16, 4)] [] fun x d c => d.withSession x c (e.f 16 4) fun d i ds =>
    d.checked x c [(ds.state != .parked || d.memberBound i, .REFUSED_STATE), (d.ringDown i, .REFUSED_RESOURCE)] fun d =>
      match d.bindingOf i with
      | some (r, b) =>
        let d := d.updRing r.id fun r => { r with ops := r.ops ++ [(⟨b.rsn, 2, some c, [], d.now, 0⟩ : RingOp)] }
        ((d.ringRecord r "REVIVE" [b.rsn]).startRevive x i (some r.id) none).settleRing x r.id
      | none => d.startRevive x i none (some c)

/-- The target reads of a revive start, all at once (R276 step 3). One that cannot start ends the revive (R278). -/
def Dev.startTargetReads (x : Ctx) (d : Dev) (r : ReviveOp) (m : Manifest) : Dev :=
  let (d, ok) := m.targets.zipIdx.foldl (fun (a : Dev × Bool) t =>
    let (d, _, ok) := a.1.transfer x t.1 false 2 2 (.revive r.idx t.2) (.revive r.idx t.2)
    (d, a.2 && ok)) (d, true)
  if ok then d else d.endRevive x r .FAULT_LINK

/-- Whether a revive finds its structures in the areas of R723, leaving slots out of account. -/
def Dev.areasFit (x : Ctx) (d : Dev) (i : Nat) (c : ParkedImage) : Bool :=
  let kinds := [AreaKind.root, .gstack] ++ (if c.lists.isSome then [AreaKind.lists] else []) ++ (List.range d.shape.layers).map AreaKind.dir
  match d.allocAll (.sess i) kinds with
  | none => false
  | some d => (c.tiles.foldl (fun (a : Option Dev) t => a.bind fun d => d.ownBlock x i t.key.layer t.key.head (t.key.page / 64) false) (some d)).isSome

/-- The first of several sessions that can be evicted is; none where none of them can (R290). -/
def Dev.evictFirst (x : Ctx) (d : Dev) : List Nat → Option Dev
  | [] => none
  | i :: t =>
    let d' := d.evictOne x i
    let going := d'.tier.parks.any fun p => p.idx == i
    if going then some d' else d.evictFirst x t

/-- The T1 reservation of a revive is made (R276 step 2). A revive for which the areas of R723 lack room is refused (R723). Without slots, lent units come
back and other sessions are evicted first; with none left to evict the revive completes REFUSED_RESOURCE. -/
def Dev.reviveReserve (x : Ctx) (d : Dev) (r : ReviveOp) (m : Manifest) (c : ParkedImage) : Dev :=
  match d.reserveT1 x r.idx c with
  | some d =>
    let r := { r with reserved := true }
    let d := { d with tier := { d.tier with revives := replaceFirst (fun (q : ReviveOp) => q.idx == r.idx) (fun _ => r) d.tier.revives,
                                            reviveWaiters := d.tier.reviveWaiters.filter fun j => j != r.idx } }
    d.startTargetReads x r m
  | none =>
    if !(d.areasFit x r.idx c) then d.endRevive x r .REFUSED_RESOURCE
    else
      let w := { d with tier := { d.tier with reviveWaiters := d.tier.reviveWaiters.filter (fun j => j != r.idx) ++ [r.idx] } }
      let w := w.revokeUnits x
      if w.comingSlots != 0 then w
      else match w.evictFirst x w.evictable with
        | some w => w
        | none => d.endRevive x r .REFUSED_RESOURCE

/-- The reservation of a revive is tried (R276 step 2). -/
def execReviveReserved (idx : Nat) (s : State) : Host.Outcome State Fault Refusal :=
  s.run fun x d => match d.tier.revives.find? fun r => r.idx == idx && !r.reserved with
    | none => d
    | some r => match tblGet idx d.tier.manifests, tblGet idx d.tier.images with
      | some m, some c => (d.reviveReserve x r m c).settleRings x
      | _, _ => (d.endRevive x r .FAULT_MEDIA).settleRings x

/-! ### Loan units that are empty (R295, R296) -/

/-- The lender and unit of an address in a window. -/
def Dev.unitAt (d : Dev) (a : Nat) : Nat × Nat := (d.lenderAt a, a % 0x10000000000 / max 1 d.unitBytes)

/-- What the checkpoint store keeps in a unit that is no longer borrowed is gone. -/
def Dev.loseStored (d : Dev) : Dev :=
  let at_ := fun (t : StoreTarget) (a : Nat) => if t.tier == 2 && !(d.tier.borrowed.any fun l => l.units.any fun u => d.unitAt a == (l.peer, u)) then 0 else a
  { d with ckpt := { d.ckpt with shards := d.ckpt.shards.map fun q => { q with place := at_ q.target q.place }
                                 cats := d.ckpt.cats.map fun q => { q with place := at_ q.target q.place } } }

/-- A borrower gives units back: those that a REVOKE names and that hold no area any more, with RELEASE; a loan without units goes, and its
window with it (R295, R485). -/
def Dev.settleLoans (d : Dev) : Dev :=
  let d := d.tier.borrowed.foldl (fun (d : Dev) l => match l.revoking with
    | none => d
    | some (u, _) =>
      if d.tier.t2.any fun a => d.unitAt a.1 == (l.peer, u) then d
      else
        let upd := fun (k : Loan) => if k.peer == l.peer && k.number == l.number then { k with units := k.units.filter (fun w => w != u), revoking := none } else k
        ({ d with tier := { d.tier with borrowed := d.tier.borrowed.map upd } } : Dev).sendNote l.peer 0x30 5 "RELEASE" 64 [l.number, u] 0) d
  let d := ({ d with tier := { d.tier with borrowed := d.tier.borrowed.filter fun l => !l.units.isEmpty } } : Dev).loseStored
  (List.range 64).foldl (fun (d : Dev) w =>
    if bit (d.reg (Reg.fabWin w)) 31 && !(d.tier.borrowed.any fun l => l.peer == d.fld (Reg.fabWin w) 0 16) then d.setReg (Reg.fabWin w) 0 else d) d

/-- A tile or stripe of a revive lands (R276 to R278). -/
def execReviveTile (idx n : Nat) (ok : Bool) (s : State) : Host.Outcome State Fault Refusal :=
  s.run fun x d => match d.tier.revives.find? fun r => r.idx == idx with
    | none => d
    | some r => match tblGet idx d.tier.manifests, tblGet idx d.tier.images with
      | some m, some c => ((d.reviveTile x r m c n ok).settleRings x).settleLoans
      | _, _ => d

/-! ### Pinned prefixes (R259 to R263) -/

/-- PREFIX_PIN (R259, R260): every page is copied into T0, or, where a quadrant lacks room, none. A page that cannot be read ends it FAULT_MEDIA. -/
def execPrefixPin (e : Entry) (s : State) : Host.Outcome State Fault Refusal :=
  s.ring e [(20, 4)] [] fun x d c =>
    let id := e.f 20 4
    let pages := d.pagesOf (.pfx id)
    let bad := pages.any fun k => d.tileBad x k.1 k.2 0
    d.checked x c [((match d.loadedPrefix id with | some p => p.pinned | none => true), .REFUSED_STATE)] fun d =>
      if bad then (d.reportUnread x 0x3FFFFF (.pfx id) 0).finish x c .FAULT_MEDIA 0
      else match d.pinPages x pages with
      | none => d.finish x c .REFUSED_RESOURCE 0
      | some d => ((d.updPrefix id fun p => { p with pinned := true, pinnedAt := d.now }).retier x id).finish x c .DONE 0

/-- PREFIX_UNPIN (R259, R261). -/
def execPrefixUnpin (e : Entry) (s : State) : Host.Outcome State Fault Refusal :=
  s.ring e [(20, 4)] [] fun x d c =>
    let id := e.f 20 4
    d.checked x c [((match d.loadedPrefix id with | some p => !p.pinned | none => true), .REFUSED_STATE)] fun d => (d.unpin x id).finish x c .DONE 0

/-- The T0 space of a prefix that has lost its pin is released (R261). A copy that a running tile still reads stays until it has; a request that had
planned on copies reads HBM once there are none. -/
def execPinSpaceRelease (prefixId : Nat) (s : State) : Host.Outcome State Fault Refusal :=
  s.run fun x d =>
    let reads := fun (c : PinCopy) => d.attn.reqs.any fun q => q.tiles.any fun t => t.ae.isSome && !t.done &&
      t.snap.any fun s => c.addr ≤ s.2.payload && s.2.payload < c.addr + c.bytes
    let d : Dev := { d with tier := { d.tier with pins := d.tier.pins.filter fun c =>
      !(c.key.owner == POwner.pfx prefixId && c.gone.isSome && !(reads c)) } }
    if d.tier.pins.any fun c => c.key.owner == POwner.pfx prefixId then d
    else (d.attn.reqs.filter fun q => q.pinned.contains prefixId).foldl (fun (d : Dev) q => d.replan x prefixId q) d

/-! ### Retirement of slots (R301 to R304) -/

/-- Whether an address is a slot of the pool. -/
def Dev.isSlot (x : Ctx) (d : Dev) (a : Nat) : Bool :=
  inHbm x.fuses.part a && d.slotBytes != 0 && d.slotOf a == a && a % 0xC0000000 / d.slotBytes < d.slotsPerPc &&
    !((d.regionSpans x (pcOf a)).any fun r => r.1 ≤ a % 0xC0000000 / d.slotBytes && a % 0xC0000000 / d.slotBytes < r.2)

/-- Whether a slot is to be retired: an uncorrectable error in it, or CE_LIMIT corrected ones in a window (R301). -/
def Dev.slotFails (d : Dev) (a : Nat) : Bool :=
  let win := max 1 (d.fld Reg.sessRetireCtl 16 16 * 1000000000)
  (d.err.bad.any fun b => b.uncorrectable && !b.held && b.within a d.slotBytes) ||
    d.kv.pool.ce.any fun c => c.1 == a && c.2.1 / win == d.now / win && d.fld Reg.sessRetireCtl 0 8 ≤ c.2.2

/-- A slot is retired: at once when it is free, otherwise once its page has gone (R302). -/
def Dev.retire (x : Ctx) (d : Dev) (a : Nat) : Dev :=
  if !(d.isSlot x a) || d.kv.pool.retired.any (fun r => r.addr == a) || d.kv.pool.retiring.contains a then d
  else if d.kv.pool.used.any fun u => u.addr == a then
    { d with kv := { d.kv with pool := { d.kv.pool with retiring := d.kv.pool.retiring ++ [a] } } }
  else d.retireSlot a

/-- A slot reaches its limit or fails ECC (R301). -/
def execSlotRetire (slot : Nat) (s : State) : Host.Outcome State Fault Refusal :=
  s.run fun x d => if d.slotFails slot then d.retire x slot else d

/-- Whether the owner of a page lets it be copied now: a session that is IDLE or parked in place; a prefix that no HOT session uses (R302). -/
def Dev.copyable (d : Dev) : POwner → Bool
  | .sess i => (d.desc i).state == .idle || ((d.desc i).state == .parked && d.inPlace i)
  | .pfx id => !(d.sess.table.any fun p => p.2.state == .hot && p.2.prefixId == id)

/-- The page of a retiring slot goes to fresh slots by a header swap; its old slots are released one block timeout later, and the retiring one
is retired then (R167 step 5, R173, R302). -/
def Dev.copyPage (x : Ctx) (d : Dev) (k : PKey) (p : Page) : Dev :=
  let old := d.pageSlots k
  match d.allocSlots x k old.length false false with
  | none => d
  | some (d, new) =>
    let d := (List.zip old new).foldl (fun (d : Dev) m => d.st x m.2 d.slotBytes (d.ld x m.1 d.slotBytes)) d
    let use := d.kv.pool.used.map fun (u : SlotUse) => if old.contains u.addr then { u with key := { u.key with owner := goneOwner } } else u
    let d := { d with kv := { d.kv with pool := { d.kv.pool with used := use }, releases := d.kv.releases ++ [(⟨k.owner, old, [], [], d.now⟩ : FrameRelease)] } }
    d.putPage x k (p.at new d.shape.d)

/-- A live page on a retiring slot is copied (R302), while base-die BULK work of its stack may start (R658, R666). -/
def execRetirementCopy (slot : Nat) (s : State) : Host.Outcome State Fault Refusal :=
  s.run fun x d =>
    if !(d.kv.pool.retiring.contains slot) || d.bulkHeld (stackOf slot) then d
    else match d.kv.pool.used.find? fun u => u.addr == slot with
      | none => d
      | some u => match d.page u.key with
        | none => d
        | some p =>
          if !(d.copyable u.key.owner) || d.capturing u.key.owner || d.tileBad x u.key p (d.lenBefore u.key.owner.index) then d else d.copyPage x u.key p

/-! ### Usage meters (R549 to R551) -/

/-- Read and clear meter records, one after the other. -/
def Dev.copyMeters (x : Ctx) (d : Dev) (first n dst : Nat) (clear : Bool) : Dev :=
  (List.range n).foldl (fun (d : Dev) k =>
    let a := d.meterBase + 64 * (first + k)
    let d := d.st x (dst + 64 * k) 64 (d.ld x a 64)
    if clear then d.st x a 64 0 else d) d

/-- METER_READ (R551). A COUNT outside 1 to 4,096 is an error of the host's own making (R29). -/
def execMeterRead (e : Entry) (s : State) : Host.Outcome State Fault Refusal :=
  s.ring e [(16, 5), (24, 8)] [(161, 7)] fun x d c =>
    let first := e.f 16 2
    let n := e.f 18 2
    if n == 0 || 4096 < n then d.unpredictable x c
    else d.checked x c [(65536 < first + n, .REFUSED_STATE)] fun d =>
      d.buffers x c [(e.f 24 8, 64 * n)] fun d => (d.copyMeters x first n (e.f 24 8) (bit (e.f 20 1) 0)).finish x c .DONE 0

/-- The composition that an owner of T1 space is charged to; space that waits for its release is charged to none. -/
def Dev.ownerComp (d : Dev) : POwner → Option Nat
  | .sess i => some (d.desc i).composition
  | .pfx id => (d.kv.prefixes.find? fun p => p.id == id).map (·.composition)

/-- What is held now, as (composition, word, bytes). -/
def Dev.holdings (d : Dev) : List (Nat × Nat × Nat) :=
  (d.kv.pool.used.filterMap fun u => (d.ownerComp u.key.owner).map fun c => (c, 6, d.slotBytes)) ++
  ((d.kv.gsl ++ d.kv.pta).filterMap fun u => (d.ownerComp u.owner).map fun c => (c, 6, u.bytes)) ++
  (((d.tier.manifests.map fun m => (m.1, m.2.targets)) ++ d.tier.parks.map fun p => (p.idx, p.targets)).flatMap fun m =>
    (m.2.filter fun t => t.tier != 1).map fun t => ((d.desc m.1).composition, 7, t.tbytes))

/-- The occupancy meters advance (R550): bytes held times 1,000,000 over 2^30, the remainder carried. -/
def Dev.advanceMeters (x : Ctx) (d : Dev) : Dev :=
  let hs := d.holdings
  let keys := (hs.map fun h => (h.1, h.2.1)).eraseDups
  keys.foldl (fun (d : Dev) k =>
    let bytes := sumOf ((hs.filter fun h => h.1 == k.1 && h.2.1 == k.2).map fun h => h.2.2)
    let id := k.1 * 8 + k.2
    let total := bytes * 1000000 + (tblGet id d.hif.meterCarry).getD 0
    let d := { d with hif := { d.hif with meterCarry := tblSet id (total % 2 ^ 30) d.hif.meterCarry } }
    d.charge x k.1 k.2 (total / 2 ^ 30)) d

/-- Every 1 ms the occupancy meters advance (R550). -/
def execMeterAdvance (s : State) : Host.Outcome State Fault Refusal := s.run fun x d => d.advanceMeters x

end Sys2Proof.Machine
end

