-- ==== Sys2Proof/Machine/Lending.lean ====
section
/-! DEFINITION. Machine/Lending.lean: loans of HBM between neighbours: offers, grants, revocation and evacuation, lost areas, and the pool's
link (R292 to R300, R485, R520). -/

namespace Sys2Proof.Machine

/-! ### The lender (R292, R293, R295) -/

/-- Slots lent. -/
def Dev.slotsLent (d : Dev) : Nat := sumOf (d.tier.lent.map fun l => sumOf (l.slots.map fun s => s.2.length))

/-- Units that this device can lend now (R293). -/
def Dev.lendable (x : Ctx) (d : Dev) : Nat :=
  let floor := d.fld Reg.sessPoolWater 24 8 * d.poolSlots x
  let spare := if floor < d.poolFree x * 100 then (d.poolFree x * 100 - floor) / (100 * 16384) else 0
  if bit (d.reg Reg.sessLendCtl) 31 then min spare (d.fld Reg.sessLendCtl 0 16 - d.slotsLent / 16384) else 0

/-- Every 10 ms a lending device offers (R293). -/
def execLendOfferTick (s : State) : Host.Outcome State Fault Refusal :=
  s.run fun x d =>
    if d.now < d.tier.offeredAt + 10000000 then d
    else if bit (d.reg Reg.sessLendCtl) 31 && d.fld Reg.sessPoolWater 24 8 * d.poolSlots x < d.poolFree x * 100 then
      d.tier.lendList.foldl (fun (d : Dev) n => d.sendNote n 0x30 5 "OFFER" 64 [d.lendable x, d.slotsLent / 16384] 0)
        ({ d with tier := { d.tier with offeredAt := d.now } } : Dev)
    else d

/-- Free slots of the pool, in address order; of each stack as many as are not reserved (R254). -/
def Dev.freeSlotList (x : Ctx) (d : Dev) : List Nat :=
  x.fuses.part.fittedStacks.flatMap fun s => ((List.range 32).flatMap fun k =>
    let pc := s * 32 + k
    if d.kv.pool.retiredPcs.contains pc then []
    else
      let taken := d.regionSpans x pc ++ d.takenSpans pc
      ((List.range d.slotsPerPc).filter fun n => !(taken.any fun r => r.1 ≤ n && n < r.2)).map (d.slotAddr pc)).take (d.stackOpen x s)

/-- The smallest number not in a list, below a bound. -/
def unusedNumber (l : List Nat) (n : Nat) : Nat := ((List.range n).find? fun k => !(l.contains k)).getD 0

/-- `n` numbers not in a list. -/
def unusedNumbers (l : List Nat) (n : Nat) : List Nat := ((List.range (l.length + n)).filter fun k => !(l.contains k)).take n

/-- A LOAN_REQ reaches a lender, which grants what it can and takes the units from its free pool (R293, R485). -/
def execLoanReq (borrower units : Nat) (s : State) : Host.Outcome State Fault Refusal :=
  s.run fun x d =>
    let d := d.contact borrower
    let n := min units (d.lendable x)
    let number := unusedNumber (d.tier.lent.map (·.number)) 256
    if n == 0 || 256 ≤ d.tier.lent.length then d
    else
      let us := unusedNumbers ((d.tier.lent.filter fun l => l.peer == borrower).flatMap (·.units)) n
      let slots := d.freeSlotList x
      let per := us.zipIdx.map fun u => (u.1, (slots.drop (16384 * u.2)).take 16384)
      let d := { d with tier := { d.tier with lent := d.tier.lent ++ [(⟨borrower, number, us, per, none, true⟩ : Loan)] } }
      d.sendNote borrower 0x30 5 "LOAN_GRANT" 64 ([number, n] ++ us) 0

/-- A unit returns to the lender's pool. -/
def Dev.reclaim (d : Dev) (borrower number unit : Nat) : Dev :=
  let upd := fun (l : Loan) => if l.peer == borrower && l.number == number then
      { l with
        units := l.units.filter (fun u => u != unit)
        slots := l.slots.filter (fun s => s.1 != unit)
        revoking := l.revoking.filter fun r => r.1 != unit } else l
  ({ d with tier := { d.tier with lent := (d.tier.lent.map upd).filter fun l => !l.units.isEmpty } } : Dev).wakeDeferred

/-- A lent unit. -/
def Dev.isLent (d : Dev) (borrower number unit : Nat) : Bool :=
  d.tier.lent.any fun l => l.peer == borrower && l.number == number && l.units.contains unit

/-- A RELEASE lets the lender reclaim a unit (R295). -/
def execRelease (borrower number unit : Nat) (s : State) : Host.Outcome State Fault Refusal :=
  s.run fun _ d =>
    let d := d.contact borrower
    if d.isLent borrower number unit then d.reclaim borrower number unit else d

/-- The lender reclaims a unit 21 ms after its REVOKE (R295). -/
def execRevokeReclaim (borrower number unit : Nat) (s : State) : Host.Outcome State Fault Refusal :=
  s.run fun _ d =>
    if d.tier.lent.any fun l => l.peer == borrower && l.number == number &&
        (match l.revoking with | some (u, t) => u == unit && decide (t + 21000000 ≤ d.now) | none => false) then
      d.reclaim borrower number unit
    else d

/-- Free slots are below RECLAIM_PCT: the most recently granted units are revoked, one for each loan at a time (R292, R295). -/
def execLoanRevokeTrigger (s : State) : Host.Outcome State Fault Refusal := s.run fun x d => d.revokeUnits x

/-! ### The borrower (R293, R294, R296 to R298) -/

/-- An OFFER reaches a neighbour, which asks for units where it borrows (R293). How many it asks for the spec leaves to it: a free value (log
34). -/
def execOffer (lender units recallable : Nat) (s : State) : Host.Outcome State Fault Refusal :=
  s.run fun _ d =>
    let d : Dev := { d with tier := { d.tier with offers := d.tier.offers.filter (fun o => o.1 != lender) ++ [(lender, units)] } }
    if bit (d.reg Reg.sessLendCtl) 30 && 0 < units then
      let (v, d) := d.draw
      if v % (units + 1) == 0 then d else d.sendNote lender 0x30 5 "LOAN_REQ" 64 [v % (units + 1), recallable] 0
    else d

/-- A grant reaches the borrower, which maps it into the window of its lender; a grant that finds no window is given back (R294, R485). -/
def execLoanGrant (lender number : Nat) (units : List Nat) (s : State) : Host.Outcome State Fault Refusal :=
  s.run fun _ d =>
    let win := (d.windowOf lender).or ((List.range 64).find? fun w => !(bit (d.reg (Reg.fabWin w)) 31))
    match win with
    | none => units.foldl (fun (d : Dev) u => d.sendNote lender 0x30 5 "RELEASE" 64 [number, u] 0) d
    | some w =>
      let d := (d.setFld (Reg.fabWin w) 0 16 lender).setFld (Reg.fabWin w) 31 1 1
      { d with tier := { d.tier with borrowed := d.tier.borrowed ++ [(⟨lender, number, units, [], none, true⟩ : Loan)] } }

/-- The target areas that lie in a unit, as (index, target number). -/
def Dev.areasIn (d : Dev) (lender unit : Nat) : List (Nat × Nat) :=
  d.tier.manifests.flatMap fun m => (m.2.targets.zipIdx.filter fun t => t.1.tier == 2 && d.unitAt t.1.location == (lender, unit)).map fun t => (m.1, t.2)

/-- A place for an evacuated area in T1: free slots in a row, where the free slots stay above HIGH_PCT (R296). -/
def Dev.placeT1 (x : Ctx) (d : Dev) (bytes : Nat) : Option Nat :=
  let n := cdiv bytes (max 1 d.slotBytes)
  if (d.poolFree x - n) * 100 ≤ d.fld Reg.sessPoolWater 8 8 * d.poolSlots x || d.slotBytes == 0 then none
  else x.fuses.part.fittedStacks.findSome? fun s => (List.range 32).findSome? fun k =>
    let pc := s * 32 + k
    if d.kv.pool.retiredPcs.contains pc || d.stackOpen x s < n then none
    else
      let taken := (d.regionSpans x pc ++ d.takenSpans pc).map fun r => (r.1 + 1 - n, r.2)
      (pickFree taken (d.slotsPerPc + 1 - n) (Config.placeHint d.free)).map (d.slotAddr pc)

/-- Where an area goes (R296): T1, else T3, else T4 as the host object that its number names. -/
def Dev.evacPlace (x : Ctx) (d : Dev) (i j : Nat) (t : Target) : Option (Dev × Target) :=
  match d.placeT1 x t.tbytes with
  | some a =>
    let use := (List.range (cdiv t.tbytes d.slotBytes)).map fun k => (⟨a + k * d.slotBytes, ⟨areaOwner, 0, 0, i⟩⟩ : SlotUse)
    some ({ d with free := d.free + 1, kv := { d.kv with pool := { d.kv.pool with used := d.kv.pool.used ++ use } } }, ⟨a, t.tbytes, 1, 0⟩)
  | none => d.placeArea 3 4 t.tbytes (i * 8 + j)

/-- Change the manifest's target j of a session in one write (R296, R297). -/
def Dev.updTarget (x : Ctx) (d : Dev) (i j : Nat) (f : Target → Target) (lost : Bool) : Dev :=
  match tblGet i d.tier.manifests with
  | none => d
  | some m =>
    let ts := m.targets.zipIdx.map fun t => if t.2 == j then f t.1 else t.1
    d.putManifest x i { m with targets := ts, lost := m.lost || lost, lostMap := if lost then setBits m.lostMap j 1 1 else m.lostMap }

/-- An area has reached its new place: the manifest is rewritten, the old area goes back to its loan (R296). -/
def Dev.evacDone (x : Ctx) (d : Dev) (v : Evac) : Dev :=
  let d := { d with tier := { d.tier with evacuating := d.tier.evacuating.filter fun w => !(w.idx == v.idx && w.target == v.target) } }
  match (tblGet v.idx d.tier.manifests).bind fun m => m.targets[v.target]? with
  | none => d.releaseTarget x v.dest
  | some old => (((d.updTarget x v.idx v.target (fun _ => v.dest) false).updDesc x v.idx fun s =>
      { s with tier := match tblGet v.idx d.tier.manifests with | some m => slowest (m.targets.set v.target v.dest) | none => s.tier }).releaseTarget x old).settleLoans

/-- An evacuation goes on once its transfers have been answered: from reading to writing, from writing to its end. -/
def Dev.evacStep (x : Ctx) (d : Dev) (v : Evac) : Dev :=
  if v.pending != 0 then d
  else if v.writing then d.evacDone x v
  else
    let (d, n, ok) := d.transfer x v.dest true 3 2 .none (.evacuation v.idx v.target)
    let v' := { v with writing := true, pending := n }
    let keep := d.tier.evacuating.filter fun w => !(w.idx == v.idx && w.target == v.target)
    if !ok then ({ d with tier := { d.tier with evacuating := keep } } : Dev).releaseTarget x v.dest
    else
      let d := { d with tier := { d.tier with evacuating := keep ++ [v'] } }
      if n == 0 then d.evacDone x v' else d

/-- A transfer of an evacuation is answered. One that fails leaves the area where it is, to be lost at the limit (R297). -/
def Dev.evacAck (x : Ctx) (d : Dev) (i j : Nat) (ok : Bool) : Dev :=
  match d.tier.evacuating.find? fun w => w.idx == i && w.target == j with
  | none => d
  | some v =>
    let rest := d.tier.evacuating.filter fun w => !(w.idx == i && w.target == j)
    if !ok then ({ d with tier := { d.tier with evacuating := rest } } : Dev).releaseTarget x v.dest
    else
      let v := { v with pending := v.pending - 1 }
      ({ d with tier := { d.tier with evacuating := rest ++ [v] } } : Dev).evacStep x v

/-- The evacuation of an area starts: it is read out of the loan. Without a new place it stays. -/
def Dev.evacuate (x : Ctx) (d : Dev) (i j : Nat) : Dev :=
  match (tblGet i d.tier.manifests).bind fun m => m.targets[j]? with
  | none => d
  | some t =>
    if d.tier.revives.any fun r => r.idx == i && r.reserved then d
    else match d.evacPlace x i j t with
      | none => d
      | some (d, dest) =>
        let (d, n, ok) := d.transfer x t false 3 2 (.evac i j) (.evacuation i j)
        let v : Evac := ⟨i, j, dest, n, false⟩
        if ok then ({ d with tier := { d.tier with evacuating := d.tier.evacuating ++ [v] } } : Dev).evacStep x v else d.releaseTarget x dest

/-- The places in a unit that a move-in has been given are given anew in the next tier of its chain (R273); without room the move ends (R284). -/
def Dev.placeAgain (x : Ctx) (d : Dev) (m : MoveIn) (lender unit : Nat) : Dev :=
  let (_, last) := d.chain m.chain
  m.targets.zipIdx.foldl (fun (d : Dev) t =>
    if t.1.tier != 2 || d.unitAt t.1.location != (lender, unit) || !(d.tier.movesIn.any fun q => q.idx == m.idx) then d
    else match (d.releaseTarget x t.1).placeArea 3 last t.1.tbytes (m.storeBase + t.2) with
      | some (d, t') => d.updMoveIn m.idx fun q => { q with targets := q.targets.set t.2 t' }
      | none => d.failMoveIn x m .FAULT_LINK) d

/-- A REVOKE reaches the borrower (R295, R296). A park that is placing an area in the unit places it again (R273). -/
def execRevoke (lender number unit : Nat) (s : State) : Host.Outcome State Fault Refusal :=
  s.run fun x d =>
    if !(d.tier.borrowed.any fun l => l.peer == lender && l.number == number && l.units.contains unit) then d
    else
      let upd := fun (l : Loan) => if l.peer == lender && l.number == number then { l with revoking := some (unit, d.now) } else l
      let d := ({ d with tier := { d.tier with borrowed := d.tier.borrowed.map upd } } : Dev).bump Reg.sessRevokeCnt 1
      let parks := d.tier.parks.flatMap fun p => (p.targets.zipIdx.filter fun t => t.1.tier == 2 && d.unitAt t.1.location == (lender, unit)).map fun t => (p.idx, t.2)
      let d := parks.foldl (fun (d : Dev) p => d.parkFailed x p.1 p.2 2) d
      let d := d.tier.movesIn.foldl (fun (d : Dev) m => d.placeAgain x m lender unit) d
      ((d.areasIn lender unit).foldl (fun (d : Dev) a => d.evacuate x a.1 a.2) d).settleLoans

/-- An area is lost (R297, R520): its LOST_MAP bit and LOST, an error-log entry that names the session, and an event. -/
def Dev.loseArea (x : Ctx) (d : Dev) (i j : Nat) : Dev :=
  let d := d.updTarget x i j (fun t => t) true
  let d := { d with tier := { d.tier with evacuating := d.tier.evacuating.filter fun w => !(w.idx == i && w.target == j) } }
  (d.report sessSource 0x60 3 (d.handleOf i)).event x 6 (d.handleOf i) j 0

/-- The areas of a unit are lost, and the unit with them. -/
def Dev.loseUnit (x : Ctx) (d : Dev) (lender number unit : Nat) : Dev :=
  let d := (d.areasIn lender unit).foldl (fun (d : Dev) a => (d.loseArea x a.1 a.2).bump Reg.sessEvictLate 1) d
  let upd := fun (l : Loan) => if l.peer == lender && l.number == number then { l with units := l.units.filter (fun u => u != unit), revoking := none } else l
  let keep := d.tier.t2.filter fun a => d.unitAt a.1 != (lender, unit)
  ({ d with tier := { d.tier with borrowed := d.tier.borrowed.map upd, t2 := keep } } : Dev).settleLoans

/-- A LOAN_VOID reaches the borrower: the areas of the loan are lost (R298). -/
def execLoanVoid (peer number : Nat) (s : State) : Host.Outcome State Fault Refusal :=
  s.run fun x d => match d.tier.borrowed.find? fun l => l.peer == peer && l.number == number with
    | none => d
    | some l => l.units.foldl (fun (d : Dev) u => d.loseUnit x peer number u) d

/-- 20 ms after a REVOKE, what has not been evacuated is lost (R297). -/
def execEvacuationDeadline (lender number unit : Nat) (s : State) : Host.Outcome State Fault Refusal :=
  s.run fun x d =>
    if d.tier.borrowed.any fun l => l.peer == lender && l.number == number &&
        (match l.revoking with | some (u, t) => u == unit && decide (t + 20000000 ≤ d.now) | none => false) then
      d.loseUnit x lender number unit
    else d

/-! ### The pool's link (R300, R519, R520) -/

/-- A transfer of a park, revive or evacuation fails as a failed transfer or, for a read, as a media error (R273, R278, R539). -/
def Dev.reviveFails (x : Ctx) (d : Dev) (i : Nat) (st : Status) : Dev :=
  match d.tier.revives.find? fun r => r.idx == i with
  | some r => (d.endRevive x r st).settleRings x
  | none => match d.moveOut fun m => m.idx == i with
    | some m => (d.sendNote m.dest 0x10 2 "MOVE_ABORT" 64 [m.tag, st.code] 0).endMoveOut x m st
    | none => d

/-- PP is enumerated (R519, R520): the decoders of the image are programmed; T3 areas stay where every device reports the serial number
it had before, and are lost otherwise. MODE is a free value, as the link settles it (R518). -/
def Dev.ppEnumerate (x : Ctx) (d : Dev) (serials : List Nat) : Dev :=
  let same := d.hif.ppSerials == serials
  let (m, d) := { d with hif := { d.hif with ppUp := true, ppSerials := serials } }.draw
  let d := (((d.setFld Reg.hifPpStat 31 1 1).setFld Reg.hifPpStat 28 3 (m % 2 + 1)).setFld Reg.hifPpStat 24 4 (min serials.length 8)).setFld
    Reg.hifPpStat 0 13 d.boot.poolGib
  if same then d
  else
    let areas := d.tier.manifests.flatMap fun m => (m.2.targets.zipIdx.filter fun t => t.1.tier == 3).map fun t => (m.1, t.2)
    let d := areas.foldl (fun (d : Dev) a => d.loseArea x a.1 a.2) d
    { d with tier := { d.tier with t3 := [] }, ckpt := { d.ckpt with
        shards := d.ckpt.shards.filter fun q => q.target.tier != 3
        cats := d.ckpt.cats.filter fun q => q.target.tier != 3 } }

/-- The PP link returns: PP is enumerated again, and T3 areas stay or are lost (R520). -/
def execPpLinkUp (serials : List Nat) (s : State) : Host.Outcome State Fault Refusal :=
  s.run fun x d =>
    if d.hif.ppUp || !d.operational then d else d.ppEnumerate x serials

end Sys2Proof.Machine
end

