-- ==== Sys2Proof/Machine/Text.lean ====
section
/-! DEFINITION. Machine/Text.lean: the tokenizer, input streams, output channels and text engines (R354 to R387). -/

namespace Sys2Proof.Machine

/-! ### TOKENIZER_LOAD (R357 to R360) -/

/-- The word of a byte in the byte map. -/
def Dev.byteToken (x : Ctx) (d : Dev) (a : Nat) (h : TokHead) (b : Nat) : Nat := d.ld x (a + h.byteMap + 4 * b) 4

/-- The control tokens. -/
def Dev.specials (x : Ctx) (d : Dev) (a : Nat) (h : TokHead) : List Nat := (List.range h.special).map fun k => d.ld x (a + h.spec + 4 * k) 4

/-- Whether an image passes the checks of R359. -/
def Dev.tokenizerOk (x : Ctx) (d : Dev) (a : Nat) : Bool :=
  let h := d.tokHead x a
  let special := fun t => (d.tokEntry x a h t).2.2
  d.ld x a 4 == 0x4E4B5458 && d.byte x (a + 4) == 1 && crc256Ok (d.ld x a 256) && h.vocab == d.shape.vocab && h.special ≤ 1024 && 1 ≤ h.maxLen &&
    h.maxLen ≤ 128 && 10 ≤ h.mhLog2 && h.mhLog2 ≤ 22 && 1 ≤ h.dfaStates && h.dfaStates ≤ 4096 && 4 * h.merges ≤ 3 * 2 ^ h.mhLog2 &&
    ((List.range 256).all fun b => let t := d.byteToken x a h b
                                   t < h.vocab && !(special t) && d.tokBytes x a h t == [b]) &&
    ((List.range (2 ^ h.mhLog2)).all fun k =>
      let e := a + h.merge + 16 * k
      d.ld x e 8 == 2 ^ 64 - 1 || !(special (bits (d.ld x (e + 8) 8) 32 19))) &&
    (d.specials x a h).all fun t => let bs := d.tokBytes x a h t
                                    2 ≤ bs.length && bs.length ≤ 64 && utf8Ok bs.length bs

/-- Whether an image of some bytes has sections beyond its end, or merge, automaton, list or token entries that name tokens, states or bytes outside it: an
error of the host's own making (R357, R359). -/
def Dev.tokenizerOdd (x : Ctx) (d : Dev) (a n : Nat) : Bool :=
  let h := d.tokHead x a
  let heap := d.ld x (a + 48) 4
  [h.byteMap + 1024, h.tokTab + 8 * h.vocab, h.heap + heap, h.merge + 16 * 2 ^ h.mhLog2, h.spec + 4 * h.special, h.dfa + 512 * h.dfaStates].any
      (fun k => decide (n < k)) ||
    ((List.range (2 ^ h.mhLog2)).any fun k =>
      let w := d.ld x (a + h.merge + 16 * k) 8
      let v := d.ld x (a + h.merge + 16 * k + 8) 8
      w != 2 ^ 64 - 1 && (h.vocab ≤ bits w 0 19 || h.vocab ≤ bits w 19 19 || h.vocab ≤ bits v 32 19)) ||
    ((List.range (256 * h.dfaStates)).any fun k => h.dfaStates ≤ d.ld x (a + h.dfa + 2 * k) 2 % 4096) ||
    ((d.specials x a h).any fun t => h.vocab ≤ t) ||
    (List.range h.vocab).any fun t => let (off, len, _) := d.tokEntry x a h t
                                      heap < off + len || h.maxLen < len

/-- Where the tokenizer's shadow lies (R386). -/
def Dev.textArea (d : Dev) : Nat := d.gibBase Reg.textAreaBase

/-- TOKENIZER_LOAD (R359, R360). The region of every quadrant is as large as that of the smallest. -/
def execTokenizerLoad (e : Entry) (s : State) : Host.Outcome State Fault Refusal :=
  s.ring e [(24, 16)] [] fun x d c =>
    let src := e.f 24 8
    let n := e.f 32 8
    d.checked x c [(!d.text.bindings.isEmpty || !d.text.streams.isEmpty, .REFUSED_STATE)] fun d => d.buffers x c [(src, n)] fun d => d.source x c src n fun d =>
      let room := (List.range 4).foldl (fun m q => min m (d.fld (Reg.qdSramPartA q) 16 8)) 255 * 0x100000
      d.checked x c [(!(d.tokenizerOk x src), .REFUSED_STATE), (room < n || 0x4000000 < n, .REFUSED_RESOURCE)] fun d => if d.tokenizerOdd x src n then d.unpredictable x c else
        let h := d.tokHead x src
        let d := d.measureAt x 3 c.opcode 0 src n
        let d := d.st x d.textArea n (d.ld x src n)
        ({ d with text := { d.text with tokenizer := some ⟨d.textArea, n, (List.range 4).filter fun q => d.quadUp q⟩ } } : Dev).finish x c .DONE h.maxLen

/-! ### From bytes to pieces (R365 to R369) -/

/-- A piece: its bytes, whether it belongs to an occurrence, whether it begins one, whether it is an invalid byte, and the automaton's
state at its start. -/
structure Piece where
  bytes : List Nat
  esc : Bool
  first : Bool
  invalid : Bool
  dfa : Nat

/-- What the scan works with: the control strings and the automaton's entries. -/
structure Scan where
  strings : List (List Nat)
  entry : Nat → Nat → Nat
  byByte : Bool
  atEnd : Bool

/-- The scan so far: finished pieces (newest first), the bytes of the current piece (newest first), its starting state, and the state. -/
structure ScanSt where
  out : List Piece
  cur : List Nat
  curDfa : Nat
  dfa : Nat

/-- The current piece ends. -/
def ScanSt.cut (s : ScanSt) : ScanSt :=
  if s.cur.isEmpty then { s with curDfa := s.dfa } else { s with out := ⟨s.cur.reverse, false, false, false, s.curDfa⟩ :: s.out, cur := [], curDfa := s.dfa }

/-- One byte through the automaton (R367). -/
def ScanSt.byte (g : Scan) (s : ScanSt) (b : Nat) : ScanSt :=
  let e := g.entry s.dfa b
  let s := if bit e 15 then s.cut else s
  let s := { s with cur := b :: s.cur, dfa := e % 4096 }
  if 1024 ≤ s.cur.length then s.cut else s

/-- The longest control string that some bytes start with (R365). -/
def Scan.occurrence (g : Scan) (bs : List Nat) : Nat :=
  (g.strings.filter fun k => k.isPrefixOf bs).foldl (fun m k => max m k.length) 0

/-- An occurrence becomes its pieces (R365). -/
def ScanSt.occur (g : Scan) (s : ScanSt) (bs : List Nat) : ScanSt :=
  let s := s.cut
  let ps := if g.byByte then bs.map fun b => [b] else [bs.take 1, bs.drop 1]
  let new := ps.zipIdx.map fun p => (⟨p.1, true, p.2 == 0, false, 0⟩ : Piece)
  { out := new.reverse ++ s.out, cur := [], curDfa := 0, dfa := 0 }

/-- An invalid byte becomes a piece (R366). -/
def ScanSt.bad (s : ScanSt) (b : Nat) : ScanSt :=
  let s := s.cut
  { out := ⟨[b], false, false, true, s.dfa⟩ :: s.out, cur := [], curDfa := 0, dfa := 0 }

/-- The scan over the bytes that are left; the answer gives the scan and the bytes that it leaves to the carry beside its current piece
(R369). `fuel` bounds the bytes. -/
def Scan.run (g : Scan) : Nat → List Nat → ScanSt → ScanSt × List Nat
  | 0, bs, s => (s, bs)
  | _, [], s => (if g.atEnd then s.cut else s, [])
  | f + 1, b :: t, s =>
    let bs := b :: t
    let n := utf8Run bs
    if !g.atEnd && g.strings.any fun k => bs.length < k.length && bs.isPrefixOf k then (s, bs)
    else if g.occurrence bs != 0 then g.run f (bs.drop (g.occurrence bs)) (s.occur g (bs.take (g.occurrence bs)))
    else if utf8Whole bs then g.run f (bs.drop n) ((bs.take n).foldl (ScanSt.byte g) s)
    else if !g.atEnd && n != 0 && n == bs.length then (s, bs)
    else g.run f t (s.bad b)

/-- The scan of a tokenizer. -/
def Dev.scanOf (x : Ctx) (d : Dev) (a : Nat) (h : TokHead) (atEnd : Bool) : Scan :=
  ⟨(d.specials x a h).map fun t => d.tokBytes x a h t, fun st b => d.ld x (a + h.dfa + (st * 256 + b) * 2) 2, bit (d.reg Reg.textInCtl) 0, atEnd⟩

/-! ### Merging (R358, R368) -/

/-- Probe the merge table for a pair from a bucket on: RANK and RESULT. -/
def Dev.probe (x : Ctx) (d : Dev) (a : Nat) (h : TokHead) (l r : Nat) : Nat → Nat → Option (Nat × Nat)
  | 0, _ => none
  | f + 1, k =>
    let e := a + h.merge + 16 * (k % 2 ^ h.mhLog2)
    let w := d.ld x e 8
    let v := d.ld x (e + 8) 8
    if w == 2 ^ 64 - 1 then none
    else if bits w 0 19 == l && bits w 19 19 == r then some (bits v 0 32, bits v 32 19)
    else d.probe x a h l r f (k + 1)

/-- The merge of a pair. -/
def Dev.mergeOf (x : Ctx) (d : Dev) (a : Nat) (h : TokHead) (l r : Nat) : Option (Nat × Nat) :=
  d.probe x a h l r (2 ^ h.mhLog2) (mix64 (l * 2 ^ 32 + r))

/-- The best merge of a sequence: its RANK, place and RESULT. -/
def bestMerge (m : Nat → Nat → Option (Nat × Nat)) : Nat → List Nat → Option (Nat × Nat × Nat)
  | i, l :: r :: t =>
    let rest := bestMerge m (i + 1) (r :: t)
    match m l r, rest with
    | some (rank, res), some q => if q.1 < rank then some q else some (rank, i, res)
    | some (rank, res), none => some (rank, i, res)
    | none, q => q
  | _, _ => none

/-- Merge until no pair is in the table; `fuel` bounds the merges by the length. -/
def mergePairs (m : Nat → Nat → Option (Nat × Nat)) : Nat → List Nat → List Nat
  | 0, s => s
  | f + 1, s => match bestMerge m 0 s with
    | some (_, i, res) => mergePairs m f (s.take i ++ res :: s.drop (i + 2))
    | none => s

/-- The token words of a piece (R364, R368). -/
def Dev.pieceWords (x : Ctx) (d : Dev) (a : Nat) (h : TokHead) (p : Piece) : List Nat :=
  (mergePairs (d.mergeOf x a h) p.bytes.length (p.bytes.map fun b => d.byteToken x a h b)).map fun t => t + ofB p.esc * 2 ^ 30

/-! ### Streams (R361 to R372) -/

/-- What tokenising leaves: the words, the pieces that they come from, and those that did not fit (R370). -/
def fitPieces (words : Piece → List Nat) (max' : Nat) : List Piece → List Nat → List Piece → List Nat × List Piece × List Piece
  | [], ws, done => (ws, done, [])
  | p :: t, ws, done =>
    let w := words p
    if max' < ws.length + w.length then (ws, done, p :: t) else fitPieces words max' t (ws ++ w) (done ++ [p])

/-- The counters of tokenised pieces (R386). -/
def Dev.countPieces (d : Dev) (ps : List Piece) : Dev :=
  ((d.bump Reg.textInBytes (sumOf (ps.map (·.bytes.length)))).bump Reg.textEscCnt (ps.filter (·.first)).length).bump Reg.textInvalidIn
    (ps.filter (·.invalid)).length

/-- A stream's context is written. -/
def Dev.putStream (d : Dev) (n : Nat) (s : Stream) : Dev := { d with text := { d.text with streams := tblSet n s d.text.streams } }

/-- TEXT_IN_OPEN (R362, R363). -/
def execTextInOpen (e : Entry) (s : State) : Host.Outcome State Fault Refusal :=
  s.ring e [(16, 2)] [] fun x d c =>
    d.checked x c [(d.text.tokenizer.isNone || (tblGet (e.f 16 2) d.text.streams).isSome, .REFUSED_STATE)] fun d =>
      (d.putStream (e.f 16 2) ⟨[], 0⟩).finish x c .DONE 0

/-- TEXT_IN_CLOSE (R362, R363). -/
def execTextInClose (e : Entry) (s : State) : Host.Outcome State Fault Refusal :=
  s.ring e [(16, 2)] [] fun x d c => match d.text.tokenizer, tblGet (e.f 16 2) d.text.streams with
    | some _, some st =>
      ({ d with text := { d.text with streams := tblDel (e.f 16 2) d.text.streams } } : Dev).finish x c .DONE st.carry.length
    | _, _ => d.finish x c .REFUSED_STATE 0

/-- The state after TEXT_TOKENISE of the carry and a buffer (R365 to R371). -/
def Dev.tokenise (x : Ctx) (d : Dev) (e : Entry) (c : Cmd) (z : Tokenizer) (st : Stream) : Dev :=
  let n := e.f 20 4
  let bs := st.carry ++ d.ldBytes x (e.f 24 6) n
  let h := d.tokHead x z.addr
  let g := d.scanOf x z.addr h (bit (e.f 18 1) 0)
  let (sc, rest) := g.run (bs.length + 1) bs ⟨[], [], st.dfa, st.dfa⟩
  let (ws, done, left) := fitPieces (d.pieceWords x z.addr h) (e.f 40 4) sc.out.reverse [] []
  let used := sumOf (done.map (·.bytes.length))
  let new : Stream := match left with
    | [] => ⟨sc.cur.reverse ++ rest, if sc.cur.isEmpty then sc.dfa else sc.curDfa⟩
    | p :: _ => ⟨(bs.take st.carry.length).drop used, p.dfa⟩
  let usedBuf := match left with | [] => n | _ => used - st.carry.length
  let res := packFields [(0, 4, ws.length), (4, 4, usedBuf), (8, 2, new.carry.length), (10, 2, (done.filter (·.first)).length),
    (12, 4, (done.filter (·.invalid)).length)]
  d.buffers x c [(e.f 32 6, 4 * ws.length), (e.f 48 6, 16)] fun d =>
    let d := (d.stBytes x (e.f 32 6) (ws.flatMap fun w => leBytes w 4)).st x (e.f 48 6) 16 res
    let d := ((d.countPieces done).putStream (e.f 16 2) new).chargeSome x (d.sqComp c) 3
    d.finish x c (if left.isEmpty then .DONE else .DONE_PARTIAL) ws.length

/-- TEXT_TOKENISE (R362, R363, R370). -/
def execTextTokenise (e : Entry) (s : State) : Host.Outcome State Fault Refusal :=
  s.ring e [(16, 3), (20, 24), (48, 8)] [(145, 7), (240, 16), (304, 16), (432, 16)] fun x d c => match d.text.tokenizer, tblGet (e.f 16 2) d.text.streams with
    | some z, some st =>
      d.checked x c [(1048576 < e.f 20 4, .REFUSED_STATE), (e.f 40 4 < 1088, .REFUSED_RESOURCE), (!d.textOnline, .FAULT_UNIT)] fun d =>
        d.buffers x c [(e.f 24 6, e.f 20 4)] fun d => d.source x c (e.f 24 6) (e.f 20 4) fun d => d.tokenise x e c z st
    | _, _ => d.finish x c .REFUSED_STATE 0

/-- What TEXT_CTRL_INSERT does: the carry is tokenised to its end, then the control token follows (R372). -/
def Dev.ctrlInsert (x : Ctx) (d : Dev) (e : Entry) (c : Cmd) (z : Tokenizer) (st : Stream) : Dev :=
  let h := d.tokHead x z.addr
  let (sc, _) := (d.scanOf x z.addr h true).run (st.carry.length + 1) st.carry ⟨[], [], st.dfa, st.dfa⟩
  let ps := sc.out.reverse
  let ws := (ps.flatMap fun p => d.pieceWords x z.addr h p) ++ [e.f 20 4 + 2 ^ 31]
  d.buffers x c [(e.f 32 6, 4 * ws.length)] fun d =>
    let d := ((d.stBytes x (e.f 32 6) (ws.flatMap fun w => leBytes w 4)).countPieces ps).bump Reg.textCtrlIns 1
    ((d.putStream (e.f 16 2) ⟨[], sc.dfa⟩).chargeSome x (d.sqComp c) 3).finish x c .DONE ws.length

/-- TEXT_CTRL_INSERT (R362, R363, R372). -/
def execTextCtrlInsert (e : Entry) (s : State) : Host.Outcome State Fault Refusal :=
  s.ring e [(16, 2), (20, 4), (32, 12)] [(304, 16)] fun x d c => match d.text.tokenizer, tblGet (e.f 16 2) d.text.streams with
    | some z, some st =>
      let h := d.tokHead x z.addr
      d.checked x c [(h.vocab ≤ e.f 20 4 || !((d.tokEntry x z.addr h (e.f 20 4)).2.2), .REFUSED_STATE), (e.f 40 4 < st.carry.length + 1, .REFUSED_RESOURCE),
        (!d.textOnline, .FAULT_UNIT)] fun d => d.ctrlInsert x e c z st
    | _, _ => d.finish x c .REFUSED_STATE 0

/-! ### Output channels and bindings (R377, R378) -/

/-- Whether the fields of TEXT_CHAN_SET lie in their ranges (R377). -/
def chanFieldsOk (e : Entry) : Bool :=
  match e.f 17 1 with
  | 0 => true
  | 1 => (e.f 18 2 == 0xFFFF || e.f 18 2 < 2048) && 16 ≤ e.f 20 1 && e.f 20 1 ≤ 26 && e.f 24 8 % 2 ^ e.f 20 1 == 0 && e.f 24 8 < 2 ^ 48
  | 2 => true
  | _ => false

/-- CANCEL records of sessions that a warm reset rolled back go out once their channel is set again (R617). -/
def Dev.lateCancels (x : Ctx) (d : Dev) (n : Nat) : Dev :=
  if (d.channel n).kind == .off then d
  else
    let mine := d.text.late.filter fun l => l.1 == n
    let d : Dev := { d with text := { d.text with late := d.text.late.filter fun l => l.1 != n } }
    mine.foldl (fun (d : Dev) l => d.handOver x n l.2.1 l.2.2.1 0 4 (recordBytes 3 0 l.2.1 l.2.2.1 0 (leBytes l.2.2.2 4))) d

/-- TEXT_CHAN_SET (R377). Records that wait in the channel's backlog stay. -/
def execTextChanSet (e : Entry) (s : State) : Host.Outcome State Fault Refusal :=
  s.ring e [(16, 5), (24, 12)] (if e.f 17 1 == 2 then [(208, 48)] else []) fun x d c =>
    let n := e.f 16 1
    d.checked x c [(d.text.bindings.any (fun b => b.channel == n) || !(chanFieldsOk e), .REFUSED_STATE)] fun d =>
      let kind := match e.f 17 1 with | 0 => ChanKind.off | 1 => .hp | _ => .cvf
      let old := d.channel n
      d.buffers x c (if kind == .hp then [(e.f 24 8, 2 ^ e.f 20 1)] else []) fun d =>
        (d.setChannel n { old with kind := kind, vector := e.f 18 2, ringLog2 := e.f 20 1, addr := e.f 24 8, tag := e.f 32 4, wr := 0 }).lateCancels x n |>.finish x c .DONE 0

/-- TEXT_OUT_BIND (R375, R378). -/
def execTextOutBind (e : Entry) (s : State) : Host.Outcome State Fault Refusal :=
  s.ring e [(16, 6)] [(171, 5)] fun x d c => d.withSession x c (e.f 16 4) fun d i ds =>
    let unbind := bit (e.f 21 1) 2
    let off := (d.channel (e.f 20 1)).kind == .off
    d.checked x c [((ds.state != .idle && ds.state != .parked) || d.memberBound i || (!unbind && off) || d.text.tokenizer.isNone, .REFUSED_STATE)] fun d =>
      let rest := d.text.bindings.filter fun b => b.idx != i
      if unbind then ({ d with text := { d.text with bindings := rest } } : Dev).finish x c .DONE 0
      else
        let d := { d with text := { d.text with bindings := rest ++ [(⟨i, e.f 20 1, bit (e.f 21 1) 0, bit (e.f 21 1) 1, 0⟩ : Binding)] } }
        let d := if bit (e.f 21 1) 0 && ds.pendN != 0 then (d.flushPend x i).updDesc x i fun s => { s with pendN := 0, pendBytes := 0 } else d
        d.finish x c .DONE 0

/-! ### Engines (R223, R356, R386) -/

/-- Engine e and the STATE of its block. -/
def Dev.setEngine (d : Dev) (e : Nat) (p : Pipe) (st : Nat) : Dev :=
  ({ d with text := { d.text with engines := setAt .reset p e d.text.engines } } : Dev).setFld (Reg.textEngPace e) 28 2 st

/-- Software sets an OFFLINE_REQ bit of TEXT.ENG_CTL (R223, R386). Pieces are not split between steps, so the engine goes at once. -/
def execTextOfflineReq (q : Nat) (s : State) : Host.Outcome State Fault Refusal :=
  s.run fun x d => if 8 ≤ q then d else d.w1sWrite x Reg.textEngCtl q fun d =>
    let d := d.setFld Reg.textEngCtl q 1 0
    if (getAt Pipe.reset q d.text.engines).offline then d else d.setEngine q ⟨1, true, false⟩ 2

/-- Software sets an ONLINE_REQ bit of TEXT.ENG_CTL (R223, R386). -/
def execTextOnlineReq (q : Nat) (s : State) : Host.Outcome State Fault Refusal :=
  s.run fun x d => if 8 ≤ q then d else d.w1sWrite x Reg.textEngCtl (8 + q) fun d =>
    let d := d.setFld Reg.textEngCtl (8 + q) 1 0
    let p := getAt Pipe.reset q d.text.engines
    if p.offline && p.cause == 1 then d.setEngine q .reset 1 else d

/-- A text engine fails with its block (R356): its work goes to another. -/
def Dev.loseEngine (d : Dev) (q cause : Nat) : Dev := d.setEngine q ⟨cause, true, false⟩ 2

end Sys2Proof.Machine
end

