-- ==== Sys2Proof/Machine/Belt.lean ====
section
/-! DEFINITION. Machine/Belt.lean: the commands of the Belt, dispatch, preemption, the custom instructions and the Belt's faults
(chapter 12). -/

namespace Sys2Proof.Machine

/-! ### Ends of tasks -/

/-- The task of a hart ends other than by bt.tdone: its owner is answered; a hook is late (R573, R581). -/
def Dev.endTask (x : Ctx) (d : Dev) (h : Nat) (w : HartWork) (t : Task) (st : Status) (result : Nat) : Dev :=
  match t.owner with
  | .hook r n _ => d.hookLate x r n
  | _ => (d.leaveHart x h w).taskOver x t st result

/-- A task leaves before it starts (R573): a submitted task is answered, a hook is late. -/
def Dev.dropTask (x : Ctx) (d : Dev) (t : Task) (st : Status) : Dev :=
  match t.owner with
  | .hook r n _ => d.hookLate x r n
  | _ => d.taskOver x t st 0

/-! ### JOB mode (R566 to R569) -/

/-- The checks that every Belt command with a partition begins with (R534, R557, R585). -/
def Dev.beltChecks (x : Ctx) (d : Dev) (p : Nat) : List (Bool × Status) :=
  [(!x.fuses.part.hasBelt, .NOT_PRESENT), (!(d.domainUp .belt), .REFUSED_STATE), (decide (1 < p), .REFUSED_STATE),
   ((d.partCores p).2 == 0, .REFUSED_STATE)]

/-- The places of a job's harts as (hart, job hart index) (R567). -/
def jobPlaces (cores : List Nat) (n : Nat) : List (Nat × Nat) :=
  (List.range n).map fun j => (64 * getAt 0 (j % cores.length) cores + j / cores.length, j)

/-- A job starts (R567, R571). -/
def Dev.startJob (d : Dev) (c : Cmd) (p harts limit entry arg : Nat) : Dev :=
  let places := jobPlaces (d.onlineCores p) harts
  let d := d.setBeltPart p { d.beltPart p with job := some ⟨c, false, entry, harts, limit, 0, d.now, places, []⟩ }
  places.foldl (fun (d : Dev) q =>
    d.setHart q.1 ⟨none, q.2, startRegs entry (d.stackTop q.1) [arg, q.2, harts], d.now, 0, d.now, none⟩) d

/-- BELT_JOB_START (R566, R567, R639). -/
def execBeltJobStart (e : Entry) (s : State) : Host.Outcome State Fault Refusal :=
  s.ring e [(16, 1), (18, 22)] [(240, 16)] fun x d c =>
    let p := e.f 16 1
    d.checked x c (d.beltChecks x p ++
      [(d.taskMode p, .REFUSED_STATE), ((d.beltPart p).job.isSome, .REFUSED_STATE),
       (e.f 18 2 == 0 || decide (64 * (d.onlineCores p).length < e.f 18 2), .REFUSED_STATE),
       (!(d.windowed p (e.f 24 6) 1 2), .REFUSED_STATE)]) fun d =>
      (d.measureAt x 5 c.opcode 0 (e.f 24 6) 0x10000).startJob c p (e.f 18 2) (e.f 20 4) (e.f 24 6) (e.f 32 8)

/-- BELT_JOB_KILL (R569). -/
def execBeltJobKill (e : Entry) (s : State) : Host.Outcome State Fault Refusal :=
  s.ring e [(16, 1)] [] fun x d c =>
    let p := e.f 16 1
    d.checked x c (d.beltChecks x p ++ [((d.beltPart p).job.isNone, .REFUSED_STATE)]) fun d =>
      (d.endJob x p .CANCELLED 0).finish x c .DONE 0

/-- Whether a partition holds a job that is running or suspended. -/
def Dev.jobIs (d : Dev) (p : Nat) (suspended : Bool) : Bool :=
  match (d.beltPart p).job with
  | some j => j.suspended == suspended
  | none => false

/-- Change the job of a partition. -/
def Dev.updJob (d : Dev) (p : Nat) (f : Job → Job) : Dev := d.setBeltPart p { d.beltPart p with job := (d.beltPart p).job.map f }

/-- Harts of a job that run, in hart order. -/
def Dev.jobHarts (d : Dev) (p : Nat) (l : List (Nat × HartWork)) : List Nat :=
  (l.filter fun h => h.2.task.isNone && d.partOf h.1 == p).map (·.1)

/-- Every job hart is saved and the job is suspended (R569). A context whose region is gone is lost, and the job with it (R578). -/
def Dev.suspendJob (x : Ctx) (d : Dev) (p : Nat) : Dev :=
  let hs := d.jobHarts p d.belt.harts
  let d := hs.foldl (fun (d : Dev) h => d.runHart x h) d
  if hs.all d.saveUp then
    (hs.foldl (fun (d : Dev) h => d.saveHart x h) d).updJob p fun j => { j with suspended := true, ranNs := j.ranNs + (d.now - j.since) }
  else d.endJob x p .FAULT_UNIT 0

/-- BELT_JOB_SUSPEND (R569). -/
def execBeltJobSuspend (e : Entry) (s : State) : Host.Outcome State Fault Refusal :=
  s.ring e [(16, 1)] [] fun x d c =>
    let p := e.f 16 1
    d.checked x c (d.beltChecks x p ++ [(!(d.jobIs p false), .REFUSED_STATE)]) fun d => (d.suspendJob x p).finish x c .DONE 0

/-- Every job hart is restored (R569, R577). A context that fails its check ends the job. -/
def Dev.resumeJob (x : Ctx) (d : Dev) (p : Nat) : Dev :=
  let hs := d.jobHarts p d.belt.saved
  let d := d.updJob p fun j => { j with suspended := false, since := d.now }
  hs.foldl (fun (d : Dev) h => d.restoreHart x h) d

/-- BELT_JOB_RESUME (R569). DEDUCED (log 40): where a context fails its check the command ends as the job does. -/
def execBeltJobResume (e : Entry) (s : State) : Host.Outcome State Fault Refusal :=
  s.ring e [(16, 1)] [] fun x d c =>
    let p := e.f 16 1
    d.checked x c (d.beltChecks x p ++ [(!(d.jobIs p true), .REFUSED_STATE)]) fun d =>
      let d := d.resumeJob x p
      d.finish x c (if (d.beltPart p).job.isSome then .DONE else .FAULT_MEDIA) 0

/-- A job reaches LIMIT_MS (R568). -/
def execJobLimit (p : Nat) (s : State) : Host.Outcome State Fault Refusal :=
  s.run fun x d => match (d.beltPart p).job with
    | some j =>
      if j.limitMs == 0 || j.suspended || d.now < j.since + (j.limitMs * 1000000 - j.ranNs) then d
      else ((d.jobHarts p d.belt.harts).foldl (fun (d : Dev) h => d.runHart x h) d).endJob x p .FAULT_TIMEOUT 0
    | none => d

/-! ### TASK mode (R570, R573) -/

/-- Whether a hook or the lifecycle registration uses a queue (R570). -/
def Dev.queueBound (d : Dev) (p q : Nat) : Bool :=
  (d.belt.hooks.any fun h => h.2.1 == p && h.2.2 == q) ||
    (match d.belt.life with | some (p', q', _) => p' == p && q' == q | none => false)

/-- Disable a queue: its waiting tasks are discarded, running tasks finish (R570, R573). -/
def Dev.disableQueue (x : Ctx) (d : Dev) (p q : Nat) : Dev :=
  let waiting := match d.beltQueue p q with | some b => b.waiting | none => []
  let d := d.setBeltPart p { d.beltPart p with queues := tblDel q (d.beltPart p).queues }
  waiting.foldl (fun (d : Dev) t => (d.bump Reg.beltTasks 1).dropTask x t .CANCELLED) d

/-- BELT_QUEUE_SET (R570, R639). -/
def execBeltQueueSet (e : Entry) (s : State) : Host.Outcome State Fault Refusal :=
  s.ring e [(16, 8), (24, 8)] [(153, 7), (240, 16)] fun x d c =>
    let p := e.f 16 1
    let q := e.f 17 1
    let en := bit (e.f 19 1) 0
    let slots := 2 ^ e.f 18 1
    let held := sumOf ((d.beltPart p).queues.map fun b => b.2.slots)
    d.checked x c (d.beltChecks x p ++
      [(!(d.taskMode p), .REFUSED_STATE), (decide (15 < q), .REFUSED_STATE),
       (en && (decide (e.f 18 1 < 4) || decide (11 < e.f 18 1)), .REFUSED_STATE),
       (en && (d.beltQueue p q).isSome, .REFUSED_STATE), (!en && d.queueBound p q, .REFUSED_STATE),
       (!(d.windowed p (e.f 24 6) 1 2), .REFUSED_STATE), (en && decide (2048 < held + slots), .REFUSED_RESOURCE)]) fun d =>
      let d := if en then (d.measureAt x 5 c.opcode 0 (e.f 24 6) 0x10000).setBeltQueue p q ⟨slots, e.f 20 4, e.f 24 6, []⟩
        else d.disableQueue x p q
      d.finish x c .DONE 0

/-- BELT_TASK_SUBMIT (R573). -/
def execBeltTaskSubmit (e : Entry) (s : State) : Host.Outcome State Fault Refusal :=
  s.ring e [(16, 2), (24, 8)] [(240, 16)] fun x d c =>
    let p := e.f 16 1
    d.checked x c (d.beltChecks x p ++ [(!(d.taskMode p), .REFUSED_STATE), ((d.beltQueue p (e.f 17 1)).isNone, .REFUSED_STATE),
      (match d.beltQueue p (e.f 17 1) with | some b => decide (b.slots ≤ b.waiting.length) | none => false, .REFUSED_RESOURCE)]) fun d =>
      d.buffers x c [(e.f 24 6, 64)] fun d => d.source x c (e.f 24 6) 64 fun d =>
        (d.placeTask p (e.f 17 1) (d.ld x (e.f 24 6) 64) (.cmd c)).1

/-! ### Registrations (R579, R583) -/

/-- BELT_HOOK_REG (R579). -/
def execBeltHookReg (e : Entry) (s : State) : Host.Outcome State Fault Refusal :=
  s.ring e [(16, 4)] [] fun x d c =>
    let p := e.f 18 1
    d.checked x c (d.beltChecks x p ++
      [(e.f 16 2 == 0xFFFF || (d.belt.hooks.any fun h => h.1 == e.f 16 2), .REFUSED_STATE), (!(d.taskMode p), .REFUSED_STATE),
       ((d.beltQueue p (e.f 19 1)).isNone, .REFUSED_STATE), (decide (256 ≤ d.belt.hooks.length), .REFUSED_RESOURCE)]) fun d =>
      ({ d with belt := { d.belt with hooks := d.belt.hooks ++ [(e.f 16 2, p, e.f 19 1)] } } : Dev).finish x c .DONE 0

/-- BELT_HOOK_UNREG (R579). -/
def execBeltHookUnreg (e : Entry) (s : State) : Host.Outcome State Fault Refusal :=
  s.ring e [(16, 2)] [] fun x d c =>
    d.checked x c [(!x.fuses.part.hasBelt, .NOT_PRESENT), (!(d.domainUp .belt), .REFUSED_STATE),
      (!(d.belt.hooks.any fun h => h.1 == e.f 16 2), .REFUSED_STATE),
      (d.sess.table.any fun p => p.2.state != .void && p.2.hook == e.f 16 2, .REFUSED_STATE)] fun d =>
      ({ d with belt := { d.belt with hooks := d.belt.hooks.filter fun h => h.1 != e.f 16 2 } } : Dev).finish x c .DONE 0

/-- BELT_LIFE_REG (R583): a new registration replaces the old one, MASK 0 removes it. -/
def execBeltLifeReg (e : Entry) (s : State) : Host.Outcome State Fault Refusal :=
  s.ring e [(16, 2), (20, 2)] [] fun x d c =>
    let p := e.f 16 1
    d.checked x c (d.beltChecks x p ++ [(!(d.taskMode p), .REFUSED_STATE), ((d.beltQueue p (e.f 17 1)).isNone, .REFUSED_STATE)]) fun d =>
      let r := if e.f 20 2 == 0 then none else some (p, e.f 17 1, e.f 20 2)
      ({ d with belt := { d.belt with life := r } } : Dev).finish x c .DONE 0

/-! ### Dispatch and preemption (R572, R574) -/

/-- A hart takes a task (R572). -/
def Dev.startTask (d : Dev) (h : Nat) (t : Task) : Dev :=
  let args := (List.range 8).map fun i => bits t.payload (64 * i) 64
  let d := d.setHart h ⟨some t, 0, startRegs t.entry (d.stackTop h) args, d.now, 0, d.now, none⟩
  if t.deadline.isSome then d.bump Reg.beltHookTasks 1 else d

/-- Idle harts of a partition: those of its online cores that run nothing, wait for no context and have not lost their
save slot (R680). -/
def Dev.idleHarts (d : Dev) (p : Nat) : List Nat :=
  ((d.onlineCores p).flatMap fun c => rangeFrom (64 * c) 64).filter fun h =>
    (tblGet h d.belt.harts).isNone && (tblGet h d.belt.saved).isNone && !(d.err.retiredLines.contains (saveSlot h / 4096))

/-- Busy harts of a core. -/
def Dev.busyOf (d : Dev) (c : Nat) : Nat := (d.belt.harts.filter fun h => h.1 / 64 == c).length

/-- The idle hart that the next task goes to: of the core with the fewest busy harts, the lowest (R572). -/
def Dev.idleHart (d : Dev) (p : Nat) : Option Nat :=
  minBy (fun (a b : Nat) => decide (d.busyOf (a / 64) < d.busyOf (b / 64)) || (d.busyOf (a / 64) == d.busyOf (b / 64) && decide (a < b)))
    (d.idleHarts p)

/-- The waiting DEADLINE task with the earliest deadline, and among equals the one that arrived first (R572). -/
def Dev.nextDeadline (d : Dev) (p : Nat) : Option Task :=
  let ts := ((d.beltPart p).queues.flatMap fun q => q.2.waiting).filter fun t => t.deadline.isSome
  minBy (fun (a b : Task) => decide (a.deadline.getD 0 < b.deadline.getD 0) ||
    (a.deadline.getD 0 == b.deadline.getD 0 && decide (a.since < b.since))) ts

/-- The next BULK task: enabled queues are visited in rotation in ascending order (R572). -/
def Dev.nextBulk (d : Dev) (p : Nat) : Option (Nat × Task) :=
  let qs := (d.beltPart p).queues.filterMap fun q => match q.2.waiting.find? fun t => t.deadline.isNone with
    | some t => some (q.1, t)
    | none => none
  (qs.find? fun q => (d.beltPart p).rotor < q.1).or qs.head?

/-- Take a task out of its queue. -/
def Dev.unqueue (d : Dev) (p : Nat) (t : Task) : Dev :=
  match d.beltQueue p t.queue with
  | some q => d.setBeltQueue p t.queue { q with waiting := q.waiting.erase t }
  | none => d

/-- The BULK task that a DEADLINE task preempts: the one that started most recently, ties to the lower hart number (R574). DEDUCED
(log 40): a hart whose save region is gone keeps its task. -/
def Dev.victim (d : Dev) (p : Nat) : Option Nat :=
  let hs := d.belt.harts.filter fun h => d.partOf h.1 == p && d.saveUp h.1 &&
    (match h.2.task with | some t => t.deadline.isNone | none => false)
  (minBy (fun (a b : Nat × HartWork) => decide (b.2.started < a.2.started) || (a.2.started == b.2.started && decide (a.1 < b.1))) hs).map (·.1)

/-- One dispatch in a partition (R572, R574). -/
def Dev.dispatch (x : Ctx) (d : Dev) (p : Nat) : Dev :=
  match d.nextDeadline p, d.idleHart p with
  | some t, some h => (d.unqueue p t).startTask h t
  | some t, none => match d.victim p with
    | some h => (((d.runHart x h).saveHart x h).bump Reg.beltPreempt 1).unqueue p t |>.startTask h t
    | none => d
  | none, some h => match d.nextBulk p with
    | some (q, t) =>
      let d := d.unqueue p t
      (d.setBeltPart p { d.beltPart p with rotor := q }).startTask h t
    | none => d
  | none, none => d

/-- A free hart takes the next task, or a DEADLINE task preempts one (R572, R574). -/
def execTaskDispatch (p : Nat) (s : State) : Host.Outcome State Fault Refusal :=
  s.run fun x d => if p < 2 && d.taskMode p && x.fuses.part.hasBelt && d.domainUp .belt then d.dispatch x p else d

/-- A BULK task reaches TASK_US (R573). -/
def execTaskTimeout (h : Nat) (s : State) : Host.Outcome State Fault Refusal :=
  s.run fun x d => match tblGet h d.belt.harts with
    | some w => match w.task with
      | some t =>
        let us := match d.beltQueue (d.partOf h) t.queue with | some q => q.taskUs | none => 0
        if us == 0 || t.deadline.isSome || d.ranFor w < us * 1000 then d else (d.runHart x h).endTask x h w t .FAULT_TIMEOUT 0
      | none => d
    | none => d

/-! ### Exceptions (R561, R568, R573, R581) -/

/-- An exception ends the work of a hart. -/
def Dev.hartFault (x : Ctx) (d : Dev) (h : Nat) (w : HartWork) (cause : Nat) : Dev :=
  match w.task with
  | some t =>
    let d := if t.deadline.isSome then d.bump Reg.beltHookFault 1 else d
    d.endTask x h w t .STOPPED (cause % 256)
  | none => d.endJob x (d.partOf h) .STOPPED (cause % 256 + w.jobIndex % 65536 * 65536)

/-- An exception on a hart (R561). -/
def execHartException (h cause : Nat) (s : State) : Host.Outcome State Fault Refusal :=
  s.run fun x d => match tblGet h d.belt.harts with
    | some w => if w.wait.isSome then d else (d.runHart x h).hartFault x h w cause
    | none => d

/-! ### Custom instructions (R562, R563) -/

/-- Operand register `n` of a hart. -/
def HartRegs.get (r : HartRegs) (n : Nat) : Nat := if n % 32 == 0 then 0 else getAt 0 (n % 32) r.x

/-- Write a register; x0 stays 0. -/
def HartRegs.set (r : HartRegs) (n v : Nat) : HartRegs := if n % 32 == 0 then r else { r with x := setAt 0 (u64 v) (n % 32) r.x }

/-- The instruction retires. -/
def HartRegs.next (r : HartRegs) : HartRegs := { r with pc := u64 (r.pc + 4), retired := r.retired + 1 }

/-- A custom instruction of a running hart: its program goes on to it, and then it takes effect. -/
def Dev.bt (x : Ctx) (d : Dev) (h : Nat) (f : Dev → HartWork → Dev) : Dev :=
  match tblGet h d.belt.harts with
  | none => d
  | some w =>
    if w.wait.isSome then d
    else
      let d := d.runHart x h
      f d ((tblGet h d.belt.harts).getD w)

/-- The instruction retires with rd written. -/
def Dev.btDone (d : Dev) (h : Nat) (w : HartWork) (rd v : Nat) : Dev :=
  d.setHart h { w with regs := (w.regs.set rd v).next, wait := none }

/-- bt.tdone rs1, rs2 (R562, R563, R573, R582). -/
def execBtTdone (h rs1 rs2 : Nat) (s : State) : Host.Outcome State Fault Refusal :=
  s.run fun x d => d.bt x h fun d w => match w.task with
    | none => d.hartFault x h w 2
    | some t =>
      let res := u32 (w.regs.get rs1)
      let d := d.leaveHart x h w
      match t.owner with
      | .hook r n _ => d.onHookReply x r n res (w.regs.get rs2 % 256)
      | _ => d.taskOver x t .DONE res

/-- A job hart ends with an exit code; the last one ends the job (R568). -/
def Dev.exitHart (x : Ctx) (d : Dev) (h : Nat) (w : HartWork) (code : Nat) : Dev :=
  let p := d.partOf h
  let d := d.charge x (d.workComp h w) 5 (d.ranFor w)
  let d := (({ d with belt := { d.belt with harts := tblDel h d.belt.harts } } : Dev).reserveLr h none).updJob p fun j =>
    { j with exits := tblSet w.jobIndex code j.exits }
  match (d.beltPart p).job with
  | some j => if j.exits.length == j.harts then d.endJob x p .DONE ((tblGet 0 j.exits).getD 0) else d
  | none => d

/-- bt.exit rs1 (R562, R563, R568). -/
def execBtExit (h rs1 : Nat) (s : State) : Host.Outcome State Fault Refusal :=
  s.run fun x d => d.bt x h fun d w => match w.task with
    | some _ => d.hartFault x h w 2
    | none => d.exitHart x h w (u32 (w.regs.get rs1))

/-- bt.time rd (R562). -/
def execBtTime (h rd : Nat) (s : State) : Host.Outcome State Fault Refusal :=
  s.run fun x d => d.bt x h fun d w => d.btDone h w rd d.now

/-- bt.self rd (R562). -/
def execBtSelf (h rd : Nat) (s : State) : Host.Outcome State Fault Refusal :=
  s.run fun x d => d.bt x h fun d w =>
    let q := match w.task with | some t => t.queue % 16 | none => 15
    d.btDone h w rd (h % 8192 + d.partOf h * 2 ^ 13 + q * 2 ^ 16 + (if w.task.isSome then 0 else w.jobIndex % 65536) * 2 ^ 32)

/-- bt.mix rd, rs1 (R161, R562). -/
def execBtMix (h rd rs1 : Nat) (s : State) : Host.Outcome State Fault Refusal :=
  s.run fun x d => d.bt x h fun d w => d.btDone h w rd (mix64 (w.regs.get rs1))

/-- bt.rkey rd, rs1 (R336, R562). -/
def execBtRkey (h rd rs1 : Nat) (s : State) : Host.Outcome State Fault Refusal :=
  s.run fun x d => d.bt x h fun d w => d.btDone h w rd (rankKey (u32 (w.regs.get rs1)))

/-- bt.flush retires (R562): stores take effect at once in this model, so they are visible already. -/
def execBtFlush (h : Nat) (s : State) : Host.Outcome State Fault Refusal :=
  s.run fun x d => d.bt x h fun d w => d.btDone h w 0 0

/-- bt.submit rd, rs1, rs2 (R562, R563). -/
def execBtSubmit (h rd rs1 rs2 : Nat) (s : State) : Host.Outcome State Fault Refusal :=
  s.run fun x d => d.bt x h fun d w =>
    let p := d.partOf h
    let a := w.regs.get rs1
    let q := w.regs.get rs2 % 16
    if !(d.mayRead p a 64) then d.hartFault x h w 5
    else if !(d.taskMode p) then d.btDone h w rd 3
    else match d.beltQueue p q with
      | none => d.btDone h w rd 2
      | some _ =>
        let d := d.holeCheck x a 64
        let (d, ok) := d.placeTask p q (d.ld x a 64) (.thread (d.workComp h w))
        d.btDone h w rd (if ok then 0 else 1)

/-- bt.wait rd, rs1, rs2: retires at once where the word differs, else issue stops (R562, R563). DEDUCED (log 40): the low three bits
of rs1 are not looked at. -/
def execBtWait (h rd rs1 rs2 : Nat) (s : State) : Host.Outcome State Fault Refusal :=
  s.run fun x d => d.bt x h fun d w =>
    let a := w.regs.get rs1 / 8 * 8
    if !(d.mayRead (d.partOf h) a 8) then d.hartFault x h w 5
    else
      let d := d.holeCheck x a 8
      let v := d.ld x a 8
      if v != w.regs.get rs2 then d.btDone h w rd v
      else d.setHart h { w with wait := some (rd, a, w.regs.get rs2, d.now) }

/-- The waited word has changed: the hart resumes with it (R563). -/
def execBtWaitResume (h : Nat) (s : State) : Host.Outcome State Fault Refusal :=
  s.run fun x d => match tblGet h d.belt.harts with
    | some w => match w.wait with
      | some (rd, a, old, _) => if d.ld x a 8 == old then d else d.btDone h w rd (d.ld x a 8)
      | none => d
    | none => d

/-- WAIT_US passes: bt.wait returns the word last read (R562). -/
def execBtWaitTimeout (h : Nat) (s : State) : Host.Outcome State Fault Refusal :=
  s.run fun x d => match tblGet h d.belt.harts with
    | some w => match w.wait with
      | some (rd, a, _, t) => if d.now < t + d.fld Reg.beltWaitCtl 0 16 * 1000 then d else d.btDone h w rd (d.ld x a 8)
      | none => d
    | none => d

/-- bt.mbox rs1 (R542, R562). -/
def execBtMbox (h rs1 : Nat) (s : State) : Host.Outcome State Fault Refusal :=
  s.run fun x d => d.bt x h fun d w => (d.ownerWrite (.m 7) (u32 (w.regs.get rs1))).btDone h w 0 0

/-- bt.mboxr rd (R542, R562). -/
def execBtMboxr (h rd : Nat) (s : State) : Host.Outcome State Fault Refusal :=
  s.run fun x d => d.bt x h fun d w =>
    let m := d.mbox (.m 7)
    (d.setMbox (.m 7) { m with h2d := m.h2d.take }).btDone h w rd (m.h2d.data + ofB m.h2d.full * 2 ^ 32)

/-! ### Faults and interactions (R578, R585) -/

/-- Harts that pass a test lose their work: jobs and submitted tasks end FAULT_UNIT, hooks are late, other tasks are counted. -/
def Dev.loseHarts (x : Ctx) (d : Dev) (p : Nat → Bool) : Dev :=
  let d := (d.belt.harts.filter fun h => p h.1).foldl (fun (d : Dev) h => match h.2.task with
    | some t => d.endTask x h.1 h.2 t .FAULT_UNIT 0
    | none => d.endJob x (d.partOf h.1) .FAULT_UNIT 0) d
  d

/-- Saved contexts that pass a test are lost, and their tasks and jobs end FAULT_UNIT (R578, R585). -/
def Dev.loseSaved (x : Ctx) (d : Dev) (p : Nat → Bool) : Dev :=
  let gone := d.belt.saved.filter fun h => p h.1
  let d : Dev := { d with belt := { d.belt with saved := d.belt.saved.filter fun h => !(p h.1) } }
  gone.foldl (fun (d : Dev) h => match h.2.task with
    | some t => (((d.charge x (d.workComp h.1 h.2) 5 h.2.ranNs).bump Reg.beltTasks 1).taskOver x t .FAULT_UNIT 0)
    | none => d.endJob x (d.partOf h.1) .FAULT_UNIT 0) d

/-- A core goes offline until the next start-up (R585): its contexts first, so that none comes back to it. -/
def Dev.loseCore (x : Ctx) (d : Dev) (c cause : Nat) : Dev :=
  let d := (d.setFld (Reg.beltCoreOff (c / 32)) (c % 32) 1 1).setFld (Reg.beltCoreStat c) 30 2 cause
  let d := d.setFld (Reg.beltCorePace c) 28 2 2
  (d.loseSaved x fun h => h / 64 == c).loseHarts x fun h => h / 64 == c

/-- A tenant switch on the Belt (R585): jobs and submitted tasks end CANCELLED; tasks, contexts, queues and registrations go. -/
def Dev.clearBelt (x : Ctx) (d : Dev) : Dev :=
  let d := (List.range 2).foldl (fun (d : Dev) p => d.endJob x p .CANCELLED 0) d
  let run := d.belt.harts.filterMap fun h => h.2.task
  let kept := d.belt.saved.filterMap fun h => h.2.task
  let wait := d.belt.parts.flatMap fun p => p.queues.flatMap fun q => q.2.waiting
  let d := d.belt.harts.foldl (fun (d : Dev) h => d.charge x (d.workComp h.1 h.2) 5 (d.ranFor h.2)) d
  let d := d.belt.saved.foldl (fun (d : Dev) h => d.charge x (d.workComp h.1 h.2) 5 h.2.ranNs) d
  let d : Dev := { d with belt := { d.belt with parts := List.replicate 2 ⟨none, [], 0⟩, harts := [], saved := [], hooks := [], life := none,
                                                reservations := [] } }
  (run ++ kept ++ wait).foldl (fun (d : Dev) t => match t.owner with
    | .cmd c => (d.bump Reg.beltTasks 1).finish x c .CANCELLED 0
    | _ => d.bump Reg.beltTasks 1) d

end Sys2Proof.Machine
end

