-- ==== Sys2Proof/Machine/Recall.lean ====
section
/-! DEFINITION. Machine/Recall.lean: the Recall unit: indexes, commits, folding, compaction and queries (chapter 8). -/

namespace Sys2Proof.Machine

/-! ### Rows and scores (R395, R396) -/

/-- Bytes of the elements of a row. -/
def elemBytes (efmt dim : Nat) : Nat :=
  match efmt with | 0 => 2 * dim | 1 | 2 => dim | 3 => dim / 2 | _ => dim / 8

/-- ROW_BYTES (R395). -/
def recallRowBytes (efmt dim : Nat) : Nat :=
  match efmt with | 0 => 16 + 2 * dim | 4 => 16 + cdiv dim 128 * 16 | _ => 16 + cdiv (elemBytes efmt dim + 4) 16 * 16

/-- A value of a format as FP32. -/
def toF32 (f : Fmt) (b : Nat) : Nat := fp32.pack .near (f.val b)

/-- A two's-complement integer as FP32. -/
def intF32 (n w : Nat) : Nat :=
  let i := toSigned n w
  if i < 0 then fofNat .near i.natAbs + 2 ^ 31 else fofNat .near i.natAbs

/-- The elements of a row as FP32 values, unscaled. -/
def rowElems (efmt dim v : Nat) : List Nat :=
  (List.range dim).map fun c => match efmt with
    | 0 => toF32 fp16 (bits v (16 * c) 16)
    | 1 => toF32 e4m3 (bits v (8 * c) 8)
    | 2 => intF32 (bits v (8 * c) 8) 8
    | 3 => intF32 (bits v (4 * c) 4) 4
    | _ => bits v c 1

/-- The scale of a row: its FP32 scale, or 1.0 in a format that has none. -/
def rowScale (efmt dim v : Nat) : Nat :=
  match efmt with | 1 | 2 | 3 => bits v (8 * elemBytes efmt dim) 32 | _ => 0x3F800000

/-- The score of a query against a row (R396), blocks of 64 elements in order. -/
def recallScore (metric scale : Nat) (q e : List Nat) : Nat :=
  let term := fun (s : Nat) (p : Nat × Nat) =>
    if metric == 0 then macc s p.1 p.2
    else
      let t := fsub .near p.1 (fmul .near p.2 scale)
      macc s t t
  let acc := (chunksOf 64 64 (q.zip e)).foldl (fun acc b => fadd .near acc (b.foldl term 0)) 0
  if metric == 2 then fofNat .near ((q.zip e).filter fun p => p.1 != p.2).length + 2 ^ 31
  else if metric == 0 then fmul .near acc scale
  else acc ^^^ 2 ^ 31

/-- The elements of a query vector or centroid: FP16, or bits for Hamming. -/
def vecElems (metric dim v : Nat) : List Nat := rowElems (if metric == 2 then 4 else 0) dim v

/-- Bytes of a query vector or centroid. -/
def vecBytes (metric dim : Nat) : Nat := if metric == 2 then dim / 8 else 2 * dim

/-! ### The header (R394) -/

/-- The rows of an index by id. -/
def Index.row (ix : Index) (id : Nat) : Option Row := ix.rows.find? fun r => r.id == id

/-- Row ids of the main lists. -/
def Index.mainIds (ix : Index) : List Nat := ix.main.flatMap (·.2)

/-- Copies that a vector has in the main lists (R394, R404). -/
def Index.copies (ix : Index) : Nat := min (1 + ofB ix.assign2) ix.lists

/-- Pending deletes of rows that the index still lists. -/
def Index.pendingNow (ix : Index) : List PendDel :=
  let ids := ix.mainIds ++ ix.side
  ix.pending.filter fun p => ids.contains p.row

/-- Whether a row is deleted at the last commit. -/
def Index.gone (ix : Index) (id : Nat) : Bool :=
  (ix.pending.any fun p => p.row == id) || match ix.row id with | some r => r.tomb | none => true

/-- LIVE: inserted vectors not deleted. -/
def Index.live (ix : Index) : Nat :=
  (ix.side.filter fun i => !(ix.gone i)).length + (ix.mainIds.filter fun i => !(ix.gone i)).length / max 1 ix.copies

/-- TOMB: tombstoned main rows. -/
def Index.tombs (ix : Index) : Nat :=
  (ix.mainIds.filter fun i => match ix.row i with | some r => r.tomb | none => false).length

/-- The code of a STATE. -/
def IndexState.code : IndexState → Nat
  | .building => 1 | .ready => 2 | .dropping => 3

/-- The 256 B of a header. -/
def Index.pack (ix : Index) : Nat :=
  withCrc256 (packFields [
    (0x00, 8, ix.state.code + ix.efmt % 8 * 4 + ix.metric % 4 * 0x20 + ofB ix.assign2 * 0x80 + ofB ix.cache * 0x100 + ix.dim % 0x2000 * 0x10000 +
      ix.lists % 0x20000 * 2 ^ 32),
    (0x08, 4, ix.capacity), (0x0C, 4, ix.sideMax), (0x10, 4, ix.commitSeq), (0x14, 4, ix.floorSeq), (0x18, 4, ix.sideStart),
    (0x1C, 4, ix.sideEnd), (0x20, 4, ix.rowsUsed), (0x24, 4, ix.pendingNow.length), (0x28, 4, ix.live), (0x2C, 4, ix.tombs),
    (0x30, 2, ix.rowBytes), (0x34, 4, ix.publish), (0x38, 8, ix.commitStamp), (0x40, 6, ix.dirAddr), (0x48, 6, ix.centAddr)])

/-- The header that a FREE index reads: every field 0. -/
def freeHeader : Nat := withCrc256 0

/-- An index; none while it is FREE. -/
def Dev.index (d : Dev) (n : Nat) : Option Index := tblGet n d.rcl.indexes

/-- Set an index without a header write. -/
def Dev.setIndex (d : Dev) (n : Nat) (ix : Index) : Dev := { d with rcl := { d.rcl with indexes := tblSet n ix d.rcl.indexes } }

/-- Set an index with its header write (R399). -/
def Dev.putIndex (x : Ctx) (d : Dev) (n : Nat) (ix : Index) : Dev := (d.setIndex n ix).st x ix.headerAddr 256 ix.pack

/-! ### The Recall area (R392, R393) -/

/-- Plain stack positions, ascending. -/
def plainStacks (p : Part) : List Nat := p.fittedStacks.filter fun s => !(p.computeStacks.contains s)

/-- Extents of the area in one stack. -/
def Dev.recallExtents (d : Dev) : Nat := d.fld Reg.recallArea 0 8 * 512

/-- The base of the area in a stack. -/
def Dev.recallBase (d : Dev) (s : Nat) : Nat := (s + 1) * stackBytes - d.fld Reg.recallArea 0 8 * gib

/-- A run of `n` extents of a stack. -/
def Dev.recallRun (d : Dev) (n s : Nat) : Option Nat :=
  let base := d.recallBase s
  let taken := (d.rcl.used.filter fun a => stackOf a == s).map fun a => ((a - base) / 0x200000 + 1 - n, (a - base) / 0x200000 + 1)
  (pickFree taken (d.recallExtents + 1 - n) 0).map fun k => base + 0x200000 * k

/-- Take extents, entered under keys from `key`. -/
def Dev.takeExtents (d : Dev) (a n key : Nat) : Dev × List (Nat × Addr) :=
  let es := (List.range n).map fun j => (key + j, a + 0x200000 * j)
  ({ d with rcl := { d.rcl with used := d.rcl.used ++ es.map (·.2) } }, es)

/-- A structure of some bytes in one run, in ascending stack order (R392). -/
def Dev.placeRun (x : Ctx) (d : Dev) (bytes key : Nat) : Option (Dev × List (Nat × Addr)) :=
  let n := max 1 (cdiv bytes 0x200000)
  ((plainStacks x.fuses.part).findSome? fun s => d.recallRun n s).map fun a => d.takeExtents a n key

/-- Structures one extent at a time, in ascending stack order. -/
def Dev.placeLoose (x : Ctx) : Nat → Nat → Dev → Option (Dev × List (Nat × Addr))
  | 0, _, d => some (d, [])
  | n + 1, key, d => (d.placeRun x 1 key).bind fun r => (Dev.placeLoose x n (key + 1) r.1).map fun q => (q.1, r.2 ++ q.2)

/-- Extents reserved for the rows of an index and not yet taken (R398). -/
def Index.owedExtents (ix : Index) : Nat :=
  cdiv ((ix.capacity + ix.sideMax) * ix.rowBytes) 0x200000 - (ix.extents.filter fun e => e.1 < 2 ^ 50).length

/-- RECALL.EXT_FREE: extents neither taken nor reserved. -/
def Dev.extentsFree (x : Ctx) (d : Dev) : Nat :=
  (plainStacks x.fuses.part).length * d.recallExtents - d.rcl.used.length - sumOf (d.rcl.indexes.map fun p => p.2.owedExtents)

/-- Rows in an extent. -/
def Index.perExtent (ix : Index) : Nat := max 1 (0x200000 / max 1 ix.rowBytes)

/-- Extent j of a list (R393): the one it has, or a new one on its stack; DESIGN CHOICE (log 37): on the next stack with room where that
stack has none. -/
def Dev.listExtent (x : Ctx) (d : Dev) (n : Nat) (ix : Index) (list j : Nat) : Option (Dev × Index × Addr) :=
  let key := list * 2 ^ 26 + j
  match tblGet key ix.extents with
  | some a => some (d, ix, a)
  | none =>
    let ps := plainStacks x.fuses.part
    let k := (mix64 (n * 2 ^ 32 + list) + j) % max 1 ps.length
    ((ps.drop k ++ ps.take k).findSome? fun s => d.recallRun 1 s).map fun a =>
      let (d, es) := d.takeExtents a 1 key
      (d, { ix with extents := ix.extents ++ es }, a)

/-- The bytes of a row (R395). -/
def Row.bytes (r : Row) : Nat := packFields [(0, 8, r.attr), (8, 4, r.vid), (12, 4, r.insSeq)] + r.elems * 2 ^ 128

/-- Write a row at place `pos` of a list; none where no extent is free. -/
def Dev.placeRow (x : Ctx) (d : Dev) (n : Nat) (ix : Index) (list pos : Nat) (r : Row) : Option (Dev × Index × Row) :=
  (d.listExtent x n ix list (pos / ix.perExtent)).map fun q =>
    let r := { r with addr := q.2.2 + pos % ix.perExtent * ix.rowBytes }
    (q.1.st x r.addr ix.rowBytes r.bytes, q.2.1, r)

/-- Extents leave an index. -/
def Dev.freeExtents (d : Dev) (ix : Index) (p : Nat → Bool) : Dev × Index :=
  let out := (ix.extents.filter fun e => p e.1).map (·.2)
  ({ d with rcl := { d.rcl with used := d.rcl.used.filter fun a => !(out.contains a) } }, { ix with extents := ix.extents.filter fun e => !(p e.1) })

/-! ### Shared checks -/

/-- The checks that every Recall command with an INDEX has: a gated unit (R667), an index of 0 to 63. -/
def Dev.recallChecks (d : Dev) (n : Nat) : List (Bool × Status) := [(!(d.domainUp .rcl) || 63 < n, .REFUSED_STATE)]

/-- What the header, directory and ID map of an index take in memory. -/
def Index.structures (ix : Index) : List (Nat × Nat) :=
  [(ix.headerAddr, 256), (ix.dirAddr, 16 * (ix.lists + 1))] ++
    (ix.extents.filter fun e => 2 ^ 52 ≤ e.1 && e.1 < 2 ^ 53).map fun e => (e.2, 0x200000)

/-- A command that uses an index in one of some states: REFUSED_STATE otherwise; FAULT_MEDIA where the header, directory or ID map has an
uncorrectable word (R414). -/
def Dev.withIndex (x : Ctx) (d : Dev) (c : Cmd) (n : Nat) (ok : IndexState → Bool) (f : Dev → Index → Dev) : Dev :=
  d.checked x c (d.recallChecks n) fun d => match d.index n with
    | none => d.finish x c .REFUSED_STATE 0
    | some ix =>
      if !(ok ix.state) then d.finish x c .REFUSED_STATE 0
      else if ix.structures.any fun b => d.mediaBad b.1 b.2 then
        (ix.structures.foldl (fun (d : Dev) b => d.eccRead b.1 b.2 true) d).finish x c .FAULT_MEDIA 0
      else f d ix

/-! ### Index commands (R397, R398) -/

/-- Whether the fields of RECALL_CREATE lie in their ranges (R394, R395, R397). -/
def createOk (e : Entry) : Bool :=
  e.f 17 1 ≤ 4 && e.f 18 1 ≤ 2 && (e.f 17 1 == 4) == (e.f 18 1 == 2) && 64 ≤ e.f 20 2 && e.f 20 2 ≤ 4096 && e.f 20 2 % 64 == 0 &&
    1 ≤ e.f 24 4 && e.f 24 4 ≤ 65536 && 1 ≤ e.f 28 4 && 1024 ≤ e.f 32 4 && e.f 32 4 ≤ 16777216

/-- The structures of a new index (R398): header and directory, centroids, ID map, then tombstone bitmap and pending-delete table. DESIGN
CHOICE (log 37): a directory entry takes 16 B. -/
def Dev.createIndex (x : Ctx) (d : Dev) (e : Entry) : Option (Dev × Index) :=
  let dim := e.f 20 2
  let lists := e.f 24 4
  let cap := e.f 28 4
  let side := e.f 32 4
  let two := bit (e.f 19 1) 0
  let idBytes := 8 * ((1 + ofB two) * cap + side)
  (d.placeRun x (256 + 16 * (lists + 1)) (2 ^ 50)).bind fun h =>
  (h.1.placeRun x (lists * vecBytes (e.f 18 1) dim) (2 ^ 51)).bind fun ct =>
  (Dev.placeLoose x (cdiv idBytes 0x200000) (2 ^ 52) ct.1).bind fun im =>
  (Dev.placeLoose x (cdiv (cdiv cap 8 + 8 * 1048576) 0x200000) (2 ^ 53) im.1).bind fun tb =>
    let first := fun (l : List (Nat × Addr)) => (l.head?.map (·.2)).getD 0
    let ix : Index := {
      state := .building, efmt := e.f 17 1, metric := e.f 18 1, assign2 := two, cache := bit (e.f 19 1) 1, dim := dim, lists := lists,
      capacity := cap, sideMax := side, commitSeq := 0, floorSeq := 0, sideStart := 0, sideEnd := 0, rowsUsed := 0, publish := 0,
      commitStamp := 0, rowBytes := recallRowBytes (e.f 17 1) dim, headerAddr := first h.2, dirAddr := first h.2 + 256,
      centAddr := first ct.2, nextRow := 0, rows := [], main := [], side := [], pending := [],
      extents := h.2 ++ ct.2 ++ im.2 ++ tb.2, idAddr := first im.2 }
    if ix.owedExtents ≤ d.extentsFree x - ix.extents.length && ix.extents.length ≤ d.extentsFree x then some (tb.1, ix) else none

/-- RECALL_CREATE (R397, R398). -/
def execRecallCreate (e : Entry) (s : State) : Host.Outcome State Fault Refusal :=
  s.ring e [(16, 6), (24, 12)] [(154, 6)] fun x d c =>
    d.checked x c (d.recallChecks (e.f 16 1) ++ [((d.index (e.f 16 1)).isSome || !(createOk e), .REFUSED_STATE)]) fun d =>
      match d.createIndex x e with
      | none => d.finish x c .REFUSED_RESOURCE 0
      | some (d, ix) => (d.putIndex x (e.f 16 1) ix).finish x c .DONE 0

/-- Bytes of the centroid cache, and bytes that cached tables take. -/
def Dev.centroidRoom (d : Dev) : Nat := 4 * d.fld (Reg.qdSramPartA 0) 0 8 * 0x100000

@[inherit_doc Dev.centroidRoom] def Dev.centroidUsed (d : Dev) (n : Nat) : Nat :=
  sumOf ((d.rcl.indexes.filter fun p => p.1 != n && p.2.cache && p.2.state != .building).map fun p => p.2.lists * vecBytes p.2.metric p.2.dim)

/-- RECALL_CENTROIDS (R397, R398). -/
def execRecallCentroids (e : Entry) (s : State) : Host.Outcome State Fault Refusal :=
  s.ring e [(16, 1), (24, 8)] [(240, 16)] fun x d c =>
    let n := e.f 16 1
    d.withIndex x c n (· == .building) fun d ix =>
      let len := ix.lists * vecBytes ix.metric ix.dim
      d.buffers x c [(e.f 24 6, len)] fun d => d.source x c (e.f 24 6) len fun d =>
        let lacks := ix.cache && d.centroidRoom < d.centroidUsed n + len
        let d := d.st x ix.centAddr len (d.ld x (e.f 24 6) len)
        (d.putIndex x n { ix with state := .ready, cache := ix.cache && !lacks }).finish x c .DONE (ofB lacks)

/-- An index that is DROPPING is released when nothing of it is in progress; then it reads FREE and its RECALL_DROP completes (R398). -/
def Dev.settleDrop (x : Ctx) (d : Dev) (n : Nat) : Dev :=
  match d.index n with
  | none => d
  | some ix =>
    if ix.state != .dropping || d.rcl.queries.any fun q => q.index == n then d
    else
      let (d, ix) := d.freeExtents ix fun _ => true
      let d := d.zeroMem ix.headerAddr (ix.headerAddr + 256)
      let cmds := (d.rcl.dropWait.filter fun w => w.1 == n).map (·.2)
      let d := { d with rcl := { d.rcl with indexes := tblDel n d.rcl.indexes, dropWait := d.rcl.dropWait.filter fun w => w.1 != n } }
      cmds.foldl (fun (d : Dev) c => d.finish x c .DONE 0) d

/-- RECALL_DROP (R397, R398, R414). A compaction pass of the index is abandoned and its RECALL_COMPACT completes CANCELLED (DESIGN CHOICE,
log 37). -/
def execRecallDrop (e : Entry) (s : State) : Host.Outcome State Fault Refusal :=
  s.ring e [(16, 1)] [] fun x d c =>
    let n := e.f 16 1
    d.checked x c (d.recallChecks n) fun d => match d.index n with
      | none => d.finish x c .REFUSED_STATE 0
      | some ix =>
        if ix.state == .dropping then d.finish x c .REFUSED_STATE 0
        else
          let d := d.putIndex x n { ix with state := .dropping }
          let cmds := (d.rcl.compactions.filter fun p => p.index == n).filterMap (·.cmd)
          let d := { d with rcl := { d.rcl with compactions := d.rcl.compactions.filter (fun p => p.index != n), dropWait := d.rcl.dropWait ++ [(n, c)] } }
          (cmds.foldl (fun (d : Dev) k => d.finish x k .CANCELLED 0) d).settleDrop x n

/-- RECALL_STAT (R394, R397, R398). -/
def execRecallStat (e : Entry) (s : State) : Host.Outcome State Fault Refusal :=
  s.ring e [(16, 1), (24, 8)] [(240, 16)] fun x d c =>
    d.checked x c (d.recallChecks (e.f 16 1)) fun d => d.buffers x c [(e.f 24 6, 256)] fun d =>
      match d.index (e.f 16 1) with
      | none => (d.st x (e.f 24 6) 256 freeHeader).finish x c .DONE 0
      | some ix =>
        let bad := d.mediaBad ix.headerAddr 256
        let d := d.eccRead ix.headerAddr 256 true
        (d.st x (e.f 24 6) 256 (d.ld x ix.headerAddr 256)).finish x c (if bad then .FAULT_MEDIA else .DONE) 0

/-! ### Commits (R399 to R402) -/

/-- A commit: COMMIT_SEQ and COMMIT_STAMP in the header write. -/
def Dev.commitIndex (x : Ctx) (d : Dev) (n : Nat) (ix : Index) : Dev :=
  d.putIndex x n { ix with commitSeq := ix.commitSeq + 1, commitStamp := d.now }

/-- Append rows to the side list; none where the area lacks an extent. -/
def Dev.appendSide (x : Ctx) (n : Nat) : List Nat → Dev → Index → Option (Dev × Index)
  | [], d, ix => some (d, ix)
  | v :: t, d, ix =>
    let r : Row := ⟨ix.nextRow, bits v 0 64, bits v 64 32, ix.commitSeq + 1, v / 2 ^ 128, 0, false⟩
    (d.placeRow x n ix 0x10000 ix.sideEnd r).bind fun q =>
      let ix := { q.2.1 with nextRow := ix.nextRow + 1, rows := ix.rows ++ [q.2.2], side := ix.side ++ [r.id], sideEnd := u32 (ix.sideEnd + 1) }
      Dev.appendSide x n t q.1 ix

/-- RECALL_INSERT (R399, R400). -/
def execRecallInsert (e : Entry) (s : State) : Host.Outcome State Fault Refusal :=
  s.ring e [(16, 1), (20, 12)] [] fun x d c =>
    let n := e.f 16 1
    let k := e.f 20 4
    d.withIndex x c n (· == .ready) fun d ix => d.checked x c [(k == 0 || 65536 < k, .REFUSED_STATE)] fun d =>
      d.buffers x c [(e.f 24 8, k * ix.rowBytes)] fun d => d.source x c (e.f 24 8) (k * ix.rowBytes) fun d =>
        let rows := (List.range k).map fun j => d.ld x (e.f 24 8 + j * ix.rowBytes) ix.rowBytes
        let charge := (1 + ofB ix.assign2) * k
        d.checked x c [(rows.any (fun v => bits v 64 32 == 0xFFFFFFFF), .REFUSED_STATE),
          (decide (ix.capacity < ix.rowsUsed + charge) || decide (ix.sideMax < ix.side.length + k) || ix.commitSeq + 1 == 0xFFFFFFFF, .REFUSED_RESOURCE)] fun d =>
          if rows.any fun v => isNan (rowScale ix.efmt ix.dim (v / 2 ^ 128)) || (rowElems ix.efmt ix.dim (v / 2 ^ 128)).any isNan then d.unpredictable x c
          else match Dev.appendSide x n rows d ix with
            | none => d.finish x c .REFUSED_RESOURCE 0
            | some (d, ix) => ((d.commitIndex x n { ix with rowsUsed := ix.rowsUsed + charge }).bump Reg.recallInserted k).finish x c .DONE 0

/-- RECALL_DELETE (R399, R401). -/
def execRecallDelete (e : Entry) (s : State) : Host.Outcome State Fault Refusal :=
  s.ring e [(16, 1), (20, 12)] [] fun x d c =>
    let n := e.f 16 1
    let k := e.f 20 4
    d.withIndex x c n (· == .ready) fun d ix => d.checked x c [(k == 0 || 65536 < k, .REFUSED_STATE)] fun d =>
      d.buffers x c [(e.f 24 8, 4 * k)] fun d => d.source x c (e.f 24 8) (4 * k) fun d =>
        let vids := (List.range k).map fun j => d.ld x (e.f 24 8 + 4 * j) 4
        let listed := ix.mainIds ++ ix.side
        let rows := ix.rows.filter fun r => listed.contains r.id
        let seq := ix.commitSeq + 1
        let hit := rows.filter fun r => vids.contains r.vid && decide (r.insSeq < seq)
        let missed := (vids.filter fun v => !(hit.any fun r => r.vid == v)).length
        d.checked x c [(1048576 < ix.pendingNow.length + hit.length || seq == 0xFFFFFFFF, .REFUSED_RESOURCE)] fun d =>
          let ix := { ix with pending := ix.pending ++ hit.map fun r => (⟨r.id, seq⟩ : PendDel) }
          ((d.commitIndex x n ix).bump Reg.recallDeleted hit.length).finish x c .DONE missed

/-- The oldest pending delete of a row is folded (R403). -/
def Dev.fold (x : Ctx) (d : Dev) (n row : Nat) : Dev :=
  match d.index n with
  | none => d
  | some ix => match ix.pending.find? fun p => p.row == row with
    | none => d
    | some p =>
      let due := p.delSeq + d.fld Reg.recallFold 0 32 ≤ ix.commitSeq
      let held := d.rcl.queries.any fun q => q.index == n && q.queries.any fun k => k.status.isNone && k.snap < p.delSeq
      if !due || held then d
      else d.putIndex x n { ix with
        rows := ix.rows.map fun r => (if r.id == row then { r with tomb := true } else r),
        pending := ix.pending.erase p, floorSeq := max ix.floorSeq p.delSeq }

/-- Whether the Recall unit has an engine for the BULK work of folding and compaction (R403, R404). -/
def Dev.rclWorks (d : Dev) : Bool := d.domainUp .rcl && d.rcl.engines.any (·.up)

/-- RECALL_FOLD (R403). -/
def execRecallFold (index row : Nat) (s : State) : Host.Outcome State Fault Refusal :=
  s.run fun x d => if d.rclWorks then d.fold x index row else d

/-! ### Centroids (R407) -/

/-- Whether a list's centroid is read from the cache: the quadrant that holds its quarter of the table serves (R398, R414). -/
def Dev.centroidCached (d : Dev) (ix : Index) (l : Nat) : Bool := ix.cache && d.quadUp (l * 4 / max 1 ix.lists)

/-- The score of a list's centroid against a vector, none where it is NaN or cannot be read; what the cache holds is not read from HBM. -/
def Dev.centroidScore (x : Ctx) (d : Dev) (ix : Index) (q : List Nat) (l : Nat) : Option Nat :=
  let len := vecBytes ix.metric ix.dim
  let a := ix.centAddr + l * len
  if !(d.centroidCached ix l) && d.mediaBad a len then none
  else
    let s := recallScore ix.metric 0x3F800000 q (vecElems ix.metric ix.dim (d.ld x a len))
    if isNan s then none else some s

/-- Lists ranked by key descending, then by number; NaN ranks last. -/
def Dev.rankLists (x : Ctx) (d : Dev) (ix : Index) (q : List Nat) : List Nat :=
  let ss := (List.range ix.lists).map fun l => (l, match d.centroidScore x ix q l with | some s => rankKey s + 1 | none => 0)
  (sortBy (fun (a b : Nat × Nat) => decide (b.2 < a.2)) ss).map (·.1)

/-- Whether the centroid table has an unreadable word that a scan would meet. -/
def Dev.centroidsBad (d : Dev) (ix : Index) : Bool :=
  d.mediaBad ix.centAddr (ix.lists * vecBytes ix.metric ix.dim) &&
    (List.range ix.lists).any fun l => !(d.centroidCached ix l) && d.mediaBad (ix.centAddr + l * vecBytes ix.metric ix.dim) (vecBytes ix.metric ix.dim)

/-! ### Compaction (R404) -/

/-- RECALL_COMPACT (R404): the command waits for its pass; with no query engine online it completes FAULT_UNIT (R16). -/
def execRecallCompact (e : Entry) (s : State) : Host.Outcome State Fault Refusal :=
  s.ring e [(16, 1)] [] fun x d c => d.withIndex x c (e.f 16 1) (· == .ready) fun d _ => d.checked x c [(!d.rclWorks, .FAULT_UNIT)] fun d =>
    { d with rcl := { d.rcl with compactions := d.rcl.compactions ++ [(⟨e.f 16 1, false, [], [], some c⟩ : Compaction)] } }

/-- Lists whose tombstoned rows pass TOMB_PCT of their rows. -/
def Dev.listsToRewrite (d : Dev) (ix : Index) : List Nat :=
  (ix.main.filter fun m =>
    decide (m.2.length * d.fld Reg.recallCtl 0 8 < 100 * (m.2.filter fun i => match ix.row i with | some r => r.tomb | none => false).length)).map (·.1)

/-- A pass starts, where one is asked for or due and none of the index runs. -/
def Dev.startCompaction (d : Dev) (n : Nat) (ix : Index) : Dev :=
  let rewrite := d.listsToRewrite ix
  let asked := d.rcl.compactions.any fun p => p.index == n
  let due := decide (ix.sideMax * d.fld Reg.recallCtl 8 8 ≤ 100 * ix.side.length) || !rewrite.isEmpty
  if ix.state != .ready || d.rcl.compactions.any (fun p => p.index == n && p.started) then d
  else
    let go := fun (p : Compaction) => { p with started := true, take := ix.side, rewrite := rewrite }
    if asked then { d with rcl := { d.rcl with compactions := replaceFirst (fun (p : Compaction) => p.index == n) go d.rcl.compactions } }
    else if due then { d with rcl := { d.rcl with compactions := d.rcl.compactions ++ [(⟨n, true, ix.side, rewrite, none⟩ : Compaction)] } }
    else d

/-- COMPACTION_START (R404). -/
def execCompactionStart (index : Nat) (s : State) : Host.Outcome State Fault Refusal :=
  s.run fun _ d => match d.index index with
    | some ix => if d.rclWorks then d.startCompaction index ix else d
    | none => d

/-- The lists that take a side row: its nearest, or its two nearest, as R407 ranks them. DEDUCED (log 37): the row's scaled elements stand
for the query. -/
def Dev.nearestLists (x : Ctx) (d : Dev) (ix : Index) (r : Row) : List Nat :=
  let scale := rowScale ix.efmt ix.dim r.elems
  let es := rowElems ix.efmt ix.dim r.elems
  let q := if ix.metric == 2 then es else es.map fun v => fmul .near v scale
  (d.rankLists x ix q).take ix.copies

/-- Put rows at the end of a list, as new rows that keep everything but their place; pending deletes follow. -/
def Dev.appendMain (x : Ctx) (n list : Nat) : List Row → Dev → Index → Option (Dev × Index)
  | [], d, ix => some (d, ix)
  | r :: t, d, ix =>
    let ids := (tblGet list ix.main).getD []
    (d.placeRow x n ix list ids.length { r with id := ix.nextRow }).bind fun q =>
      let moved := (ix.pending.filter fun p => p.row == r.id).map fun p => (⟨ix.nextRow, p.delSeq⟩ : PendDel)
      let ix := { q.2.1 with nextRow := ix.nextRow + 1, rows := ix.rows ++ [q.2.2], main := tblSet list (ids ++ [ix.nextRow]) ix.main,
                             pending := ix.pending ++ moved }
      Dev.appendMain x n list t q.1 ix

/-- Rewrite a list without its tombstoned rows: its extents wait for the queries that captured it. -/
def Dev.rewriteList (x : Ctx) (d : Dev) (n : Nat) (ix : Index) (list : Nat) : Option (Dev × Index) :=
  let ids := (tblGet list ix.main).getD []
  let rows := ids.filterMap ix.row
  let keep := rows.filter fun r => !r.tomb
  let lo := list * 2 ^ 26
  let old := fun (k : Nat) => if lo ≤ k && k < lo + 2 ^ 26 then 2 ^ 54 + d.rcl.nextQuery else k
  let ix := { ix with extents := ix.extents.map fun e => (old e.1, e.2),
                      main := tblSet list [] ix.main, rowsUsed := ix.rowsUsed - (rows.length - keep.length) }
  Dev.appendMain x n list keep d ix

/-- Steps over a list that each can fail. -/
def foldOpt {α β : Type} (f : β → α → Option β) : List α → β → Option β
  | [], b => some b
  | a :: t, b => (f b a).bind fun b => foldOpt f t b

/-- Rows that neither the lists nor a query in progress holds go, with their pending deletes; extents of earlier publications go once no
query that captured them is left (R404). -/
def Dev.tidyIndex (d : Dev) (n : Nat) : Dev :=
  match d.index n with
  | none => d
  | some ix =>
    let qs := d.rcl.queries.filter fun q => q.index == n
    let ids := ix.mainIds ++ ix.side ++ qs.flatMap fun q => q.side ++ q.lists.flatMap (·.2)
    let ix := { ix with rows := ix.rows.filter (fun r => ids.contains r.id), pending := ix.pending.filter fun p => ids.contains p.row }
    let (d, ix) := d.freeExtents ix fun k => 2 ^ 54 ≤ k && !(qs.any fun q => q.id < k - 2 ^ 54)
    d.setIndex n ix

/-- The publication of a pass (R404). Where the area lacks an extent the pass is not published (DESIGN CHOICE, log 37). -/
def Dev.publishPass (x : Ctx) (d : Dev) (p : Compaction) (ix : Index) : Dev :=
  let n := p.index
  let rows := (p.take.filter fun i => ix.side.contains i).filterMap ix.row
  let move := rows.filter fun r => !r.tomb
  let moved := foldOpt (fun (a : Dev × Index) (r : Row) =>
    foldOpt (fun (a : Dev × Index) (l : Nat) => Dev.appendMain x n l [r] a.1 a.2) (a.1.nearestLists x a.2 r) a) move (d, ix)
  let done := moved.bind fun a => foldOpt (fun (a : Dev × Index) (l : Nat) => a.1.rewriteList x n a.2 l) p.rewrite a
  let cut := fun (d : Dev) => { d with rcl := { d.rcl with compactions := d.rcl.compactions.filter fun q => !(q.index == n && q.started) } }
  match done with
  | none => (cut d).finish? x p.cmd .REFUSED_RESOURCE 0
  | some (d, ix) =>
    let start := u32 (ix.sideStart + rows.length)
    let dead := fun (k : Nat) => 2 ^ 42 ≤ k && k < 2 ^ 43 && decide (k - 2 ^ 42 < start / ix.perExtent)
    let ix := { ix with
      side := ix.side.filter (fun i => !(p.take.contains i)), sideStart := start, publish := u32 (ix.publish + 1),
      rowsUsed := ix.rowsUsed - (1 + ofB ix.assign2) * (rows.length - move.length),
      extents := ix.extents.map fun e => (if dead e.1 then 2 ^ 54 + d.rcl.nextQuery else e.1, e.2) }
    let d := (((cut d).putIndex x n ix).bump Reg.recallPublished 1).tidyIndex n
    d.finish? x p.cmd .DONE move.length

/-- COMPACTION_PUBLISH (R404). -/
def execCompactionPublish (index : Nat) (s : State) : Host.Outcome State Fault Refusal :=
  s.run fun x d => match d.index index, d.rcl.compactions.find? fun p => p.index == index && p.started with
    | some ix, some p => if d.rclWorks then d.publishPass x p ix else d
    | _, _ => d

/-! ### Queries (R405 to R413) -/

/-- Whether the terms of a query may run (R406). -/
def termsOk (terms : List (Nat × Nat × Nat)) : Bool :=
  terms.all fun t =>
    let op := t.1 % 16
    1 ≤ op && op ≤ 4 && (op != 4 || bits t.2.1 0 6 + bits t.2.1 6 5 + 1 ≤ 64)

/-- Whether a term holds for a row's ATTR. -/
def termHolds (t : Nat × Nat × Nat) (attr : Nat) : Bool :=
  let a := t.2.1
  let b := t.2.2
  let r := match t.1 % 16 with
    | 1 => (attr &&& a) == b
    | 2 => (attr &&& a) != 0
    | 3 => (attr &&& a) == a
    | _ =>
      let f := bits attr (bits a 0 6) (bits a 6 5 + 1)
      decide (bits b 0 32 ≤ f) && decide (f ≤ bits b 32 32)
  r != bit t.1 6

/-- Whether a row passes the filter: terms of a group are OR-ed, groups AND-ed. -/
def passes' (terms : List (Nat × Nat × Nat)) (attr : Nat) : Bool :=
  (List.range 4).all fun g =>
    let ts := terms.filter fun t => bits t.1 4 2 == g
    ts.isEmpty || ts.any fun t => termHolds t attr

/-- Bytes of a query block. -/
def queryBlock (ix : Index) : Nat := 256 + cdiv (vecBytes ix.metric ix.dim) 256 * 256

/-- Read query k of an image; `rd` reads bytes of the image. -/
def readQuery (rd : Nat → Nat → Nat) (ix : Index) (k : Nat) : Query :=
  let o := k * queryBlock ix
  let n := rd (o + 11) 1
  { tag := rd o 4, k := rd (o + 4) 2, nprobe := rd (o + 6) 2, widenMax := rd (o + 8) 2, widenStep := max 1 (rd (o + 10) 1),
    terms := (List.range (min n 9)).map fun j => (rd (o + 16 + j) 1, rd (o + 32 + 16 * j) 8, rd (o + 40 + 16 * j) 8),
    snap := let s := rd (o + 12) 4
            if s == 0 then ix.commitSeq else s,
    resAddr := rd (o + 24) 6, vec := rd (o + 256) (vecBytes ix.metric ix.dim), ranked := [], todo := [], scanned := 0, hits := [], rowsScanned := 0,
    matched := 0, badRows := 0, unit := false, media := false, widened := false, status := none }

/-- Whether a query is refused (R406). WIDEN_STEP over 16 is out of its range too. -/
def Query.refused (q : Query) (ix : Index) : Bool :=
  q.k == 0 || 1024 < q.k || q.nprobe == 0 || ix.lists < q.nprobe || 8 < q.terms.length || !(termsOk q.terms) || 16 < q.widenStep ||
    q.snap < ix.floorSeq || ix.commitSeq < q.snap

/-- P_MAX (R407). -/
def Query.pMax (q : Query) (ix : Index) : Nat := min (q.nprobe + q.widenMax) ix.lists

/-- The row ids of a list as the query captured it; 0x1_0000 is the side list. -/
def QueryCmd.rowsOf (c : QueryCmd) (l : Nat) : List Nat := if l == 0x10000 then c.side else (tblGet l c.lists).getD []

/-- The parts of some lists: each list with the stacks that hold its rows. -/
def QueryCmd.parts (c : QueryCmd) (ix : Index) (ls : List Nat) : List (Nat × Nat) :=
  ls.flatMap fun l => (((c.rowsOf l).filterMap ix.row).map fun r => stackOf r.addr).eraseDups.map fun s => (l, s)

/-- Step 2 and 3 of a query: centroids are ranked, the first lists and the side list are given out. -/
def Dev.beginQuery (x : Ctx) (d : Dev) (c : QueryCmd) (ix : Index) (q : Query) : Query :=
  let ranked := (d.rankLists x ix (vecElems ix.metric ix.dim q.vec)).take (q.pMax ix)
  { q with ranked := ranked, todo := c.parts ix (0x10000 :: ranked.take q.nprobe), scanned := min q.nprobe ranked.length,
           hits := [], rowsScanned := 0, matched := 0, badRows := 0, widened := false, media := d.centroidsBad ix }

/-- Whether an offer is better than the copy held: the larger key, then the lower position (R409). -/
def Hit.better (a b : Hit) : Bool :=
  decide (rankKey b.score < rankKey a.score) || (rankKey a.score == rankKey b.score &&
    (decide (a.probe < b.probe) || (a.probe == b.probe && decide (a.rowNo < b.rowNo))))

/-- The order of a result list: key descending, then VID ascending. -/
def Hit.before (a b : Hit) : Bool :=
  decide (rankKey b.score < rankKey a.score) || (rankKey a.score == rankKey b.score && decide (a.vid < b.vid))

/-- Offer an entry: one copy per VID. -/
def offer (hs : List Hit) (h : Hit) : List Hit :=
  match hs.find? fun g => g.vid == h.vid with
  | some g => if h.better g then replaceFirst (fun (k : Hit) => k.vid == h.vid) (fun _ => h) hs else hs
  | none => hs ++ [h]

/-- The K best of some entries. -/
def bestHits (k : Nat) (hs : List Hit) : List Hit := (sortBy Hit.before hs).take k

/-- What a scan of some rows gives: entries, rows read, rows that match, rows that cannot be read (R408, R414). -/
structure Scanned where
  hits : List Hit
  rows : Nat
  matched : Nat
  bad : List Row

/-- Scan rows, given with their places (R402, R408). -/
def Dev.scanRows (d : Dev) (ix : Index) (q : Query) (probe : Nat) (rows : List (Row × Nat)) : Scanned :=
  let qv := vecElems ix.metric ix.dim q.vec
  rows.foldl (fun (a : Scanned) p =>
    let r := p.1
    let a := { a with rows := a.rows + 1 }
    if d.mediaBad r.addr ix.rowBytes then { a with bad := a.bad ++ [r] }
    else if q.snap < r.insSeq || r.tomb || (ix.pending.any fun e => e.row == r.id && e.delSeq ≤ q.snap) || !(passes' q.terms r.attr) then a
    else
      let s := recallScore ix.metric (rowScale ix.efmt ix.dim r.elems) qv (rowElems ix.efmt ix.dim r.elems)
      let a := { a with matched := a.matched + 1 }
      if isNan s then a else { a with hits := offer a.hits ⟨s, r.vid, r.attr, probe, p.2⟩ }) ⟨[], 0, 0, []⟩

/-- The K records of a result (R412). -/
def Query.records (q : Query) : List Nat :=
  let hs := bestHits q.k q.hits
  let one := fun (vid score attr : Nat) => packFields [(0, 4, vid), (4, 4, score), (8, 8, attr)]
  hs.map (fun h => one h.vid h.score h.attr) ++ List.replicate (q.k - hs.length) (one 0xFFFFFFFF 0xFF800000 0)

/-- The header of a result block (R412). -/
def Query.header (q : Query) : Nat :=
  let st := q.status.getD .DONE
  packFields [(0, 4, q.tag), (4, 1, st.code), (5, 1, ofB q.unit + ofB q.media * 2 + ofB q.widened * 4), (6, 2, min q.k q.hits.length),
    (8, 4, q.snap), (12, 4, q.scanned), (16, 8, q.rowsScanned), (24, 4, q.matched), (28, 4, q.badRows)]

/-- Whether a result block has records: a refused query, and one that ended unfinished, has none to give (DEDUCED, log 37). -/
def Query.hasRecords (q : Query) : Bool := q.status != some .REFUSED_STATE && q.status != some .FAULT_TIMEOUT && q.status != some .FAULT_UNIT

/-- The bytes of a result block. -/
def Query.result (q : Query) : List Nat := leBytes q.header 64 ++ (if q.hasRecords then q.records.flatMap fun r => leBytes r 16 else [])

/-- The order in which R413 takes statuses. -/
def recallOrder : List Status := [.FAULT_TIMEOUT, .FAULT_MEDIA, .DONE_PARTIAL, .DONE_DEGRADED, .DONE]

/-- The status of the whole command (R413). -/
def queriesStatus (qs : List Query) : Status :=
  (recallOrder.find? fun s => qs.any fun q => q.status == some s).getD .REFUSED_STATE

/-- Queries that count in the result word. -/
def queriesGood (qs : List Query) : Nat :=
  (qs.filter fun q => q.status == some .DONE || q.status == some .DONE_PARTIAL || q.status == some .DONE_DEGRADED).length

/-- Answer a Recall query: the completion, or, to a neighbour, one message of the status, the count and the result blocks (R405, R468). -/
def Dev.answerQuery (x : Ctx) (d : Dev) (path : ReqPath) (index : Nat) (st : Status) (n : Nat) (blocks : List Nat) : Dev :=
  match path with
  | .hp c => (d.chargeSome x (d.sqComp c) 4).finish x c st n
  | .cvf _ src => (d.sendTo src 0x21 4 "RECALL_RESULT" (8 + blocks.length) ([st.code, n] ++ blocks) none (index % 8) .none).1
  | .ring _ => d

/-- A query ends: its result is written, at its host address (R412). -/
def Dev.endQuery (x : Ctx) (d : Dev) (path : ReqPath) (q : Query) : Dev :=
  let d := (d.bump Reg.recallQueries 1).bump Reg.recallPartial (ofB (q.status == some .DONE_PARTIAL))
  let d := d.bump Reg.recallWidened (ofB q.widened)
  match path with
  | .hp _ => d.stBytes x q.resAddr q.result
  | _ => d

/-- The status of a query whose last round is merged (R413). -/
def Query.outcome (q : Query) : Status :=
  if q.media then .FAULT_MEDIA else if q.hits.length < q.k then .DONE_PARTIAL else if q.unit then .DONE_DEGRADED else .DONE

/-- A round ends when no part of it is left: the query widens, or ends (R411); `fuel` bounds rounds over empty lists. -/
def QueryCmd.advance (c : QueryCmd) (ix : Index) : Nat → Query → Query
  | 0, q => q
  | f + 1, q =>
    if q.status.isSome || !q.todo.isEmpty then q
    else if q.hits.length < q.k && q.scanned < q.ranked.length then
      let ls := (q.ranked.drop q.scanned).take q.widenStep
      c.advance ix f { q with widened := true, scanned := q.scanned + ls.length, todo := c.parts ix ls }
    else { q with status := some q.outcome }

/-- Query engine e and the STATE of its block. -/
def Dev.setQe (d : Dev) (e : Nat) (p : Pipe) (st : Nat) : Dev :=
  ({ d with rcl := { d.rcl with engines := setAt .reset p e d.rcl.engines } } : Dev).setFld (Reg.recallQePace e) 28 2 st

/-- An engine that waits to go offline goes once it has no query (R223). -/
def Dev.settleQes (d : Dev) : Dev :=
  (List.range 4).foldl (fun (d : Dev) e =>
    let p := getAt Pipe.reset e d.rcl.engines
    if p.pendingOff && !(d.rcl.queries.any fun q => q.qe == e) then (d.setQe e ⟨1, true, false⟩ 2).setFld Reg.recallEngCtl e 1 0 else d) d

/-- Keep a query command, or complete it once every query has a status. -/
def Dev.settleQuery (x : Ctx) (d : Dev) (c : QueryCmd) : Dev :=
  if c.queries.all fun q => q.status.isSome then
    let d := { d with rcl := { d.rcl with queries := d.rcl.queries.filter fun k => k.id != c.id } }
    let d := d.answerQuery x c.path c.index (queriesStatus c.queries) (queriesGood c.queries) (c.queries.flatMap Query.result)
    ((d.tidyIndex c.index).settleDrop x c.index).settleQes
  else { d with rcl := { d.rcl with queries := replaceFirst (fun (k : QueryCmd) => k.id == c.id) (fun _ => c) d.rcl.queries } }

/-- Advance every query of a command; those that end write their results. -/
def Dev.stepQueries (x : Ctx) (d : Dev) (c : QueryCmd) (ix : Index) : Dev :=
  let qs := c.queries.map fun q => c.advance ix (ix.lists + 2) q
  let d := ((c.queries.zip qs).filter fun p => p.1.status.isNone && p.2.status.isSome).foldl (fun (d : Dev) p => d.endQuery x c.path p.2) d
  d.settleQuery x { c with queries := qs }

/-- Query engines that take work: one that is being reset does not (R619). -/
def Dev.qesUp (d : Dev) : List Nat :=
  (List.range 4).filter fun e => (getAt Pipe.reset e d.rcl.engines).up && !(getAt Pipe.reset e d.rcl.engines).pendingOff &&
    !(d.boot.blockResets.any fun b => b.block == Reg.recallQePace e)

/-- A RECALL_QUERY begins: the header is captured, refused queries end at once (R406, R413). -/
def Dev.runQuery (x : Ctx) (d : Dev) (path : ReqPath) (n : Nat) (ix : Index) (qe : Nat) (qs : List Query) : Dev :=
  let c : QueryCmd := ⟨d.rcl.nextQuery, path, n, ix.main, ix.side, qe, [], d.now⟩
  let qs := qs.map fun q => if q.refused ix then { q with status := some Status.REFUSED_STATE } else d.beginQuery x c ix q
  let d := if d.centroidsBad ix then d.eccRead ix.centAddr (ix.lists * vecBytes ix.metric ix.dim) true else d
  let d := { d with free := d.free + 1, rcl := { d.rcl with nextQuery := d.rcl.nextQuery + 1, queries := d.rcl.queries ++ [c] } }
  let d := (qs.filter fun q => q.status.isSome).foldl (fun (d : Dev) q => d.endQuery x path q) d
  d.stepQueries x { c with queries := qs } ix

/-- Checks of a RECALL_QUERY and its start. `img` reads the image, `buf` names it as a buffer of the host. -/
def Dev.startQuery (x : Ctx) (d : Dev) (path : ReqPath) (n count : Nat) (img : Nat → Nat → Nat) (buf : Index → List (Nat × Nat)) : Dev :=
  let refuse := fun (d : Dev) (s : Status) => d.answerQuery x path n s 0 []
  match if d.domainUp .rcl then d.index n else none with
  | none => refuse d .REFUSED_STATE
  | some ix =>
    if ix.state != .ready || count == 0 || 64 < count then refuse d .REFUSED_STATE
    else if ix.structures.any fun b => d.mediaBad b.1 b.2 then refuse (ix.structures.foldl (fun (d : Dev) b => d.eccRead b.1 b.2 true) d) .FAULT_MEDIA
    else match d.qesUp[Config.placeHint d.free % max 1 d.qesUp.length]? with
      | none => refuse d .FAULT_UNIT
      | some qe =>
        let bufs := buf ix
        let qs := (List.range count).map fun k => readQuery img ix k
        let host := match path with | .hp _ => true | _ => false
        let outs := if host then qs.map fun q => (q.resAddr, 64 + 16 * (if q.refused ix then 0 else q.k)) else []
        match (bufs ++ outs).find? fun b => !(mappedRange x.fuses.part d b.1 b.2) with
        | some b => (d.holeCheck x b.1 b.2).reqUnpredictable x path
        | none =>
          if bufs.any fun b => d.mediaBad b.1 b.2 then refuse (bufs.foldl (fun (d : Dev) b => d.eccRead b.1 b.2 true) d) .FAULT_MEDIA
          else d.runQuery x path n ix qe qs

/-- RECALL_QUERY (R405 to R407, R413): from an entry, or as an image from a neighbour, which names its INDEX in the message's first byte and
its QCOUNT in the next two (DESIGN CHOICE, log 37). -/
def execRecallQuery (src : ReqSrc) (s : State) : Host.Outcome State Fault Refusal :=
  match src with
  | .hp e => s.ring e [(16, 1), (18, 2), (24, 8)] [(240, 16)] fun x d c =>
      d.startQuery x (.hp c) (e.f 16 1) (e.f 18 2) (fun o n => d.ld x (e.f 24 6 + o) n) fun ix => [(e.f 24 6, e.f 18 2 * queryBlock ix)]
  | .cvf port from_ _ val => s.run fun x d =>
      if !x.fuses.part.hasRecall then d.answerQuery x (.cvf port from_) (bits val 0 8) .NOT_PRESENT 0 []
      else d.startQuery x (.cvf port from_) (bits val 0 8) (bits val 8 16) (fun o n => bits val (8 * (o + 4)) (8 * n)) fun _ => []

/-- The part of a list that lies on one stack is scanned, by its scan engine or by a query engine in its place (R408 to R410, R414). -/
def Dev.scanPart (x : Ctx) (d : Dev) (c : QueryCmd) (ix : Index) (k : Nat) (q : Query) (list stack : Nat) : Dev :=
  let probe := if list == 0x10000 then q.ranked.length else (q.ranked.findIdx fun l => l == list)
  let rows := ((c.rowsOf list).zipIdx.filterMap fun p => (ix.row p.1).map fun r => (r, p.2)).filter fun p => stackOf p.1.addr == stack
  let r := d.scanRows ix q probe rows
  let part := bestHits q.k r.hits
  let dup := (part.filter fun h => q.hits.any fun g => g.vid == h.vid).length
  let q := { q with todo := q.todo.filter (fun t => t != (list, stack)), hits := part.foldl offer q.hits, rowsScanned := q.rowsScanned + r.rows,
                    matched := q.matched + r.matched, badRows := q.badRows + r.bad.length, media := q.media || !r.bad.isEmpty }
  let d := ((d.bump Reg.recallDedup dup).bump Reg.recallBadRows r.bad.length).bump (Reg.qdScanBeats (stack / 3) (stack % 3))
    (if d.rcl.scanOffline.contains stack then 0 else cdiv (r.rows * ix.rowBytes) 256)
  let d := r.bad.foldl (fun (d : Dev) b => (d.eccRead b.addr ix.rowBytes true).report (sourceOf 0x1400000 0 0) 0x36 3 (c.index * 2 ^ 32 + b.id)) d
  d.stepQueries x { c with queries := c.queries.set k q } ix

/-- Scans by the engine of a stack at HOT_C stand still (R666); a query engine that scans in its place goes on (R414). -/
def Dev.scanHeld (d : Dev) (stack : Nat) : Bool := d.baseHot stack && !(d.rcl.scanOffline.contains stack)

/-- RECALL_SCAN_DONE: a partial list arrives and is merged (R410). `engine` names the stack whose part of the list was scanned. -/
def execRecallScanDone (query n list engine : Nat) (s : State) : Host.Outcome State Fault Refusal :=
  s.run fun x d => match d.rcl.queries.find? fun c => c.id == query with
    | none => d
    | some c => match d.index c.index, c.queries[n]? with
      | some ix, some q => if d.domainUp .rcl && q.status.isNone && q.todo.contains (list, engine) && !(d.scanHeld engine) then d.scanPart x c ix n q list engine else d
      | _, _ => d

/-- Queries of a command that have not ended complete FAULT_TIMEOUT (R390, R414). -/
def Dev.timeoutQuery (x : Ctx) (d : Dev) (c : QueryCmd) : Dev :=
  let late := fun (q : Query) => if q.status.isSome then q else { q with status := some Status.FAULT_TIMEOUT, hits := [] }
  let d := (c.queries.filter fun q => q.status.isNone).foldl (fun (d : Dev) q => d.endQuery x c.path (late q)) d
  d.settleQuery x { c with queries := c.queries.map late }

/-- RECALL_QUERY_TIMEOUT (R390). -/
def execRecallQueryTimeout (query : Nat) (s : State) : Host.Outcome State Fault Refusal :=
  s.run fun x d => match d.rcl.queries.find? fun c => c.id == query with
    | some c => if d.now < c.since + d.fld Reg.recallCtl 16 16 * 1000000 then d else d.timeoutQuery x c
    | none => d

/-! ### Engines (R223, R414, R415) -/

/-- Software takes a query engine offline after its current query (R223, R415). -/
def execQeOfflineReq (e : Nat) (s : State) : Host.Outcome State Fault Refusal :=
  s.run fun x d => if 4 ≤ e then d else d.w1sWrite x Reg.recallEngCtl e fun d =>
    let p := getAt Pipe.reset e d.rcl.engines
    if p.offline then d.setFld Reg.recallEngCtl e 1 0
    else ({ d with rcl := { d.rcl with engines := setAt .reset { p with pendingOff := true } e d.rcl.engines } } : Dev).settleQes

/-- Software returns a query engine (R223, R415). -/
def execQeOnlineReq (e : Nat) (s : State) : Host.Outcome State Fault Refusal :=
  s.run fun x d => if 4 ≤ e then d else d.w1sWrite x Reg.recallEngCtl (4 + e) fun d =>
    let d := d.setFld Reg.recallEngCtl (4 + e) 1 0
    let p := getAt Pipe.reset e d.rcl.engines
    if p.offline && p.cause == 1 then d.setQe e .reset 1 else d

/-- A query engine gives up its queries (R414): they restart on another with the same snapshot and captured header; with none online they complete
FAULT_UNIT, after a timeout FAULT_TIMEOUT (R78). -/
def Dev.dropQe (x : Ctx) (d : Dev) (e cause : Nat) : Dev :=
  let mine := d.rcl.queries.filter fun c => c.qe == e
  mine.foldl (fun (d : Dev) c =>
    match d.qesUp.find? (fun k => k != e), d.index c.index with
    | some qe, some ix =>
      let again := fun (q : Query) => if q.status.isSome then q else { d.beginQuery x c ix q with unit := true }
      (d.bump Reg.recallReissue 1).stepQueries x { c with qe := qe, queries := c.queries.map again } ix
    | _, _ =>
      let st := if cause == 3 then Status.FAULT_TIMEOUT else .FAULT_UNIT
      let late := fun (q : Query) => if q.status.isSome then q else { q with status := some st, hits := [] }
      let d := { d with rcl := { d.rcl with queries := d.rcl.queries.filter fun k => k.id != c.id } }
      let d := (c.queries.filter fun q => q.status.isNone).foldl (fun (d : Dev) q => d.endQuery x c.path (late q)) d
      ((d.answerQuery x c.path c.index st (queriesGood c.queries) (c.queries.flatMap fun q => (late q).result)).tidyIndex c.index).settleDrop x c.index) d

/-- A query engine fails (R414, R619). -/
def Dev.loseQe (x : Ctx) (d : Dev) (e cause : Nat) : Dev := (d.setQe e ⟨cause, true, false⟩ 2).dropQe x e cause

/-- A scan engine fails (R414): its lists are scanned by query engines; queries that waited for it read DONE_DEGRADED. `stays` keeps it
offline, as a fault does. -/
def Dev.loseScan (d : Dev) (stack : Nat) (stays : Bool) : Dev :=
  let hit := fun (q : Query) => q.status.isNone && q.todo.any fun t => t.2 == stack
  let n := sumOf (d.rcl.queries.map fun c => (c.queries.filter hit).length)
  let qs := d.rcl.queries.map fun c => { c with queries := c.queries.map fun q => (if hit q then { q with unit := true } else q) }
  let off := if stays && !(d.rcl.scanOffline.contains stack) then d.rcl.scanOffline ++ [stack] else d.rcl.scanOffline
  let d := ({ d with rcl := { d.rcl with queries := qs, scanOffline := off } } : Dev).bump Reg.recallReissue n
  if stays then d.setFld (Reg.qdScanPace (stack / 3) (stack % 3)) 28 2 2 else d

/-- Every query in progress completes FAULT_TIMEOUT: a reset or power-down of the Recall domain (R414). -/
def Dev.dropQueries (x : Ctx) (d : Dev) : Dev := d.rcl.queries.foldl (fun (d : Dev) c => d.timeoutQuery x c) d

end Sys2Proof.Machine
end

