-- ==== Sys2Proof/Machine/Sessions.lean ====
section
/-! DEFINITION. Machine/Sessions.lean: opening and closing sessions, opening and closing step batches, cancels, the batch timeout, and the
commands that change tail fields and lists (R89 to R119, R138 to R144, R349, R350). -/

namespace Sys2Proof.Machine

/-! ### SESS_OPEN (R106, R107) -/

/-- Whether a HOOK_ID may be named (R579). -/
def Dev.hookOk (d : Dev) (h : Nat) : Bool := h == 0xFFFF || d.belt.hooks.any fun k => k.1 == h

/-- Whether a variant, a grammar or a prefix may be named (R107, R349). -/
def Dev.variantLoaded (d : Dev) (v : Nat) : Bool := v == 0 || (imageOf d.tail.variants v).isSome

@[inherit_doc Dev.variantLoaded] def Dev.grammarLoaded (d : Dev) (g : Nat) : Bool := g == 0xFFFF || (imageOf d.tail.grammars g).isSome

@[inherit_doc Dev.variantLoaded] def Dev.prefixLoaded (d : Dev) (p : Nat) : Bool := p == 0xFFFFFFFF || (d.loadedPrefix p).isSome

/-- The start state of a grammar (R107, R349). -/
def Dev.startState (x : Ctx) (d : Dev) (g : Nat) : Nat :=
  match imageOf d.tail.grammars g with
  | some im => (d.gHead x im.addr).start
  | none => 0

/-- The descriptor that a SESS_OPEN opens with (R106, R107). -/
def openDesc (e : Entry) (gen start len : Nat) (now : Ns) : Desc :=
  { Desc.void gen now with
    state := .idle, variant := e.f 16 2, grammar := e.f 18 2, composition := e.f 20 2, deadAction := e.f 22 1 % 8, temp := e.f 24 4,
    topP := e.f 28 4, minP := e.f 32 4, topK := e.f 36 2, hook := e.f 38 2, rngKey := e.f 40 8, errBudget := e.f 48 4, prefixId := e.f 52 4,
    escapeToken := e.f 56 4, gstate := start, commitLen := len }

/-- The checks of SESS_OPEN on its fields (R107, R342, R579). -/
def Dev.openChecks (x : Ctx) (d : Dev) (e : Entry) : List (Bool × Status) :=
  let da := e.f 22 1 % 8
  [(!x.fuses.part.hasBelt && (e.f 38 2 != 0xFFFF || da == 2), .NOT_PRESENT),
   (!(d.variantLoaded (e.f 16 2)) || !(d.grammarLoaded (e.f 18 2)) || !(d.prefixLoaded (e.f 52 4)) || !(d.hookOk (e.f 38 2)), .REFUSED_STATE),
   (!(samplingOk (e.f 24 4) (e.f 28 4) (e.f 32 4) (e.f 36 2)) || 2 < da || d.shape.vocab ≤ e.f 56 4, .REFUSED_STATE)]

/-- The structures of a session that opens: root, grammar stack and layer directories (R107, R148, R723). -/
def Dev.openKinds (d : Dev) : List AreaKind := [AreaKind.root, .gstack] ++ (List.range d.shape.layers).map AreaKind.dir

/-- An index takes a new session (R107, R180). -/
def Dev.openAt (x : Ctx) (d : Dev) (e : Entry) (c : Cmd) (i : Nat) : Dev :=
  let pfx := e.f 52 4
  let len := match d.loadedPrefix pfx with | some p => p.len | none => 0
  let s := d.placed i (openDesc e (d.nextGen i) (d.startState x (e.f 18 2)) len d.now)
  let d := (d.linkTables x i (if pfx == 0xFFFFFFFF then none else some pfx)).addRef pfx
  let d := ({ d with sess := { d.sess with lastAlloc := i } } : Dev).putDesc x i s
  let d := (d.putDesc x i { s with tier := d.tierOf i }).touch i
  (d.life 0 i 0).finish x c .DONE (d.handleOf i)

/-- SESS_OPEN (R90, R106, R107). -/
def execSessOpen (e : Entry) (s : State) : Host.Outcome State Fault Refusal :=
  s.ring e [(16, 7), (24, 36)] [(179, 5)] fun x d c => d.checked x c (d.openChecks x e) fun d =>
    match d.allocIdx with
    | none => d.finish x c .REFUSED_RESOURCE 0
    | some i => match d.allocAll (.sess i) d.openKinds with
      | none => d.finish x c .REFUSED_RESOURCE 0
      | some d => d.openAt x e c i

/-! ### SESS_QUERY (R95, R103) -/

/-- SESS_QUERY (R91, R95, R103). -/
def execSessQuery (e : Entry) (s : State) : Host.Outcome State Fault Refusal :=
  s.ring e [(16, 4), (24, 8)] [] fun x d c => d.buffers x c [(e.f 24 8, 256)] fun d =>
    let i := handleIdx (e.f 16 4)
    match d.readDesc x i with
    | (d, none) => (d.st x (e.f 24 8) 256 (d.ld x (d.descAddr i) 256)).finish x c .FAULT_MEDIA 0
    | (d, some s) =>
      if s.gen % 1024 == handleGen (e.f 16 4) then (d.st x (e.f 24 8) 256 s.pack).finish x c .DONE 0
      else d.finish x c .REFUSED_STATE 0

/-! ### SESS_STEP_OPEN (R108, R109, R113, R114, R332) -/

/-- The checks of SESS_STEP_OPEN on its own fields and resources (R109). -/
def Dev.stepOpenChecks (d : Dev) (e : Entry) : List (Bool × Status) :=
  [(e.f 16 2 == 0xFFFF || e.f 18 2 == 0 || 8192 < e.f 18 2 || e.f 56 2 == 0 || d.shape.layers < e.f 56 2, .REFUSED_STATE),
   (64 ≤ d.sess.batches.length || (d.batch (e.f 16 2)).isSome, .REFUSED_RESOURCE)]

/-- Why a session with a good descriptor does not join a batch; none where it joins (R100, R103, R109, R185, R228, R240, R332). -/
def Dev.joinFault (d : Dev) (h i : Nat) (s : Desc) : Option Status :=
  firstFail [(s.gen % 1024 != handleGen h || s.state != .idle || d.memberBound i || d.occupied i, .REFUSED_STATE),
    (d.ringDown i || !(d.canPin i), .REFUSED_RESOURCE), (d.listsBad s, .FAULT_MEDIA)]

/-- A session joins: its list state is copied, it is HOT and pinned, and its mask is prefetched (R109, R329, R332). -/
def Dev.join (x : Ctx) (d : Dev) (batch i : Nat) (s : Desc) : Dev :=
  let d := (d.dupLists x s).putDesc x i { s with state := .hot, sub := .none, batch := batch, lastStamp := d.now }
  ({ d with sess := { d.sess with steps := d.sess.steps ++ [(⟨i, none, [], [], false, 0, 0, none⟩ : StepRec)] } } : Dev).queueMask s

/-- One listed handle: the device, the sessions that have joined, and the status byte of this one. -/
def Dev.joinOne (x : Ctx) (d : Dev) (batch h : Nat) : Dev × Option Nat × Status :=
  let i := handleIdx h
  match d.readDesc x i with
  | (d, none) => (d, none, .FAULT_MEDIA)
  | (d, some s) => match d.joinFault h i s with
    | some .FAULT_MEDIA => (d.eccRead (s.listsAddr + 0x40 + s.stepSeq % 2 * 128) 128 true, none, .FAULT_MEDIA)
    | some st => (d, none, st)
    | none => (d.join x batch i s, some i, .DONE)

/-- Every listed handle in turn. -/
def Dev.joinAll (x : Ctx) (batch : Nat) : List Nat → Dev → Dev × List Nat × List Status
  | [], d => (d, [], [])
  | h :: t, d =>
    let (d, i, st) := d.joinOne x batch h
    let (d, is, sts) := Dev.joinAll x batch t d
    (d, i.toList ++ is, st :: sts)

/-- A SESS_STEP_OPEN that reaches SESS raises every quadrant to its booked floor (R656). -/
def Dev.raiseRails (d : Dev) : Dev :=
  let floor := if bit (d.reg Reg.sessLedgerCtl) 31 then 750 else 650
  let d : Dev := { d with pmc := { d.pmc with deepIdle := false } }
  (List.range 4).foldl (fun (d : Dev) q =>
    let t := d.fld (Reg.pmcRail q) 16 12
    if t != 0 && t < floor then d.setFld (Reg.pmcRail q) 16 12 floor else d) d

/-- A batch opens with the sessions that joined (R113, R135). -/
def Dev.openBatch (x : Ctx) (d : Dev) (e : Entry) (members : List Nat) : Dev :=
  let b : Batch := ⟨e.f 16 2, e.f 32 8, e.f 40 8, e.f 56 2, members, d.figures x⟩
  { d with sess := { d.sess with batches := d.sess.batches ++ [b] } }

/-- SESS_STEP_OPEN once its own fields pass. -/
def Dev.stepOpen (x : Ctx) (d : Dev) (e : Entry) (c : Cmd) : Dev :=
  let n := e.f 18 2
  let handles := (List.range n).map fun k => d.ld x (e.f 24 6 + 4 * k) 4
  let (d, members, sts) := Dev.joinAll x (e.f 16 2) handles d
  let d := d.stBytes x (e.f 48 6) (sts.map Status.code)
  if members.isEmpty then d.finish x c (if sts.contains .FAULT_MEDIA then .FAULT_MEDIA else .REFUSED_STATE) 0
  else (d.openBatch x e members).finish x c .DONE 0

/-- SESS_STEP_OPEN (R108, R109). -/
def execSessStepOpen (e : Entry) (s : State) : Host.Outcome State Fault Refusal :=
  s.ring e [(16, 4), (24, 34)] [(240, 16), (432, 16)] fun x d c =>
    d.raiseRails.checked x c (d.stepOpenChecks e) fun d => d.buffers x c [(e.f 24 6, 4 * e.f 18 2), (e.f 48 6, e.f 18 2)] fun d =>
      d.source x c (e.f 24 6) (4 * e.f 18 2) fun d => d.stepOpen x e c

/-! ### SESS_STEP_CLOSE and the batch timeout (R110, R115) -/

/-- A member of a closing batch is committed without a tail, or rolled back (R110). Its entries still outstanding are stopped, and what a
tail has left is discarded. -/
def Dev.closeMember (x : Ctx) (d : Dev) (commit : Bool) (i : Nat) : Dev × Status :=
  let (d, ok) := if commit && d.layersDone i then
      let d := ((d.stopEntries x i .CANCELLED).updStep i fun r => { r with left := none, hasTail := false }).dupLists x (d.desc i)
      d.commit x i
    else (d, false)
  if ok then (d, .DONE)
  else match d.rollback x i .CANCELLED true with
    | (d, some _) => (d, .CANCELLED)
    | (d, none) => (d, .FAULT_MEDIA)

/-- Every member in turn, with the status bytes. -/
def Dev.closeMembers (x : Ctx) (commit : Bool) : List Nat → Dev → Dev × List Status
  | [], d => (d, [])
  | i :: t, d =>
    let (d, st) := d.closeMember x commit i
    let (d, sts) := Dev.closeMembers x commit t d
    (d, st :: sts)

/-- SESS_STEP_CLOSE (R110). -/
def execSessStepClose (e : Entry) (s : State) : Host.Outcome State Fault Refusal :=
  s.ring e [(16, 3), (24, 8)] [(145, 7)] fun x d c => match d.batch (e.f 16 2) with
    | none => d.finish x c .REFUSED_STATE 0
    | some b => d.buffers x c [(e.f 24 8, b.members.length)] fun d =>
      let (d, sts) := Dev.closeMembers x (bit (e.f 18 1) 0) b.members d
      ((d.stBytes x (e.f 24 8) (sts.map Status.code)).settleAll x).finish x c .DONE sts.length

/-- A batch still has members TO_MS after WIN_END (R115). -/
def execBatchTimeout (batch : Nat) (s : State) : Host.Outcome State Fault Refusal :=
  s.run fun x d => match d.batch batch with
    | none => d
    | some b =>
      if d.now < b.winEnd + d.fld Reg.sessBatchTo 0 16 * 1000000 then d
      else (Dev.closeMembers x false b.members d).1.settleAll x

/-! ### SESS_CANCEL (R104, R111, R138 to R142, R238, R286) -/

/-- At a ring's head the CANCEL record of a session goes out ahead of its other records, in a broken ring both ways (R238, R239). The answer names the
ring and the RSN whose record is to return. -/
def Dev.cancelOnRing (d : Dev) (i : Nat) : Dev × List (Nat × Nat) :=
  match d.bindingOf i with
  | some (r, b) =>
    if r.pos == 0 then
      let d := d.ringCancel r b.rsn
      (if r.state == .broken then d.ringCancel { r with nextPort := r.prevPort } b.rsn else d, [(r.id, b.rsn)])
    else (d, [])
  | none => (d, [])

/-- The HOT members of a batch are cancelled; the sum of their streamed bytes, and the records that are to return. -/
def Dev.cancelMembers (x : Ctx) : List Nat → Dev → Dev × Nat × List (Nat × Nat)
  | [], d => (d, 0, [])
  | i :: t, d =>
    let (d, w) := d.cancelOnRing i
    let (d, n) := d.rollback x i .CANCELLED true
    let (d, m, ws) := Dev.cancelMembers x t d
    (d, n.getD 0 + m, w ++ ws)

/-- A cancel completes, at a ring's head once its CANCEL records have returned (R238). -/
def Dev.endOfCancel (x : Ctx) (d : Dev) (c : Cmd) (n : Nat) (waits : List (Nat × Nat)) : Dev :=
  if waits.isEmpty then d.finish x c .DONE (u32 n)
  else { d with attn := { d.attn with cancels := d.attn.cancels ++ [(⟨c, u32 n, waits, d.now⟩ : CancelWait)] } }

/-- SESS_CANCEL of a HOT session. -/
def Dev.cancelHot (x : Ctx) (d : Dev) (c : Cmd) (i : Nat) : Dev :=
  let (d, waits) := d.cancelOnRing i
  match d.rollback x i .CANCELLED true with
  | (d, none) => (d.settleAll x).finish x c .FAULT_MEDIA 0
  | (d, some n) => (d.settleAll x).endOfCancel x c n waits

/-- SESS_CANCEL at the source of a move (R286). A second cancel while one waits is refused (DEDUCED, log 35). -/
def Dev.cancelMoveOut (x : Ctx) (d : Dev) (c : Cmd) (m : MoveOut) (force : Bool) : Dev :=
  let abort := fun (d : Dev) => d.sendNote m.dest 0x10 2 "MOVE_ABORT" 64 [m.tag, Status.CANCELLED.code] 0
  if force then ((abort d).endMoveOut x m .CANCELLED).finish x c .DONE 0
  else if m.cancel.isSome then d.finish x c .REFUSED_STATE 0
  else abort (d.updMoveOut m.idx fun m =>
    { m with cancel := some (c, d.now), cmd := if m.unresolved then none else m.cmd, unresolved := false })

/-- SESS_CANCEL of a session in TRANSIT or REVIVING (R104). -/
def Dev.cancelTransit (x : Ctx) (d : Dev) (c : Cmd) (i : Nat) (force : Bool) : Dev :=
  match d.tier.parks.find? fun p => p.idx == i with
  | some p => ((d.endPark x p .CANCELLED).settleRings x).finish x c .DONE 0
  | none => match d.tier.revives.find? fun r => r.idx == i with
    | some r => ((d.endRevive x r .CANCELLED).settleRings x).finish x c .DONE 0
    | none => match d.tier.movesIn.find? fun m => m.idx == i with
      | some m => (d.failMoveIn x m .CANCELLED).finish x c .DONE 0
      | none => match d.moveOut fun m => m.idx == i with
        | some m => d.cancelMoveOut x c m force
        | none => d.finish x c .REFUSED_STATE 0

/-- SESS_CANCEL of one session (R103, R104, R142, R228). -/
def Dev.cancelOne (x : Ctx) (d : Dev) (c : Cmd) (i : Nat) (s : Desc) (force : Bool) : Dev :=
  if d.memberBound i then d.finish x c .REFUSED_STATE 0
  else match s.state with
    | .hot => d.cancelHot x c i
    | .transit | .reviving => d.cancelTransit x c i force
    | _ => d.finish x c .REFUSED_STATE 0

/-- SESS_CANCEL of one session by its handle. A session in a step whose descriptor fails its check is rolled back too, and the command completes
FAULT_MEDIA (R95, R726). -/
def Dev.cancelHandle (x : Ctx) (d : Dev) (c : Cmd) (h : Nat) (force : Bool) : Dev :=
  let i := handleIdx h
  match d.readDesc x i with
  | (d, none) => if (d.stepRec i).isSome && !(d.memberBound i) then d.cancelHot x c i else d.finish x c .FAULT_MEDIA 0
  | (d, some s) => if s.gen % 1024 == handleGen h then d.cancelOne x c i s force else d.finish x c .REFUSED_STATE 0

/-- SESS_CANCEL (R111). -/
def execSessCancel (e : Entry) (s : State) : Host.Outcome State Fault Refusal :=
  s.ring e [(16, 7)] [(177, 7)] fun x d c =>
    if e.f 16 4 == 0xFFFFFFFF then match d.batch (e.f 20 2) with
      | none => d.finish x c .REFUSED_STATE 0
      | some b =>
        let (d, n, waits) := Dev.cancelMembers x b.members d
        (d.settleAll x).endOfCancel x c n waits
    else d.cancelHandle x c (e.f 16 4) (bit (e.f 22 1) 0)

/-! ### SESS_CLOSE (R96, R103, R105, R143, R170, R185, R228) -/

/-- The owner of what sessions leave allocated whose descriptor failed its check (R96); no PREFIX_ID is as large. -/
def leakOwner : POwner := .pfx (2 ^ 33)

/-- Commands that a close abandons: imports and exports complete CANCELLED with their rows discarded (R185), a capture that waits with them
(DEDUCED, log 35). -/
def Dev.abandonWork (x : Ctx) (d : Dev) (st : Status) (i : Nat) : Dev :=
  let cmds := ((d.kv.impexp.filter fun o => o.idx == i).map (·.cmd)) ++ (d.kv.captures.filter fun o => o.idx == i).map (·.cmd)
  let d := { d with kv := { d.kv with impexp := d.kv.impexp.filter fun o => o.idx != i, captures := d.kv.captures.filter fun o => o.idx != i } }
  cmds.foldl (fun (d : Dev) k => d.finish x k st 0) d

/-- SESS_CLOSE of a session whose descriptor fails its check (R96): its pages and areas stay allocated and are counted, its prefix reference stays
until the next start-up, its imports and exports end (R185), its binding goes with a CLOSE record, and the index takes the void pattern with the generation of the handle. -/
def Dev.closeBad (x : Ctx) (d : Dev) (c : Cmd) (i gen : Nat) : Dev :=
  let d := (if (d.stepRec i).isSome then (d.rollback x i .CANCELLED true).1.settleAll x else d).abandonWork x .CANCELLED i
  let mine := fun (o : POwner) => o == POwner.sess i
  let pages := (d.kv.pages.filter fun p => mine p.1.owner).length
  let kib := sumOf (((d.kv.gsl ++ d.kv.pta).filter fun u => mine u.owner).map (·.bytes)) / 1024
  let d := d.stopPasses (.sess i)
  let keep := fun (u : AreaUse) => if mine u.owner then { u with owner := leakOwner } else u
  let used := d.kv.pool.used.map fun (u : SlotUse) => if mine u.key.owner then { u with key := { u.key with owner := leakOwner } } else u
  let pool := { d.kv.pool with used := used }
  let d := { d with
    kv := { d.kv with pages := d.kv.pages.filter (fun p => !(mine p.1.owner)), pool := pool, gsl := d.kv.gsl.map keep, pta := d.kv.pta.map keep },
    tier := { d.tier with manifests := tblDel i d.tier.manifests, images := tblDel i d.tier.images },
    sess := { d.sess with leaked := (d.sess.leaked.1 + pages, d.sess.leaked.2 + kib) } }
  let d := d.putDesc x i (.void gen d.now)
  let d := d.record x i 6 0 0xFFFFFFFF []
  let rings := d.attn.rings.map fun (r : Ring) => { r with bindings := r.bindings.filter fun b => b.idx != i }
  let d := { d with
    text := { d.text with bindings := d.text.bindings.filter fun b => b.idx != i },
    attn := { d.attn with rings := rings } }
  d.finish x c .FAULT_MEDIA 0

/-- A session closes (R105): at a ring's head every member closes its local session too (R228). -/
def Dev.closeGood (x : Ctx) (d : Dev) (c : Cmd) (i : Nat) : Dev :=
  let d := match d.bindingOf i with
    | some (r, b) => if r.pos == 0 then d.ringRecord r "CLOSE" [b.rsn] else d
    | none => d
  (((((d.dropDemotion x i).dropUndo x i).abandonWork x .CANCELLED i).endSession x i).settleLoans).finish x c .DONE 0

/-- SESS_CLOSE (R96, R100, R103, R143, R228): CLOSING is pinned, so a session that is not needs room to be. -/
def execSessClose (e : Entry) (s : State) : Host.Outcome State Fault Refusal :=
  s.ring e [(16, 4)] [] fun x d c =>
    let i := handleIdx (e.f 16 4)
    if d.memberBound i then d.finish x c .REFUSED_STATE 0
    else match d.readDesc x i with
    | (d, none) => d.closeBad x c i (handleGen (e.f 16 4))
    | (d, some s) =>
      if s.gen % 1024 != handleGen (e.f 16 4) then d.finish x c .REFUSED_STATE 0
      else match s.state with
        | .idle | .parked => if d.canPin i then d.closeGood x c i else d.finish x c .REFUSED_RESOURCE 0
        | .hot => match (d.cancelOnRing i).1.rollback x i .CANCELLED true with
          | (d, some _) => (d.settleAll x).closeGood x c i
          | (d, none) => d.closeBad x c i (handleGen (e.f 16 4))
        | _ => d.finish x c .REFUSED_STATE 0

/-! ### SESS_SET_TAIL (R342, R349, R579) -/

/-- Whether SESS_SET_TAIL needs a Belt that the part lacks (R14, R579). -/
def setTailAbsent (p : Part) (e : Entry) : Bool :=
  !p.hasBelt && ((bit (e.f 20 1) 2 && e.f 38 2 != 0xFFFF) || (bit (e.f 20 1) 3 && e.f 21 1 % 8 == 2))

/-- The checks of SESS_SET_TAIL on the groups it selects (R342, R349, R579). -/
def Dev.setTailChecks (d : Dev) (e : Entry) : List (Bool × Status) :=
  let g := e.f 20 1
  let da := e.f 21 1 % 8
  [(bit g 0 && !(samplingOk (e.f 24 4) (e.f 28 4) (e.f 32 4) (e.f 36 2)), .REFUSED_STATE),
   (bit g 1 && !(d.grammarLoaded (e.f 56 2)), .REFUSED_STATE),
   (bit g 2 && !(d.hookOk (e.f 38 2)), .REFUSED_STATE),
   (bit g 3 && (2 < da || d.shape.vocab ≤ e.f 60 4), .REFUSED_STATE),
   (bit g 4 && !(d.variantLoaded (e.f 22 2)), .REFUSED_STATE)]

/-- The descriptor with the selected groups changed. -/
def setTail (e : Entry) (start : Nat) (s : Desc) : Desc :=
  let g := e.f 20 1
  let s := if bit g 0 then { s with temp := e.f 24 4, topP := e.f 28 4, minP := e.f 32 4, topK := e.f 36 2 } else s
  let s := if bit g 1 then { s with grammar := e.f 56 2, gstate := start, gsp := 0, gstackTop := 0xFFFFFFFF } else s
  let s := if bit g 2 then { s with hook := e.f 38 2 } else s
  let s := if bit g 3 then { s with deadAction := e.f 21 1 % 8, escapeToken := e.f 60 4 } else s
  let s := if bit g 4 then { s with variant := e.f 22 2 } else s
  if bit g 5 then { s with rngKey := e.f 40 8, rngCtr := e.f 48 8 } else s

/-- SESS_SET_TAIL (R349). -/
def execSessSetTail (e : Entry) (s : State) : Host.Outcome State Fault Refusal :=
  s.ring e [(16, 42), (60, 4)] [(166, 2), (171, 5)] fun x d c =>
    d.checked x c [(setTailAbsent x.fuses.part e, .NOT_PRESENT)] fun d => d.withSession x c (e.f 16 4) fun d i ds =>
    d.checked x c ([(ds.state != .idle || d.memberBound i, .REFUSED_STATE)] ++ d.setTailChecks e) fun d =>
      (d.putDesc x i (setTail e (d.startState x (e.f 56 2)) ds)).finish x c .DONE 0

/-! ### SESS_SET_LISTS (R331, R350) -/

/-- The list block that a session will have: its own, or a new one. -/
def Dev.listBlock (d : Dev) (i : Nat) : Option (Dev × Nat) :=
  match d.area (.sess i) .lists with
  | some a => some (d, a)
  | none => d.allocArea .lists (.sess i) false

/-- A list block takes the image at an address (R350); `keep` keeps both state copies of a block that the session had. -/
def Dev.installLists (x : Ctx) (d : Dev) (i addr src : Nat) (had keep : Bool) : Dev :=
  let img := d.ld x src 36864
  let old := d.ld x (addr + 0x40) 256
  let d := d.st x addr 36864 img
  let d := if keep then (if had then d.st x (addr + 0x40) 256 old else d)
    else (d.putListSt x addr 0 .fresh).putListSt x addr 1 .fresh
  d.updDesc x i fun s => { s with listsAddr := addr }

/-- SESS_SET_LISTS (R350). -/
def execSessSetLists (e : Entry) (s : State) : Host.Outcome State Fault Refusal :=
  s.ring e [(16, 5), (24, 8)] [(162, 6)] fun x d c => d.withSession x c (e.f 16 4) fun d i ds =>
    d.checked x c [(ds.state != .idle || d.memberBound i, .REFUSED_STATE)] fun d =>
      let had := ds.listsAddr != 0
      let keep := bit (e.f 20 1) 1
      if bit (e.f 20 1) 0 then
        let d := (d.releaseHeld x i).freeAreas fun u => u.owner == POwner.sess i && u.kind == .lists
        (d.updDesc x i fun s => { s with listsAddr := 0 }).finish x c .DONE 0
      else d.buffers x c [(e.f 24 8, 36864)] fun d => d.source x c (e.f 24 8) 36864 fun d =>
        match d.listBlock i with
        | none => d.finish x c .REFUSED_RESOURCE 0
        | some (d, addr) =>
          let d := if keep then d else d.releaseHeld x i
          (d.installLists x i addr (e.f 24 8) had keep).finish x c .DONE 0

end Sys2Proof.Machine
end

