-- ==== Sys2Proof/Machine/Checkpoint.lean ====
section
/-! DEFINITION. Machine/Checkpoint.lean: capture runs, the checkpoint store, scans and restores (chapter 9). -/

namespace Sys2Proof.Machine

/-! ### The store (R436) -/

/-- Read a store record; none where a field lies outside its range. -/
def Dev.storeRecord (x : Ctx) (d : Dev) (a : Nat) : Option CkStore :=
  let n := d.ld x a 1
  let keep := d.ld x (a + 1) 1
  let ts := (List.range n).map fun j => (⟨d.ld x (a + 32 + 16 * j) 1, d.ld x (a + 33 + 16 * j) 1, d.ld x (a + 40 + 16 * j) 8⟩ : StoreTarget)
  if n == 0 || 8 < n || keep == 0 || 2 < keep || ts.any (fun t => t.tier < 2 || 4 < t.tier) then none else some ⟨keep, ts⟩

/-- Whether what a store target holds can be read (R278, R443). -/
def Dev.storeReachable (d : Dev) (t : StoreTarget) : Bool :=
  match t.tier with
  | 2 => d.tier.borrowed.any fun l => l.number == t.loan && l.reachable
  | 3 => d.hif.ppUp
  | _ => d.t4Open

/-- Whether reading a store needs a T4 that nothing can read: no store key is held or no HRQ exists (R629). -/
def Dev.storeShut (d : Dev) (st : CkStore) (s7 : Bool) : Bool := (s7 || st.targets.any fun t => t.tier == 4) && !d.t4Open

/-- A place for some bytes of an epoch on a target (R436): in a unit of its loan; in the T3 range from its base, outside other areas; in T4 at the end of
the epoch's object, which has no limit that the device knows. -/
def Dev.storePlace (d : Dev) (t : StoreTarget) (e bytes : Nat) : Option Nat :=
  match t.tier with
  | 2 => (d.placeT2In (fun l => l.number == t.loan) bytes).map (·.1)
  | 3 =>
    let n := cdiv bytes 256
    let held := (d.tier.t3.map fun a => (a.1, 0x200000 * a.2.1)) ++ d.storePlaces 3
    let taken := (held.filter fun a => t.location < a.1 + a.2).map fun a => ((a.1 - t.location) / 256 + 1 - n, cdiv (a.1 + a.2 - t.location) 256)
    (pickFree taken ((0x800000000000 + d.poolBytes - t.location) / 256 + 1 - n) 0).map fun k => t.location + 256 * k
  | _ => some (sumOf ((d.ckpt.shards.filter fun s => s.target == t && s.item.epoch == e).map (·.bytes)) +
      sumOf ((d.ckpt.cats.filter fun c => c.target == t && c.item.epoch == e).map (·.bytes)))

/-- Whether a T2 loan or T3 range is held. -/
def Dev.storeHeld (d : Dev) (t : StoreTarget) : Bool :=
  match t.tier with
  | 2 => d.tier.borrowed.any fun l => l.number == t.loan
  | 3 => d.hif.ppUp && 0x800000000000 ≤ t.location && t.location % 0x200000 == 0 && t.location < 0x800000000000 + d.poolBytes
  | _ => true

/-- CKPT_STORE (R436). A changed store holds no epoch of the present one (DEDUCED, log 38). -/
def execCkptStore (e : Entry) (s : State) : Host.Outcome State Fault Refusal :=
  s.ring e [(24, 8)] [] fun x d c => d.checked x c [(d.ckpt.run.isSome, .REFUSED_STATE)] fun d =>
    d.buffers x c [(e.f 24 8, 256)] fun d => d.source x c (e.f 24 8) 256 fun d => match d.storeRecord x (e.f 24 8) with
      | none => d.finish x c .REFUSED_STATE 0
      | some st => d.checked x c [(d.sec.storeKey.isNone && st.targets.any fun t => t.tier == 4, .REFUSED_STATE),
          (!(st.targets.all fun t => d.storeHeld t), .REFUSED_RESOURCE)] fun d =>
        let same := match d.ckpt.store with | some o => o.targets == st.targets | none => false
        ({ d with ckpt := { d.ckpt with store := some st, epochs := if same then d.ckpt.epochs else [] } } : Dev).finish x c .DONE 0

/-! ### Shards (R433, R434) -/

/-- Bytes of a tile in a payload. -/
def Tile.paddedBytes (t : Tile) : Nat := al256 (256 + t.metaLen + t.payLen)

/-- Bytes of a shard. -/
def Shard.bytes (s : Shard) : Nat :=
  let ts := sumOf (s.tiles.map Tile.paddedBytes)
  256 + al256 (match s.kind with
    | 1 => ts
    | 2 => 1280 + (if s.lists.isSome then 36864 else 0)
    | 3 => 64 + ts
    | _ => 0)

/-- The target of a shard (R434). -/
def shardTarget (owner layer head n : Nat) : Nat := mix64 (owner * 2 ^ 32 + layer % 0x10000 * 0x100 + head % 0x100) % max 1 n

/-- A shard with the fields of its run, its layer, head and token range to be set. -/
def CkRun.shard (r : CkRun) (sh : Shape) (kind owner : Nat) (pfx : Bool) (n : Nat) : Shard :=
  { kind := kind, target := shardTarget owner 0xFFFF 0xFF n, epoch := r.epoch, base := r.base, owner := owner, pfx := pfx, layer := 0xFFFF, head := 0xFF,
    tokenFirst := 0, tokenEnd := 0, stepSeq := 0, commitLen := 0, shapeId := sh.shapeId, rsn := 0, headEpoch := 0, cut := r.cut, tiles := [],
    desc := none, gstack := [], lists := none, pfxLen := 0, pfxRefs := 0, crcOk := true }

/-- PAGES shards of some tiles: per layer and head, at most `most` tiles each, in page order. -/
def pageShards (s : Shard) (sh : Shape) (n most commitLen : Nat) (ts : List Tile) : List Shard :=
  (ts.map fun t => (t.key.layer, t.key.head)).eraseDups.flatMap fun p =>
    let mine := ts.filter fun t => t.key.layer == p.1 && t.key.head == p.2
    (chunksOf (max 1 most) (mine.length + 1) mine).map fun c =>
      let first := (c.head?.elim 0 fun t => t.key.page) * 256
      let last := (c.getLast?.elim 0 fun t => min commitLen (256 * (t.key.page + 1)))
      { s with kind := 1, layer := sh.layerBase + p.1, head := p.2, tokenFirst := first, tokenEnd := last, tiles := c,
               target := shardTarget s.owner (sh.layerBase + p.1) p.2 n }

/-- What a capture of a session reads: its pages in T1, or, while it is parked, being revived or moving out of its park, its park targets (R289, R430). None where it
cannot be read. -/
def Dev.captureContent (x : Ctx) (d : Dev) (i : Nat) (s : Desc) : Option ParkedImage :=
  match tblGet i d.tier.images with
  | some c =>
    if s.state == .parked || s.state == .reviving || (d.moveOut fun m => m.idx == i && m.prior == .parked).isSome then
      match tblGet i d.tier.manifests with
      | some m => if m.lost || !(m.targets.all fun t => d.reachable t) then none else some { c with desc := s }
      | none => none
    else some (d.contentOf x i false).1
  | none => some (d.contentOf x i false).1

/-- Whether a page of a session is captured (R426, R427). -/
def Dev.captures (d : Dev) (i : Nat) (whole : Bool) (commitLen : Nat) (t : Tile) : Bool :=
  let coma := commitLen / 256
  decide (t.key.page < coma) && (whole || t.header.kind == .full || d.ckpt.heldJournal.any fun j =>
      !j.pfx && j.owner == i && j.layer == t.key.layer && j.head == t.key.head && j.page == t.key.page) ||
    (t.key.page == coma && commitLen % 256 != 0)

/-- The shards of a session (R426, R427, R434, R446). -/
def Dev.sessionShards (x : Ctx) (d : Dev) (r : CkRun) (o : DirtyOwner) (s : Desc) (n : Nat) : Option (List Shard) :=
  let h := d.handleOf o.owner
  if s.state == .void || s.sub == .movingIn then some [r.shard d.shape 4 h false n]
  else (d.captureContent x o.owner s).map fun c =>
    let whole := o.whole || r.full || s.ckptEpoch == 0 || d.ckpt.epoch < s.ckptEpoch
    let ring := match d.bindingOf o.owner with
      | some (q, b) => if q.pos == 0 then (b.rsn, r.epoch) else match o.ring with | some h => (b.rsn, h.1) | none => (0, 0)
      | none => (0, 0)
    let base := { r.shard d.shape 2 h false n with stepSeq := s.stepSeq, commitLen := s.commitLen, rsn := ring.1, headEpoch := ring.2 }
    pageShards base d.shape n (d.fld Reg.ckptCtl 0 8) s.commitLen (c.tiles.filter fun t => d.captures o.owner whole s.commitLen t) ++
      [{ base with desc := some s, gstack := c.gstack, lists := c.lists, tokenEnd := s.commitLen }]

/-- The shards of a prefix: its record with its tiles, or a tombstone (R426, R434). -/
def Dev.prefixShards (x : Ctx) (d : Dev) (r : CkRun) (id n : Nat) : List Shard :=
  match d.kv.prefixes.find? fun p => p.id == id with
  | none => [r.shard d.shape 4 id true n]
  | some p =>
    [{ r.shard d.shape 3 id true n with
       tiles := (d.pagesOf (.pfx id)).map fun k => d.tileOf x k.1 k.2 p.len
       tokenEnd := p.len, commitLen := p.len, pfxLen := p.len, pfxRefs := p.refs }]

/-! ### Writing (R434, R436, R437) -/

/-- The T4 object of an epoch on a target. DESIGN CHOICE (log 38): the first object number plus the epoch. -/
def epochObject (t : StoreTarget) (e : Nat) : Nat := u64 (t.location + e)

/-- Send bytes to their place on target `n` of a store in class CKPT, to a lender in messages of at most 1 MiB (R436, R468, R486, R496). The answer tells
whether the write could start. -/
def Dev.storeWrite (x : Ctx) (d : Dev) (t : StoreTarget) (n e place bytes : Nat) (msg : MsgOwner) (req : T4Owner) : Dev × Bool :=
  match t.tier with
  | 2 =>
    let dst := d.lenderAt place
    let port := (d.route dst).getD 0
    (List.range (cdiv bytes 0x100000)).foldl (fun (a : Dev × Bool) k =>
      let len := min 0x100000 (bytes - k * 0x100000)
      let (d, ok) := a.1.sendTo dst 0x11 3 "MEM_WR" (16 + len) [place % 0x10000000000 + k * 0x100000, len] none n msg
      (d, a.2 && ok)) (d.bulkOf (eclCvf port) (Reg.cvfPace port) bytes true msg, true)
  | 3 => if d.hif.ppUp then ((d.bulkOf eclHif 0 bytes true msg).send (.pool true place bytes), true) else (d, false)
  | _ => if d.t4Open then ((d.bulkOf eclHif 0 bytes true msg).hostRequest x 1 4 (epochObject t e) place (d.gibBase Reg.ckptBufBase + 0x30000000) bytes req, true) else (d, false)

/-- STATE of RUN_STAT. -/
def Dev.runState (d : Dev) (v : Nat) : Dev := d.setFld Reg.ckptRunStat 30 2 v

/-- Release what an epoch holds on the targets of a store: T4 objects by host requests (R436, R437). -/
def Dev.dropEpochs (x : Ctx) (d : Dev) (ts : List StoreTarget) (es : List Nat) : Dev :=
  let held := fun (t : StoreTarget) (e : Nat) => d.ckpt.shards.any (fun s => s.target == t && s.item.epoch == e) || d.ckpt.cats.any fun c => c.target == t && c.item.epoch == e
  let objs := (ts.filter fun t => t.tier == 4).flatMap fun t => (es.filter fun e => held t e).map fun e => epochObject t e
  let gone := fun (t : StoreTarget) (e : Nat) => ts.contains t && es.contains e
  let d := { d with ckpt := { d.ckpt with shards := d.ckpt.shards.filter (fun s => !(gone s.target s.item.epoch)),
                                          cats := d.ckpt.cats.filter fun c => !(gone c.target c.item.epoch) } }
  if d.hif.hrq.isSome then objs.foldl (fun (d : Dev) o => d.hostRequest x 3 6 o 0 0 0 .areaRelease) d else d

/-- The run is abandoned (R437, R537). -/
def Dev.abandonRun (x : Ctx) (d : Dev) (st : Status) : Dev :=
  match d.ckpt.run with
  | none => d
  | some r =>
    let d := d.dropEpochs x ((d.ckpt.store.map (·.targets)).getD []) [r.epoch]
    let d := { d with ckpt := { d.ckpt with run := none } }
    let d := d.crossed fun o => match o with | .stream k _ => k == 3 | _ => false
    let d := (d.runState 0).bump Reg.ckptAbandoned 1
    match r.cmd with
    | some c => d.finish x c st 0
    | none => d.event x 4 (u32 r.epoch) st.code r.epoch

/-- Change the run. -/
def Dev.updRun (d : Dev) (f : CkRun → CkRun) : Dev := { d with ckpt := { d.ckpt with run := d.ckpt.run.map f } }

/-- Write one shard; a target that runs out of space abandons the run, as does a write that cannot start (R437). -/
def Dev.writeShard (x : Ctx) (d : Dev) (ts : List StoreTarget) (s : Shard) : Dev :=
  match d.ckpt.run, ts[s.target]? with
  | some r, some t => match d.storePlace t r.epoch s.bytes with
    | none => d.abandonRun x .REFUSED_RESOURCE
    | some place =>
      let part := (d.ckpt.shards.filter fun q => q.item.epoch == r.epoch).length
      let d := { d with ckpt := { d.ckpt with shards := d.ckpt.shards ++ [(⟨t, place, s.bytes, s⟩ : Stored Shard)] } }
      let k := getAt (0, 0) s.target r.counts
      let d := d.updRun fun r => { r with counts := setAt (0, 0) (k.1 + 1, k.2 + s.bytes) s.target r.counts,
                                          cur := r.cur.map fun c => { c with outstanding := c.outstanding ++ [(part, 0)] } }
      match d.storeWrite x t s.target r.epoch place s.bytes (.shard part) (.ckptShard s.owner part) with
      | (d, true) => d
      | (d, false) => d.abandonRun x .FAULT_LINK
  | _, _ => d

/-- Every target gets its catalogue (R436). DESIGN CHOICE (log 38): a catalogue record takes 256 B. -/
def Dev.writeCatalogues (x : Ctx) (d : Dev) (ts : List StoreTarget) : Dev :=
  match d.ckpt.run with
  | none => d
  | some r =>
    let cat : Catalogue := ⟨r.epoch, r.base, r.full, r.cut, d.shape.shapeId, ts.length, (List.range ts.length).map fun t => getAt (0, 0) t r.counts,
      r.sessions, r.tombs, r.prefixes⟩
    let d := (d.runState 2).updRun fun r => { r with catalogues := (List.range ts.length).map fun t => (t, 0) }
    ts.zipIdx.foldl (fun (d : Dev) t =>
      if d.ckpt.run.isNone then d
      else
        match d.storePlace t.1 r.epoch 512 with
        | none => d.abandonRun x .REFUSED_RESOURCE
        | some place =>
          let d := { d with ckpt := { d.ckpt with cats := d.ckpt.cats ++ [(⟨t.1, place, 512, cat⟩ : Stored Catalogue)] } }
          match d.storeWrite x t.1 t.2 r.epoch place 512 (.catalogue t.2) (.ckptCatalogue t.2) with
          | (d, true) => d
          | (d, false) => d.abandonRun x .FAULT_LINK) d

/-- A ring member reports to the head that it cannot capture (R446). -/
def Dev.ckptFail (d : Dev) (r : Ring) (rsn : Nat) : Dev :=
  (d.sendTo r.headAddr 0x06 0 "CKPT_FAIL" 64 [r.id, rsn, r.pos] none r.id (.ring r.id)).1

/-- A session is left uncaptured in this epoch (R430); a member whose capture the head asked for reports it (R446). -/
def Dev.skipOwner (d : Dev) (o : DirtyOwner) : Dev :=
  let d := (d.bump Reg.ckptSkipped 1).report (sourceOf 0x1500000 0 0) 0x61 3 (d.handleOf o.owner)
  match o.ring, d.bindingOf o.owner with
  | some _, some (q, b) => d.ckptFail q b.rsn
  | _, _ => d

/-- Take the next owner of the dirty set: prefixes, then sessions by index; when none is left the catalogues are written. A session whose
descriptor or park targets cannot be read is skipped (R430), and so is a ring member's that stands no more at the STEP_SEQ of the head's
record (R446). `fuel` bounds the owners. -/
def Dev.nextOwner (x : Ctx) (ts : List StoreTarget) : Nat → Dev → Dev
  | 0, d => d
  | f + 1, d =>
    match d.ckpt.run with
    | none => d
    | some r => match r.dirty with
      | [] => d.writeCatalogues x ts
      | o :: rest =>
        let d := d.updRun fun r => { r with dirty := rest }
        let begin_ := fun (d : Dev) (shards : List Shard) =>
          shards.foldl (fun (d : Dev) s => d.writeShard x ts s) (d.updRun fun r => { r with cur := some ⟨o.owner, o.pfx, []⟩ })
        if o.pfx then begin_ d (d.prefixShards x r o.owner ts.length)
        else
          match d.readDesc x o.owner with
          | (d, none) => Dev.nextOwner x ts f (d.skipOwner o)
          | (d, some s) => match if o.ring.any fun h => h.2 != s.stepSeq then none else d.sessionShards x r o s ts.length with
            | none => Dev.nextOwner x ts f (d.skipOwner o)
            | some shards =>
              let d := match d.bindingOf o.owner with
                | some (q, b) => if q.pos == 0 && s.state != .void then d.ringRecord q "CKPT" [b.rsn, r.epoch, s.stepSeq] else d
                | none => d
              begin_ d shards

/-- The run goes on with the next owner. -/
def Dev.runOn (x : Ctx) (d : Dev) : Dev :=
  match d.ckpt.run, d.ckpt.store with
  | some r, some st => d.nextOwner x st.targets (r.dirty.length + 1)
  | _, _ => d

/-! ### Starting a run (R418 to R425) -/

/-- The sessions of a run (R425). -/
def Dev.dirtySessions (d : Dev) (full : Bool) (cut : Ns) : List DirtyOwner :=
  (d.sess.table.filter fun p =>
    let s := p.2
    if full then s.state != .void && s.sub != .movingIn
    else s.sub != .movingIn &&
      ((d.ckpt.cutPrev ≤ s.lastStamp && s.lastStamp < cut) || (s.state != .void && (s.ckptEpoch == 0 || d.ckpt.epoch < s.ckptEpoch)) ||
        d.ckpt.heldJournal.any fun j => !j.pfx && j.owner == p.1)).map fun p => ⟨p.1, false, full, none⟩

/-- The prefixes of a run: all, or those that the journal half names (R426). -/
def Dev.dirtyPrefixes (d : Dev) (full : Bool) : List DirtyOwner :=
  let named := ((d.ckpt.heldJournal.filter (·.pfx)).map (·.owner)).eraseDups
  let all := if full then (d.kv.prefixes.map (·.id)) ++ (named.filter fun n => !(d.kv.prefixes.any fun p => p.id == n)) else named
  all.map fun id => ⟨id, true, full, none⟩

/-- Whether a run is FULL (R420). DEDUCED (log 38): no epoch counts as committed after the store has changed. -/
def Dev.runFull (d : Dev) (asked : Bool) : Bool :=
  let every := d.fld Reg.ckptCtl 8 8
  asked || d.ckpt.epochs.isEmpty || (every != 0 && every ≤ d.ckpt.deltasSinceFull) || bit (d.reg Reg.ckptRunStat) 27

/-- Steps 1 to 3 of a run. `only` limits it to one owner (R446). -/
def Dev.startRun (x : Ctx) (d : Dev) (epoch trigger : Nat) (full : Bool) (cmd : Option Cmd) (only : Option DirtyOwner) : Dev :=
  let cut := d.now
  let d := { d with ckpt := { d.ckpt with heldJournal := d.ckpt.heldJournal ++ d.ckpt.journal, journal := [], lastUsed := epoch } }
  let dirty := match only with | some o => [o] | none => d.dirtyPrefixes full ++ d.dirtySessions full cut
  let r : CkRun := { epoch := epoch, base := if full then epoch else d.ckpt.full, full := full, trigger := trigger, cut := cut, since := d.now, cmd := cmd,
                     dirty := dirty, cur := none, counts := [], sessions := 0, tombs := 0, prefixes := 0, catalogues := [] }
  let d := (({ d with ckpt := { d.ckpt with run := some r } } : Dev).runState 1).setFld Reg.ckptRunStat 0 26 0
  (if trigger == 0 then d else d.setFld Reg.ckptRunStat 28 2 trigger).runOn x

/-- A run of the device's own: it starts where a store is configured (DEDUCED, log 38). -/
def Dev.autoRun (x : Ctx) (d : Dev) (trigger : Nat) : Dev :=
  if d.ckpt.store.isNone then d else d.startRun x (u64 (d.ckpt.lastUsed + 1)) trigger (d.runFull false) none none

/-- A run that a failure warning starts. -/
def Dev.warnRun (x : Ctx) (d : Dev) : Dev :=
  if d.ckpt.store.isNone then d else ({ d with ckpt := { d.ckpt with warnStart := some d.now } } : Dev).autoRun x 3

/-- A warning run that waited starts as soon as no run is in progress (R419). -/
def Dev.settleRun (x : Ctx) (d : Dev) : Dev :=
  if d.ckpt.run.isNone && bit (d.reg Reg.ckptRunStat) 26 then (d.setFld Reg.ckptRunStat 26 1 0).warnRun x else d

/-- CKPT_RUN (R419 to R421). -/
def execCkptRun (e : Entry) (s : State) : Host.Outcome State Fault Refusal :=
  s.ring e [(16, 1), (24, 8)] [(129, 7)] fun x d c =>
    d.checked x c [(d.ckpt.run.isSome || d.ckpt.store.isNone || (e.f 24 8 != 0 && e.f 24 8 ≤ d.ckpt.lastUsed), .REFUSED_STATE)] fun d =>
      (d.startRun x (if e.f 24 8 == 0 then u64 (d.ckpt.lastUsed + 1) else e.f 24 8) 1 (d.runFull (bit (e.f 16 1) 0)) (some c) none).settleRun x

/-- A multiple of PERIOD_S passes (R419). -/
def execCkptSchedule (s : State) : Host.Outcome State Fault Refusal :=
  s.run fun x d =>
    let period := d.fld Reg.ckptCtl 16 16 * 1000000000
    if period == 0 || d.now / period ≤ d.ckpt.schedAt / period then d
    else
      let d := { d with ckpt := { d.ckpt with schedAt := d.now } }
      if d.ckpt.run.isSome then d.bump Reg.ckptSchedSkip 1
      else (d.autoRun x 2).settleRun x

/-- A failure warning is raised once the count of the present window reaches THRESH (R422). -/
def execFailureWarning (s : State) : Host.Outcome State Fault Refusal :=
  s.run fun x d =>
    let thresh := d.fld Reg.ckptWarnCtl 0 16
    let win := d.err.warnWin
    if thresh == 0 || d.err.warnCount < thresh || d.ckpt.warnedWin == some win then d
    else
      let d := { d with ckpt := { d.ckpt with warnedWin := some win } }
      let d := (d.bump Reg.ckptWarnCnt 1).event x 2 d.err.warnCount (d.fld Reg.ckptWarnCtl 16 16) (win * d.warnWindow)
      let held := match d.ckpt.warnStart with | some t => decide (d.now < t + d.fld Reg.ckptWarnSrc 16 16 * 1000000) | none => false
      if held then d
      else if d.ckpt.run.isSome then d.setFld Reg.ckptRunStat 26 1 1
      else d.warnRun x

/-! ### Acknowledgements (R431, R436, R437) -/

/-- The owner being captured is done: CKPT_EPOCH is written (R431), and what a session closed meanwhile left is released (R428, R432). -/
def Dev.ownerDone (x : Ctx) (d : Dev) (r : CkRun) (c : Capturing) : Dev :=
  let d := d.updRun fun r => { r with cur := none }
  if c.pfx then
    let there := d.kv.prefixes.any fun p => p.id == c.owner
    d.updRun fun r => { r with prefixes := r.prefixes + ofB there, tombs := r.tombs + ofB (!there) }
  else
    let live := (d.desc c.owner).state != .void
    let d := if live then d.updDesc x c.owner fun s => { s with ckptEpoch := r.epoch } else d.releaseFrames x fun q => q.owner == .sess c.owner
    if d.ckpt.shards.any fun q => q.item.epoch == r.epoch && q.item.kind == 2 && handleIdx q.item.owner == c.owner then
      (d.updRun fun r => { r with sessions := r.sessions + 1 }).setFld Reg.ckptRunStat 0 26 (d.fld Reg.ckptRunStat 0 26 + 1)
    else d.updRun fun r => { r with tombs := r.tombs + 1 }

/-- A shard write is answered (R431, R437): a failed write is tried once more, a second failure abandons the run. -/
def Dev.shardAck (x : Ctx) (d : Dev) (part : Nat) (ok : Bool) : Dev :=
  match d.ckpt.run with
  | none => d
  | some r => match r.cur with
    | none => d
    | some c => match tblGet part c.outstanding, (d.ckpt.shards.filter fun q => q.item.epoch == r.epoch)[part]? with
      | some tries, some q =>
        if ok then
          let c := { c with outstanding := tblDel part c.outstanding }
          let d := (d.crossed fun o => o == .stream 3 part).updRun fun r => { r with cur := some c }
          if c.outstanding.isEmpty then (d.ownerDone x r c).runOn x else d
        else if tries == 0 then
          let d := d.updRun fun r => { r with cur := some { c with outstanding := tblSet part 1 c.outstanding } }
          match d.storeWrite x q.target q.item.target r.epoch q.place q.bytes (.shard part) (.ckptShard q.item.owner part) with
          | (d, true) => d
          | (d, false) => d.abandonRun x .FAULT_LINK
        else d.abandonRun x .FAULT_LINK
      | _, _ => d

/-- SHARD_ACK (R431, R437). -/
def execShardAck (part : Nat) (ok : Bool) (s : State) : Host.Outcome State Fault Refusal := s.run fun x d => (d.shardAck x part ok).settleRun x

/-- The FULL epochs that stay, and what is older than the oldest of them (R436). -/
def Dev.oldEpochs (d : Dev) (keep : Nat) : List Nat :=
  let fulls := sortBy (fun a b => decide (b < a)) ((d.ckpt.epochs.filter (·.full)).map (·.epoch))
  match (fulls.take keep).getLast? with
  | some oldest => if keep ≤ fulls.length then (d.ckpt.epochs.filter fun e => e.epoch < oldest).map (·.epoch) else []
  | none => []

/-- The epoch commits (step 5). -/
def Dev.commitRun (x : Ctx) (d : Dev) (r : CkRun) (st : CkStore) : Dev :=
  let rec_ : EpochRec := ⟨r.epoch, r.base, r.full, r.cut, r.counts⟩
  let newFull := if r.full then r.epoch else d.ckpt.full
  let deltas := if r.full then 0 else d.ckpt.deltasSinceFull + 1
  let ck := { d.ckpt with run := none, epoch := r.epoch, full := newFull, epochs := d.ckpt.epochs ++ [rec_] }
  let d := { d with ckpt := { ck with heldJournal := [], deltasSinceFull := deltas, cutPrev := r.cut } }
  let d := (if r.full then d.setFld Reg.ckptRunStat 27 1 0 else d).runState 0
  let d := d.bump Reg.ckptRuns 1
  let d := match r.cmd with
    | some c => d.finish x c .DONE (u32 r.epoch)
    | none => d.event x 3 (u32 r.epoch) r.trigger r.epoch
  if r.full then
    let old := d.oldEpochs st.defKeep
    let d := d.dropEpochs x st.targets old
    { d with ckpt := { d.ckpt with epochs := d.ckpt.epochs.filter fun e => !(old.contains e.epoch) } }
  else d

/-- A catalogue write is answered (R436, R437). -/
def Dev.catalogueAck (x : Ctx) (d : Dev) (target : Nat) (ok : Bool) : Dev :=
  match d.ckpt.run, d.ckpt.store with
  | some r, some st => match tblGet target r.catalogues, (d.ckpt.cats.filter fun c => c.item.epoch == r.epoch)[target]? with
    | some tries, some q =>
      if ok then
        let left := tblDel target r.catalogues
        let d := d.updRun fun r => { r with catalogues := left }
        if left.isEmpty then d.commitRun x r st else d
      else if tries == 0 then
        let d := d.updRun fun r => { r with catalogues := tblSet target 1 r.catalogues }
        match d.storeWrite x q.target target r.epoch q.place q.bytes (.catalogue target) (.ckptCatalogue target) with
        | (d, true) => d
        | (d, false) => d.abandonRun x .FAULT_LINK
      else d.abandonRun x .FAULT_LINK
    | _, _ => d
  | _, _ => d

/-- CATALOGUE_ACK (R436, R437). -/
def execCatalogueAck (target : Nat) (ok : Bool) (s : State) : Host.Outcome State Fault Refusal :=
  s.run fun x d => (d.catalogueAck x target ok).settleRun x

/-- The run passes RUN_TO_S (R437). -/
def execCkptRunTimeout (s : State) : Host.Outcome State Fault Refusal :=
  s.run fun x d => match d.ckpt.run with
    | some r => if d.now < r.since + d.fld Reg.ckptRunTo 0 16 * 1000000000 then d else (d.abandonRun x .FAULT_TIMEOUT).settleRun x
    | none => d

/-! ### Ring records (R446) -/

/-- A CKPT ring record reaches a member: its local session joins the current run, or a DELTA run of its own; a member that cannot capture
reports a failure to the head. The session is the next that the run captures. -/
def execCkptRecord (ring rsn epoch stepSeq : Nat) (s : State) : Host.Outcome State Fault Refusal :=
  s.run fun x d => match d.ringAt ring with
    | none => d
    | some r =>
      if r.pos == 0 then d
      else
        let d := if r.pos + 1 < r.m then d.ringRecord r "CKPT" [rsn, epoch, stepSeq] else d
        match r.bindings.find? fun b => b.rsn == rsn with
        | none => d.ckptFail r rsn
        | some b =>
          let o : DirtyOwner := ⟨b.idx, false, false, some (epoch, stepSeq)⟩
          if d.ckpt.store.isNone || (d.desc b.idx).stepSeq != stepSeq then d.ckptFail r rsn
          else match d.ckpt.run with
            | some q =>
              let rest := q.dirty.filter fun p => p.pfx || p.owner != b.idx
              if q.catalogues.isEmpty then d.updRun fun q => { q with dirty := o :: rest } else d.ckptFail r rsn
            | none => (d.startRun x (u64 (d.ckpt.lastUsed + 1)) 0 false none (some o)).settleRun x

/-! ### Which epochs are usable (R438, R439) -/

/-- What a scan finds: the epochs seen, which of them are complete, their FULL epochs, their shapes, and whether they are FULL. -/
structure StoreView where
  epochs : List Nat
  complete : Nat → Bool
  base : Nat → Nat
  shapeOk : Nat → Bool
  full : Nat → Bool
  count : Nat → Nat

/-- Whether every epoch from the FULL epoch of E to E is there with its catalogues and shards (R438). -/
def StoreView.chainOk (v : StoreView) (e : Nat) : Bool :=
  let b := v.base e
  v.complete e && v.complete b && v.base b == b && (v.epochs.filter fun f => b ≤ f && f ≤ e).all fun f => v.complete f

/-- VERDICT of an epoch (R439). -/
def StoreView.verdict (v : StoreView) (e : Nat) : Nat :=
  if !(v.complete e) then 1 else if !(v.chainOk e) then 2 else if !(v.shapeOk e) then 3 else 0

/-- Shards and catalogues of the native format that a store shows: those of T2 and T3 targets that can be read, and those that the host
holds for T4 targets (R443). -/
def Dev.nativeShards (d : Dev) (st : CkStore) (t4 : T4Store) : List (Nat × Shard) :=
  st.targets.zipIdx.flatMap fun t =>
    if t.1.tier == 4 then (t4.shards.filter fun s => s.target == t.2).map fun s => (t.2, s)
    else if d.storeReachable t.1 then (d.ckpt.shards.filter fun s => s.target == t.1 && !s.lost).map fun s => (t.2, s.item) else []

@[inherit_doc Dev.nativeShards] def Dev.nativeCats (d : Dev) (st : CkStore) (t4 : T4Store) : List (Nat × Catalogue) :=
  st.targets.zipIdx.flatMap fun t =>
    if t.1.tier == 4 then (t4.cats.filter fun c => c.1 == t.2)
    else if d.storeReachable t.1 then (d.ckpt.cats.filter fun c => c.target == t.1 && !c.lost).map fun c => (t.2, c.item) else []

/-- The view of the native epochs of a store. -/
def Dev.nativeView (d : Dev) (st : CkStore) (t4 : T4Store) : StoreView :=
  let ss := d.nativeShards st t4
  let cs := d.nativeCats st t4
  let cat := fun (e : Nat) => (cs.find? fun c => c.2.epoch == e).map (·.2)
  let ok := fun (e t : Nat) => cs.any fun c => c.1 == t && c.2.epoch == e && c.2.n == st.targets.length &&
    (getAt (0, 0) t c.2.counts).1 == (ss.filter fun s => s.1 == t && s.2.epoch == e).length
  { epochs := sortBy (fun a b => decide (a < b)) ((ss.map fun s => s.2.epoch) ++ cs.map fun c => c.2.epoch).eraseDups
    complete := fun e => (List.range st.targets.length).all fun t => ok e t
    base := fun e => match cat e with | some c => c.base | none => ((ss.find? fun s => s.2.epoch == e).map fun s => s.2.base).getD e
    shapeOk := fun e => match cat e with | some c => c.shapeId == d.fld Reg.ckptShape 0 32 | none => true
    full := fun e => match cat e with | some c => c.full | none => (ss.find? fun s => s.2.epoch == e).elim false fun s => s.2.base == e
    count := fun e => (ss.filter fun s => s.2.epoch == e).length }

/-- The view of the S7 epochs, which have catalogues of their own and no shape test (R444). -/
def s7View (t4 : T4Store) : StoreView :=
  let cat := fun (e : Nat) => (t4.s7Cats.find? fun c => c.2.epoch == e).map (·.2)
  let count := fun (e : Nat) => (t4.s7Shards.filter fun s => s.epoch == e).length + (t4.s7Sessions.filter fun s => s.epoch == e).length
  { epochs := sortBy (fun a b => decide (a < b)) ((t4.s7Shards.map (·.epoch)) ++ (t4.s7Sessions.map (·.epoch)) ++ t4.s7Cats.map fun c => c.2.epoch).eraseDups
    complete := fun e => match cat e with
      | some c => sumOf (c.counts.map (·.1)) == count e && (List.range c.n).all fun t => t4.s7Cats.any fun k => k.1 == t && k.2.epoch == e
      | none => false
    base := fun e => match cat e with | some c => c.base | none => e
    shapeOk := fun _ => true
    full := fun e => match cat e with | some c => c.full | none => false
    count := count }

/-- CKPT_SCAN (R439). DESIGN CHOICE (log 38): KIND reads 1 for FULL and 0 for DELTA. -/
def execCkptScan (e : Entry) (t4 : T4Store) (s : State) : Host.Outcome State Fault Refusal :=
  s.ring e [(24, 16)] [] fun x d c => d.buffers x c [(e.f 24 8, 256)] fun d => d.source x c (e.f 24 8) 256 fun d =>
    match d.storeRecord x (e.f 24 8) with
    | none => d.finish x c .REFUSED_STATE 0
    | some st => d.checked x c [(d.storeShut st false, .FAULT_LINK)] fun d =>
      let v := d.nativeView st t4
      let w := if d.t4Open then s7View t4 else { s7View t4 with epochs := [] }
      let one := fun (u : StoreView) (n : Nat) (verdict : Nat) =>
        (n, packFields [(0, 8, n), (8, 8, u.base n), (16, 1, ofB (u.full n)), (17, 1, verdict), (20, 4, u.count n)])
      let es := sortBy (fun (a b : Nat × Nat) => decide (a.1 < b.1)) ((v.epochs.map fun n => one v n (v.verdict n)) ++ w.epochs.map fun n => one w n 4)
      d.buffers x c [(e.f 32 8, 32 * es.length)] fun d => (d.stRecords x (e.f 32 8) 32 (es.map (·.2))).finish x c .DONE es.length

/-! ### Restore (R440 to R447) -/

/-- Put a session's content into T1 under an index: the descriptor is IDLE with CKPT_EPOCH 0 (R441). None where T1 lacks room. -/
def Dev.installSession (x : Ctx) (d : Dev) (i : Nat) (s : Desc) (c : ParkedImage) : Option Dev :=
  (d.reserveT1 x i c).map fun d =>
    let d := c.tiles.foldl (fun (d : Dev) t => d.landTile x i t c.desc.commitLen) d
    let d := (d.buildTables x i c).addRef s.prefixId
    let s := { d.placed i s with state := .idle, sub := .none, batch := 0xFFFF, ckptEpoch := 0, lastStamp := d.now, stripeN := 0, locAddr := 0, image := false }
    let d := d.putDesc x i s
    d.putDesc x i { s with tier := d.tierOf i }

/-- Restore a session from its newest shard and its newest tiles (R441, R442). -/
def Dev.restoreSession (x : Ctx) (d : Dev) (s : Shard) (chain : List Shard) : Dev × Status :=
  let i := handleIdx s.owner
  match s.desc with
  | none => (d, .FAULT_MEDIA)
  | some ds =>
    let mine := chain.filter fun q => q.kind == 1 && !q.pfx && q.owner == s.owner
    let tiles := mine.flatMap fun q => q.tiles.map fun t => (q.epoch, q.crcOk, t)
    let used := tiles.filter fun t => decide (t.2.2.key.page ≤ ds.commitLen / 256) && !(tiles.any fun u => u.2.2.key == t.2.2.key && decide (t.1 < u.1))
    let ts := sortBy (fun (a b : Tile) => a.key.before b.key) (used.map fun t => { t.2.2 with key := { t.2.2.key with owner := POwner.sess i } })
    let c : ParkedImage := ⟨ds, s.gstack, s.lists, ts⟩
    if (d.desc i).state != .void || !(d.variantLoaded ds.variant) || !(d.grammarLoaded ds.grammar) ||
      (ds.prefixId != 0xFFFFFFFF && !(d.kv.prefixes.any fun p => p.id == ds.prefixId)) then (d, .REFUSED_STATE)
    else if !s.crcOk || used.any fun t => !t.2.1 then (d, .FAULT_MEDIA)
    else match d.installSession x i { ds with gen := handleGen s.owner } c with
      | some d => (d.bump Reg.ckptRestored 1, .DONE)
      | none =>
        let d := d.evictAll x
        match d.installSession x i { ds with gen := handleGen s.owner } c with
        | some d => (d.bump Reg.ckptRestored 1, .DONE)
        | none => (d, .REFUSED_RESOURCE)

/-- Restore a prefix (R441, R442). DESIGN CHOICE (log 38): it holds its load reference and one for each session restored after it. -/
def Dev.restorePrefix (x : Ctx) (d : Dev) (s : Shard) : Dev × Status :=
  if d.kv.prefixes.any fun p => p.id == s.owner then (d, .REFUSED_STATE)
  else if !s.crcOk then (d, .FAULT_MEDIA)
  else
    let o := POwner.pfx s.owner
    let put := fun (d : Dev) (t : Tile) =>
      let k : PKey := { t.key with owner := o }
      (d.allocSlots x k (if t.header.kfmt == .fp8 then 2 else 1) true false).bind fun a =>
        (if (a.1.area o (.hdr k.layer k.head (k.page / 64))).isSome then some a.1 else (a.1.allocArea (.hdr k.layer k.head (k.page / 64)) o false).map (·.1)).map fun d =>
          let p := t.header.at a.2 d.shape.d
          let (m, ml, ps) := d.tileParts p p.rows
          let d := d.st x m ml t.metaVal
          let d := (ps.foldl (fun (a : Dev × Nat) r => (a.1.st x r.1 r.2 (a.2 % 2 ^ (8 * r.2)), a.2 / 2 ^ (8 * r.2))) (d, t.payVal)).1
          d.putPage x k { p with prefixId := s.owner }
    match (foldOpt put s.tiles d).or (foldOpt put s.tiles (d.evictAll x)) with
    | none => (d.evictAll x, .REFUSED_RESOURCE)
    | some d =>
      let p : Prefix := ⟨s.owner, s.pfxLen, 1, true, false, 0, 0⟩
      ({ d with kv := { d.kv with prefixes := d.kv.prefixes ++ [p] } }, .DONE)

/-- The values of a row of an S7 shard, written through the intake path (R444). -/
def s7Row (r : FpRow) : FpRow :=
  fp8Row (r.k.map fun b => ofE4m3 b ((r.kExp : Int) - 127)) (r.v.map fun b => ofE4m3 b ((r.vExp : Int) - 127))

/-- Rebuild a session from S7 shards of a chain (R444). -/
def Dev.restoreS7 (x : Ctx) (d : Dev) (s : S7Session) (chain : List S7Shard) : Dev × Status :=
  let i := handleIdx s.owner
  let sh := d.shape
  let mine := chain.filter fun q => handleIdx q.owner == i && sh.layerBase ≤ q.layer && q.layer < sh.layerBase + sh.layers
  let rowAt := fun (l h t : Nat) => (mine.foldl (fun (best : Option (Nat × FpRow)) q =>
    if q.layer == sh.layerBase + l && q.head == h && q.first ≤ t then
      match q.rows[t - q.first]?, best with
      | some r, some b => if b.1 < q.epoch then some (q.epoch, r) else some b
      | some r, none => some (q.epoch, r)
      | none, b => b
    else best) none).map (·.2)
  let places := (List.range sh.layers).flatMap fun l => (List.range sh.hkv).flatMap fun h => (List.range s.commitLen).map fun t => (l, h, t)
  if (d.desc i).state != .void then (d, .REFUSED_STATE)
  else if mine.any (fun q => !q.ok) || places.any fun p => (rowAt p.1 p.2.1 p.2.2).isNone then (d, .FAULT_MEDIA)
  else
    let base : Desc := { Desc.void (handleGen s.owner) d.now with
      state := .idle, commitLen := s.commitLen, stepSeq := s.stepSeq, temp := s.temp, topP := s.topP, topK := s.topK, rngKey := s.rngKey, rngCtr := s.rngCtr }
    match d.reserveT1 x i ⟨base, [], none, []⟩ with
    | none => (d, .REFUSED_RESOURCE)
    | some d1 =>
      let d1 := d1.putDesc x i (d1.placed i base)
      let w := places.foldl (fun (a : Dev × Bool) p =>
        if a.2 then a.1.writeRow x i p.1 p.2.1 p.2.2 (s7Row ((rowAt p.1 p.2.1 p.2.2).getD ⟨0, 0, [], [], 0, 0, 0, 0, false⟩)) false else a) (d1, true)
      if w.2 then ((w.1.fillPages x i s.commitLen).bump Reg.ckptRestored 1, .DONE) else (d, .REFUSED_RESOURCE)

/-- A report entry (R442). -/
def restoreEntry (owner stepSeq : Nat) (st : Status) : Nat := packFields [(0, 4, owner), (4, 1, st.code), (8, 4, stepSeq)]

/-- Epochs above R that hold shards are counted, and each writes an error-log entry (R440). -/
def Dev.ignoreEpochs (d : Dev) (v : StoreView) (r : Nat) : Dev :=
  (v.epochs.filter fun e => r < e && v.count e != 0).foldl (fun (d : Dev) e =>
    (d.bump Reg.ckptIgnored 1).report (sourceOf 0x1500000 0 0) 0x62 1 e) d

/-- Finish a restore: its report and its completion (R442). -/
def Dev.endRestore (x : Ctx) (d : Dev) (c : Cmd) (report : Nat) (rs : List (Nat × Nat × Status × Bool)) : Dev :=
  let d := d.stRecords x report 16 (rs.map fun r => restoreEntry r.1 r.2.1 r.2.2.1)
  let good := (rs.filter fun r => r.2.2.1 == .DONE && r.2.2.2).length
  d.finish x c (if rs.all fun r => r.2.2.1 == .DONE then .DONE else .DONE_PARTIAL) good

/-- The newest SESSION, PREFIX or TOMB shard of each owner in a chain (R441), of a session by its index. Ring shards beyond RING_EPOCH are
not used (R447). -/
def newestOwners (chain : List Shard) (pfx : Bool) : List Shard :=
  let key := fun (s : Shard) => if pfx then s.owner else handleIdx s.owner
  let heads := chain.filter fun s => s.pfx == pfx && s.kind != 1
  sortBy (fun (a b : Shard) => decide (key a < key b))
    (heads.filter fun s => !(heads.any fun t => key t == key s && (decide (s.epoch < t.epoch))))

/-- Native restore from the chain of R. -/
def Dev.restoreNative (x : Ctx) (d : Dev) (c : Cmd) (report : Nat) (chain : List Shard) : Dev :=
  let pfx := (newestOwners chain true).filter fun s => s.kind == 3
  let sess := (newestOwners chain false).filter fun s => s.kind == 2
  d.buffers x c [(report, 16 * (pfx.length + sess.length))] fun d =>
  let (d, rp) := pfx.foldl (fun (a : Dev × List (Nat × Nat × Status × Bool)) s =>
    let (d, st) := a.1.restorePrefix x s
    (d, a.2 ++ [(s.owner, 0, st, false)])) (d, [])
  let (d, rs) := sess.foldl (fun (a : Dev × List (Nat × Nat × Status × Bool)) s =>
    let (d, st) := a.1.restoreSession x s chain
    (d, a.2 ++ [(s.owner, s.stepSeq, st, true)])) (d, rp)
  d.endRestore x c report rs

/-- S7 restore from the chain of R (R444). -/
def Dev.restoreFromS7 (x : Ctx) (d : Dev) (c : Cmd) (report : Nat) (sess : List S7Session) (chain : List S7Shard) : Dev :=
  let newest := sess.filter fun s => !(sess.any fun t => handleIdx t.owner == handleIdx s.owner && decide (s.epoch < t.epoch))
  d.buffers x c [(report, 16 * newest.length)] fun d =>
  let (d, rs) := newest.foldl (fun (a : Dev × List (Nat × Nat × Status × Bool)) s =>
    let (d, st) := a.1.restoreS7 x s chain
    (d, a.2 ++ [(s.owner, s.stepSeq, st, true)])) (d, [])
  d.endRestore x c report rs

/-- CKPT_RESTORE (R440 to R445, R447). -/
def execCkptRestore (e : Entry) (t4 : T4Store) (s : State) : Host.Outcome State Fault Refusal :=
  s.ring e [(16, 1), (24, 32)] [(129, 7)] fun x d c => d.checked x c [(d.ckpt.run.isSome, .REFUSED_STATE)] fun d =>
    d.buffers x c [(e.f 24 8, 256), (e.f 48 8, 1)] fun d => d.source x c (e.f 24 8) 256 fun d =>
      match d.storeRecord x (e.f 24 8) with
      | none => d.finish x c .REFUSED_STATE 0
      | some st =>
        let s7 := bit (e.f 16 1) 0
        d.checked x c [(d.storeShut st s7, .FAULT_LINK)] fun d =>
        let v := if s7 then s7View t4 else d.nativeView st t4
        let limit := e.f 32 8
        let usable := v.epochs.filter fun n => v.verdict n == 0 && (limit == 0 || n ≤ limit)
        match usable.getLast? with
        | none => d.finish x c .REFUSED_STATE 0
        | some r =>
          let inChain := fun (n : Nat) => v.base r ≤ n && n ≤ r
          if s7 then
            let sh := d.shape
            if t4.s7Shape != (sh.hkv, sh.d, sh.vocab) || !(bit (capReg x.fuses 3) 25) then d.finish x c .REFUSED_STATE 0
            else (d.ignoreEpochs v r).restoreFromS7 x c (e.f 48 8) (t4.s7Sessions.filter fun s => inChain s.epoch) (t4.s7Shards.filter fun s => inChain s.epoch)
          else
            let ring := e.f 40 8
            let chain := ((d.nativeShards st t4).map (·.2)).filter fun s => inChain s.epoch && (ring == 0 || s.rsn == 0 || s.headEpoch ≤ ring)
            (d.ignoreEpochs v r).restoreNative x c (e.f 48 8) chain

end Sys2Proof.Machine
end

