-- ==== Sys2Proof/Machine/Completions.lean ====
section
/-! DEFINITION. Machine/Completions.lean: how the end of a transfer reaches the operation that it serves: STORE_DONE and the timeout of host
requests (R539, R540), and the acknowledgement or failure of a message (R470, R486, R487, R506). -/

namespace Sys2Proof.Machine

/-- What the end of a transfer can let go on: ring operations, loans, runs. -/
def Dev.settleTransfers (x : Ctx) (d : Dev) : Dev := (((d.settleRings x).settleLoans).settleRun x)

/-! ### Host requests -/

/-- A T4 request is answered: the operation goes on, or takes a media error or a failed transfer by the rules of its chapter (R273, R278,
R297, R437, R539). -/
def Dev.requestDone (x : Ctx) (d : Dev) (o : T4Owner) (st : Status) : Dev :=
  let ok := st == .DONE
  match o with
  | .park i t => if ok then d.parkAck i t 4 else d.parkFailed x i t 4
  | .revive i _ => if ok then d else d.reviveFails x i st
  | .evacuation i t => d.evacAck x i t ok
  | .ckptShard _ p => d.shardAck x p ok
  | .ckptCatalogue t => d.catalogueAck x t ok
  | .restore _ | .areaRelease => d

/-- A request is no longer outstanding. -/
def Dev.dropRequest (d : Dev) (reqId : Nat) : Dev :=
  { d with hif := { d.hif with requests := d.hif.requests.filter fun r => r.reqId != reqId } }

/-- The status that a STORE_DONE reports; a DONE of other BYTES acts as FAULT_LINK (R539). A status that R539 does not name is an error of
the host's own making. -/
def storeStatus (code bytes : Nat) (r : HostReq) : Option Status :=
  match code with
  | 0x00 => some (if bytes == r.bytes then .DONE else .FAULT_LINK)
  | 0x30 => some .FAULT_MEDIA
  | 0x40 => some .FAULT_LINK
  | _ => none

/-- STORE_DONE (R539). -/
def execStoreDone (e : Entry) (s : State) : Host.Outcome State Fault Refusal :=
  s.ring e [(16, 5), (24, 8)] [] fun x d c => match d.hif.requests.find? fun r => r.reqId == e.f 16 4 with
    | none => d.finish x c .REFUSED_STATE 0
    | some r => match storeStatus (e.f 20 1) (e.f 24 8) r with
      | none => d.unpredictable x c
      | some st => ((((d.dropRequest r.reqId).requestDone x r.owner st).settleTransfers x)).finish x c .DONE 0

/-- A request has waited TO_MS without STORE_DONE (R540): it fails as a failed transfer; a RELEASE is retried after a further TO_MS, up to 3 times, then
dropped. RETRIES counts its expiries and its retries in turn: it is odd while the request waits for its retry. -/
def execHrqTimeout (reqId : Nat) (s : State) : Host.Outcome State Fault Refusal :=
  s.run fun x d => match d.hif.requests.find? fun r => r.reqId == reqId with
    | none => d
    | some r =>
      if d.now < r.since + d.fld Reg.hifHrqCtl 0 16 * 1000000 then d
      else
      let put := fun (d : Dev) (r : HostReq) =>
        ({ d with hif := { d.hif with requests := replaceFirst (fun (q : HostReq) => q.reqId == reqId) (fun _ => r) d.hif.requests } } : Dev)
      let again := { r with retries := r.retries + 1, since := d.now }
      if r.retries % 2 == 1 then (put d { again with posted := false }).postReq x { again with posted := false }
      else
      let d := (d.bump Reg.hifHrqTimeout 1).event x 0xA r.reqId r.origin 0
      if r.op == 3 && r.retries < 6 then put d again
      else ((d.dropRequest reqId).requestDone x r.owner .FAULT_LINK).settleTransfers x

/-! ### The pool's link (R520) -/

/-- Writes of a checkpoint run to T3 that are in flight fail (R437, R520). -/
def Dev.storeLinkDown (x : Ctx) (d : Dev) : Dev :=
  match d.ckpt.run with
  | none => d
  | some r =>
    let mine := d.ckpt.shards.filter fun q => q.item.epoch == r.epoch
    let parts := ((r.cur.map (·.outstanding)).getD []).filter fun p => (mine[p.1]?).any fun q => q.target.tier == 3
    let cats := r.catalogues.filter fun p => ((d.ckpt.store.bind fun s => s.targets[p.1]?)).any fun t => t.tier == 3
    let d := parts.foldl (fun (d : Dev) p => d.shardAck x p.1 false) d
    cats.foldl (fun (d : Dev) p => d.catalogueAck x p.1 false) d

/-- The PP link goes down: transfers in flight to and from T3 fail (R520). -/
def execPpLinkDown (s : State) : Host.Outcome State Fault Refusal :=
  s.run fun x d =>
    if !d.hif.ppUp then d
    else
      let d := ({ d with hif := { d.hif with ppUp := false } } : Dev).setFld Reg.hifPpStat 24 8 0
      let d := (d.report (sourceOf 0x1800000 0 0) 0x41 2 0x10).event x 8 0x10 0 0
      let parks := d.tier.parks.flatMap fun p => (p.targets.zipIdx.filter fun t => t.1.tier == 3).map fun t => (p.idx, t.2)
      let d := parks.foldl (fun (d : Dev) p => d.parkFailed x p.1 p.2 3) d
      let revs := (d.tier.revives.filter fun r => r.reserved && (match tblGet r.idx d.tier.manifests with
        | some m => m.targets.any fun t => t.tier == 3
        | none => false)).map (·.idx)
      let d := revs.foldl (fun (d : Dev) i => d.reviveFails x i .FAULT_LINK) d
      let d := (d.tier.evacuating.filter fun v => v.dest.tier == 3).foldl (fun (d : Dev) v => d.evacAck x v.idx v.target false) d
      (d.storeLinkDown x).settleTransfers x

/-! ### Messages -/

/-- A message leaves the list of messages sent. -/
def Dev.dropSent (d : Dev) (id : Nat) : Dev := { d with cvf := { d.cvf with sent := d.cvf.sent.filter fun p => p.2.id != id } }

/-- The other messages of one write of a checkpoint are dropped with it. -/
def Dev.dropOwner (d : Dev) (o : MsgOwner) : Dev := { d with cvf := { d.cvf with sent := d.cvf.sent.filter fun p => p.2.owner != o } }

/-- The answer to a window access reaches its operation (R486). A write of a checkpoint is done with the last of its messages. -/
def Dev.msgDone (x : Ctx) (d : Dev) (o : MsgOwner) : Dev :=
  let more := d.cvf.sent.any fun p => p.2.owner == o
  match o with
  | .park i t tier => d.parkAck i t tier
  | .evac i t => d.evacAck x i t true
  | .shard p => if more then d else d.shardAck x p true
  | .catalogue t => if more then d else d.catalogueAck x t true
  | _ => d

/-- A message of a move is lost: after a DROP notice it is sent once more, as tile number + 2^32; otherwise the move ends FAULT_LINK (R284,
R470). -/
def Dev.moveMsgFails (x : Ctx) (d : Dev) (m : Msg) (idx tag tile : Nat) (again : Bool) : Dev :=
  match d.moveOut fun q => q.idx == idx && q.tag == tag with
  | none => d
  | some q =>
    let fail := fun (d : Dev) => (d.sendNote q.dest 0x10 2 "MOVE_ABORT" 64 [tag, Status.FAULT_LINK.code] 0).endMoveOut x q .FAULT_LINK
    if again && tile < 2 ^ 32 then
      match d.sendTo m.dst m.kind m.cls m.name m.bytes m.fields m.deadline m.qsel (.move idx tag (tile + 2 ^ 32)) with
      | (d, true) => d
      | (d, false) => fail d
    else fail d

/-- The operation that sent a message takes its failure as a failed transfer (R470, R506). `again` tells that a DROP notice said so. -/
def Dev.msgFails (x : Ctx) (d : Dev) (port : Nat) (m : Msg) (again : Bool) : Dev :=
  match m.owner with
  | .none | .record _ | .rcl _ => d
  | .response p tag => d.report (portSource p) 0x44 3 tag
  | .move i tag tile => d.moveMsgFails x m i tag tile again
  | .park i t tier => d.parkFailed x i t tier
  | .revive i _ => d.reviveFails x i .FAULT_LINK
  | .evac i t => d.evacAck x i t false
  | .shard p => (d.dropOwner m.owner).shardAck x p false
  | .catalogue t => (d.dropOwner m.owner).catalogueAck x t false
  | .ring id => match d.ringAt id with
    | some r => if r.state == .up then d.memberLost x r (if r.nextPort == port then (r.pos + 1) % max 1 r.m else (r.pos + r.m - 1) % max 1 r.m) else d
    | none => d

/-- A message that this device sent, by its number. -/
def Dev.sentMsg (d : Dev) (id : Nat) : Option (Nat × Msg) := d.cvf.sent.find? fun p => p.2.id == id

/-- A message fails: it leaves the queues and its operation hears of it. -/
def Dev.failMsg (x : Ctx) (d : Dev) (p : Nat × Msg) (again : Bool) : Dev :=
  let cut := fun (q : ClassQ) => { q with lane := q.lane.filter fun f => f.msg.id != p.2.id || f.src != d.fabricAddr,
                                          queues := q.queues.map fun l => l.filter fun f => f.msg.id != p.2.id || f.src != d.fabricAddr }
  let d := d.setPort p.1 fun P => { P with shaper := { P.shaper with classes := P.shaper.classes.map cut } }
  (d.dropSent p.2.id).msgFails x p.1 p.2 again

/-- DROP_NOTICE (R470). -/
def execDropNotice (cls msgId _reason : Nat) (s : State) : Host.Outcome State Fault Refusal :=
  s.run fun x d => match d.sentMsg msgId with
    | some p => if p.2.cls == cls then (d.failMsg x p true).settleTransfers x else d
    | none => d

/-- MEM_WR_ACK (R486). -/
def execMemWrAck (msgId : Nat) (s : State) : Host.Outcome State Fault Refusal :=
  s.run fun x d => match d.sentMsg msgId with
    | some p => if p.2.kind == 0x11 then ((d.dropSent msgId).msgDone x p.2.owner).settleTransfers x else d
    | none => d

/-- MEM_RD_DATA (R486): the bytes of a revive land tile by tile (REVIVE_TILE). -/
def execMemRdData (msgId : Nat) (s : State) : Host.Outcome State Fault Refusal :=
  s.run fun x d => match d.sentMsg msgId with
    | some p => if p.2.kind == 0x13 then ((d.dropSent msgId).msgDone x p.2.owner).settleTransfers x else d
    | none => d

/-- MEM_ERR (R487). -/
def execMemErr (msgId : Nat) (s : State) : Host.Outcome State Fault Refusal :=
  s.run fun x d => match d.sentMsg msgId with
    | some p => if p.2.kind == 0x11 || p.2.kind == 0x13 then (d.failMsg x p false).settleTransfers x else d
    | none => d

end Sys2Proof.Machine
end

