-- ==== Sys2Proof/Machine/TimePace.lean ====
section
/-! DEFINITION. Machine/TimePace.lean: timekeepers, PTM, the pace monitors and the reads that latch (chapter 1 and the latched
register pairs of chapters 9, 10 and 14). -/

namespace Sys2Proof.Machine

/-! ### Timekeepers (R62 to R69) -/

/-- The timekeeper of a number: 0 the chip's, n + 1 that of quadrant n. -/
def Dev.keeper (d : Dev) : Nat → Timekeeper
  | 0 => d.time.chip
  | n + 1 => getAt Timekeeper.reset n d.time.quads

/-- Set a timekeeper. -/
def Dev.setKeeper (d : Dev) (k : Nat) (t : Timekeeper) : Dev :=
  match k with
  | 0 => { d with time := { d.time with chip := t } }
  | n + 1 => { d with time := { d.time with quads := setAt Timekeeper.reset t n d.time.quads } }

/-- Whether a count of reference periods lies within 25 MHz plus or minus 200 ppm over an interval of 1 ms (R66). -/
def refGood (refTicks : Nat) : Bool := 24995 ≤ refTicks && refTicks ≤ 25005

/-- The difference between a quadrant timekeeper and the chip timekeeper at the last calibration, in ns. DESIGN CHOICE (log 49): no rule says how it is
measured; the model takes the difference of what the two counted over their last 25,000 reference periods, and an aligned keeper starts from the
chip's count. -/
def Dev.skewOf (d : Dev) (n : Nat) : Nat :=
  let q := getAt Timekeeper.reset n d.time.quads
  if q.aligned then (max q.counted d.time.chip.counted) - (min q.counted d.time.chip.counted) else 0

/-- SKEW_NS: the largest of those differences (R68). -/
def Dev.maxSkew (d : Dev) : Nat := (List.range 4).foldl (fun m n => max m (d.skewOf n)) 0

/-- Whether some timekeeper runs on its last calibrated rate (R66). -/
def Dev.anyHeld (d : Dev) : Bool := d.time.chip.held || d.time.quads.any (·.held)

/-- A calibration with a good reference: the rate is corrected so that the difference, and what holdover has gathered, goes over the next 1 ms (R62, R66,
R68, R69). HOLDOVER clears once no timekeeper is in holdover. DEDUCED (log 17): the correction is the difference over 1 ms, 1,000 parts per billion
for each nanosecond. -/
def Dev.calibrate (d : Dev) (k counted : Nat) : Dev :=
  let t := d.keeper k
  let ppb : Int := ((1000000 : Int) - counted - t.debt) * 1000
  let d := d.setKeeper k { t with trimPpb := ppb, counted := counted, debt := 0, held := false }
  let d := { d with time := { d.time with sourceLost := false } }
  let d := (d.setFld Reg.chipTkStatus 0 1 1).setFld Reg.chipTkStatus 1 1 (ofB d.anyHeld)
  let d := if k == 0 then d.setReg Reg.chipTkTrim (ofSigned ppb 32) else d
  d.setFld Reg.chipTkStatus 24 8 (min d.maxSkew 255)

/-- The timer source is lost for an interval of timekeeper k: the timekeepers hold their rate, HOLDOVER and REF_LOST are set, and an entry is written
(R66). The error that the keeper gathers without its reference is a free value. DEDUCED (log 17): one entry for each loss. -/
def Dev.holdover (d : Dev) (k : Nat) : Dev :=
  let d := if d.time.sourceLost then d else d.report chipSource 0x50 1 0
  let (e, d) := d.draw
  let d := d.setKeeper k { d.keeper k with debt := (d.keeper k).debt + (if e % 2 == 0 then (e / 2 : Int) else -(e / 2 : Int)) }
  let keep := fun (t : Timekeeper) => { t with held := true }
  let d := { d with time := { d.time with sourceLost := true, chip := keep d.time.chip, quads := d.time.quads.map keep } }
  (d.setFld Reg.chipTkStatus 1 1 1).setFld Reg.chipTkStatus 2 1 1

/-- A quadrant timekeeper is aligned and in use (R63, R68). -/
def Dev.alignQuad (d : Dev) (n : Nat) : Dev :=
  (d.setKeeper (n + 1) { d.keeper (n + 1) with aligned := true, counted := d.time.chip.counted }).setFld Reg.chipTkStatus (20 + n) 1 1

/-- A quadrant timekeeper completes alignment (R63): after its quadrant's power-good, at start-up, after a reset or on a wake. -/
def execQdTkAlign (q : Nat) (s : State) : Host.Outcome State Fault Refusal :=
  s.run fun _ d =>
    let on := !(bit (d.reg Reg.pmcGate) q) || d.pmc.waking.any fun w => w.domain == q
    if q < 4 && d.stage != 1 && on && !(d.boot.quadResets.any fun r => r.quad == q && r.stage == 2) && !(d.boot.quadOffline.contains q) then
      d.alignQuad q
    else d

/-- A read of CHIP.TIME_LO returns device time[31:0] and latches TIME_HI (R67). -/
def execTimeLoRead (s : State) : Host.Outcome State Fault Refusal :=
  s.run fun x d => d.bar0 x Reg.chipTimeLo fun d =>
    (d.setReg Reg.chipTimeHi (d.now / 2 ^ 32)).send (.cpl .success (u32 d.now) false)

/-! ### PTM (R71 to R73) -/

/-- Whether PTM dialogs run (R71). -/
def Dev.ptmOn (d : Dev) : Bool := d.hif.hp.ptmEnable && bit (d.reg Reg.chipPtmCtl) 0

/-- Start a dialog, if they run. -/
def Dev.ptmStart (d : Dev) : Dev := if d.ptmOn then { d with time := { d.time with ptmRunning := true } } else d

/-- Software writes TRIGGER: one dialog starts, and the bit stays set until a dialog ends (R72). DESIGN CHOICE (log 50): while PTM is disabled no dialog starts
(R71), the bit stays set, and no dialog starts for it when PTM is enabled later. -/
def execPtmTrigger (s : State) : Host.Outcome State Fault Refusal :=
  s.run fun x d => d.bar0 x Reg.chipPtmCtl fun d => (d.setFld Reg.chipPtmCtl 1 1 1).ptmStart

/-- PERIOD_MS passes: a dialog starts while PTM is enabled (R72). -/
def execPtmPeriod (s : State) : Host.Outcome State Fault Refusal :=
  s.run fun _ d => if d.fld Reg.chipPtmCtl 8 8 == 0 then d else d.ptmStart

/-- A dialog completes with a correlation pair; SEQ advances (R71, R72). -/
def execPtmDialogDone (dev host linkDly : Nat) (s : State) : Host.Outcome State Fault Refusal :=
  s.run fun _ d =>
    if d.time.ptmRunning then
      let d := { d with time := { d.time with ptmRunning := false, ptmLast := ⟨u64 dev, u64 host, linkDly % 65536⟩, ptmLastAt := some d.now } }
      (d.setReg Reg.chipPtmSeq (u32 (d.reg Reg.chipPtmSeq + 1))).setFld Reg.chipPtmCtl 1 1 0
    else d

/-- A dialog fails: the snapshot and SEQ stay (R73), and TRIGGER clears as the dialog has ended (R72). -/
def execPtmDialogFail (s : State) : Host.Outcome State Fault Refusal :=
  s.run fun _ d =>
    if d.time.ptmRunning then ({ d with time := { d.time with ptmRunning := false } } : Dev).setFld Reg.chipPtmCtl 1 1 0 else d

/-- The snapshot registers take the last pair (R72). -/
def Dev.ptmLatch (d : Dev) : Dev :=
  let p := d.time.ptmLast
  ((((d.setReg Reg.chipPtmDevLo (u32 p.dev)).setReg Reg.chipPtmDevHi (p.dev / 2 ^ 32)).setReg Reg.chipPtmHostLo (u32 p.host)).setReg
    Reg.chipPtmHostHi (p.host / 2 ^ 32)).setReg Reg.chipPtmLinkdly p.linkDly

/-- A read of PTM_SEQ latches a consistent snapshot (R72). -/
def execPtmSeqRead (s : State) : Host.Outcome State Fault Refusal :=
  s.run fun x d => d.bar0 x Reg.chipPtmSeq fun d => d.ptmLatch.send (.cpl .success (d.reg Reg.chipPtmSeq) false)

/-! ### Reads that latch the high half of a pair (R448, R508, R647) -/

/-- A read of the low half of a 64-bit value: it returns [31:0] and latches [63:32] into the high register. -/
def Dev.latchRead (x : Ctx) (d : Dev) (lo hi v : Nat) : Dev :=
  d.bar0 x lo fun d => (d.setReg hi (u64 v / 2 ^ 32)).send (.cpl .success (u32 v) false)

/-- A read of CKPT.EPOCH_LO (R448). -/
def execCkptEpochLoRead (s : State) : Host.Outcome State Fault Refusal :=
  s.run fun x d => d.latchRead x Reg.ckptEpochLo Reg.ckptEpochHi d.ckpt.epoch

/-- A read of CKPT.FULL_LO (R448). -/
def execCkptFullLoRead (s : State) : Host.Outcome State Fault Refusal :=
  s.run fun x d => d.latchRead x Reg.ckptFullLo Reg.ckptFullHi d.ckpt.full

/-- A read of CVFn.TOFS_LO (R482, R508). -/
def execTofsLoRead (port : Nat) (s : State) : Host.Outcome State Fault Refusal :=
  s.run fun x d => d.latchRead x (Reg.cvfTofsLo port) (Reg.cvfTofsHi port) (ofSigned (getAt Port.reset port d.cvf.ports).ofs 64)

/-- A read of SEC.EPOCH_LO (R647). -/
def execSecEpochLoRead (s : State) : Host.Outcome State Fault Refusal :=
  s.run fun x d => d.latchRead x Reg.secEpochLo Reg.secEpochHi d.sec.epoch

/-- A read of SEC.TENANT_LO (R647). -/
def execTenantLoRead (s : State) : Host.Outcome State Fault Refusal :=
  s.run fun x d => d.latchRead x Reg.secTenantLo Reg.secTenantHi d.sec.tenant

/-- A read of SEC.ZERO_DONE_LO (R647). -/
def execZeroDoneLoRead (s : State) : Host.Outcome State Fault Refusal :=
  s.run fun x d => d.latchRead x Reg.secZeroDoneLo Reg.secZeroDoneHi d.sec.zeroDone

/-! ### Pace monitors (R51 to R59) -/

/-- Base offsets of the PACE registers (R54, R242 to R244, R351, R385, R416, R508, R588). -/
def paceBases : List Nat :=
  [Reg.qdAePace 0 0, Reg.qdMergePace 0, Reg.qdHsPace 0 0, Reg.qdScorePace 0, Reg.qdScanPace 0 0, Reg.qdEclPace 0, Reg.tailMaskPace 0,
   Reg.tailTopkPace 0, Reg.tailSampPace 0, Reg.textEngPace 0, Reg.recallQePace 0, Reg.cvfPace 0, Reg.beltCorePace 0]

/-- Whether a BAR0 offset is a block's PACE register. -/
def isPace (off : Nat) : Bool :=
  match regRowAt off with
  | some r => paceBases.contains r.base
  | none => false

/-- STATE of a block (R54): 0 running, 1 idle, 2 offline, 3 power-gated. -/
def Dev.blockState (d : Dev) (off : Nat) : Nat := d.fld off 28 2

/-- A window of 16,384 ns ends for a block (R51, R52): RATE is loaded when the window held busy time, STATE settles unless the
block is offline or gated, and BELOW tells whether RATE was below FLOOR in each of the last two windows with busy time (R54). -/
def Dev.paceWindow (x : Ctx) (d : Dev) (off ops busyNs : Nat) : Dev :=
  let st := d.blockState off
  if 2 ≤ st then d
  else if busyNs == 0 then d.setFld off 28 2 1
  else
    let rate := min (ops * 1000 / busyNs) 0xFFFFFF
    let below := rate < d.fld (off + 8) 0 24
    let prev := (tblGet off d.boot.belowTwice).getD false
    let was := bit (d.reg off) 30
    let d := ((((d.setFld off 0 24 rate).setFld off 31 1 1).setFld off 28 2 0).setFld off 30 1 (ofB (below && prev)))
    let d := if was || (below && prev) then d.sendRates x else d
    { d with boot := { d.boot with belowTwice := tblSet off below d.boot.belowTwice } }

/-- A pace window ends (R51). The operations and busy time are what the block did in the window. -/
def execPaceWindowEnd (block ops busyNs : Nat) (s : State) : Host.Outcome State Fault Refusal :=
  s.run fun x d => if isPace block && !(absentBlock x.fuses.part block) then d.paceWindow x block ops busyNs else d

end Sys2Proof.Machine
end

