-- ==== Sys2Proof/Machine/Fabric.lean ====
section
/-! DEFINITION. Machine/Fabric.lean: the ports of the Clalvaum fabric: bring-up, flits and retry, width, frames, forwarding, time across links,
windows, shaping and policing (chapter 10). -/

namespace Sys2Proof.Machine

/-! ### A port's state (R454, R508) -/

/-- STATE of a port. -/
def Dev.portState (d : Dev) (p : Nat) : Nat := d.fld (Reg.cvfStat p) 29 3

/-- Set STATE. -/
def Dev.setPortState (d : Dev) (p v : Nat) : Dev := d.setFld (Reg.cvfStat p) 29 3 v

/-- The good lanes of this end: neither held out of service nor retired (R454, R463). -/
def Dev.ownLanes (d : Dev) (p : Nat) : Nat := 0xFF - (d.fld (Reg.cvfCtl p) 8 8 ||| (d.port p).retired) % 256

/-- The number of bits set in a lane mask. -/
def lanesIn (m : Nat) : Nat := ((List.range 8).filter fun l => bit m l).length

/-- The width for a good-lane mask (R454). -/
def widthFor (max' mask : Nat) : Nat := ([8, 4, 2, 1].find? fun w => w ≤ max' && w ≤ lanesIn mask).getD 0

/-- The lowest-numbered `w` lanes of a mask. -/
def lowLanes (mask w : Nat) : Nat := sumOf ((((List.range 8).filter fun l => bit mask l).take w).map fun l => 2 ^ l)

/-- The width of a port. -/
def Dev.portWidth (d : Dev) (p : Nat) : Nat := d.fld (Reg.cvfStat p) 25 4

/-- Send a sequenced control flit (R457): it waits in the retry buffer. -/
def Dev.ctrlFlit (d : Dev) (p : Nat) (kind : String) (fields : List Nat) : Dev :=
  let seq := (d.port p).txSeq
  let at_ := if (d.port p).retry.isEmpty then d.now else (d.port p).lastAdvance
  (d.setPort p fun P => { P with txSeq := (seq + 1) % 65536, retry := P.retry ++ [(⟨seq, none⟩ : SentFlit)], lastAdvance := at_ }).send (.cvfFlit p kind (seq :: fields))

/-- One more sequenced control flit of the peer has been received. -/
def Dev.ctrlSeen (d : Dev) (p : Nat) : Dev := d.setPort p fun P => { P with rxExpect := (P.rxExpect + 1) % 65536 }

/-! ### Shapers (R489 to R505) -/

/-- The registers of a shaper: of port 0 to 7, or, as 8, of HP. -/
def regRate (p c : Nat) : Nat := if p == 8 then Reg.hpsTbRate c else Reg.cvfTbRate p c
@[inherit_doc regRate] def regBurst (p c : Nat) : Nat := if p == 8 then Reg.hpsTbBurst c else Reg.cvfTbBurst p c
@[inherit_doc regRate] def regQuanta (p c q : Nat) : Nat :=
  if p == 8 then (if q < 4 then Reg.hpsQuantaA c else Reg.hpsQuantaB c) else if q < 4 then Reg.cvfQuantaA p c else Reg.cvfQuantaB p c
@[inherit_doc regRate] def regShape (p : Nat) : Nat := if p == 8 then Reg.hpsShapeCtl else Reg.cvfShapeCtl p

/-- The shaper of a port, or of HP. -/
def Dev.shaper (d : Dev) (p : Nat) : Shaper := if p == 8 then d.cvf.hp else (d.port p).shaper

/-- Change a shaper. -/
def Dev.setShaper (d : Dev) (p : Nat) (f : Shaper → Shaper) : Dev :=
  if p == 8 then { d with cvf := { d.cvf with hp := f d.cvf.hp } } else d.setPort p fun P => { P with shaper := f P.shaper }

/-- What a SHAPE_SET sets (R501). -/
def Dev.applyShape (d : Dev) (e : Entry) : Dev :=
  let p := e.f 16 1
  let c := e.f 17 1
  let w := e.f 18 1
  let d := if bit w 0 then d.setFld (regRate p c) 0 24 (e.f 20 4) else d
  let d := if bit w 1 then d.setFld (regBurst p c) 0 24 (e.f 24 4) else d
  let d := if bit w 2 then (d.setReg (regQuanta p c 0) (e.f 28 4)).setReg (regQuanta p c 4) (e.f 32 4) else d
  if bit w 3 then d.setFld (regShape p) 8 6 (e.f 36 1) else d

/-- What a POLICE_SET sets (R501). -/
def Dev.applyPolice (d : Dev) (e : Entry) : Dev :=
  let p := e.f 16 1
  let k := e.f 17 1
  ((d.setReg (Reg.cvfPolSrc p k) (e.f 18 1 % 2 * 2 ^ 31 + e.f 19 1 % 8 * 2 ^ 16 + e.f 20 2)).setFld (Reg.cvfPolRate p k) 0 24 (e.f 24 4)).setFld
    (Reg.cvfPolBurst p k) 0 24 (e.f 28 4)

/-- Whether a setting that waits may apply now: one that lowers the rate of ATTN or TAIL waits for the bookings of that egress (R503). -/
def Dev.shapeReady (d : Dev) (s : PendingShape) : Bool :=
  let e : Entry := ⟨s.cmd.sq, s.bytes⟩
  let p := e.f 16 1
  let c := e.f 17 1
  s.police || !(bit (e.f 18 1) 0 && c ≤ 1 && e.f 20 4 < d.fld (regRate p c) 0 24) ||
    !(d.sess.bookings.any fun b => b.on (.egress p c) != 0)

/-- Add `k` refills to a bucket: the tokens, and the remainder in parts of 8,000 (R490). -/
def refillOf (rate w refillNs carry k : Nat) : Nat × Nat :=
  let n := k * (rate * w * refillNs) + carry
  (n / 8000, n % 8000)

/-- The time by which a port refills (R490): that of the quadrant timekeeper of its channel, or of the chip's while that is not aligned; for HP that of the
chip (DEDUCED, log 40). -/
def Dev.portTime (d : Dev) (p : Nat) : Nat := if p == 8 then d.now else d.quadTime (p / 2)

/-- The refill ticks that have passed at a port: the multiples of REFILL_NS. -/
def Dev.refillTick (d : Dev) (p : Nat) : Nat := d.portTime p / max 1 (d.fld (regShape p) 16 16)

/-- `k` refills of a port (R490, R499, R502, R503): settings that wait take effect, then every bucket refills. -/
def Dev.refill (x : Ctx) (d : Dev) (p k : Nat) : Dev :=
  let ready := (d.shaper p).pendingSets.filter fun s => d.shapeReady s
  let d := ready.foldl (fun (d : Dev) s => if s.police then d.applyPolice ⟨s.cmd.sq, s.bytes⟩ else d.applyShape ⟨s.cmd.sq, s.bytes⟩) d
  let d := d.setShaper p fun S => { S with pendingSets := S.pendingSets.filter fun s => !(ready.contains s) }
  let w := if p == 8 then 8 else d.portWidth p
  let ns := d.fld (regShape p) 16 16
  let one := fun (q : ClassQ) (c : Nat) =>
    let (n, r) := refillOf (d.fld (regRate p c) 0 24) w ns q.carry k
    { q with tokens := min (q.tokens + n) (256 * d.fld (regBurst p c) 0 24), carry := r }
  let d := d.setShaper p fun S => { S with classes := S.classes.zipIdx.map fun q => one q.1 q.2 }
  let pol := fun (b : PolBucket) (e : Nat) =>
    let (n, r) := refillOf (d.fld (Reg.cvfPolRate p e) 0 24) w ns b.carry k
    (⟨min (b.tokens + n) (256 * d.fld (Reg.cvfPolBurst p e) 0 24), r⟩ : PolBucket)
  let d := if p == 8 then d else d.setPort p fun P => { P with policers := P.policers.zipIdx.map fun b => pol b.1 b.2 }
  ready.foldl (fun (d : Dev) s => d.finish x s.cmd .DONE (u32 (d.now - d.portTime p % max 1 ns))) d

/-- The refills that are due at a port take place. -/
def Dev.refillDue (x : Ctx) (d : Dev) (p : Nat) : Dev :=
  let n := d.refillTick p
  let old := (d.shaper p).tick
  if old < n then (d.setShaper p fun S => { S with tick := n }).refill x p (n - old) else d

/-- WIDTH, LANES_GOOD and LANES_ACTIVE for the two good-lane masks; the refills that were due before come at the width before (R465). -/
def Dev.setWidth (x : Ctx) (d : Dev) (p : Nat) : Dev :=
  let d := d.refillDue x p
  let mask := d.ownLanes p &&& (d.port p).peerMask
  let w := widthFor (d.fld (Reg.cvfCtl p) 24 4) mask
  ((d.setFld (Reg.cvfStat p) 25 4 w).setFld (Reg.cvfStat p) 8 8 mask).setFld (Reg.cvfStat p) 0 8 (lowLanes mask w)

/-! ### Discarded messages (R469, R470) -/

/-- A DROP notice, but for a MGMT message (R470). -/
def Dev.dropNotice (d : Dev) (src cls id reason : Nat) : Dev :=
  if cls == 5 then d else d.sendNote src 0x31 5 "DROP" 16 [cls, id, reason] 1

/-- Whether a message in reassembly is that of a frame (R469). -/
def Reasm.has (r : Reasm) (f : FrameIn) : Bool := r.src == f.src && r.cls == f.cls && r.id == f.msgId

/-- A frame of a discarded message goes too; the message is forgotten with its last one (R469). -/
def Dev.swallow (d : Dev) (p : Nat) (f : FrameIn) : Dev :=
  let more := fun (r : Reasm) => if r.has f then { r with ranges := r.ranges ++ [(f.offset, f.offset + f.frameBytes)] } else r
  let whole := fun (r : Reasm) => r.has f && r.discarded && r.total ≤ sumOf (r.ranges.map fun g => g.2 - g.1)
  d.setPort p fun P => { P with reasm := (P.reasm.map more).filter fun r => !(whole r) }

/-- A message is discarded with a frame: its frames still to come go too (R469, R470). -/
def Dev.discard (d : Dev) (p : Nat) (f : FrameIn) (reason : Nat) : Dev :=
  if (d.port p).reasm.any fun r => r.has f && r.discarded then d.swallow p f
  else
    let seen := match (d.port p).reasm.find? fun r => r.has f with | some r => r.ranges | none => []
    let gone : Reasm := ⟨f.src, f.cls, f.msgId, f.kind, f.msgBytes, seen, [], true⟩
    let d := (d.setPort p fun P => { P with reasm := P.reasm.filter (fun r => !(r.has f)) ++ [gone] }).swallow p f
    (d.bump (Reg.cvfRxDiscard p) 1).dropNotice f.src f.cls f.msgId reason

/-! ### Going down (R455, R464, R506, R507) -/

/-- Whether a message's frames have not all been acknowledged: some wait in a queue or in the retry buffer. -/
def Port.holds (P : Port) (own id : Nat) : Bool :=
  (P.retry.any fun f => f.msg == some id) || P.shaper.classes.any fun q =>
    (q.lane.any fun f => f.msg.id == id && f.src == own) || q.queues.any fun l => l.any fun f => f.msg.id == id && f.src == own

/-- A message is done for its port: with every frame acknowledged, but for window accesses, which wait for their answer (R486). -/
def Dev.settleSent (d : Dev) (p : Nat) : Dev :=
  let gone := fun (s : Nat × Msg) => s.1 == p && s.2.kind != 0x11 && s.2.kind != 0x13 && !((d.port p).holds d.fabricAddr s.2.id)
  { d with cvf := { d.cvf with sent := d.cvf.sent.filter fun s => !(gone s) } }

/-- Whether each lender can be reached now (R278, R298). -/
def Dev.settleReach (d : Dev) : Dev :=
  { d with tier := { d.tier with borrowed := d.tier.borrowed.map fun l => { l with reachable := (d.route l.peer).isSome } } }

/-- What a port keeps when it goes down: its buckets, counts of bring-ups and retired lanes. -/
def Port.down (P : Port) (retryAt : Ns) : Port :=
  let wipe := fun (q : ClassQ) => { q with lane := [], queues := List.replicate 8 [], deficits := List.replicate 8 0, inVisit := false }
  { P with fecLock := false, initDone := false, credits := List.replicate 6 0, held := List.replicate 6 0, owed := List.replicate 6 0, rxHold := false,
           retry := [], replaySeq := 0, replays := 0, keys := none, tagFails := [], timeT1 := none, change := none, retryAt := some retryAt,
           shaper := { P.shaper with classes := P.shaper.classes.map wipe }, reasm := [] }

/-- A port goes down with a CAUSE (R506); one that was up counts it, reports it and fails what depended on it. -/
def Dev.portDown (x : Ctx) (d : Dev) (p cause : Nat) : Dev :=
  let d := d.refillDue x p
  let wasUp := 3 ≤ d.portState p
  let lost := d.cvf.sent.filter fun s => s.1 == p && (d.port p).holds d.fabricAddr s.2.id
  let half := (d.port p).reasm.filter fun r => !r.discarded
  let d := ((((d.setPortState p 0).setFld (Reg.cvfStat p) 21 4 cause).setFld (Reg.cvfStat p) 25 4 0).setFld (Reg.cvfStat p) 8 8 0).setFld (Reg.cvfStat p) 0 8 0
  let d := d.setPort p fun P => P.down (d.now + 100000000)
  if !wasUp then d
  else
    let d := (((d.bump (Reg.cvfLinkDown p) 1).report (portSource p) 0x41 2 cause).event x 8 p cause 0).settleReach
    let d := half.foldl (fun (d : Dev) r => (d.bump (Reg.cvfRxDiscard p) 1).dropNotice r.src r.cls r.id 0x3) d
    let rings := d.attn.rings.filter fun r => r.state == .up && (r.nextPort == p || r.prevPort == p)
    let d := rings.foldl (fun (d : Dev) r =>
      d.memberLost x r (if r.nextPort == p then (r.pos + 1) % max 1 r.m else (r.pos + r.m - 1) % max 1 r.m)) d
    let d := lost.foldl (fun (d : Dev) s => (d.dropSent s.2.id).msgFails x p s.2 false) d
    (d.sendRates x).settleTransfers x

/-! ### Bring-up (R451 to R455, R471, R482, R630) -/

/-- Whether a port may run: EN is set, its group is on and a block reset has not taken it offline (R619). -/
def Dev.portOn (d : Dev) (p : Nat) : Bool := p < 8 && d.fld (Reg.cvfPace p) 28 2 != 2 && bit (d.reg (Reg.cvfCtl p)) 31 && d.domainUp (.cvfGroup (p / 4))

/-- Receive buffers in flits (R458). -/
def rxBuffers : List Nat := [1024, 512, 512, 256, 256, 64]

/-- FEC lock on every lane that is not disabled: INIT goes out (R453). `lanes` are the lanes in lock. -/
def execPortTrained (port lanes nonce : Nat) (s : State) : Host.Outcome State Fault Refusal :=
  s.run fun _ d =>
    if !(d.portOn port) || d.portState port != 1 || (lanes &&& d.ownLanes port) != d.ownLanes port then d
    else
      let d := d.setPort port fun P => { P with fecLock := true, keys := some (nonce, 0), txSeq := 0, rxExpect := 0, retry := [] }
      (d.setPortState port 2).ctrlFlit port "INIT" ([d.fabricAddr, 1, d.ownLanes port] ++ rxBuffers ++
        [d.fld (Reg.cvfCtl port) 28 2, d.fld (Reg.cvfCtl port) 20 4, nonce])

/-- Training of a port fails (R455). -/
def execPortTrainingFailed (port : Nat) (s : State) : Host.Outcome State Fault Refusal :=
  s.run fun x d => if port < 8 && (d.portState port == 1 || d.portState port == 2) then d.portDown x port 2 else d

/-- Whether the device refuses an INIT (R453, R477). DEDUCED (log 41): a device that serves starts (R600) takes the address 0x0000 of one that
starts. -/
def Dev.initRefused (d : Dev) (p : Nat) (i : InitFlit) : Bool :=
  i.enc != d.fld (Reg.cvfCtl p) 28 2 || (i.addr / 32 % 2048 == 0 && !(i.addr == 0 && d.boot.bootServe)) || i.addr / 32 % 2048 == 0x7FF || i.credits.length < 6 || i.credits.any fun c => c < 18

/-- One traffic key (R630): "CVF-TK", the nonces and a number. -/
def Dev.trafficKey (x : Ctx) (nA nB k : Nat) : Nat :=
  Config.hmacSm3 (Config.linkKey x.fuses.linkDomain) 71 (packFields [(0, 6, 0x4B542D465643), (6, 32, nA), (38, 32, nB), (70, 1, k)]) % 2 ^ 128

/-- The keys of a port: for sending and for receiving. -/
def Dev.portKeys (x : Ctx) (d : Dev) (own : Nat) (i : InitFlit) : Nat × Nat :=
  let first := decide (d.fabricAddr < i.addr) || (d.fabricAddr == i.addr && decide (own < i.nonce))
  let (a, b) := if first then (own, i.nonce) else (i.nonce, own)
  if first then (Dev.trafficKey x a b 1, Dev.trafficKey x a b 2) else (Dev.trafficKey x a b 2, Dev.trafficKey x a b 1)

/-- Start a TIME exchange: t1 is taken (R482). -/
def Dev.timeStart (d : Dev) (p : Nat) : Dev := (d.setPort p fun P => { P with timeT1 := some d.now, timeAt := d.now }).send (.cvfFlit p "TIME" [d.now])

/-- An INIT flit is received (R453, R454). -/
def execInit (port : Nat) (init : InitFlit) (s : State) : Host.Outcome State Fault Refusal :=
  s.run fun x d =>
    if !(d.portOn port) || d.portState port != 2 || (d.port port).initDone then d
    else if d.initRefused port init then d.portDown x port 3
    else
      let own := match (d.port port).keys with | some k => k.1 | none => 0
      let keys := if init.enc == 1 then some (d.portKeys x own init) else none
      let d := d.setPort port fun P => { P with initDone := true, peerEnc := init.enc, peerMask := init.mask % 256, credits := init.credits.take 6, keys := keys,
                                                bringUps := P.bringUps + 1, txCount := 0, rxCount := 0, rxExpect := 1 }
      let d := (d.setReg (Reg.cvfPeer port) (init.kind % 256 * 2 ^ 24 + init.addr % 65536)).setWidth x port
      if d.portWidth port == 0 then d.portDown x port 6 else d.timeStart port

/-- A port that is down tries again (R455). -/
def execPortRetry (port : Nat) (s : State) : Host.Outcome State Fault Refusal :=
  s.run fun _ d => if d.portOn port && d.portState port == 0 && decide (((d.port port).retryAt.getD 0) ≤ d.now) && (d.stage == 7 || d.operational || (d.fld Reg.chipStraps 0 2 == 2 && !d.eclipse)) then d.setPortState port 1 else d

/-- Software writes RETRAIN (R464, R506, R508). -/
def execCvfRetrain (port : Nat) (s : State) : Host.Outcome State Fault Refusal :=
  s.run fun x d => if 8 ≤ port then d else d.w1sWrite x (Reg.cvfCtl port) 30 fun d =>
    if !(d.portOn port) then d
    else
      let d := d.portDown x port 9
      (d.setPort port fun P => { P with retired := 0 }).setPortState port 1

/-! ### Time across a link (R482, R483) -/

/-- Every 1 ms a port that is up starts an exchange. -/
def execTimeExchange (port : Nat) (s : State) : Host.Outcome State Fault Refusal :=
  s.run fun _ d => if d.portUp port && decide ((d.port port).timeAt + 1000000 ≤ d.now) then d.timeStart port else d

/-- A TIME flit: a request is answered with its t2 and t3; an answer gives the offset, and the first one after INIT brings the port up. -/
def execTimeFlit (port : Nat) (answer : Option (Nat × Nat)) (s : State) : Host.Outcome State Fault Refusal :=
  s.run fun _ d =>
    if !(d.portOn port) || !(d.port port).initDone then d
    else match answer with
      | none => d.send (.cvfFlit port "TIME_ANSWER" [d.now, d.now])
      | some (t2, t3) => match (d.port port).timeT1 with
        | none => d
        | some t1 =>
          let peer : Int := (((t2 : Int) - t1) + ((t3 : Int) - d.now)) / 2
          let dly : Int := (((d.now : Int) - t1) - ((t3 : Int) - t2)) / 2
          let d := d.setPort port fun P => { P with ofs := -peer, prevOfs := P.ofs, prevAt := P.exchangeAt, exchangeAt := d.now, linkDly := dly.toNat, timeT1 := none }
          let d := d.setFld (Reg.cvfTsync port) 0 16 (min dly.toNat 0xFFFF)
          if d.portState port == 2 then ((d.setPortState port 3).setFld (Reg.cvfCtl port) 30 1 0).settleReach else d

/-- The offset over a port's peer now, extrapolated by the rate of the last two exchanges. -/
def Dev.ofsNow (d : Dev) (p : Nat) : Int :=
  let P := d.port p
  if P.prevAt == 0 || P.exchangeAt ≤ P.prevAt then P.ofs
  else P.ofs + (P.ofs - P.prevOfs) * (((d.now - P.exchangeAt : Nat) : Int)) / ((P.exchangeAt - P.prevAt : Nat) : Int)

/-- A time field as the receiver converts it (R483). -/
def Dev.convertTime (d : Dev) (p : Nat) (stamp : Bool) (v : Nat) : Nat :=
  if v == 0 || v == 2 ^ 64 - 1 then v
  else
    let g : Int := d.fld Reg.fabFabCtl 0 8
    ofSigned ((v : Int) + d.ofsNow p + (if stamp then g else -g)) 64

/-! ### Acknowledgements, credits and replay (R456 to R462) -/

/-- ACK of a flit header: flits up to it leave the retry buffer. -/
def Dev.ackUpTo (d : Dev) (p ack : Nat) : Dev :=
  match (d.port p).retry.findIdx? fun f => f.seq == ack with
  | none => d
  | some k => (d.setPort p fun P => { P with retry := P.retry.drop (k + 1), lastAdvance := d.now, replays := 0 }).settleSent p

/-- An IDLE flit delivers ACK and credits. -/
def execIdleFlit (port ack credCls credN : Nat) (s : State) : Host.Outcome State Fault Refusal :=
  s.run fun _ d =>
    if !(d.portUp port) then d
    else
      let d := d.ackUpTo port ack
      if 6 ≤ credCls then d
      else d.setPort port fun P => { P with credits := setAt 0 (getAt 0 credCls P.credits + credN) credCls P.credits }

/-- A replay starts at a SEQ (R461). -/
def Dev.replayFrom (x : Ctx) (d : Dev) (p seq : Nat) : Dev :=
  let n := if (d.port p).replaySeq == seq && (d.port p).replays != 0 then (d.port p).replays + 1 else 1
  let d := ((d.setPort p fun P => { P with replaySeq := seq, replays := n, lastAdvance := d.now }).bump (Reg.cvfRetryCnt p) 1).send (.cvfFlit p "REPLAY" [seq])
  if d.fld (Reg.cvfRetryCtl p) 0 8 ≤ n then d.portDown x p 4 else d

/-- NAK (R461): the sequenced flits before the named one have been received. -/
def execNak (port seq : Nat) (s : State) : Host.Outcome State Fault Refusal :=
  s.run fun x d =>
    if d.portUp port && (d.port port).retry.any fun f => f.seq == seq then
      let k := (d.port port).retry.findIdx fun f => f.seq == seq
      ((d.setPort port fun P => { P with retry := P.retry.drop k }).settleSent port).replayFrom x port seq
    else d

/-- 2 microseconds pass with unacknowledged flits and no advance of ACK (R461). -/
def execReplayTimeout (port : Nat) (s : State) : Host.Outcome State Fault Refusal :=
  s.run fun x d => match (d.port port).retry with
    | f :: _ => if d.portUp port && (d.port port).lastAdvance + 2000 ≤ d.now then d.replayFrom x port f.seq else d
    | [] => d

/-! ### Reduced width (R463 to R465) -/

/-- The new width takes effect; without a good lane the port goes down. -/
def Dev.newWidth (x : Ctx) (d : Dev) (p : Nat) : Dev :=
  let d := (d.setWidth x p).setPort p fun P => { P with change := none }
  if d.portWidth p == 0 then d.portDown x p 6 else (d.setPortState p 3).sendRates x

/-- DEGRADE is answered, and the width changes (R463). -/
def execDegrade (port mask : Nat) (s : State) : Host.Outcome State Fault Refusal :=
  s.run fun x d =>
    if !(d.portUp port) then d
    else
      let d := (d.ctrlSeen port).setPort port fun P => { P with peerMask := mask % 256 }
      (d.ctrlFlit port "DEGRADE_ACK" [d.ownLanes port, (d.port port).txSeq]).newWidth x port

/-- DEGRADE_ACK sets the new width (R463). -/
def execDegradeAck (port mask _seq : Nat) (s : State) : Host.Outcome State Fault Refusal :=
  s.run fun x d =>
    if !(d.portUp port) || (d.port port).change.isNone then d
    else ((d.ctrlSeen port).setPort port fun P => { P with peerMask := mask % 256 }).newWidth x port

/-- A width change is not complete within 50 microseconds (R464). -/
def execWidthChangeTimeout (port : Nat) (s : State) : Host.Outcome State Fault Refusal :=
  s.run fun x d => if d.portUp port && (match (d.port port).change with | some c => decide (c.since + 50000 ≤ d.now) | none => false) then d.portDown x port 6 else d

/-- The peer's DOWN flit (R506). -/
def execDown (port : Nat) (s : State) : Host.Outcome State Fault Refusal :=
  s.run fun x d => if port < 8 && d.portState port != 0 then d.portDown x port 7 else d

/-- Lock is lost on every active lane (R506). -/
def execLaneLockLost (port : Nat) (s : State) : Host.Outcome State Fault Refusal :=
  s.run fun x d => if d.portUp port then d.portDown x port 8 else d

/-! ### Receiving frames (R459, R460, R466 to R474, R478 to R484, R498 to R500) -/

/-- Whether a KIND is permitted in a class (R468). -/
def kindInClass (kind cls : Nat) : Bool :=
  match cls with
  | 0 => kind == 1 || kind == 2 || kind == 5 || kind == 6
  | 1 => kind == 3 || kind == 4 || kind == 5 || kind == 7
  | 2 => kind == 0x10 || (0x11 ≤ kind && kind ≤ 0x15)
  | 3 => 0x11 ≤ kind && kind ≤ 0x15
  | 4 => kind == 0x20 || kind == 0x21
  | 5 => kind == 0x30 || kind == 0x31 || kind == 0x32 || kind == 0x3F
  | _ => false

/-- The first policer entry that a frame matches (R498). -/
def Dev.policerFor (d : Dev) (p : Nat) (f : FrameIn) : Option Nat :=
  (List.range 16).find? fun e =>
    let r := d.reg (Reg.cvfPolSrc p e)
    bit r 31 && bits r 16 3 == f.cls && (bits r 0 16 == 0xFFFF || bits r 0 16 == f.src)

/-- Policing (R498 to R500): none where the frame is dropped. -/
def Dev.police (d : Dev) (p : Nat) (f : FrameIn) : Option Dev :=
  match d.policerFor p f with
  | none => some d
  | some e =>
    let b := getAt ⟨0, 0⟩ e (d.port p).policers
    let len := f.frameBytes + d.fld (Reg.cvfShapeCtl p) 8 6
    if len ≤ b.tokens then some (d.setPort p fun P => { P with policers := setAt ⟨0, 0⟩ { b with tokens := b.tokens - len } e P.policers }) else none

/-- The payload of a frame with its time fields converted (R483); `bad` where a field straddles two frames or lies beyond the message (R484). -/
def Dev.framePayload (d : Dev) (p : Nat) (f : FrameIn) : Nat × Bool :=
  let one := fun (a : Nat × Bool) (t : Nat × Bool) =>
    if t.1 == 0xFFFF then a
    else if f.msgBytes < t.1 + 8 then (a.1, true)
    else if f.offset ≤ t.1 && t.1 + 8 ≤ f.offset + f.frameBytes then
      (setBits a.1 (8 * (t.1 - f.offset)) 64 (d.convertTime p t.2 (bits a.1 (8 * (t.1 - f.offset)) 64)), a.2)
    else if t.1 + 8 ≤ f.offset || f.offset + f.frameBytes ≤ t.1 then a else (a.1, true)
  [(f.t0, bit f.tKind 0), (f.t1, bit f.tKind 1)].foldl one (f.payload, false)

/-- A frame joins its message; with its last byte the message arrives (R469). -/
def Dev.reassemble (x : Ctx) (d : Dev) (p : Nat) (f : FrameIn) : Dev :=
  let fail := fun (reason : Nat) => d.discard p f reason
  match (d.port p).reasm.find? fun r => r.has f with
  | some r =>
    if r.total != f.msgBytes || r.kind != f.kind || f.msgBytes < f.offset + f.frameBytes ||
      r.ranges.any fun g => g.1 < f.offset + f.frameBytes && f.offset < g.2 then fail 3
    else
      let (v, bad) := d.framePayload p f
      let d := if bad then d.contained x else d
      let r := { r with ranges := r.ranges ++ [(f.offset, f.offset + f.frameBytes)], data := r.data ++ [(f.offset, v)] }
      let rest := (d.port p).reasm.filter fun q => !(q.has f)
      if sumOf (r.ranges.map fun g => g.2 - g.1) == r.total then
        let a : Arrived := ⟨p, r.src, r.cls, r.kind, r.data, r.total⟩
        let d := d.setPort p fun P => { P with reasm := rest }
        { d with cvf := { d.cvf with arrived := d.cvf.arrived ++ [a] } }
      else d.setPort p fun P => { P with reasm := rest ++ [r] }
  | none =>
    if !(kindInClass f.kind f.cls) then fail 4
    else if 256 ≤ ((d.port p).reasm.filter fun r => r.cls == f.cls && !r.discarded).length then fail 2
    else if f.msgBytes < f.offset + f.frameBytes then fail 3
    else
      let (v, bad) := d.framePayload p f
      let d := if bad then d.contained x else d
      if f.frameBytes == f.msgBytes then
        { d with cvf := { d.cvf with arrived := d.cvf.arrived ++ [(⟨p, f.src, f.cls, f.kind, [(f.offset, v)], f.msgBytes⟩ : Arrived)] } }
      else
        let r : Reasm := ⟨f.src, f.cls, f.msgId, f.kind, f.msgBytes, [(f.offset, f.offset + f.frameBytes)], [(f.offset, v)], false⟩
        d.setPort p fun P => { P with reasm := P.reasm ++ [r] }

/-- A frame for another device is forwarded, or its message discarded (R478, R480, R481). -/
def Dev.forward (d : Dev) (p : Nat) (f : FrameIn) : Dev :=
  if f.cls ≤ 1 then d.discard p f 5
  else if f.hops ≤ 1 then (d.bump Reg.fabHopsOut 1).discard p f 6
  else match d.route f.dst with
    | none => (d.bump Reg.fabNoRoute 1).discard p f 5
    | some q =>
      let m : Msg := ⟨f.msgId, f.dst, f.kind, f.cls, "FORWARD", f.msgBytes, [f.flags, f.t0, f.t1, f.tKind, f.payload], none, 7, .none⟩
      (d.pushFrame q ⟨m, f.src, f.hops - 1, f.offset, f.frameBytes, bit f.flags 0, d.now⟩ 7).bump Reg.fabFwdFrames 1

/-- A frame whose tag fails (R473): four within 1 s take the port down. -/
def Dev.tagFailed (x : Ctx) (d : Dev) (p : Nat) (f : FrameIn) : Dev :=
  let fails := ((d.port p).tagFails.filter fun t => d.now < t + 1000000000) ++ [d.now]
  let d := ((d.setPort p fun P => { P with tagFails := fails }).bump (Reg.cvfAuthFail p) 1).report (portSource p) 0x42 1 f.src
  let d := d.discard p f 7
  if 4 ≤ fails.length then d.portDown x p 5 else d

/-- An accepted frame's payload is counted. -/
def Dev.countRx (d : Dev) (p : Nat) (f : FrameIn) : Dev :=
  let q := getAt ClassQ.reset f.cls (d.port p).shaper.classes
  let d := d.setPort p fun P =>
    { P with rxCount := u64 (P.rxCount + 1),
             shaper := { P.shaper with classes := setAt .reset { q with rxRem := (q.rxRem + f.frameBytes) % 1024 } f.cls P.shaper.classes } }
  d.bump (Reg.cvfRxKib p f.cls) ((q.rxRem + f.frameBytes) / 1024)

/-- The window of a lane's codeword count: aligned to LANE_WIN_MS (R24, R463). -/
def Dev.laneWindow (d : Dev) (p : Nat) : Nat := d.now / max 1 (d.fld (Reg.cvfRetryCtl p) 8 8 * 1000000)

/-- The uncorrectable codewords of a lane in the present window. -/
def Dev.laneUnc (d : Dev) (p lane : Nat) : Nat :=
  match (d.port p).unc.find? fun u => u.1 == lane && u.2.1 == d.laneWindow p with | some u => u.2.2 | none => 0

/-- A lane is retired (R463, R464): it has lost lock, or its uncorrectable codewords have reached LANE_UNC within a window. -/
def execLaneRetire (port : Nat) (lane : LaneFault) (s : State) : Host.Outcome State Fault Refusal :=
  s.run fun x d =>
    let (lane, lockLost) := (lane.lane, lane.lockLost)
    if !(d.portUp port) || 8 ≤ lane || !(bit (d.ownLanes port) lane) ||
      !(lockLost || d.fld (Reg.cvfRetryCtl port) 16 8 ≤ d.laneUnc port lane) then d
    else
      let d := d.setPort port fun P => { P with retired := P.retired + 2 ^ lane }
      let d := (d.bump (Reg.cvfLaneDrop port) 1).report (portSource port) 0x40 2 lane
      if d.ownLanes port == 0 then d.portDown x port 6
      else
        let d := (d.setPortState port 4).ctrlFlit port "DEGRADE" [d.ownLanes port]
        d.setPort port fun P => { P with change := some ⟨d.now, d.ownLanes port⟩ }

/-- The codewords that brought a frame on one lane: what the FEC corrected and what it could not (R460, R463, R508, R684). -/
def Dev.codewords (d : Dev) (p : Nat) (w : Nat × Nat × Nat) : Dev :=
  let (lane, corr, unc) := w
  let d := (d.bump (Reg.cvfFecCorr p) corr).bump (Reg.cvfFecUnc p) unc
  if unc == 0 then d
  else
    let n := d.laneUnc p lane + unc
    let d := d.setPort p fun P => { P with unc := P.unc.filter (fun u => u.1 != lane) ++ [(lane, d.laneWindow p, n)] }
    (List.range unc).foldl (fun (d : Dev) _ => d.report (sourceOf (0x1600000 + p * 0x20000) 0 (lane + 1)) 0x43 1 lane) d

/-- FRAME_RECEIVE: the link layer takes the frame in order or asks for it again (R460); then its tag, its policer, its destination. Its
credits go back at once (R459). DEDUCED (log 39): tag before policer. -/
def execFrameReceive (port : Nat) (frame : FrameIn) (s : State) : Host.Outcome State Fault Refusal :=
  s.run fun x d =>
    if !(d.portUp port) || 6 ≤ frame.cls then d
    else
    let d := (frame.fec.filter fun w => w.1 < 8).foldl (fun (d : Dev) w => d.codewords port w) d
    let d := d.refillDue x port
    if !frame.flitsOk || frame.seq != (d.port port).rxExpect then
      let d := if frame.flitsOk then d else d.bump (Reg.cvfCrcErr port) 1
      if (d.port port).rxHold then d
      else (d.setPort port fun P => { P with rxHold := true }).send (.cvfFlit port "NAK" [(d.port port).rxExpect])
    else
      let d := d.setPort port fun P => { P with rxExpect := (P.rxExpect + frame.flits) % 65536, rxHold := false }
      let d := (d.send (.cvfFlit port "CREDIT" [frame.cls, frame.flits, (d.port port).rxExpect])).countRx port frame
      if !frame.tagOk then d.tagFailed x port frame
      else match d.police port frame with
        | none =>
          let d := match d.policerFor port frame with | some e => d.bump (Reg.cvfPolDrop port e) 1 | none => d
          d.discard port frame 1
        | some d =>
          if (d.port port).reasm.any fun r => r.has frame && r.discarded then d.swallow port frame
          else if frame.dst == d.fabricAddr then d.reassemble x port frame else d.forward port frame

/-! ### Window accesses at the lender (R485 to R487) -/

/-- The places of a range of a borrower's window, by slot: none where a unit is not lent. `fuel` bounds the slots. -/
def Dev.windowParts (d : Dev) (src : Nat) : Nat → Nat → Nat → Option (List (Nat × Nat))
  | 0, _, _ => none
  | _, _, 0 => some []
  | f + 1, off, len =>
    let ub := max 1 d.unitBytes
    let sb := max 1 d.slotBytes
    match (d.tier.lent.filter fun l => l.peer == src).findSome? fun l => tblGet (off / ub) l.slots with
    | none => none
    | some slots => match slots[off % ub / sb]? with
      | none => none
      | some a =>
        let n := min len (sb - off % sb)
        (d.windowParts src f (off + n) (len - n)).map fun t => (a + off % sb, n) :: t

/-- The loan number of the unit that a place of a borrower's window lies in (R496). -/
def Dev.loanAt (d : Dev) (src off : Nat) : Nat :=
  match d.tier.lent.find? fun l => l.peer == src && (tblGet (off / max 1 d.unitBytes) l.slots).isSome with | some l => l.number | none => 0

/-- MEM_WR reaches the lender. The answer is in the class of the request. -/
def execMemWr (port : Nat) (src : MemSender) (off len val : Nat) (s : State) : Host.Outcome State Fault Refusal :=
  s.run fun x d =>
    let (src, cls) := (src.src, src.cls)
    if !(d.portUp port) || 0x100000 < len || (cls != 2 && cls != 3) then d
    else
    let d := d.contact src
    match d.windowParts src (len / max 1 d.slotBytes + 2) off len with
      | none => d.sendNote src 0x15 cls "MEM_ERR" 16 [off, len] (d.loanAt src off)
      | some ps =>
        let d := (ps.foldl (fun (a : Dev × Nat) r => (a.1.st x r.1 r.2 (a.2 % 2 ^ (8 * r.2)), a.2 / 2 ^ (8 * r.2))) (d, val)).1
        d.sendNote src 0x12 cls "MEM_WR_ACK" 16 [off, len] (d.loanAt src off)

/-- MEM_RD reaches the lender. The answer is in the class of the request; bytes with an uncorrectable word are answered MEM_ERR (DEDUCED, log 39). -/
def execMemRd (port : Nat) (src : MemSender) (off len : Nat) (s : State) : Host.Outcome State Fault Refusal :=
  s.run fun x d =>
    let (src, cls) := (src.src, src.cls)
    if !(d.portUp port) || 0x100000 < len || (cls != 2 && cls != 3) then d
    else
    let d := d.contact src
    match d.windowParts src (len / max 1 d.slotBytes + 2) off len with
      | none => d.sendNote src 0x15 cls "MEM_ERR" 16 [off, len] (d.loanAt src off)
      | some ps =>
        if ps.any fun r => d.mediaBad r.1 r.2 then
          (ps.foldl (fun (d : Dev) r => d.eccRead r.1 r.2 true) d).sendNote src 0x15 cls "MEM_ERR" 16 [off, len] (d.loanAt src off)
        else
          let d := ps.foldl (fun (d : Dev) r => d.eccRead r.1 r.2 true) d
          d.sendNote src 0x14 cls "MEM_RD_DATA" (16 + len) ([off, len] ++ ps.flatMap fun r => d.ldBytes x r.1 r.2) (d.loanAt src off)

/-! ### Frames that leave (R489 to R504) -/

/-- QUANTUM of a queue in bytes. -/
def Dev.quantum (d : Dev) (p c q : Nat) : Nat := 256 * d.fld (regQuanta p c q) (8 * (q % 4)) 8

/-- The charged length of a frame (R489). -/
def Dev.charged (d : Dev) (p : Nat) (f : EgFrame) : Nat := f.size + d.fld (regShape p) 8 6

/-- Flits of a frame (R466). -/
def EgFrame.flits (f : EgFrame) : Nat := cdiv (48 + f.size) 240

/-- Take the next frame of a class by deficit round robin (R497); `fuel` bounds the visits. -/
def Dev.drr (d : Dev) (p c : Nat) : Nat → ClassQ → Option (EgFrame × ClassQ)
  | 0, _ => none
  | k + 1, q =>
    let next := { q with visit := (q.visit + 1) % 8, inVisit := false }
    match getAt [] q.visit q.queues with
    | [] => d.drr p c k { next with deficits := setAt 0 0 q.visit q.deficits }
    | f :: rest =>
      let def_ := getAt 0 q.visit q.deficits + (if q.inVisit then 0 else d.quantum p c q.visit)
      if d.charged p f ≤ def_ then
        let q' := { q with queues := setAt [] rest q.visit q.queues, inVisit := !rest.isEmpty,
                           deficits := setAt 0 (if rest.isEmpty then 0 else def_ - d.charged p f) q.visit q.deficits }
        some (f, if rest.isEmpty then { q' with visit := (q.visit + 1) % 8 } else q')
      else d.drr p c k { next with deficits := setAt 0 def_ q.visit q.deficits }

/-- The next frame of a class: the deadline lane, then the queues (R495, R497). -/
def Dev.nextFrame (d : Dev) (p c : Nat) (q : ClassQ) : Option (EgFrame × ClassQ) :=
  match q.lane with
  | f :: rest => some (f, { q with lane := rest })
  | [] => if q.queues.all (·.isEmpty) then none else d.drr p c 200 q

/-- The frame that a port starts next, by rank (R491, R493): MGMT, ATTN, TAIL, then the three others in turn. A frame needs tokens, credits and
room in the retry buffer. -/
def Dev.pickFrame (d : Dev) (p : Nat) : Option (Nat × EgFrame × ClassQ) :=
  let turn := d.cvf.ports[p]?.elim 2 fun P => P.shaper.turn
  ([5, 0, 1] ++ [2, 3, 4].map fun k => 2 + (turn - 2 + k - 1) % 3).findSome? fun c =>
    let q := getAt ClassQ.reset c (d.shaper p).classes
    if q.tokens ≤ 0 then none
    else match d.nextFrame p c q with
      | some (f, q') => if f.flits ≤ getAt 0 c (d.port p).credits && (d.port p).retry.length + f.flits ≤ 2048 then some (c, f, q') else none
      | none => none

/-- T0_OFF, T1_OFF and T_KIND of a message this device sends (R483): STAMP of responses, DECIDED and BOOKED_FINISH of admission records, and the deadline
of a ring leg; a forwarded frame keeps its own. DESIGN CHOICE (log 39): both times of an admission record are stamps, and a leg's deadline lies at 16. -/
def Msg.times (m : Msg) : List Nat :=
  if m.name == "FORWARD" then []
  else if m.kind == 2 || m.kind == 4 then [16, 0xFFFF, 1]
  else if m.kind == 5 then [8, 16, 3]
  else if m.name == "LEG" then [16, 0xFFFF, 0]
  else [0xFFFF, 0xFFFF, 0]

/-- A frame starts at a port (R456, R467, R474, R489, R491): its charged length leaves the bucket, its flits are numbered and kept. -/
def Dev.startFrame (x : Ctx) (d : Dev) (p c : Nat) (f : EgFrame) (q : ClassQ) : Dev :=
  let len := d.charged p f
  let q' := { q with tokens := q.tokens - len, txRem := (q.txRem + len) % 1024 }
  let seq := (d.port p).txSeq
  let own := if f.src == d.fabricAddr then some f.msg.id else none
  let flits := (List.range f.flits).map fun k => (⟨(seq + k) % 65536, own⟩ : SentFlit)
  let at_ := if (d.port p).retry.isEmpty then d.now else (d.port p).lastAdvance
  let d := d.setPort p fun P =>
    { P with txSeq := (seq + f.flits) % 65536, retry := P.retry ++ flits, lastAdvance := at_, txCount := P.txCount + 1,
             credits := setAt 0 (getAt 0 c P.credits - f.flits) c P.credits,
             shaper := { P.shaper with classes := setAt .reset q' c P.shaper.classes, turn := if c == 2 || c == 3 || c == 4 then c else P.shaper.turn } }
  let d := (d.bump (Reg.cvfTxKib p c) ((q.txRem + len) / 1024)).bump (Reg.cvfTxFrames p c) 1
  let d := d.send (.cvfFrame p c ([f.msg.dst, f.src, f.msg.kind, ofB f.last + 2 * ofB f.msg.deadline.isSome, f.hops, f.msg.id, f.msg.bytes, f.offset, f.size] ++ f.msg.times ++ f.msg.fields))
  if 2 ^ 64 ≤ (d.port p).txCount then d.portDown x p 0xA else d

/-- Whether a port's group is on; HP is always. -/
def Dev.shaperOn (d : Dev) (p : Nat) : Bool := p == 8 || d.domainUp (.cvfGroup (p / 4))

/-- SHAPER_REFILL; port 8 stands for HP (R505). The buckets of a port that is down gain nothing, as its width is 0, but its settings take effect. -/
def execShaperRefill (port : Nat) (s : State) : Host.Outcome State Fault Refusal :=
  s.run fun x d => if port ≤ 8 && d.shaperOn port then d.refillDue x port else d

/-- The frames that a queue of a shaper holds, as (charged length, enqueue time). The DRR queues of the TAIL class of HP hold the records that wait in the
backlogs of its channels (R496, R505; log 36). -/
def Dev.queued (d : Dev) (p c q : Nat) (fs : List EgFrame) : List (Nat × Ns) :=
  if p == 8 && c == 1 && q < 8 then
    (d.text.channels.filter fun n => n.2.kind == .hp && n.1 % 8 == q).flatMap fun n =>
      n.2.backlog.map fun r => (r.2.length + d.fld (regShape p) 8 6, r.1)
  else fs.map fun f => (d.charged p f, f.enq)

/-- One queue's sample (R504): its registers take depth and delay, and the largest of each. -/
def Dev.sampleQueue (d : Dev) (p c q : Nat) (fs : List EgFrame) : Dev :=
  let held := d.queued p c q fs
  let depth := sumOf (held.map (·.1))
  let head := if p == 8 && c == 1 && q < 8 then minBy (fun (a b : Nat × Ns) => decide (a.2 ≤ b.2)) held else held.head?
  let delay := match head with | some f => min (d.now - f.2) 0xFFFFFFFF | none => 0
  let (a, b, m, l) := if p == 8 then (Reg.hpsQsDepth c q, Reg.hpsQsDelay c q, Reg.hpsQsDmax c q, Reg.hpsQsLmax c q)
    else (Reg.cvfQsDepth p c q, Reg.cvfQsDelay p c q, Reg.cvfQsDmax p c q, Reg.cvfQsLmax p c q)
  (((d.setReg a depth).setReg b delay).setReg m (max (d.reg m) depth)).setReg l (max (d.reg l) delay)

/-- The sample that is due at a port is taken, at every SAMPLE_X refill ticks (R504). -/
def Dev.sampleDue (d : Dev) (p : Nat) : Dev :=
  let n := d.refillTick p / max 1 (d.fld (regShape p) 0 8)
  if (d.shaper p).sampled < n then
    (d.shaper p).classes.zipIdx.foldl (fun (d : Dev) q =>
      let d := (List.range 8).foldl (fun (d : Dev) k => d.sampleQueue p q.2 k (getAt [] k q.1.queues)) d
      d.sampleQueue p q.2 8 q.1.lane) (d.setShaper p fun S => { S with sampled := n })
  else d

/-- QUEUE_SAMPLE (R504), after a refill of the same nanosecond (R492). -/
def execQueueSample (port : Nat) (s : State) : Host.Outcome State Fault Refusal :=
  s.run fun x d => if port ≤ 8 && d.shaperOn port then (d.refillDue x port).sampleDue port else d

/-- FRAME_START (R491, R493, R497), after a refill and a sample of the same nanosecond (R492). -/
def execFrameStart (port : Nat) (s : State) : Host.Outcome State Fault Refusal :=
  s.run fun x d =>
    if !(d.portUp port) || d.portState port == 4 then d
    else
      let d := (d.refillDue x port).sampleDue port
      match d.pickFrame port with
      | some (c, f, q) => d.startFrame x port c f q
      | none => d

/-! ### SHAPE_SET, POLICE_SET and ROUTE_SET (R494, R501 to R503) -/

/-- Whether a bucket of a rate and a burst meets the bound of R502. -/
def Dev.burstOk (d : Dev) (p rate burst : Nat) : Bool := rate * d.fld (regShape p) 16 16 + 4160 * 1000 ≤ 256 * burst * 1000

/-- Whether the fields of a SHAPE_SET may take effect. -/
def Dev.shapeOk (d : Dev) (e : Entry) : Bool :=
  let p := e.f 16 1
  let c := e.f 17 1
  let w := e.f 18 1
  let rate := if bit w 0 then e.f 20 4 else d.fld (regRate p c) 0 24
  let burst := if bit w 1 then e.f 24 4 else d.fld (regBurst p c) 0 24
  let total := sumOf ([0, 1, 5].map fun k => if k == c then rate else d.fld (regRate p k) 0 24)
  p ≤ 8 && c ≤ 5 && (!(bit w 0) || (1 ≤ rate && rate ≤ 200000)) && burst < 2 ^ 24 &&
    (!(bit w 2) || (List.range 8).all fun q => e.f (28 + q) 1 != 0) && (!(bit w 3) || e.f 36 1 ≤ 63) && total ≤ 160000 && d.burstOk p rate burst

/-- SHAPE_SET: it takes effect at the port's next refill (R502). -/
def execShapeSet (e : Entry) (s : State) : Host.Outcome State Fault Refusal :=
  s.ring e [(16, 3), (20, 17)] [(148, 4)] fun x d c =>
    d.checked x c [(!(d.shapeOk e) || !(d.shaperOn (e.f 16 1)), .REFUSED_STATE)] fun d =>
      (d.refillDue x (e.f 16 1)).setShaper (e.f 16 1) fun S => { S with pendingSets := S.pendingSets ++ [(⟨c, false, e.bytes⟩ : PendingShape)] }

/-- POLICE_SET: it takes effect at the port's next refill (R502). -/
def execPoliceSet (e : Entry) (s : State) : Host.Outcome State Fault Refusal :=
  s.ring e [(16, 6), (24, 8)] [(145, 7)] fun x d c =>
    d.checked x c [(7 < e.f 16 1 || 15 < e.f 17 1 || 5 < e.f 19 1 || 2 ^ 24 ≤ e.f 24 4 || 2 ^ 24 ≤ e.f 28 4 || !(d.burstOk (e.f 16 1) (e.f 24 4) (e.f 28 4)) ||
      !(d.shaperOn (e.f 16 1)), .REFUSED_STATE)] fun d =>
      (d.refillDue x (e.f 16 1)).setShaper (e.f 16 1) fun S => { S with pendingSets := S.pendingSets ++ [(⟨c, true, e.bytes⟩ : PendingShape)] }

/-- ROUTE_SET (R501, R502). -/
def execRouteSet (e : Entry) (s : State) : Host.Outcome State Fault Refusal :=
  s.ring e [(16, 1), (18, 3)] [(130, 6)] fun x d c =>
    let pos := bit (e.f 16 1) 0
    d.checked x c [(7 < e.f 20 1 || (if pos then 31 else 2047) < e.f 18 2 || !(d.domainUp (.cvfGroup 0)), .REFUSED_STATE)] fun d =>
      let v := ofB (bit (e.f 16 1) 1) * 2 ^ 31 + e.f 20 1
      ((if pos then d.setReg (Reg.fabRoutePos (e.f 18 2)) v else d.setReg (Reg.fabRouteNode (e.f 18 2)) v).settleReach).finish x c .DONE 0

end Sys2Proof.Machine
end

