-- ==== Sys2Proof/Machine/Management.lean ====
section
/-! DEFINITION. Machine/Management.lean: the MCTP endpoint and the PLDM responder (R546 to R548). -/

namespace Sys2Proof.Machine

/-- An answer of the MCTP endpoint; in Eclipse mode it is silent (R546). -/
def Dev.mctp (d : Dev) (a : McAnswer) : Dev := if d.eclipse then d else d.send (.mctp a)

/-- Set Endpoint ID (R546). -/
def execSetEndpointId (eid : Nat) (s : State) : Host.Outcome State Fault Refusal :=
  s.run fun _ d => if d.eclipse then d else ({ d with hif := { d.hif with eid := eid } } : Dev).mctp (.endpointSet eid)

/-- Get Endpoint ID (R546). -/
def execGetEndpointId (s : State) : Host.Outcome State Fault Refusal := s.run fun _ d => d.mctp (.endpointId d.hif.eid)

/-- Get Endpoint UUID (R546). The spec gives no UUID layout; the answer carries the Device Serial Number it is made from (log 19,
PRESUMED). -/
def execGetEndpointUuid (s : State) : Host.Outcome State Fault Refusal := s.run fun x d => d.mctp (.uuid x.fuses.serial)

/-- Get MCTP Version Support (R546): the base protocol, MCTP control and PLDM are supported. -/
def execGetMctpVersionSupport (typ : Nat) (s : State) : Host.Outcome State Fault Refusal :=
  s.run fun _ d => d.mctp (.versions typ (typ == 0xFF || typ == 0x00 || typ == 0x01))

/-- Get Message Type Support advertises PLDM only (R546). -/
def execGetMessageTypeSupport (s : State) : Host.Outcome State Fault Refusal := s.run fun _ d => d.mctp (.messageTypes [0x01])

/-- Other MCTP control commands are answered ERROR_UNSUPPORTED_CMD; messages of other types are discarded (R546). -/
def execMctpOtherMessage (typ cmd : Nat) (s : State) : Host.Outcome State Fault Refusal :=
  s.run fun _ d => if typ == 0 then d.mctp (.unsupportedCmd cmd) else d

/-- SetTID (R547). -/
def execSettid (tid : Nat) (s : State) : Host.Outcome State Fault Refusal :=
  s.run fun _ d => if d.eclipse then d else ({ d with hif := { d.hif with tid := tid } } : Dev).mctp .tidSet

/-- GetTID (R547). -/
def execGettid (s : State) : Host.Outcome State Fault Refusal := s.run fun _ d => d.mctp (.tid d.hif.tid)

/-- GetPLDMVersion (R547). -/
def execGetpldmversion (typ : Nat) (s : State) : Host.Outcome State Fault Refusal :=
  s.run fun _ d => d.mctp (.pldmVersion typ (typ == 0 || typ == 2))

/-- GetPLDMTypes (R547). -/
def execGetpldmtypes (s : State) : Host.Outcome State Fault Refusal := s.run fun _ d => d.mctp (.pldmTypes [0, 2])

/-- The commands of a PLDM type (R547). -/
def pldmCommandNames : Nat → List String
  | 0 => ["SetTID", "GetTID", "GetPLDMVersion", "GetPLDMTypes", "GetPLDMCommands"]
  | 2 => ["SetEventReceiver", "GetPDRRepositoryInfo", "GetPDR", "GetSensorReading", "GetStateSensorReadings"]
  | _ => []

/-- GetPLDMCommands (R547). -/
def execGetpldmcommands (typ : Nat) (s : State) : Host.Outcome State Fault Refusal :=
  s.run fun _ d => d.mctp (.pldmCommands typ (pldmCommandNames typ))

/-- SetEventReceiver (R547). -/
def execSeteventreceiver (eid : Nat) (s : State) : Host.Outcome State Fault Refusal :=
  s.run fun _ d => if d.eclipse then d else ({ d with hif := { d.hif with eventReceiver := some eid } } : Dev).mctp .receiverSet

/-- The sensors of the PDR repository: those of fitted units (R548). -/
def sensorIds (p : Part) : List Nat :=
  rangeFrom 0x0001 4 ++ p.fittedStacks.map (0x0010 + ·) ++ [0x0020] ++ rangeFrom 0x0021 4 ++ [0x0030, 0x0100] ++
    rangeFrom 0x0110 8 ++ [0x0118]

/-- Whether a sensor is numeric, and its unit (R548). -/
def sensorNumeric (id : Nat) : Bool := id < 0x0100
@[inherit_doc sensorNumeric] def sensorUnit (id : Nat) : String :=
  if id ≤ 0x001B then "degC" else if id == 0x0020 then "W" else if id ≤ 0x0024 then "mV" else if id == 0x0030 then "count/s" else "state"

/-- GetPDRRepositoryInfo (R547). -/
def execGetpdrrepositoryinfo (s : State) : Host.Outcome State Fault Refusal :=
  s.run fun x d => d.mctp (.pdrInfo (sensorIds x.fuses.part).length)

/-- GetPDR: the record of a handle, counted from 1, and the handle of the next record (0 at the end); handle 0 reads the first
(R548; PRESUMED, log 19: the handle numbering of DSP0248). -/
def execGetpdr (record : Nat) (s : State) : Host.Outcome State Fault Refusal :=
  s.run fun x d =>
    let ids := sensorIds x.fuses.part
    let i := if record == 0 then 1 else record
    match ids[i - 1]? with
    | some id => d.mctp (.pdr i id (sensorNumeric id) (sensorUnit id) (if i < ids.length then i + 1 else 0))
    | none => d.mctp .pdrInvalidHandle

/-- The last refreshed reading of a sensor. -/
def Dev.sensor (d : Dev) (id : Nat) : Nat := (tblGet id d.hif.sensors).getD 0

/-- GetSensorReading (R548). -/
def execGetsensorreading (sensor : Nat) (s : State) : Host.Outcome State Fault Refusal :=
  s.run fun x d =>
    if (sensorIds x.fuses.part).contains sensor && sensorNumeric sensor then d.mctp (.sensorReading sensor (d.sensor sensor))
    else d.mctp (.invalidSensor sensor)

/-- GetStateSensorReadings (R548). -/
def execGetstatesensorreadings (sensor : Nat) (s : State) : Host.Outcome State Fault Refusal :=
  s.run fun x d =>
    if (sensorIds x.fuses.part).contains sensor && !(sensorNumeric sensor) then d.mctp (.sensorState sensor (d.sensor sensor))
    else d.mctp (.invalidSensor sensor)

/-- Other PLDM types and commands (R547). -/
def execPldmUnsupportedCmd (typ cmd : Nat) (s : State) : Host.Outcome State Fault Refusal :=
  s.run fun _ d => d.mctp (.unsupportedPldm typ cmd)

/-! ### Sensor readings (R548, R653) -/

/-- Whether any unit is offline (sensor 0x0100, value 3). -/
def Dev.unitsOffline (d : Dev) : Bool :=
  !(d.attn.aeOffline.isEmpty) || !(d.attn.mergeOffline.isEmpty) || !(d.attn.scoreOffline.isEmpty) || !(d.boot.quadOffline.isEmpty) ||
  d.tail.pipes.any (·.offline) || d.text.engines.any (·.offline) || d.rcl.engines.any (·.offline) || !(d.rcl.scanOffline.isEmpty) ||
  (List.range 4).any fun k => d.reg (Reg.beltCoreOff k) != 0

/-- Reports of the four warning classes over the last aligned second (R692). -/
def Dev.lastSecond (d : Dev) : Nat :=
  let w := d.now / 1000000000
  if d.err.secWin == w then d.err.secPrev else if d.err.secWin + 1 == w then d.err.secCount else 0

/-- What a sensor reports now (R548): temperatures in whole degrees, power, voltages, corrected errors of the last aligned second,
and the state sensors. -/
def Dev.sense (d : Dev) (id : Nat) : Nat :=
  if id ≤ 4 then ofSigned (toSigned (d.reg (Reg.pmcQtemp (id - 1))) 16 / 16) 16
  else if id ≤ 0x1B then ofSigned (toSigned (d.reg (Reg.pmcStemp (id - 0x10))) 16 / 16) 16
  else if id == 0x20 then d.fld Reg.pmcPkgPower 0 16
  else if id ≤ 0x24 then d.fld (Reg.pmcRail (id - 0x21)) 0 12
  else if id == 0x30 then d.lastSecond
  else if id == 0x100 then (if d.eclipse then 4 else if !d.operational then 1 else if d.unitsOffline then 3 else 2)
  else if id ≤ 0x117 then
    let st := d.reg (Reg.cvfStat (id - 0x110))
    if bits st 29 3 < 3 then 1 else if bits st 25 4 == 8 then 2 else 3
  else if d.hif.ppUp then 2 else 1

/-- The class of a numeric reading against its upper thresholds: 0 normal, 1 warning, 2 critical, 3 fatal (R653). A stack's
warning, critical and fatal points are its HOT_C, CRIT_C and TRIP_C (DEDUCED, log 19: the stack points name no WARN_C). -/
def Dev.sensorClass (d : Dev) (id v : Nat) : Nat :=
  let t := toSigned v 16
  let cls := fun (w c f : Nat) => if (f : Int) ≤ t then 3 else if (c : Int) ≤ t then 2 else if (w : Int) ≤ t then 1 else 0
  if id ≤ 4 then cls (d.fld Reg.pmcQtrip 0 8) (d.fld Reg.pmcQtrip 16 8) (d.fld Reg.pmcQtrip 24 8)
  else if 0x10 ≤ id && id ≤ 0x1B then cls (d.fld Reg.pmcStrip 8 8) (d.fld Reg.pmcStrip 16 8) (d.fld Reg.pmcStrip 24 8)
  else 0

/-- Refresh one sensor; a threshold crossing or state change sends a PlatformEventMessage to the event receiver (R547). -/
def Dev.refreshSensor (d : Dev) (id : Nat) : Dev :=
  let old := d.sensor id
  let new := d.sense id
  let d' : Dev := { d with hif := { d.hif with sensors := tblSet id new d.hif.sensors } }
  let tell := if sensorNumeric id then d.sensorClass id old != d.sensorClass id new else old != new
  if tell && d.hif.eventReceiver.isSome then d'.mctp (.platformEvent id new) else d'

/-- Sensor readings are refreshed (R548). -/
def execSensorRefresh (s : State) : Host.Outcome State Fault Refusal :=
  s.run fun x d => (sensorIds x.fuses.part).foldl (fun d id => d.refreshSensor id) d

end Sys2Proof.Machine
end

