-- ==== Sys2Proof/Machine/Prefixes.lean ====
section
/-! DEFINITION. Machine/Prefixes.lean: compression and fading of pages, shared prefixes, and MX import and export (R159 to R185). -/

namespace Sys2Proof.Machine

/-! ### Compression (R167 to R170) -/

/-- The owner of slots that a pass or fade trial works in; no PREFIX_ID is as large. -/
def workKey : PKey := ⟨.pfx (2 ^ 34), 0, 0, 0⟩

/-- One slot for a pass on the home stack of a page (R169, R173). -/
def Dev.workSlot (x : Ctx) (d : Dev) (k : PKey) : Option (Dev × Nat) :=
  match d.allocSlots x k 1 false false with
  | some (d, a :: _) => some (d.rekey [a] workKey, a)
  | _ => none

/-- The queued pass that a stack takes next: the one queued first of those for its pages, as BULK work goes by arrival (R36), while such work may
start (R658, R666). -/
def Dev.nextPass (x : Ctx) (d : Dev) (stack : Nat) : Option PKey :=
  if d.bulkHeld stack then none else (d.kv.passes.find? fun p => p.running.isNone && (homeOf x.fuses.part p.key).1 == stack).map (·.key)

/-- A queued pass starts, when it is the next of its stack: it takes a slot, or is deferred (R167 step 2, R169). -/
def execCompressionPassStart (page : PKey) (s : State) : Host.Outcome State Fault Refusal :=
  s.run fun x d =>
    if d.nextPass x (homeOf x.fuses.part page).1 != some page then d
    else match d.workSlot x page with
      | some (d, a) =>
        let run := fun (p : CompPass) => { p with running := some a }
        { d with kv := { d.kv with passes := replaceFirst (fun (p : CompPass) => p.key == page && p.running.isNone) run d.kv.passes } }
      | none =>
        { d with kv := { d.kv with passes := d.kv.passes.eraseP (fun p => p.key == page && p.running.isNone), deferred := d.kv.deferred ++ [page] } }

/-- The old frames of a swapped page wait for their release (R167 step 5). -/
def Dev.swapFrames (d : Dev) (k : PKey) (new : Nat) : Dev :=
  let old := d.pageSlots k
  let d := (d.rekey old ⟨goneOwner, 0, 0, 0⟩).rekey [new] k
  { d with kv := { d.kv with releases := d.kv.releases ++ [(⟨k.owner, old, [], [], d.now⟩ : FrameRelease)] } }

/-- A BF16 pattern as FP32. -/
def ofBf16 (b : Nat) : Nat := b * 2 ^ 16

/-- The header of a page compressed from FP8 rows (R150, R159 to R166). -/
def closedHeader (p : Page) (rows : List FpRow) (ke ve : Enc) (hd seed slot : Nat) (now : Ns) : Page :=
  let outs := fun (e : Enc) => leNat e.outCh
  let kn := rows.map fun r => ofBf16 r.kNorm
  let vn := rows.map fun r => ofBf16 r.vNorm
  let kEps := rowErrs hd ke (rows.map FpRow.kVals) (rows.map fun r => ofBf16 r.kRerr)
  let vEps := rowErrs hd ve (rows.map FpRow.vVals) (rows.map fun r => ofBf16 r.vRerr)
  ({ p with
    kind := .closed, kfmt := .k4s, vfmt := .k4s, rows := 256, srSeed := seed, kPscale := ke.pscale, vPscale := ve.pscale,
    kSscale := ke.sscale, vSscale := ve.sscale, kOutCh := outs ke, vOutCh := outs ve, kOutN := ke.outCh.length, vOutN := ve.outCh.length,
    kErr := fmaxs kEps, vErr := fmaxs vEps, kEn := fmaxs (List.zipWith errMul kEps kn), vEn := fmaxs (List.zipWith errMul vEps vn),
    vNmax := fmaxs vn, closeStamp := now } : Page).at [slot] hd

/-- The pass of a page encodes it: its new header with its meta and payload bytes (R159 to R161). -/
def Dev.compressed (x : Ctx) (d : Dev) (k : PKey) (p : Page) (slot : Nat) : Page × Nat × Nat :=
  let hd := d.shape.d
  let rows := (List.range 256).map fun t => d.fp8At x p t
  let seed := d.srSeed k 0
  let enc := fun (tensor : Nat) (vals : List (List Nat)) => d.encode .k4s seed tensor hd vals (d.outliers hd vals) none
  let ke := enc 0 (rows.map FpRow.kVals)
  let ve := enc 1 (rows.map FpRow.vVals)
  (closedHeader p rows ke ve hd seed slot d.now, metaNat hd ke ve, payNat hd ke ve)

/-! ### PREFIX_CAPTURE and PREFIX_RELEASE (R178, R179) -/

/-- The pages of a session become those of a prefix, and the session reads them as shared ones (R178). -/
def Dev.captureDone (x : Ctx) (d : Dev) (o : CaptureOp) : Dev :=
  let i := o.idx
  let id := o.prefixId
  let s := d.desc i
  let d := d.stopPasses (.sess i)
  let d := { d with kv := { d.kv with captures := d.kv.captures.filter fun c => c.idx != i } }
  let mine := d.pagesOf (.sess i)
  let areas := d.kv.pta.map fun (u : AreaUse) => match u.owner, u.kind with
    | .sess j, .hdr _ _ _ => if j == i then { u with owner := .pfx id } else u
    | _, _ => u
  let pages := d.kv.pages.filter fun p => p.1.owner != POwner.sess i
  let d := { d with kv := { d.kv with pta := areas, pages := pages } }
  let d := mine.foldl (fun (d : Dev) p =>
    let k := { p.1 with owner := POwner.pfx id }
    let rows := min 256 (s.commitLen - 256 * k.page)
    let kind := if p.2.kind == .coma then PKind.pfxComa else .pfx
    (d.rekey (d.pageSlots p.1) k).putPage x k { p.2 with kind := kind, rows := rows, prefixId := id }) d
  let d := { d with kv := { d.kv with prefixes := d.kv.prefixes ++ [(⟨id, s.commitLen, 2, true, false, 0, s.composition⟩ : Prefix)] } }
  let d := d.linkTables x i (some id)
  let d := d.putDesc x i { s with prefixId := id }
  ((d.putDesc x i { s with prefixId := id, tier := d.tierOf i }).journal ⟨.pfx id, 0, 0, 0⟩).finish x o.cmd .DONE s.commitLen

/-- A capture goes on: it waits while a page of its session is FULL, and ends FAULT_MEDIA where such a page, which is then never compressed, or the header
of any page cannot be read (R151, R169, R178; DEDUCED, log 35). -/
def Dev.captureStep (x : Ctx) (d : Dev) (o : CaptureOp) : Dev :=
  let mine := d.kv.pages.filter fun p => p.1.owner == POwner.sess o.idx
  let full := mine.filter fun p => p.2.kind == .full
  if (full.any fun p => p.2.mediaBad) || mine.any fun p => d.headerBad x p.1 then
    ({ d with kv := { d.kv with captures := d.kv.captures.filter fun c => c.idx != o.idx } } : Dev).finish x o.cmd .FAULT_MEDIA 0
  else if full.isEmpty then d.captureDone x o
  else d

/-- Every capture goes on. -/
def Dev.captureAll (x : Ctx) (d : Dev) : Dev := d.kv.captures.foldl (fun (d : Dev) o => d.captureStep x o) d

/-- PREFIX_CAPTURE (R178, R179). -/
def execPrefixCapture (e : Entry) (s : State) : Host.Outcome State Fault Refusal :=
  s.ring e [(16, 8)] [] fun x d c => d.withSession x c (e.f 16 4) fun d i ds =>
    let id := e.f 20 4
    d.checked x c [(ds.state != .idle || d.memberBound i || d.occupied i || ds.prefixId != 0xFFFFFFFF || ds.commitLen == 0 || id == 0xFFFFFFFF ||
        d.kv.prefixes.any (fun p => p.id == id) || d.kv.captures.any (fun o => o.prefixId == id), .REFUSED_STATE),
      (4096 ≤ d.kv.prefixes.length, .REFUSED_RESOURCE)] fun d =>
      let o : CaptureOp := ⟨i, id, c⟩
      ({ d with kv := { d.kv with captures := d.kv.captures ++ [o] } } : Dev).captureStep x o

/-- PREFIX_RELEASE (R179). -/
def execPrefixRelease (e : Entry) (s : State) : Host.Outcome State Fault Refusal :=
  s.ring e [(20, 4)] [] fun x d c =>
    let id := e.f 20 4
    match d.loadedPrefix id with
    | none => d.finish x c .REFUSED_STATE 0
    | some p =>
      if p.loadRef then ((d.updPrefix id fun p => { p with loadRef := false }).dropRef id).finish x c .DONE (p.refs - 1)
      else d.finish x c .REFUSED_STATE 0

/-- Encoding of a page ends (R167 step 4): the header swaps to CLOSED. A header that fails its check, or rows that cannot be read, abandon the pass; rows
also set MEDIA_BAD (R151, R169). -/
def Dev.passDone (x : Ctx) (d : Dev) (k : PKey) (p : Page) (slot : Nat) : Dev :=
  let hd := d.shape.d
  let d := { d with kv := { d.kv with passes := d.kv.passes.filter fun q => q.key != k } }
  if d.pageBad x k p 256 then
    (d.pageUnread x (match k.owner with | .sess i => i | .pfx i => i) k p 256).freeSlots [slot]
  else
    let d := d.readFrames p 256
    let (h, m, v) := d.compressed x k p slot
    let d := (d.st x slot (256 * hd) v).st x h.meta1 (64 * hd) m
    (((d.swapFrames k slot).putPage x k h).bump Reg.sessKvCompCnt 1).journal k

/-- The swap of a running pass (R167 step 4); a pass on a stack at HOT_C stands still (R666). -/
def execCompressionHeaderSwap (page : PKey) (s : State) : Host.Outcome State Fault Refusal :=
  s.run fun x d => match d.kv.passes.find? fun p => p.key == page && p.running.isSome with
    | none => d
    | some p => match d.page page, p.running with
      | some h, some slot => if d.baseHot (stackOf slot) then d else (d.passDone x page h slot).captureAll x
      | _, _ => d

/-- Whether a tile of an accepted request may still read a frame (R167, R168). -/
def Dev.frameRead (d : Dev) (r : FrameRelease) : Bool :=
  d.attn.reqs.any fun q => q.tiles.any fun t => t.snap.any fun p => r.slots.any fun a => a ≤ p.2.payload && p.2.payload < a + d.slotBytes

/-- One block timeout after a swap the old frames of an owner's page are released, unless a tile still reads them (R167 step 5). -/
def execFp8FrameRelease (owner : POwner) (s : State) : Host.Outcome State Fault Refusal :=
  s.run fun x d => d.releaseFrames x fun r => r.owner == owner && r.areas.isEmpty && r.targets.isEmpty && !(d.frameRead r) && !(d.capturing owner)

/-! ### Fading (R171 to R174) -/

/-- The format that a page may fade to now (R171). -/
def Dev.fadeTo (d : Dev) (k : PKey) (p : Page) : Option KvFmt :=
  let mode := d.fld Reg.sessKvFade 30 2
  let age := d.now - p.closeStamp
  let idle := match k.owner with | .sess i => (d.desc i).state == .idle | .pfx _ => false
  if !idle || p.kind != .closed || p.fadeStop || d.kv.fades.any fun f => f.key == k then none
  else if mode != 0 && p.vfmt == .k4s && d.fld Reg.sessKvFade 0 16 * 1000000000 ≤ age then some .k3s
  else if mode == 2 && p.vfmt == .k3s && d.fld Reg.sessKvFade2 0 16 * 1000000000 ≤ age then some .k2s
  else none

/-- A trial starts, where the pool has slots for it and base-die BULK work may start (R173, R658, R666). -/
def Dev.startFade (x : Ctx) (d : Dev) (k : PKey) (f : KvFmt) : Dev :=
  if d.poolFree x < 2 || d.bulkHeld (homeOf x.fuses.part k).1 then d
  else match d.workSlot x k with
    | some (d, a) => { d with kv := { d.kv with fades := d.kv.fades ++ [(⟨k, f, a, none, 0, 0⟩ : FadeTrial)] } }
    | none => d

/-- A sweep (R171). -/
def execFadeSweep (s : State) : Host.Outcome State Fault Refusal :=
  s.run fun x d => d.kv.pages.foldl (fun (d : Dev) p => match d.fadeTo p.1 p.2 with
    | some f => d.startFade x p.1 f
    | none => d) d

/-- Change a trial. -/
def Dev.dropFade (d : Dev) (k : PKey) : Dev := { d with kv := { d.kv with fades := d.kv.fades.filter fun f => f.key != k } }

/-- The values of a trial: the header with its errors, meta and payload bytes (R161, R166, R172). -/
def Dev.faded (x : Ctx) (d : Dev) (k : PKey) (p : Page) (f : KvFmt) (slot : Nat) : Page × Nat × Nat :=
  let hd := d.shape.d
  let ke := d.tensorAt x p 0
  let ve := d.tensorAt x p 1
  let rows := (List.range 256).map fun t => ve.row hd t
  let seed := d.srSeed k (if f == .k3s then 1 else 2)
  let new := d.encode f seed 1 hd rows ve.outCh (some (ve.sscale, ve.side))
  let err := fmaxs (rowErrs hd new rows (List.replicate 256 p.vErr))
  (({ p with vfmt := f, srSeed := seed, vPscale := new.pscale, vErr := err, vEn := errMul err p.vNmax } : Page).at [slot] hd,
    metaNat hd ke new, payNat hd ke new)

/-- A trial ends (R172): within its budget its swap goes to SESS; otherwise FADE_STOP is set. A page that cannot be read ends the trial (R151,
R169). One on a stack at HOT_C stands still (R666). -/
def execFadeTrialDone (page : PKey) (s : State) : Host.Outcome State Fault Refusal :=
  s.run fun x d => match d.kv.fades.find? fun f => f.key == page && f.done.isNone with
    | none => d
    | some t => if d.baseHot (stackOf t.slot) then d else match d.page page with
      | none => (d.dropFade page).freeSlots [t.slot]
      | some p =>
        if d.pageBad x page p 256 then
          ((d.pageUnread x (match page.owner with | .sess i => i | .pfx i => i) page p 256).dropFade page).freeSlots [t.slot]
        else
          let d := d.readFrames p 256
          let (h, mv, pv) := d.faded x page p t.target t.slot
          if fle h.vErr (d.reg Reg.sessKvFadeBud) then
            let t' := { t with done := some h, metaVal := mv, payVal := pv }
            { d with kv := { d.kv with fades := replaceFirst (fun (f : FadeTrial) => f.key == page) (fun _ => t') d.kv.fades } }
          else (((d.dropFade page).freeSlots [t.slot]).putPage x page { p with fadeStop := true }).bump Reg.sessKvFadeRej 1

/-- The swap of a trial reaches SESS (R172, R173): it is applied while the session is IDLE, and dropped otherwise. -/
def execFadeSwap (page : PKey) (s : State) : Host.Outcome State Fault Refusal :=
  s.run fun x d => match d.kv.fades.find? fun f => f.key == page with
    | none => d
    | some t => match t.done with
      | none => d
      | some h =>
        let idle := match page.owner with | .sess i => (d.desc i).state == .idle | .pfx _ => false
        let d := d.dropFade page
        if !idle || (d.page page).isNone then d.freeSlots [t.slot]
        else
          let hd := d.shape.d
          let d := (d.st x t.slot (256 * hd) t.payVal).st x h.meta1 (64 * hd) t.metaVal
          (((d.swapFrames page t.slot).putPage x page h).bump (if t.target == .k3s then Reg.sessKvFade3Cnt else Reg.sessKvFade2Cnt) 1).journal page

/-! ### MX import and export (R182 to R185) -/

/-- Bytes of an MX buffer. -/
def Dev.mxBytes (d : Dev) (rows fmtK fmtV : Nat) : Nat :=
  let b := fun f => match mxFmt f with | some (_, w, _) => mxBlockBytes w rows d.shape.d | none => 0
  d.shape.layers * d.shape.hkv * (b fmtK + b fmtV)

/-- Slots that an import needs at most: two for every page that its rows reach and the session does not have. -/
def Dev.importSlots (d : Dev) (i rows : Nat) : Nat :=
  let len := (d.desc i).commitLen
  let pages := rangeFrom (len / 256) (cdiv (len + rows) 256 - len / 256)
  2 * sumOf (pages.map fun p => ((List.range d.shape.layers).flatMap fun l => (List.range d.shape.hkv).filter fun h =>
    (d.page ⟨.sess i, l, h, p⟩).isNone).length)

/-- The common checks of KV_IMPORT and KV_EXPORT (R183, R185). -/
def Dev.mxChecks (d : Dev) (e : Entry) (i : Nat) (s : Desc) : List (Bool × Status) :=
  [(s.state != .idle || d.memberBound i || d.occupied i || e.f 20 4 == 0 || 65536 < e.f 20 4 || (mxFmt (e.f 24 1)).isNone || (mxFmt (e.f 25 1)).isNone,
    .REFUSED_STATE)]

/-- The work of an import or export starts. -/
def Dev.startMx (d : Dev) (e : Entry) (c : Cmd) (i : Nat) (imp : Bool) : Dev :=
  { d with kv := { d.kv with impexp := d.kv.impexp ++ [(⟨i, imp, e.f 20 4, e.f 24 1, e.f 25 1, e.f 28 4, e.f 32 6, c⟩ : ImpExp)] } }

/-- KV_IMPORT (R183 to R185). -/
def execKvImport (e : Entry) (s : State) : Host.Outcome State Fault Refusal :=
  s.ring e [(16, 10), (32, 8)] [(304, 16)] fun x d c => d.withSession x c (e.f 16 4) fun d i ds =>
    d.checked x c (d.mxChecks e i ds ++ [(1048576 < ds.commitLen + e.f 20 4 || d.poolFree x < d.importSlots i (e.f 20 4), .REFUSED_RESOURCE)]) fun d =>
      d.buffers x c [(e.f 32 6, d.mxBytes (e.f 20 4) (e.f 24 1) (e.f 25 1))] fun d => d.startMx e c i true

/-- KV_EXPORT (R183 to R185). -/
def execKvExport (e : Entry) (s : State) : Host.Outcome State Fault Refusal :=
  s.ring e [(16, 10), (28, 4), (32, 8)] [(304, 16)] fun x d c => d.withSession x c (e.f 16 4) fun d i ds =>
    d.checked x c (d.mxChecks e i ds ++ [(decide (ds.commitLen < e.f 28 4 + e.f 20 4), Status.REFUSED_STATE)]) fun d =>
      d.buffers x c [(e.f 32 6, d.mxBytes (e.f 20 4) (e.f 24 1) (e.f 25 1))] fun d => d.startMx e c i false

/-- The head-layers of an MX buffer with the addresses of their K and V blocks. -/
def Dev.mxPlaces (d : Dev) (o : ImpExp) (fk fv : Fmt × Nat × Int) : List (Nat × Nat × Nat × Nat) :=
  let bk := mxBlockBytes fk.2.1 o.rows d.shape.d
  let bv := mxBlockBytes fv.2.1 o.rows d.shape.d
  (List.range d.shape.layers).flatMap fun l => (List.range d.shape.hkv).map fun h =>
    let a := o.buf + (l * d.shape.hkv + h) * (bk + bv)
    (l, h, a, a + bk)

/-- Import the rows of one head-layer; the answer tells whether every row was written. -/
def Dev.importRows (x : Ctx) (d : Dev) (o : ImpExp) (fk fv : Fmt × Nat × Int) (p : Nat × Nat × Nat × Nat) (ok : Bool) : Dev × Bool :=
  let (l, h, ka, va) := p
  (List.range o.rows).foldl (fun (a : Dev × Bool) t =>
    if !a.2 then a
    else
      let r := fp8Row (a.1.mxRow x ka o.rows a.1.shape.d t fk) (a.1.mxRow x va o.rows a.1.shape.d t fv)
      let (d, ok) := a.1.writeRow x o.idx l h ((a.1.desc o.idx).commitLen + t) r false
      (if r.nonfinite then d.bump Reg.sessKvNonfinite 1 else d, ok)) (d, ok)

/-- The rows of an import that could not be written are discarded (R184). Where stored data failed, as against slots that were short, what failed is
reported, and a page that the session had is MEDIA_BAD (R151, R724). -/
def Dev.importFails (x : Ctx) (d d' : Dev) (o : ImpExp) : Dev :=
  let mine := fun (p : PKey × Page) => p.1.owner == POwner.sess o.idx
  let failed := d'.kv.pages.filter fun p => mine p && p.2.mediaBad && !((d.page p.1).any (·.mediaBad))
  let first := (d.kv.pages.filter fun p => mine p && p.1.page == (d.desc o.idx).commitLen / 256 && (p.2.mediaBad || d.headerBad x p.1))
  if failed.isEmpty && first.isEmpty then d.finish x o.cmd .REFUSED_RESOURCE 0
  else
    let d := failed.foldl (fun (d : Dev) p => match d.page p.1 with
      | some q => d.pageFailed x o.idx p.1 q
      | none => d.reportPage o.idx p.1) d
    (first.foldl (fun (d : Dev) p => d.pageUnread x o.idx p.1 p.2 0) d).finish x o.cmd .FAULT_MEDIA 0

/-- An import ends: its rows are written and COMMIT_LEN rises in one descriptor write (R184). -/
def Dev.importEnd (x : Ctx) (d : Dev) (o : ImpExp) (fk fv : Fmt × Nat × Int) : Dev :=
  let (d', ok) := (d.mxPlaces o fk fv).foldl (fun (a : Dev × Bool) p => a.1.importRows x o fk fv p a.2) (d, true)
  if !ok then d.importFails x d' o
  else
    let s := d'.desc o.idx
    let s := { s with commitLen := s.commitLen + o.rows, lastStamp := d.now }
    let d := (d'.putDesc x o.idx s).fillPages x o.idx s.commitLen
    (d.putDesc x o.idx { s with tier := d.tierOf o.idx }).finish x o.cmd .DONE 0

/-- The decoded K and V rows of a token of a session; none where its page cannot be read. -/
def Dev.tokenRow (x : Ctx) (d : Dev) (i l h t : Nat) : Option (List Nat × List Nat) :=
  match d.viewPage i l h (t / 256) with
  | none => none
  | some (k, p) =>
    if d.tileBad x k p (d.desc i).commitLen then none
    else if p.kfmt == .fp8 then let r := d.fp8At x p (t % 256)
                                some (r.kVals, r.vVals)
    else some ((d.tensorAt x p 0).row d.shape.d (t % 256), (d.tensorAt x p 1).row d.shape.d (t % 256))

/-- Write one row of a tensor block (R182, R184); the answer gives the row's relative error. -/
def Dev.putMx (x : Ctx) (d : Dev) (a rows t : Nat) (f : Fmt × Nat × Int) (vals : List Nat) : Dev × Nat :=
  let hd := d.shape.d
  let (els, scs) := mxEncode f vals
  let back := els.zipIdx.map fun p => mxVal f.1 (getAt 0 (p.2 / 32) scs) p.1
  ((d.st x (a + t * hd * f.2.1 / 8) (hd * f.2.1 / 8) (packCodes f.2.1 els)).stBytes x (a + rows * hd * f.2.1 / 8 + t * (hd / 32)) scs, relErr vals back)

/-- Export the rows of one head-layer: the largest relative error, and whether every row could be read. -/
def Dev.exportRows (x : Ctx) (d : Dev) (o : ImpExp) (fk fv : Fmt × Nat × Int) (p : Nat × Nat × Nat × Nat) (acc : Nat × Bool) : Dev × Nat × Bool :=
  let (l, h, ka, va) := p
  (List.range o.rows).foldl (fun (a : Dev × Nat × Bool) t =>
    match a.1.tokenRow x o.idx l h (o.start + t) with
    | none => (a.1, a.2.1, false)
    | some (k, v) =>
      let (d, ek) := a.1.putMx x ka o.rows t fk k
      let (d, ev) := d.putMx x va o.rows t fv v
      (d, fmax a.2.1 (fmax ek ev), a.2.2)) (d, acc)

/-- The work of an import or export ends (R184, R185). -/
def Dev.endMx (x : Ctx) (d : Dev) (o : ImpExp) : Dev :=
  let d := { d with kv := { d.kv with impexp := d.kv.impexp.filter fun p => p.idx != o.idx } }
  match mxFmt o.fmtK, mxFmt o.fmtV with
  | some fk, some fv =>
    if o.import_ then d.source x o.cmd o.buf (d.mxBytes o.rows o.fmtK o.fmtV) fun d => d.importEnd x o fk fv
    else
      let (d, err, ok) := (d.mxPlaces o fk fv).foldl (fun (a : Dev × Nat × Bool) p => a.1.exportRows x o fk fv p a.2) (d, 0, true)
      if ok then d.finish x o.cmd .DONE err
      else
        let d := d.reportUnread x o.idx (.sess o.idx) (d.desc o.idx).commitLen
        let pfx := (d.desc o.idx).prefixId
        (if pfx == 0xFFFFFFFF then d else d.reportUnread x o.idx (.pfx pfx) 0).finish x o.cmd .FAULT_MEDIA 0
  | _, _ => d

/-- The BULK work of a KV_IMPORT or KV_EXPORT finishes (R184, R185). -/
def execKvImportExportEnd (idx : Nat) (s : State) : Host.Outcome State Fault Refusal :=
  s.run fun x d => match d.kv.impexp.find? fun o => o.idx == idx with
    | some o => d.endMx x o
    | none => d

end Sys2Proof.Machine
end

