-- ==== Sys2Proof/Machine/Reset.lean ====
section
/-! DEFINITION. Machine/Reset.lean: power-on, cold and warm resets, what each clears and keeps, failed starts, and the recovery of HBM
after a warm start (R605, R606, R614 to R617, R632). -/

namespace Sys2Proof.Machine

/-- Registers that a warm reset keeps: the MSI-X table and pending bits, as the HP link and configuration space stay (R616). -/
def msixKept (off : Nat) : Bool := (regRowAt off).any fun r => r.base == Reg.msixCtrl 0 || r.base == Reg.msixPba 0 || (0x1880000 ≤ off && off < 0x18A0000)

/-- The values that decide HBM_KEPT: the shape record and the bases (R616). -/
def Dev.keptKey (d : Dev) : KeptKey :=
  ⟨d.shape.record, [d.reg Reg.sessTableBase, d.reg Reg.sessManifestBase, d.reg Reg.textAreaBase, d.reg Reg.tailShadowBase, d.reg Reg.beltHeapBase]⟩

/-- HBM of every fitted stack as (base, end). -/
def hbmRanges (p : Part) : List (Nat × Nat) := p.fittedStacks.map fun s => (s * stackBytes, (s + 1) * stackBytes)

/-- SRAM and staging of a quadrant as (base, end). -/
def sramRanges (q : Nat) : List (Nat × Nat) :=
  [(0x400000000000 + q * 0x18000000, 0x400000000000 + (q + 1) * 0x18000000),
   (0x400100000000 + q * 0x1800000, 0x400100000000 + (q + 1) * 0x1800000)]

/-- The contents of some ranges are lost: their bytes read free values, and no word of them is held bad. -/
def Dev.loseBytes (d : Dev) (rs : List (Nat × Nat)) : Dev :=
  let bad := d.err.bad.filter fun b => !(inRanges b.addr rs)
  { d with err := { d.err with bad := bad }, writes := rs.map (fun r => MemOp.stale r.1 r.2) ++ d.writes }

/-- Every quadrant's SRAM and staging. -/
def allSram : List (Nat × Nat) := (List.range 4).flatMap sramRanges

/-- The parts of BOOT_STAT after a reset of a kind: FAIL_CNT and the last code stay but at power-on, LAST_RESET takes the cause (R605,
R614, R616). -/
def Dev.bootStat (d : Dev) (old : Dev) (cause : Nat) : Dev :=
  ((((d.setFld Reg.chipBootStat 26 2 (old.fld Reg.chipBootStat 26 2)).setFld Reg.chipBootStat 8 8 (old.fld Reg.chipBootStat 8 8)).setFld
    Reg.chipBootStat 16 4 cause).setReg Reg.chipBootDetail (old.reg Reg.chipBootDetail)).setReg Reg.chipStraps (old.reg Reg.chipStraps)

/-- The tenant epoch after power-on or a cold reset (R632). -/
def SecSt.fresh (s : SecSt) (rnd : Nat) : SecSt :=
  { s with epoch := rnd % 2 ^ 32 * 2 ^ 32 + 1, tenant := 0, storeKey := none, debugLevel := 0, mrs := List.replicate 8 0, mlog := [],
           mcount := 0, mOvf := false, debugUsed := false, zeroing := [], zeroDone := 0 }

/-- The chain position and its register through a reset that keeps it (R612, R616). -/
def Dev.keepChain (d : Dev) (old : Dev) : Dev :=
  (d.setFld Reg.chipMchStat 31 1 (old.fld Reg.chipMchStat 31 1)).setFld Reg.chipMchStat 0 5 (old.fld Reg.chipMchStat 0 5)

/-- The retirement list in flash: slots that are not listed there are forgotten (R304, R616, R691). -/
def Dev.listedOnly (old : Dev) : Pool :=
  let keep := old.kv.pool.retired.filter (·.listed)
  let pcs := old.kv.pool.retiredPcs.filter fun pc => 256 ≤ (keep.filter fun r => pcOf r.addr == pc).length
  { Dev.reset.kv.pool with retired := keep, retiredPcs := pcs }

/-- What every reset leaves alone: flash and the retirement list, fused state, what has been sent, the free values drawn. -/
def Dev.blank (old : Dev) : Dev :=
  let r := Dev.reset
  { r with free := old.free, wire := old.wire, writes := old.writes,
           kv := { r.kv with pool := old.listedOnly },
           sec := { r.sec with svnFloor := old.sec.svnFloor },
           boot := { r.boot with flash := old.boot.flash, testMode := old.boot.testMode } }

/-- What a reset of the logic leaves of timekeeping, as device time goes on (R60, R616): CAL_VALID since power-on, HOLDOVER, REF_LOST until software
clears it, SRC, and the chip timekeeper with its TRIM (R66, R68, R69). The quadrants align anew (R63). -/
def Dev.keepTime (d : Dev) (old : Dev) : Dev :=
  let d : Dev := { d with time := { d.time with chip := old.time.chip, sourceLost := old.time.sourceLost } }
  (d.setReg Reg.chipTkStatus (old.reg Reg.chipTkStatus % 32)).setReg Reg.chipTkTrim (old.reg Reg.chipTkTrim)

/-- Step 1 of a start (R600, R602): under neighbour push every port is brought up, with reset values. -/
def Dev.beginStart (d : Dev) : Dev :=
  let d : Dev := { d with boot := { d.boot with started := d.now, stageAt := d.now } }
  if d.fld Reg.chipStraps 0 2 == 2 then (List.range 8).foldl (fun (d : Dev) p => d.setFld (Reg.cvfStat p) 29 3 1) d else d

/-- ALERT_N goes to high impedance where it was asserted (R620). -/
def Dev.alertOff (d : Dev) (old : Dev) : Dev :=
  if old.stage == 15 || bit (old.reg Reg.pmcStat) 31 then d.send (.pin .alertN true) else d

/-- Power-on reset (R614, R616, R632): everything but flash and fuses is lost, and device time restarts at 0. -/
def Dev.powerOn (x : Ctx) (old : Dev) (rnd : Nat) : Dev :=
  let d := old.blank
  let d := if old.pmc.tripped then d.send (.pin .thermtripN true) else d
  (({ d with sec := d.sec.fresh rnd } : Dev).alertOff old).loseBytes (hbmRanges x.fuses.part ++ allSram)

/-- A cold reset (R614, R616, R632): device time, the failed-start count and the error logs stay. Memory is lost: the epoch is new. -/
def Dev.coldReset (x : Ctx) (old : Dev) (cause rnd : Nat) : Dev :=
  let d := old.blank
  let err := { d.err with logs := old.err.logs, bad := old.err.bad, lastVec0 := old.err.lastVec0 }
  let d : Dev := { d with now := old.now, err := err, sec := d.sec.fresh rnd,
                          tier := { d.tier with voided := old.tier.voided ++ old.tier.lent.map (fun l => (l.peer, l.number)) }, pmc := { d.pmc with tripped := old.pmc.tripped },
                          boot := { d.boot with started := old.now, stageAt := old.now, strapIn := old.boot.strapIn } }
  (((d.bootStat old cause).keepTime old).alertOff old).loseBytes (hbmRanges x.fuses.part ++ allSram)

/-- A warm reset (R614 to R617): the start begins again while HBM keeps what it holds, and the records of it are kept for CONFIG. SRAM
and staging are lost. DEDUCED (log 41): zeroing that a tenant switch began goes on after the start. -/
def Dev.warmReset (_ : Ctx) (old : Dev) (cause : Nat) : Dev :=
  let d := old.blank
  let logs := { d.err with logs := old.err.logs, bad := old.err.bad, lastVec0 := old.err.lastVec0, deadStacks := [] }
  let hif := { d.hif with hp := old.hif.hp, ppSerials := old.hif.ppSerials, eid := old.hif.eid, tid := old.hif.tid,
                          eventReceiver := old.hif.eventReceiver, recovery := old.hif.recovery,
                          meterCarry := old.hif.meterCarry }
  let sec := { d.sec with epoch := old.sec.epoch, tenant := old.sec.tenant, storeKey := old.sec.storeKey, zeroing := old.sec.zeroing,
                          zeroDone := old.sec.zeroDone, debugUsed := old.sec.debugUsed }
  let past := old.stage == 7 || old.stage == 8
  let boot := { d.boot with cold := old.boot.cold && !past, started := old.now, stageAt := old.now, strapIn := old.boot.strapIn,
                            posAssigned := old.boot.posAssigned, kept := if past then some old.keptKey else old.boot.kept,
                            heldPerst := old.boot.heldPerst, heldWarm := old.boot.heldWarm, chain := old.boot.chain,
                            chain2 := old.boot.chain2 }
  let kv := { old.kv with pool := { old.kv.pool with retired := d.kv.pool.retired, retiredPcs := d.kv.pool.retiredPcs } }
  let d : Dev := { d with now := old.now, err := logs, hif := hif, sec := sec, boot := boot, sess := old.sess, kv := kv, tier := old.tier,
                          attn := { d.attn with rings := old.attn.rings }, pmc := { d.pmc with tripped := old.pmc.tripped },
                          tail := { d.tail with variants := old.tail.variants, grammars := old.tail.grammars },
                          text := { old.text with engines := d.text.engines },
                          rcl := { old.rcl with engines := d.rcl.engines, scanOffline := [], queries := [], dropWait := [] },
                          ckpt := old.ckpt, cvf := { d.cvf with nextMsg := old.cvf.nextMsg } }
  let d : Dev := { d with regs := old.regs.filter fun r => msixKept r.1 }
  let d := d.setFld Reg.ckptRunStat 27 1 (old.fld Reg.ckptRunStat 27 1)
  let d := ((d.bootStat old cause).keepTime old).keepChain old
  let ups := (List.range 8).filter fun p => 3 ≤ old.fld (Reg.cvfStat p) 29 3
  let d := ups.foldl (fun (d : Dev) p => d.send (.cvfFlit p "DOWN" [])) d
  (if old.boot.heldPerst || old.boot.heldWarm then d else d.beginStart).loseBytes allSram

/-- Enter a start-up stage; its timeout runs anew (R602). -/
def Dev.enterStage (d : Dev) (n : Nat) : Dev := ({ d with boot := { d.boot with stageAt := d.now } } : Dev).setFld Reg.chipBootStat 28 4 n

/-- Eclipse mode (R606, R620): nothing but HP configuration space, the recovery mailbox and chain forwarding goes on; ALERT_N is
asserted. -/
def Dev.enterEclipse (d : Dev) : Dev :=
  let d := (List.range 8).foldl (fun (d : Dev) p => d.setFld (Reg.cvfStat p) 29 3 0) d
  (d.enterStage 15).send (.pin .alertN false)

/-- A start fails with a code and a detail (R605, R606). -/
def Dev.failStart (x : Ctx) (d : Dev) (code detail : Nat) : Dev :=
  let n := min (d.fld Reg.chipBootStat 26 2 + 1) 3
  let d := ((d.setFld Reg.chipBootStat 8 8 code).setReg Reg.chipBootDetail detail).setFld Reg.chipBootStat 26 2 n
  let d := d.report chipSource 0x71 3 code
  let d := d.warmReset x 6
  if n == 3 then d.enterEclipse else d

/-- The chip level of the recovery ladder (R693): a warm reset once the device is operational, a failed start before. -/
def Dev.chipLevel (x : Ctx) (d : Dev) (core : Nat) : Dev :=
  if d.operational then d.warmReset x 5 else if d.eclipse then d else d.failStart x 0x24 core

/-! ### Recovery of a kept HBM (R617) -/

/-- A session after the warm start. Work that had commands in flight posts nothing, as no queue exists. -/
def Dev.recoverSession (x : Ctx) (d : Dev) (i : Nat) : Dev :=
  let s := d.desc i
  match s.state, s.sub with
  | .hot, _ =>
    let n := match d.stepRec i with | some r => r.streamed | none => 0
    let late := match d.binding i with | some b => [(b.channel, d.handleOf i, s.stepSeq + 1, n)] | none => []
    let d : Dev := { d with text := { d.text with bindings := d.text.bindings.filter (fun b => b.idx != i), late := d.text.late ++ late } }
    (d.rollback x i .CANCELLED false).1
  | .transit, .movingOut => d
  | .transit, .movingIn => ((d.freeResident i).voidIdx x i s.gen)
  | .transit, _ => match d.tier.parks.find? fun p => p.idx == i with
    | some p => d.endPark x { p with cmd := none, ring := none } .CANCELLED
    | none => d.setState x i .idle .none
  | .reviving, _ => match d.tier.revives.find? fun r => r.idx == i with
    | some r => d.endRevive x { r with cmd := none, ring := none } .CANCELLED
    | none => d.setState x i .parked .none
  | .closing, _ => d.endSession x i
  | _, _ => d

/-- A ring after the warm start: broken, with its bindings (R240, R617). -/
def Ring.afterReset (r : Ring) : Ring :=
  { r with state := .broken, hellos := [], shadow := [], reopening := false, cmd := none, ops := [] }

/-- What descriptors that failed their check left allocated is freed: the pool is rebuilt from live page tables (R96, R251). -/
def Dev.dropLeaks (d : Dev) : Dev :=
  let d := (d.freeSlots ((d.kv.pool.used.filter fun u => u.key.owner == leakOwner).map (·.addr))).freeAreas fun u => u.owner == leakOwner
  { d with sess := { d.sess with leaked := (0, 0) } }

/-- The references of every prefix are counted anew from the live descriptors, beside the one of its load; a prefix without any is freed (R96, R181). -/
def Dev.recount (d : Dev) : Dev :=
  let refs := fun (p : Prefix) => (d.sess.table.filter fun s => s.2.state != .void && s.2.prefixId == p.id).length + ofB p.loadRef
  let d : Dev := { d with kv := { d.kv with prefixes := d.kv.prefixes.map fun p => { p with refs := refs p } } }
  ((d.kv.prefixes.filter fun p => p.refs == 0).map (·.id)).foldl (fun (d : Dev) p => d.freePrefix p) d

/-- The parked copies that live sessions' manifests name. -/
def Dev.namedTargets (x : Ctx) (d : Dev) : List Target :=
  d.tier.manifests.flatMap fun m => if (d.desc m.1).state == .void || d.manifestBad x m.1 then [] else m.2.targets

/-- The pools are rebuilt from what live tables and manifests name (R96, R251, R269): space that waited for a release, what passes and trials had taken, and
areas that no manifest names are free. -/
def Dev.rebuildPools (x : Ctx) (d : Dev) : Dev :=
  let d := d.kv.releases.foldl (fun (d : Dev) _ => d.releaseFrames x fun _ => true) d
  let d := d.freeSlots ((d.kv.pool.used.filter fun u => u.key == workKey).map (·.addr))
  let ts := d.namedTargets x
  let named := fun (tier a : Nat) => ts.any fun t => t.tier == tier && t.location == a
  { d with tier := { d.tier with t2 := d.tier.t2.filter (fun a => named 2 a.1), t3 := d.tier.t3.filter (fun a => named 3 a.1) } }.dropLeaks

/-- The CONFIG stage recovers what HBM kept (R617). -/
def Dev.recover (x : Ctx) (d : Dev) : Dev :=
  let d := d.sess.table.foldl (fun (d : Dev) s => d.recoverSession x s.1) d
  let outs := d.tier.movesOut.map fun m => { m with cmd := none, cancel := none, ring := none, sentAll := true }
  let d : Dev := { d with sess := { d.sess with cache := [], batches := [], steps := [], bookings := [] },
                          attn := { d.attn with rings := d.attn.rings.map Ring.afterReset },
                          text := { d.text with streams := [], channels := [], bindings := [] } }
  let d : Dev := { d with tier := { d.tier with undo := [], offers := [], parks := [], revives := [], movesIn := [], offersWaiting := [], movesOut := outs, lent := [],
                                                voided := d.tier.voided ++ d.tier.lent.map (fun l => (l.peer, l.number)),
                                                evacuating := [], pins := [], reviveWaiters := [],
                                                borrowed := d.tier.borrowed.map fun l => { l with revoking := none, reachable := false } },
                          kv := { d.kv with prefixes := d.kv.prefixes.map (fun p => { p with pinned := false }),
                                            passes := d.kv.passes.map (fun p => { p with running := none }), fades := [], captures := [],
                                            impexp := [], staged := [], stepPages := [],
                                            pool := { d.kv.pool with reserved := [], reservedBlocks := [] } } }
  let d := d.abandonRun x .CANCELLED
  let d : Dev := { d with rcl := { d.rcl with queries := [], dropWait := [],
                                              compactions := (d.rcl.compactions.filter fun c => c.cmd.isNone).map fun c => { c with started := false } } }
  let gone := d.rcl.indexes.filter fun i => i.2.state == .dropping
  let d := gone.foldl (fun (d : Dev) i => d.settleDrop x i.1) d
  (d.rebuildPools x).recount.setFld Reg.chipBootStat 23 1 1

/-- HBM as after a cold reset: the session table is VOID and nothing that lay in HBM is known (R616, R617). -/
def Dev.forget (d : Dev) : Dev :=
  let r := Dev.reset
  let d := d.setFld Reg.ckptRunStat 27 1 0
  { d with sess := r.sess, kv := { r.kv with shape := d.kv.shape, pool := { r.kv.pool with retired := d.kv.pool.retired, retiredPcs := d.kv.pool.retiredPcs } },
           tier := { r.tier with lendList := d.tier.lendList }, attn := { d.attn with rings := [] },
           tail := { d.tail with variants := [], grammars := [] }, text := { r.text with engines := d.text.engines },
           rcl := { r.rcl with engines := d.rcl.engines }, ckpt := r.ckpt }

end Sys2Proof.Machine
end

