-- ==== Sys2Proof/Machine/Image.lean ====
section
/-! DEFINITION. Machine/Image.lean: flash, the firmware bundle, the JVG image and the configuration checker (R591 to R598, R607, R643). -/

namespace Sys2Proof.Machine

/-! ### Flash (R591, R592) -/

/-- A byte of flash: an erased byte reads 0xFF. -/
def Dev.flashByte (d : Dev) (a : Nat) : Nat := (tblGet a d.boot.flash).getD 0xFF

/-- Flash bytes as a little-endian number. -/
def Dev.flashLd (d : Dev) (a : Nat) : Nat → Nat
  | 0 => 0
  | n + 1 => d.flashByte a + 256 * d.flashLd (a + 1) n

/-- Program flash bytes. -/
def Dev.flashSt (d : Dev) (a : Nat) (bs : List Nat) : Dev :=
  let put := fun (f : List (Nat × Nat)) (p : Nat × Nat) => if p.1 % 256 == 0xFF then tblDel (a + p.2) f else tblSet (a + p.2) (p.1 % 256) f
  { d with boot := { d.boot with flash := bs.zipIdx.foldl put d.boot.flash } }

/-- The address of a directory copy (R592). -/
def dirAt (copy : Nat) : Nat := copy * 0x10000

/-- A directory copy that is good. -/
def Dev.dirCopy (d : Dev) (copy : Nat) : Option Nat :=
  if d.flashLd (dirAt copy) 4 != 0x5249444B || d.flashByte (dirAt copy + 4) != 1 then none
  else
    let v := d.flashLd (dirAt copy) 4096
    if bits v (8 * 0xFFC) 32 == crcOf v 0xFFC then some v else none

/-- GEN of a directory. -/
def dirGen (v : Nat) : Nat := bits v 64 32

/-- The directory that the ROM uses and its copy (R592). -/
def Dev.directory (d : Dev) : Option (Nat × Nat) :=
  match d.dirCopy 0, d.dirCopy 1 with
  | some a, some b => if dirGen a < dirGen b then some (1, b) else some (0, a)
  | some a, none => some (0, a)
  | none, some b => some (1, b)
  | none, none => none

/-- The firmware and image places of a slot: offset and size of each. -/
def dirSlot (v s : Nat) : (Nat × Nat) × (Nat × Nat) :=
  let f := fun k => bits v (8 * (16 + 32 * s + 8 * k)) 64
  ((f 0, f 1), (f 2, f 3))

/-- The slots in PREFER order. -/
def dirOrder (v : Nat) : List Nat := if byteOf v 5 == 1 then [1, 0] else [0, 1]

/-! ### Verification (R593, R643) -/

/-- The VERSION of a bundle that verifies: its signature holds and its SVN reaches the fused floor (R643). -/
def Dev.bundleOk (d : Dev) (bytes val : Nat) : Option Nat :=
  if 0x2000000 < bytes then none
  else match Config.bundleVersion bytes val with
    | some v => if d.sec.svnFloor ≤ v / 2 ^ 24 % 256 then some v else none
    | none => none

/-- A section entry of an image: TYPE, OFFSET, BYTES, CRC (R595). -/
structure Section where
  type : Nat
  off : Nat
  bytes : Nat
  crc : Nat

/-- The sections that an image header lists. -/
def imgSections (h : Nat) : List Section :=
  (List.range (min (bits h 96 32) 252)).map fun j =>
    let f := fun k n => bits h (8 * (64 + 16 * j + k)) (8 * n)
    ⟨f 0 1, f 4 4, f 8 4, f 12 4⟩

/-- Whether an image verifies: its last section is a SIGNATURE whose public key has the digest OWNER_HASH and whose signature holds over
the bytes before it (R595, R643). `img` holds the image's bytes as a little-endian number. -/
def imgVerifies (img : Nat) : Bool :=
  match (imgSections (img % 2 ^ 32768)).getLast? with
  | some s =>
    let pk := bits img (8 * s.off) 512
    s.type == 0x7F && Config.sm3 64 pk == Config.ownerHash &&
      Config.sm2Verify pk (Config.sm3 s.off (img % 2 ^ (8 * s.off))) (bits img (8 * s.off + 512) 512)
  | none => false

/-- FW_MIN of an image. -/
def imgFwMin (img : Nat) : Nat := bits img 64 32

/-- The bytes of a section. -/
def secVal (img : Nat) (s : Section) : Nat := bits img (8 * s.off) (8 * s.bytes)

/-- Sections of a TYPE with their index. -/
def secsOf (img type : Nat) : List (Section × Nat) := (imgSections (img % 2 ^ 32768)).zipIdx.filter fun s => s.1.type == type

/-- The fields of the first section of a TYPE. -/
def secFields (img type : Nat) : List Nat :=
  match secsOf img type with
  | s :: _ => Config.sectionFields type s.1.bytes (secVal img s.1)
  | [] => []

/-! ### The register load list (R596) -/

/-- REGS entries as (offset, value, mask). -/
def imgRegs (img : Nat) : List (Nat × Nat × Nat) :=
  (secsOf img 0x02).flatMap fun s =>
    let v := secVal img s.1
    (List.range (s.1.bytes / 16)).map fun k => (bits v (128 * k) 32, bits v (128 * k + 32) 32, bits v (128 * k + 64) 32)

/-- Whether an entry names only RWL fields (R596; no RW field is stated to be loaded from the image). -/
def regLoadable (e : Nat × Nat × Nat) : Bool :=
  match regRowAt e.1 with
  | some r => (BitVec.ofNat 32 e.2.2 &&& ~~~r.rwl) == 0
  | none => false

/-- Apply one entry (R596). -/
def Dev.loadReg (d : Dev) (e : Nat × Nat × Nat) : Dev :=
  d.setReg e.1 ((BitVec.ofNat 32 (d.reg e.1) &&& ~~~(BitVec.ofNat 32 e.2.2)) ||| (BitVec.ofNat 32 e.2.1 &&& BitVec.ofNat 32 e.2.2)).toNat

/-- The resident shape of an image (R2, R435, R595); the record is the first 64 B of the section. -/
def imgShape (img : Nat) : Option Shape :=
  match secsOf img 0x03 with
  | s :: _ =>
    let v := secVal img s.1
    let f := Config.sectionFields 0x03 s.1.bytes v
    let g := fun i => getAt 0 i f
    some { layers := g 0, hkv := g 1, g := g 2, d := g 3, vocab := g 4, shapeId := crcOf (v % 2 ^ 512) 64, record := v % 2 ^ 512, layerBase := g 5 }
  | [] => none

/-- The device with the image's registers and shape, as the checker looks at them. -/
def Dev.planned (d : Dev) (img : Nat) : Dev :=
  let d := (imgRegs img).foldl Dev.loadReg d
  { d with kv := { d.kv with shape := imgShape img } }

/-! ### The configuration checker (R607) -/

/-- A field with its least and greatest valid value: (offset, low bit, bits, least, greatest). -/
abbrev FieldRange := Nat × Nat × Nat × Nat × Nat

/-- Valid ranges of single fields (R47, R145, R245, R258, R305, R351, R415, R448, R510, R552). -/
def rangesA : List FieldRange :=
  [(Reg.chipEclCtl, 0, 3, 0, 4), (Reg.sessCacheCtl, 0, 8, 1, 0x40), (Reg.sessBatchTo, 0, 16, 1, 0xFFFF),
   (Reg.sessLedgerCtl, 16, 8, 0x0A, 0x64), (Reg.sessLedgerCtl, 8, 8, 0, 0x32), (Reg.sessLedgerCtl, 0, 8, 1, 0x0A),
   (Reg.sessAttnCtl, 16, 8, 1, 0x40), (Reg.sessAttnCtl, 8, 8, 8, 0x16), (Reg.sessOrbitCtl, 16, 8, 0, 0x32),
   (Reg.sessOrbitCtl, 0, 16, 0x100, 0x4E20), (Reg.sessOrbitTo, 0, 16, 1, 0xFFFF), (Reg.sessGslSize, 0, 16, 1, 0xFFFF),
   (Reg.sessPtaSize, 0, 16, 1, 0xFFFF), (Reg.sessMoveCtl, 8, 8, 1, 8), (Reg.sessMoveTo, 16, 16, 1, 0xFFFF),
   (Reg.sessMoveTo, 0, 16, 1, 0xFFFF), (Reg.sessKvCtl, 0, 4, 0, 8), (Reg.sessKvFade, 30, 2, 0, 2), (Reg.tailVarCtl, 0, 8, 1, 0x80),
   (Reg.tailHookCtl, 0, 16, 0x100, 0x4E20)]

@[inherit_doc rangesA] def rangesB : List FieldRange :=
  [(Reg.ckptCtl, 0, 8, 1, 0x80), (Reg.ckptWarnCtl, 16, 16, 1, 0xFFFF), (Reg.ckptJournal, 0, 16, 1, 0x4000), (Reg.ckptRunTo, 0, 16, 1, 0xFFFF),
   (Reg.fabFabCtl, 24, 4, 1, 0xF), (Reg.fabFabCtl, 0, 8, 8, 0xFF), (Reg.hifHrqCtl, 0, 16, 1, 0xFFFF), (Reg.chipWdtCtl, 0, 8, 2, 0x64),
   (Reg.pmcVctl, 30, 2, 0, 2), (Reg.pmcVctl, 8, 8, 0x96, 0xAA), (Reg.pmcVctl, 0, 8, 0x78, 0x82), (Reg.pmcPkgLimit, 0, 16, 0x4B0, 0x5DC),
   (Reg.pmcQtrip, 16, 8, 0x69, 0x70), (Reg.pmcQtrip, 8, 8, 0x5A, 0x68), (Reg.pmcQtrip, 0, 8, 0x50, 0x64), (Reg.pmcStrip, 16, 8, 0x5A, 0x64),
   (Reg.pmcStrip, 8, 8, 0x55, 0x5E), (Reg.pmcBulkDuty, 0, 8, 0x0A, 0x64), (Reg.errlogScrubCtl, 16, 16, 1, 0xA8),
   (Reg.errlogScrubCtl, 0, 16, 0x3C, 0xA8C0), (Reg.errlogSramCtl, 0, 8, 1, 0xFF), (Reg.errlogQrstLimit, 0, 8, 1, 0x10)]

/-- Valid ranges on each port (R451, R508). -/
def rangesPort (p : Nat) : List FieldRange :=
  [(Reg.cvfCtl p, 28, 2, 0, 1), (Reg.cvfCtl p, 20, 4, 0, 2), (Reg.cvfRetryCtl p, 16, 8, 1, 0xFF), (Reg.cvfRetryCtl p, 8, 8, 1, 0xFF), (Reg.cvfRetryCtl p, 0, 8, 2, 0x40),
   (Reg.cvfShapeCtl p, 16, 16, 0x100, 0xFFFF), (Reg.cvfShapeCtl p, 0, 8, 1, 0xFF)] ++
  (List.range 6).flatMap fun c => (List.range 4).flatMap fun q => [(Reg.cvfQuantaA p c, 8 * q, 8, 1, 0xFF), (Reg.cvfQuantaB p c, 8 * q, 8, 1, 0xFF)]

/-- Valid ranges of the HP shaper, which has the registers of a port's (R505, R508). -/
def rangesHp : List FieldRange :=
  [(Reg.hpsShapeCtl, 16, 16, 0x100, 0xFFFF), (Reg.hpsShapeCtl, 0, 8, 1, 0xFF)] ++
  (List.range 6).flatMap fun c => (List.range 4).flatMap fun q => [(Reg.hpsQuantaA c, 8 * q, 8, 1, 0xFF), (Reg.hpsQuantaB c, 8 * q, 8, 1, 0xFF)]

/-- Valid ranges of Recall and of the Belt (R415, R587), where the part has them. -/
def rangesUnits (p : Part) : List FieldRange :=
  (if p.hasRecall then [(Reg.recallArea, 0, 8, 0, 0x30), (Reg.recallCtl, 16, 16, 1, 0xEA60), (Reg.recallCtl, 8, 8, 0x0A, 0x5A),
    (Reg.recallCtl, 0, 8, 5, 0x64)] else []) ++
  (if p.hasBelt then [(Reg.beltPartCtl, 0, 8, 0, 0x80), (Reg.beltHeapSize, 0, 16, 1, 0xFFFF), (Reg.beltWaitCtl, 0, 16, 1, 0xFFFF),
    (Reg.beltStackSize 0, 0, 5, 0x0C, 0x14), (Reg.beltStackSize 1, 0, 5, 0x0C, 0x14)] else [])

/-- Every valid range of a part. -/
def fieldRanges (p : Part) : List FieldRange := rangesA ++ rangesB ++ (List.range 8).flatMap rangesPort ++ rangesHp ++ rangesUnits p

/-- The offset of the first field outside its range. -/
def Dev.rangeFault (d : Dev) (rs : List FieldRange) : Option Nat :=
  (rs.find? fun r => let v := d.fld r.1 r.2.1 r.2.2.1; v < r.2.2.2.1 || r.2.2.2.2 < v).map (·.1)

/-- A fault of the checker: its code and DETAIL. -/
abbrev Fault' := Nat × Nat

/-- The first of some tests that fails: (fails, code, DETAIL). -/
def firstFault (ts : List (Bool × Fault')) : Option Fault' := (ts.find? (·.1)).map (·.2)

/-- IMG_FORMAT and IMG_PART (R595, R607). -/
def formatFault (f : Fuses) (img : Nat) : Option Fault' :=
  let bytes := bits img 128 64
  let secs := imgSections (img % 2 ^ 32768)
  let pbit := match f.part with | .yvs1152 => 0 | .yvs768 => 1 | .yvs576 => 2
  let bad := secs.zipIdx.find? fun s => bytes < s.1.off + s.1.bytes || crcOf (secVal img s.1) s.1.bytes != s.1.crc
  firstFault
    [(bits img 0 32 != 0x4947564A || bits img 32 8 != 1 || bits img 96 32 == 0 || decide (252 < bits img 96 32) || decide (0x20000000 < bytes), 0x04, 0),
     (bad.isSome, 0x04, match bad with | some s => s.2 | none => 0),
     (!(bit (bits img 40 8) pbit) || decide (f.revision < bits img 48 8), 0x05, 0)]

/-- ABSENT_UNIT (R18, R246, R258, R589, R607): a unit's registers or section, OFFLOAD_EN without compute stacks, RECALL_MIB without Recall. -/
def absentFault (x : Ctx) (img : Nat) : Option Fault' :=
  let e := (imgRegs img).find? fun e => absentBlock x.fuses.part e.1
  let b := if x.fuses.part.hasBelt then none else (secsOf img 0x09).head?
  let r := if x.fuses.part.hasRecall then none
    else (List.range 4).find? fun q => (imgRegs img).any fun e => e.1 == Reg.qdSramPartA q && bits (e.2.1 &&& e.2.2) 0 8 != 0
  firstFault
    [(e.isSome, 0x10, match e with | some e => e.1 | none => 0), (b.isSome, 0x10, match b with | some b => b.2 | none => 0),
     (x.fuses.part.computeStacks.isEmpty && ((imgRegs img).any fun e => e.1 == Reg.sessAttnCtl && bit (e.2.1 &&& e.2.2) 0), 0x10, Reg.sessAttnCtl),
     (r.isSome, 0x10, Reg.qdSramPartA (r.getD 0))]

/-- Further RANGE rules of single registers (R187, R306, R353, R417, R449, R502, R660, R673). -/
def Dev.rangeRules (x : Ctx) (d : Dev) : Option Fault' :=
  let b := d.reg Reg.sessKvFadeBud
  let water := fun k => d.fld Reg.sessPoolWater (8 * k) 8
  let first := d.fld Reg.sessMoveCtl 0 3
  let last := d.fld Reg.sessMoveCtl 4 3
  let q := fun lo => d.fld Reg.pmcQtrip lo 8
  let masks := match d.kv.shape with
    | some s => 4 * d.fld (Reg.qdSramPartA 0) 8 8 * 0x100000 / max 256 (cdiv (s.vocab / 8) 256 * 256) < 64
    | none => false
  firstFault
    [(d.fld Reg.sessKvFade 30 2 == 2 && decide (d.fld Reg.sessKvFade2 0 16 < d.fld Reg.sessKvFade 0 16), 0x11, Reg.sessKvFade2),
     (b == 0 || bit b 31 || bits b 23 8 == 0xFF, 0x11, Reg.sessKvFadeBud),
     (!(decide (water 0 < water 1) && decide (water 1 ≤ water 2) && decide (water 2 < water 3) && decide (water 3 ≤ 0x50)), 0x11, Reg.sessPoolWater),
     (first == 0 || decide (4 < first) || decide (last < first) || decide (4 < last), 0x11, Reg.sessMoveCtl),
     (bit (d.reg Reg.sessLendCtl) 31 && d.fld Reg.sessLendCtl 0 16 == 0, 0x11, Reg.sessLendCtl),
     (x.fuses.part.hasRecall && d.fld Reg.recallArea 0 8 == 0 && d.fld (Reg.qdSramPartA 0) 0 8 != 0, 0x11, Reg.recallArea),
     (decide (gib - 0x10000000 < 2 * d.fld Reg.ckptJournal 0 16 * 1024 * 16), 0x11, Reg.ckptJournal),
     (!(decide (q 0 < q 8) && decide (q 8 < q 16)), 0x11, Reg.pmcQtrip),
     (!(decide (85 < d.fld Reg.pmcStrip 8 8) && decide (d.fld Reg.pmcStrip 8 8 < d.fld Reg.pmcStrip 16 8)), 0x11, Reg.pmcStrip),
     (bit (d.reg Reg.sessLedgerCtl) 31 && decide (d.fld Reg.pmcPkgLimit 0 16 < 1400), 0x11, Reg.pmcPkgLimit),
     (masks, 0x11, Reg.qdSramPartA 0)]

/-- RANGE on the ports and the Belt's windows (R451, R589, R648). -/
def Dev.rangeUnits (x : Ctx) (d : Dev) : Option Fault' :=
  let clear := (List.range 8).find? fun p => d.fld (Reg.cvfCtl p) 28 2 == 0 && !(bit (d.reg Reg.secLinkPol) p)
  let width := (List.range 8).find? fun p => !([1, 2, 4, 8].contains (d.fld (Reg.cvfCtl p) 24 4))
  let heap := (d.heapBase, d.heapBase + d.fld Reg.beltHeapSize 0 16 * gib)
  let within := fun (r : Nat × Nat) (a n : Nat) => r.1 ≤ a && a + n ≤ r.2
  let win := ((List.range 2).flatMap fun p => (List.range 8).map fun w => (p, w)).find? fun k =>
    let base := d.fld (Reg.beltWinHi k.1 k.2) 0 16 * 2 ^ 32 + d.fld (Reg.beltWinLo k.1 k.2) 12 20 * 4096
    let n := d.reg (Reg.beltWinSize k.1 k.2) * 4096
    let perm := d.fld (Reg.beltWinPerm k.1 k.2) 0 3
    n != 0 && (perm == 0 || 2 ^ 48 < base + n || (bit perm 2 && !(within heap base n)) ||
      (bit perm 1 && !(within heap base n) && !(within (d.ringBase, d.ringBase + gib) base n)))
  let stack := (List.range 2).find? fun p =>
    let n := (d.partCores p).2 * 64 * 2 ^ d.fld (Reg.beltStackSize p) 0 5
    n != 0 && !(within heap (d.reg (Reg.beltStackBase p) * 0x10000) n)
  firstFault
    [(width.isSome, 0x11, Reg.cvfCtl (width.getD 0)), (clear.isSome, 0x11, Reg.cvfCtl (clear.getD 0)),
     (x.fuses.part.hasBelt && win.isSome, 0x11, Reg.beltWinLo (win.getD (0, 0)).1 (win.getD (0, 0)).2),
     (x.fuses.part.hasBelt && stack.isSome, 0x11, Reg.beltStackBase (stack.getD 0))]

/-- RANGE: entries outside R596, fields outside their range, and the pool section (R553, R607). -/
def Dev.rangeCheck (x : Ctx) (d : Dev) (img : Nat) : Option Fault' :=
  match (imgRegs img).find? fun e => !(regLoadable e) with
  | some e => some (0x11, e.1)
  | none => match d.rangeFault (fieldRanges x.fuses.part) with
    | some o => some (0x11, o)
    | none =>
      let pool := secFields img 0x04
      let decs := (chunksOf 2 16 (pool.drop 1))
      let badPool := 8 < getAt 0 0 pool || 8 < decs.length ||
        decs.any fun k => getAt 0 0 k % gib != 0 || getAt 0 0 k < 0x800000000000 || 0x840000000000 < getAt 0 0 k + getAt 0 1 k * gib
      if !pool.isEmpty && badPool then some (0x11, match secsOf img 0x04 with | s :: _ => s.2 | [] => 0)
      else (d.rangeRules x).or (d.rangeUnits x)

/-- The base field of each region of R250, in the order of Dev.regions. -/
def regionOffsets : List Nat :=
  [0, Reg.sessTableBase, Reg.sessManifestBase, Reg.sessPfxBase, Reg.sessGslBase, Reg.sessPtaBase, Reg.tailShadowBase, Reg.textAreaBase,
   Reg.ckptBufBase, Reg.hifRingBase, Reg.hifMeterBase]

/-- Whether every byte of a range lies in fitted HBM. -/
def hbmWhole (p : Part) (a n : Nat) : Bool :=
  n == 0 || (List.range ((a + n - 1) / stackBytes - a / stackBytes + 1)).all fun k => p.fittedStacks.contains (a / stackBytes + k)

/-- REGION (R250, R607): the first region outside fitted HBM or over another. -/
def Dev.regionFault (x : Ctx) (d : Dev) : Option Fault' :=
  let rs := (d.regions x).zipIdx
  let off := fun (k : Nat) => getAt (if x.fuses.part.hasBelt && k == 11 then Reg.beltHeapBase else Reg.recallArea) k regionOffsets
  let bad := rs.find? fun r => r.2 != 0 && (!(hbmWhole x.fuses.part r.1.1 r.1.2) ||
    rs.any fun q => q.2 < r.2 && r.1.2 != 0 && q.1.2 != 0 && r.1.1 < q.1.1 + q.1.2 && q.1.1 < r.1.1 + r.1.2)
  bad.map fun r => (0x12, off r.2)

/-- SRAM_PLAN (R255, R257, R607). -/
def Dev.sramFault (x : Ctx) (d : Dev) : Option Fault' :=
  let a := fun q => d.reg (Reg.qdSramPartA q)
  let differs := (rangeFrom 1 3).find? fun q => a q != a 0
  let total := 16 + (if x.fuses.part.hasBelt then 8 else 0) + bits (a 0) 24 8 + bits (a 0) 16 8 + bits (a 0) 8 8 +
    (if x.fuses.part.hasRecall then bits (a 0) 0 8 else 0)
  firstFault
    [(differs.isSome, 0x13, Reg.qdSramPartA (differs.getD 0)), (decide (384 < total), 0x13, Reg.qdSramPartA 0),
     (decide (24 < d.fld Reg.sessAttnCtl 8 8 + d.fld Reg.sessMoveCtl 8 8 + 1), 0x13, Reg.sessAttnCtl)]

/-- TIMEOUT_ORDER (R74, R77, R607). DEDUCED (log 41): a timeout outside its range is a ladder fault too, as R77 names both. -/
def Dev.timeoutFault (d : Dev) (stageMs : Nat) : Option Fault' :=
  let quad := fun q =>
    let cell := d.fld (Reg.qdQctlToCb q) 0 16
    let blk := d.fld (Reg.qdQctlToCb q) 16 16 * 1000
    let drain := d.fld (Reg.qdQctlToDrain q) 0 16 * 1000
    [(decide (cell < 500) || decide (8000 < cell) || decide (blk < 10000) || decide (500000 < blk) || decide (blk < 4 * cell), 0x14, Reg.qdQctlToCb q),
     (decide (drain < 1000000) || decide (50000000 < drain) || decide (drain < 4 * blk) || decide (stageMs * 1000000 < 4 * drain), 0x14,
      Reg.qdQctlToDrain q)]
  firstFault ((List.range 4).flatMap quad ++ [(decide (stageMs < 500) || decide (10000 < stageMs), 0x14, Reg.chipToStage)])

/-- SHAPE (R148, R195, R607). -/
def Dev.shapeFault (d : Dev) (img : Nat) : Option Fault' :=
  let i := match secsOf img 0x03 with | s :: _ => s.2 | [] => 0
  match d.kv.shape with
  | some s => if 512 < s.layers || 64 < s.hkv || s.layers == 0 || s.hkv == 0 || !([1, 2, 4, 8, 16].contains s.g) || !([64, 128, 256].contains s.d)
      then some (0x15, i) else none
  | none => some (0x15, i)

/-- TABLE: a tokenizer, grammar, variant or Belt section that fails its load checks (R387, R607). `base` is where the image lies. -/
def Dev.tableFault (x : Ctx) (d : Dev) (img base : Nat) : Option Fault' :=
  let ok := fun (s : Section) => match s.type with
    | 0x06 => d.tokenizerOk x (base + s.off) && s.bytes ≤ d.fld (Reg.qdSramPartA 0) 16 8 * 0x100000 && s.bytes ≤ 0x4000000
    | 0x07 => d.grammarOk x (base + s.off + 2)
    | 0x08 => d.variantOk x (base + s.off + 2) (s.bytes - 2)
    | 0x09 => bits (secVal img s) 0 64 + (s.bytes - 8) ≤ d.fld Reg.beltHeapSize 0 16 * gib
    | _ => true
  ((imgSections (img % 2 ^ 32768)).zipIdx.find? fun s => !(ok s.1)).map fun s => (0x17, s.2)

/-- FABRIC: R477, R494 and the burst bound of R502, on each port, on HP and for each enabled policer (R505, R511, R607). -/
def Dev.fabricFault (d : Dev) (img : Nat) : Option Fault' :=
  let node := d.fld Reg.fabFabId 5 11
  let set := (imgRegs img).any fun e => e.1 == Reg.fabFabId && e.2.2 / 32 % 2048 != 0
  let rate := (List.range 9).find? fun p => 160000 < d.fld (regRate p 0) 0 24 + d.fld (regRate p 1) 0 24 + d.fld (regRate p 5) 0 24
  let burst := ((List.range 9).flatMap fun p => (List.range 6).map fun c => (p, c)).find? fun k =>
    !(d.burstOk k.1 (d.fld (regRate k.1 k.2) 0 24) (d.fld (regBurst k.1 k.2) 0 24))
  let pol := ((List.range 8).flatMap fun p => (List.range 16).map fun e => (p, e)).find? fun k =>
    bit (d.reg (Reg.cvfPolSrc k.1 k.2)) 31 && !(d.burstOk k.1 (d.fld (Reg.cvfPolRate k.1 k.2) 0 24) (d.fld (Reg.cvfPolBurst k.1 k.2) 0 24))
  firstFault
    [(set && (node == 0 || node == 0x7FF), 0x18, Reg.fabFabId), (rate.isSome, 0x18, regRate (rate.getD 0) 0),
     (burst.isSome, 0x18, regBurst (burst.getD (0, 0)).1 (burst.getD (0, 0)).2),
     (pol.isSome, 0x18, Reg.cvfPolBurst (pol.getD (0, 0)).1 (pol.getD (0, 0)).2)]

/-- TO_STAGE of an image: that of BOOT, or what its registers leave (R77, R595). -/
def Dev.imageStage (d : Dev) (img : Nat) : Nat :=
  match secFields img 0x01 with | t :: _ => t | [] => (d.planned img).fld Reg.chipToStage 0 16

/-- The configuration checker over an image at an address: the first fault in the order of R607. Nothing of the spec's claims a pin,
channel or buffer outside the sharing cases of R608, so CONFLICT never arises. -/
def Dev.checkImage (x : Ctx) (d : Dev) (img base : Nat) : Option Fault' :=
  match formatFault x.fuses img with
  | some f => some f
  | none =>
    let p := d.planned img
    (absentFault x img).or ((p.rangeCheck x img).or ((p.regionFault x).or ((p.sramFault x).or ((p.timeoutFault (d.imageStage img)).or
      ((p.shapeFault img).or ((p.tableFault x img base).or (p.fabricFault img)))))))

end Sys2Proof.Machine
end

