-- ==== Sys2Proof/Machine/Startup.lean ====
section
/-! DEFINITION. Machine/Startup.lean: the reset balls, the stages of a start, its failures, host and neighbour push, and the recovery
mailbox (R590 to R606, R614 to R622, R716). -/

namespace Sys2Proof.Machine

/-! ### Reset sources that are held (R614, R615, R716) -/

/-- Whether the device is held in reset (R614, R716). -/
def Dev.held (d : Dev) : Bool := d.boot.heldPerst || d.boot.heldWarm || d.boot.railsOut

/-- Straps as sampled (R590); CLK_MODE[1] selects the timer source, which SRC shows (R61, R68). -/
def Dev.sampleStraps (d : Dev) (straps : Nat) : Dev :=
  (d.setReg Reg.chipStraps (straps % 16)).setFld Reg.chipTkStatus 4 1 (straps / 8 % 2)

/-- Power-on reset is released: straps and TEST_MODE are sampled and the start begins, unless PERST_N holds the device (R590, R706,
R716). -/
def execPowerOnReset (straps : Nat) (testMode : Bool) (rnd : Nat) (s : State) : Host.Outcome State Fault Refusal :=
  s.run fun x d =>
    let n := d.powerOn x rnd
    let boot := { n.boot with heldPerst := d.boot.heldPerst, heldWarm := d.boot.heldWarm, testMode := testMode }
    (({ n with boot := boot } : Dev).sampleStraps straps).beginStart

/-- A rail out of range asserts power-on reset, over every other reset (R615, R716). -/
def execRailOutOfRange (s : State) : Host.Outcome State Fault Refusal :=
  s.run fun x d =>
    let n := d.powerOn x 0
    { n with boot := { n.boot with heldPerst := d.boot.heldPerst, heldWarm := d.boot.heldWarm, railsOut := true } }

/-- PERST_N falls: a cold reset, held until it rises (R614, R616). In Eclipse mode HP retrains and the device stays there (R606). -/
def execPerstNAssert (s : State) : Host.Outcome State Fault Refusal :=
  s.run fun x d =>
    if d.boot.railsOut then { d with boot := { d.boot with heldPerst := true } }
    else
      let n := d.coldReset x 1 0
      let n : Dev := { n with boot := { n.boot with heldPerst := true, heldWarm := d.boot.heldWarm } }
      if d.eclipse then n.enterEclipse else n

/-- PERST_N rises: straps are sampled, the epoch is fresh, and the start begins (R590, R602, R632). Before the release of power-on reset it
has no effect of its own (R716). -/
def execPerstNDeassert (straps rnd : Nat) (s : State) : Host.Outcome State Fault Refusal :=
  s.run fun _ d =>
    if !d.boot.heldPerst then d
    else
      let d : Dev := { d with boot := { d.boot with heldPerst := false } }
      if d.boot.railsOut then d
      else
        let d := ({ d with sec := d.sec.fresh rnd } : Dev).sampleStraps straps
        if d.eclipse then d else d.beginStart

/-- A warm reset that something asks for: absorbed into a wider one, and without effect in Eclipse mode (R606, R615). -/
def Dev.warmAsked (x : Ctx) (d : Dev) (cause : Nat) : Dev :=
  if d.boot.railsOut || d.boot.heldPerst || d.eclipse then d else d.warmReset x cause

/-- WARM_RST_N falls: a warm reset, held until it rises (R614). -/
def execWarmRstN (s : State) : Host.Outcome State Fault Refusal :=
  s.run fun x d => ({ d with boot := { d.boot with heldWarm := true } } : Dev).warmAsked x 2

/-- WARM_RST_N rises and the start begins (R602, R614). -/
def execWarmRstNRelease (s : State) : Host.Outcome State Fault Refusal :=
  s.run fun _ d =>
    if !d.boot.heldWarm then d
    else
      let d : Dev := { d with boot := { d.boot with heldWarm := false } }
      if d.held || d.eclipse then d else d.beginStart

/-- Software writes RST_CTL.WARM (R614, R623). -/
def execRstCtlWarm (s : State) : Host.Outcome State Fault Refusal :=
  s.run fun x d => d.bar0 x Reg.chipRstCtl fun d => d.warmAsked x 3

/-! ### The ROM stage (R591 to R600, R606, R643, R706) -/

/-- Whether the device is in a start-up stage and not held in reset. -/
def Dev.at_ (d : Dev) (n : Nat) : Bool := d.stage == n && !d.held

/-- BOOT_SRC. -/
def Dev.bootSrc (d : Dev) : Nat := d.fld Reg.chipStraps 0 2

/-- A slot whose item fails is reported (R594): item 0 the firmware, 1 the image. -/
def Dev.itemFails (d : Dev) (item slot : Nat) : Dev := d.report chipSource 0x70 1 (item * 256 + slot)

/-- The first slot, in order, whose item passes a test; each slot that fails is reported (R594). -/
def Dev.firstSlot {α : Type} (item : Nat) (try' : Nat → Option α) : List Nat → Dev → Dev × Option (Nat × α)
  | [], d => (d, none)
  | s :: t, d => match try' s with
    | some a => (d, some (s, a))
    | none => Dev.firstSlot item try' t (d.itemFails item s)

/-- The boot RAM as a number (R598, R599). -/
def Dev.bootRamVal (d : Dev) : Nat := sumOf (d.boot.bootRam.map fun p => p.2 % 256 * 256 ^ p.1)

/-- The ROM stage ends with a bundle that verified: its slot and VERSION are recorded and measured (R594, R602, R639). -/
def Dev.romDone (d : Dev) (slot bytes val ver : Nat) : Dev :=
  let d : Dev := { d with boot := { d.boot with bundle := some (bytes, val), bundleVer := ver } }
  let d := (d.setFld Reg.chipBootStat 25 1 slot).setReg Reg.chipFwVer ver
  ((d.measure 0 0 0 Config.romDigest).measure 1 0 0 (Config.sm3 bytes val)).enterStage 2

/-- A bundle of one place is verified: it runs, or the start fails with FW_SIG. -/
def Dev.romTake (x : Ctx) (d : Dev) (bytes val : Nat) : Dev :=
  match d.bundleOk bytes val with
  | some v => d.romDone 0 bytes val v
  | none => d.failStart x 0x02 0

/-- The ROM stage from local flash. -/
def Dev.romFlash (x : Ctx) (d : Dev) : Dev :=
  match d.directory with
  | none => d.failStart x 0x01 0
  | some (_, dir) =>
    let look := fun s =>
      let p := (dirSlot dir s).1
      let v := d.flashLd p.1 (min p.2 0x2000001)
      (d.bundleOk p.2 v).map fun ver => (p.2, v, ver)
    match Dev.firstSlot 0 look (dirOrder dir) d with
    | (d, some (s, b, v, ver)) => d.romDone s b v ver
    | (d, none) => d.failStart x 0x02 0

/-- The ROM stage ends (R591, R594, R598 to R600, R606, R706). Under a push it waits for the bundle. -/
def execRomStage (flashFault : Bool) (s : State) : Host.Outcome State Fault Refusal :=
  s.run fun x d =>
    if !(d.at_ 1) then d
    else if d.bootSrc == 3 then ((d.setFld Reg.chipBootStat 8 8 0).setReg Reg.chipBootDetail 0).enterEclipse
    else if d.boot.testMode then d.failStart x 0x01 0
    else if d.bootSrc == 0 then if flashFault then d.failStart x 0x01 0 else d.romFlash x
    else if d.bootSrc == 1 then if d.boot.pushBundle then d.romTake x 0x2000000 d.bootRamVal else d
    else match d.boot.bundle with
      | some (b, v) => d.romTake x b v
      | none => d

/-! ### CORES, POWER and MEMORY (R602, R671) -/

/-- The CORES stage ends: the runtimes run and the watchdogs are armed (R602). -/
def execCoresStage (s : State) : Host.Outcome State Fault Refusal := s.run fun _ d => if d.at_ 2 then d.enterStage 3 else d

/-- The POWER stage ends: every quadrant at 0.75 V and aligned, or a rail that fails ends the start (R63, R671). -/
def execPowerStage (badQuad : Option Nat) (s : State) : Host.Outcome State Fault Refusal :=
  s.run fun x d =>
    if !(d.at_ 3) then d
    else match badQuad with
      | some q => d.failStart x 0x25 q
      | none =>
        let d : Dev := { d with pmc := { d.pmc with railMv := List.replicate 4 750 } }
        ((List.range 4).foldl (fun (d : Dev) q => d.alignQuad q) d).enterStage 4

/-- The MEMORY stage ends: HBM is trained, or a stack that fails ends the start (R602, R607, R714). -/
def execMemoryStage (badStack : Option Nat) (s : State) : Host.Outcome State Fault Refusal :=
  s.run fun x d =>
    if !(d.at_ 4) then d
    else match badStack with
      | some k => d.failStart x 0x20 k
      | none => d.enterStage 5

/-! ### IMAGE (R594, R597 to R599, R607) -/

/-- An image that verified is in the boot region: it is recorded, measured and checked; the CONFIG stage begins under its TO_STAGE (R594, R602, R603,
R607, R639). -/
def Dev.imageDone (x : Ctx) (d : Dev) (slot bytes val : Nat) : Dev :=
  let d := (d.st x 0 bytes val).setFld Reg.chipBootStat 24 1 slot
  let d := ({ d with boot := { d.boot with image := some (bytes, val) } } : Dev).measure 2 0 0 (Config.sm3 bytes val)
  match d.checkImage x val 0 with
  | some f => d.failStart x f.1 f.2
  | none => (d.setFld Reg.chipToStage 0 16 (d.imageStage val)).enterStage 6

/-- Whether an image may be used: it verifies, and the firmware is new enough (R594). -/
def Dev.imageOk (d : Dev) (bytes val : Nat) : Bool := bytes ≤ 0x20000000 && imgVerifies val && imgFwMin val ≤ d.boot.bundleVer

/-- An image of one place: it is taken, or the start fails with IMG_SIG. -/
def Dev.imageTake (x : Ctx) (d : Dev) (bytes val : Nat) : Dev :=
  if d.imageOk bytes val then d.imageDone x 0 bytes val else d.failStart x 0x03 0

/-- The IMAGE stage from local flash. -/
def Dev.imageFlash (x : Ctx) (d : Dev) : Dev :=
  match d.directory with
  | none => d.failStart x 0x01 0
  | some (_, dir) =>
    let look := fun s =>
      let p := (dirSlot dir s).2
      let v := d.flashLd p.1 (min p.2 0x20000001)
      if d.imageOk p.2 v then some (p.2, v) else none
    match Dev.firstSlot 1 look (dirOrder dir) d with
    | (d, some (s, b, v)) => d.imageDone x s b v
    | (d, none) => d.failStart x 0x03 0

/-- The IMAGE stage ends. Under a push it waits for the image (R599, R600). -/
def execImageStage (flashFault : Bool) (s : State) : Host.Outcome State Fault Refusal :=
  s.run fun x d =>
    if !(d.at_ 5) then d
    else if d.bootSrc == 0 then if flashFault then d.failStart x 0x01 0 else d.imageFlash x
    else if d.bootSrc == 1 then
      if d.boot.pushImage then
        let n := min (d.ld x 16 8) 0x20000000
        d.imageTake x n (d.ld x 0 n)
      else d
    else match d.boot.image with
      | some (b, v) => d.imageTake x b v
      | none => d

/-! ### CONFIG (R255, R596, R602, R616, R617) -/

/-- REGS, BOOT, SHAPE, ROUTE and POOL take effect (R595, R596, R603, R612, R613). -/
def Dev.applyImage (d : Dev) (img : Nat) : Dev :=
  let d := (imgRegs img).foldl Dev.loadReg d
  let d : Dev := { d with kv := { d.kv with shape := imgShape img } }
  let d := match imgShape img with | some s => d.setReg Reg.ckptShape s.shapeId | none => d
  let b := secFields img 0x01
  let f := fun i => getAt 0 i b
  let d := if b.isEmpty then d
    else
      let d := (d.setFld Reg.chipToStage 0 16 (f 0)).setFld Reg.chipWdtCtl 0 8 (f 4)
      let d : Dev := { d with boot := { d.boot with chainMode := f 1 % 2 == 1, chain2 := f 2 % 2 == 1, bootServe := f 3 % 2 == 1 } }
      d.setFld Reg.chipMchStat 30 1 (f 2 % 2)
  let r := secFields img 0x05
  let n := r.headD 0
  let d := (chunksOf 2 2080 (r.drop (n + 1))).foldl (fun (d : Dev) p => d.setReg (getAt 0 0 p) (getAt 0 1 p)) d
  let p := secFields img 0x04
  { d with tier := { d.tier with lendList := (r.drop 1).take n },
           boot := { d.boot with poolGib := sumOf ((chunksOf 2 16 (p.drop 1)).map fun k => getAt 0 1 k) } }

/-- A variant or grammar section is copied to the shadow and the tail store, unless the device kept that table (R322, R602). -/
def Dev.loadImageTable (x : Ctx) (d : Dev) (variant : Bool) (img : Nat) (s : Section) : Dev :=
  let id := bits (secVal img s) 0 16
  let n := s.bytes - 2
  let d := d.measureAt x 4 s.type id s.off s.bytes
  if (imageOf (if variant then d.tail.variants else d.tail.grammars) id).isSome then d
  else match d.shadowPlace n with
    | none => d
    | some a =>
      let d := ({ d with free := d.free + 1 } : Dev).st x a n (secVal img s / 65536)
      let g : TailImage := ⟨id, a, n, cdiv n 65536⟩
      if variant then { d with tail := { d.tail with variants := d.tail.variants ++ [g] } }
      else { d with tail := { d.tail with grammars := d.tail.grammars ++ [g] } }

/-- The section's table is loaded and measured (R360, R387, R564, R602, R639). -/
def Dev.loadSection (x : Ctx) (d : Dev) (img : Nat) (s : Section) : Dev :=
  match s.type with
  | 0x06 =>
    let d := d.measureAt x 3 s.type 0 s.off s.bytes
    if d.text.tokenizer.isSome then d
    else { d.st x d.textArea s.bytes (secVal img s) with text := { d.text with tokenizer := some ⟨d.textArea, s.bytes, [0, 1, 2, 3]⟩ } }
  | 0x07 => d.loadImageTable x false img s
  | 0x08 => d.loadImageTable x true img s
  | 0x09 => (d.measureAt x 5 s.type 0 s.off s.bytes).st x (d.heapBase + bits (secVal img s) 0 64) (s.bytes - 8) (secVal img s / 2 ^ 64)
  | _ => d

/-- HBM is recovered where it was kept and the shape record and the bases are those of the previous start; otherwise it is as after a cold
reset, with a log entry where it had been kept (R616, R617). -/
def Dev.settleKept (x : Ctx) (d : Dev) : Dev :=
  if d.boot.cold then d.forget
  else if d.boot.kept == some d.keptKey then d.recover x
  else (d.report chipSource 0x73 3 0).forget

/-- The CONFIG stage (R602): registers, tables, the session table and the page pool. Tokenizer copies are filled from the shadow (R360). ALERT_N
is driven (R620). -/
def Dev.configure (x : Ctx) (d : Dev) (img : Nat) : Dev :=
  let d := (d.applyImage img).settleKept x
  let d := (imgSections (img % 2 ^ 32768)).foldl (fun (d : Dev) s => d.loadSection x img s) d
  let full := d.text.tokenizer.map fun t => { t with copies := [0, 1, 2, 3] }
  (({ d with text := { d.text with tokenizer := full } } : Dev).send (.pin .alertN true)).enterStage 7

/-- The CONFIG stage ends. -/
def execConfigStage (s : State) : Host.Outcome State Fault Refusal :=
  s.run fun x d => if d.at_ 6 then d.configure x (match d.boot.image with | some i => i.2 | none => 0) else d

/-! ### FABRIC (R475, R519, R600, R602, R603, R605, R612) -/

/-- The chain position is taken (R475, R612). -/
def Dev.takePos (d : Dev) (pos : Nat) : Dev :=
  (({ d with boot := { d.boot with posAssigned := true } } : Dev).setFld Reg.chipMchStat 31 1 1).setFld Reg.chipMchStat 0 5 pos

/-- The CVF group gates (R667, R510): a group none of whose ports is in service; group 0 only with group 1. -/
def Dev.gateGroups (d : Dev) : Dev :=
  let off := fun g => (List.range 4).all fun k => !(bit (d.reg (Reg.cvfCtl (4 * g + k))) 31)
  (d.setFld Reg.pmcGate 8 1 (ofB (off 0 && off 1))).setFld Reg.pmcGate 9 1 (ofB (off 1))

/-- Bring-up starts on every port in service (R452); ports that neighbour push has brought up start again with the image's values. -/
def Dev.startPorts (x : Ctx) (d : Dev) : Dev :=
  (List.range 8).foldl (fun (d : Dev) p =>
    let d := if d.portState p == 0 then d else d.portDown x p 9
    if bit (d.reg (Reg.cvfCtl p)) 31 then d.setPortState p 1 else d.setFld (Reg.cvfStat p) 21 4 1) d

/-- OPERATIONAL (R80, R605, R623). -/
def Dev.goOperational (d : Dev) : Dev :=
  (((d.enterStage 8).setFld Reg.chipLock 0 1 1).setFld Reg.chipBootStat 26 2 0).setReg Reg.chipBootTime ((d.now - d.boot.started) / 1000000)

/-- The FABRIC stage ends; with CHAIN_MODE 1 it waits for a position (R603, R612). -/
def execFabricStage (ppSerials : List Nat) (s : State) : Host.Outcome State Fault Refusal :=
  s.run fun x d =>
    if !(d.at_ 7) || (d.boot.chainMode && !d.boot.posAssigned) then d
    else
      let d := if d.boot.posAssigned then d else d.takePos 0
      let d := d.setFld Reg.fabFabId 0 5 (d.fld Reg.chipMchStat 0 5)
      let d := (d.gateGroups).startPorts x
      (if ppSerials.isEmpty then d else d.ppEnumerate x ppSerials).goOperational

/-! ### Failures (R601, R603, R605) -/

/-- Whether a start is in progress. -/
def Dev.starting (d : Dev) : Bool := 1 ≤ d.stage && d.stage ≤ 7 && !d.held

/-- A stage passes its timeout (R603, R605); the FABRIC stage that waits for a position has code NO_POS (R607). -/
def execStageTimeout (s : State) : Host.Outcome State Fault Refusal :=
  s.run fun x d =>
    if !d.starting || d.now < d.boot.stageAt + d.fld Reg.chipToStage 0 16 * 1000000 then d
    else
      let n := d.stage
      let d := d.report chipSource 0x23 3 n
      if n == 7 && d.boot.chainMode && !d.boot.posAssigned then d.failStart x 0x23 0 else d.failStart x 0x21 n

/-- Ten seconds have passed before OPERATIONAL (R602, R605). -/
def execStartLimit (s : State) : Host.Outcome State Fault Refusal :=
  s.run fun x d => if !d.starting || d.now < d.boot.started + 10000000000 then d else d.failStart x 0x22 0

/-- The hardware watchdog expires (R601, R605). -/
def execHardwareWatchdog (s : State) : Host.Outcome State Fault Refusal :=
  s.run fun x d => if d.held || d.eclipse then d else (d.report chipSource 0x24 3 0).chipLevel x 0

/-! ### Neighbour push (R600) -/

/-- Every 100 ms a device that starts from a neighbour asks on every port that is up. -/
def execBootReqTick (s : State) : Host.Outcome State Fault Refusal :=
  s.run fun _ d =>
    if !d.starting || d.bootSrc != 2 || d.boot.bundle.isSome then d
    else ((List.range 8).filter fun p => d.portUp p).foldl (fun (d : Dev) p =>
      (d.sendOn p 0 0x3F 5 "BOOT_REQ" 64 [] none 1 .none).1) d

/-- An operational neighbour whose image sets BOOT_SERVE answers with what it started from. -/
def execBootReq (port : Nat) (s : State) : Host.Outcome State Fault Refusal :=
  s.run fun _ d =>
    if !d.operational || !d.boot.bootServe || !(d.portUp port) then d
    else match d.boot.bundle, d.boot.image with
      | some b, some i => (d.sendOn port 0 0x3F 5 "BOOT_ANSWER" (b.1 + i.1) [b.1, b.2, i.1, i.2] none 1 .none).1
      | _, _ => d

/-- The first answer is taken: the bundle for the ROM stage, the image for the IMAGE stage. -/
def execBootAnswer (port : Nat) (bundle image : Nat × Nat) (s : State) : Host.Outcome State Fault Refusal :=
  s.run fun _ d =>
    if !(d.at_ 1) || d.bootSrc != 2 || d.boot.bundle.isSome || !(d.portUp port) then d
    else { d with boot := { d.boot with bundle := some bundle, image := some image } }

/-! ### The recovery mailbox (R621, R622, R646) -/

/-- The words of a command are taken (R542, R621). -/
def Dev.recTake (d : Dev) : Dev := d.setMbox .recovery { d.mbox .recovery with h2d := (d.mbox .recovery).h2d.take }

/-- A D2H answer: a command, a status and a value (R621). -/
def Dev.recAnswer (d : Dev) (cmd : Nat) (st : Status) (val : Nat) : Dev :=
  d.ownerWrite .recovery (cmd * 2 ^ 24 + st.code * 2 ^ 16 + val % 65536)

/-- Whether flash may be written through the mailbox (R646). -/
def Dev.flashAllowed (d : Dev) : Bool := d.eclipse || 2 ≤ d.sec.debugLevel

/-- Sectors of 64 KiB that a flash of 1 GiB has (R591). -/
def flashSectors : Nat := 16384

/-- A word of a WRITE: it is programmed; one that set COLLIDE, or a flash fault, ends the WRITE, and so does the last (R621, R622). PRESUMED
(log 41): NOR flash, so that programming clears bits and never sets one. -/
def Dev.dataWord (d : Dev) (word : Nat) (flashFault : Bool) : Dev :=
  match d.boot.flashWrite with
  | none => d
  | some w =>
    let hit := (d.mbox .recovery).h2d.collide
    let d := d.recTake
    let stop : Dev := { d with boot := { d.boot with flashWrite := none } }
    let a := w.sector * 65536 + 4 * w.words.length
    if hit then stop.recAnswer 3 .REFUSED_STATE 0
    else if flashFault then stop.recAnswer 3 .FAULT_MEDIA 0
    else
      let put := fun (d : Dev) => d.flashSt a ((List.range 4).map fun k => (byteOf (u32 word) k &&& d.flashByte (a + k)))
      if w.words.length + 1 == 16384 then (put stop).recAnswer 3 .DONE 0
      else put { d with boot := { d.boot with flashWrite := some { w with words := w.words ++ [u32 word] } } }

/-- A command word of the mailbox. While a WRITE takes its data, every word is data (R621). -/
def Dev.recCommand (d : Dev) (cmd arg : Nat) (f : Dev → Dev) : Dev :=
  if d.boot.railsOut then d
  else if d.boot.flashWrite.isSome then d.dataWord (cmd * 2 ^ 24 + arg % 2 ^ 24) false
  else f d.recTake

/-- STATUS (R621). -/
def execRecoveryStatus (s : State) : Host.Outcome State Fault Refusal :=
  s.run fun _ d => d.recCommand 1 0 fun d => d.recAnswer 1 .DONE (d.fld Reg.chipBootStat 16 16)

/-- ERASE of a sector (R621, R622, R646). -/
def execErase (sector : Nat) (flashFault : Bool) (s : State) : Host.Outcome State Fault Refusal :=
  s.run fun _ d => d.recCommand 2 sector fun d =>
    if !d.flashAllowed then d.recAnswer 2 .REFUSED_STATE 0
    else if flashFault || flashSectors ≤ sector then d.recAnswer 2 .FAULT_MEDIA 0
    else
      let keep := d.boot.flash.filter fun p => p.1 / 65536 != sector
      ({ d with boot := { d.boot with flash := keep } } : Dev).recAnswer 2 .DONE 0

/-- WRITE of a sector begins; its answer comes after the last data word (R621, R622, R646). -/
def execWrite (sector : Nat) (s : State) : Host.Outcome State Fault Refusal :=
  s.run fun _ d => d.recCommand 3 sector fun d =>
    if !d.flashAllowed then d.recAnswer 3 .REFUSED_STATE 0
    else if flashSectors ≤ sector then d.recAnswer 3 .FAULT_MEDIA 0
    else { d with boot := { d.boot with flashWrite := some ⟨sector, []⟩ } }

/-- A data word reaches the mailbox (R622). -/
def execRecoveryDataWord (word : Nat) (flashFault : Bool) (s : State) : Host.Outcome State Fault Refusal :=
  s.run fun _ d => if d.boot.railsOut then d else d.dataWord word flashFault

/-- CRC of a sector: two answers, the second when the first has been read (R621). -/
def execCrc (sector : Nat) (flashFault : Bool) (s : State) : Host.Outcome State Fault Refusal :=
  s.run fun _ d => d.recCommand 4 sector fun d =>
    if flashFault || flashSectors ≤ sector then d.recAnswer 4 .FAULT_MEDIA 0
    else
      let crc := crcOf (d.flashLd (sector * 65536) 65536) 65536
      ({ d with boot := { d.boot with recoveryOut := [crc] } } : Dev).recAnswer 4 .DONE 0

/-- RESTART: a cold start out of Eclipse mode with FAIL_CNT 0, otherwise a register warm reset (R606, R621). DEDUCED (log 41): the answer stands in
the mailbox after the reset. -/
def execRestart (s : State) : Host.Outcome State Fault Refusal :=
  s.run fun x d => d.recCommand 5 0 fun d =>
    if d.eclipse then
      let rnd := Config.random d.free
      let d : Dev := { d with free := d.free + 1 }
      let n := (d.setFld Reg.chipBootStat 26 2 0).coldReset x 7 rnd
      let n : Dev := { n with boot := { n.boot with heldPerst := d.boot.heldPerst, heldWarm := d.boot.heldWarm } }
      (if n.held then n else n.beginStart).recAnswer 5 .DONE 0
    else (d.warmAsked x 3).recAnswer 5 .DONE 0

/-- PUSH_DONE (R599, R621, R622). -/
def execPushDone (item : Nat) (s : State) : Host.Outcome State Fault Refusal :=
  s.run fun _ d => d.recCommand 6 item fun d =>
    if d.bootSrc == 1 && item == 0 && d.at_ 1 then ({ d with boot := { d.boot with pushBundle := true } } : Dev).recAnswer 6 .DONE 0
    else if d.bootSrc == 1 && item == 1 && d.at_ 5 then ({ d with boot := { d.boot with pushImage := true } } : Dev).recAnswer 6 .DONE 0
    else d.recAnswer 6 .REFUSED_STATE 0

end Sys2Proof.Machine
end

