-- ==== Sys2Proof/Machine/Recovery.lean ====
section
/-! DEFINITION. Machine/Recovery.lean: what the loss of a quadrant, a block or a unit does (R101, R135, R136, R220 to R222, R263, R414,
R578, R618, R619, R694 to R696). The rows that trigger recovery are in SelfRepair.lean. -/

namespace Sys2Proof.Machine

/-! ### Blocks (R54, R85) -/

/-- The quadrant whose block of registers holds an offset. -/
def quadOf (off : Nat) : Option Nat := if 0x100000 ≤ off && off < 0x1100000 then some ((off - 0x100000) / 0x400000) else none

/-- The offset of QDn. -/
def quadBase (q : Nat) : Nat := 0x100000 + q * 0x400000

/-- The PACE registers of a quadrant's blocks. -/
def quadBlocks (p : Part) (q : Nat) : List Nat :=
  ((List.range 16).map (Reg.qdAePace q) ++ [Reg.qdMergePace q, Reg.qdScorePace q, Reg.qdEclPace q] ++ (List.range 3).map (Reg.qdHsPace q) ++
    (List.range 3).map (Reg.qdScanPace q)).filter fun b => !(absentBlock p b)

/-- A block by the first register of its kind and its index. -/
def blockIndex (off : Nat) : Nat × Nat :=
  match regRowAt off with
  | some r => (r.base, match r.dims with
    | [(_, s)] => (off - r.base) / max 1 s
    | [(_, s), (_, t)] => (off - r.base) / max 1 s * 64 + (off - r.base) % max 1 s / max 1 t
    | _ => 0)
  | none => (0, 0)

/-- The source of a block's reports (R682): its register block, with the unit within it for score and scan engines. -/
def blockSource (off : Nat) : Nat :=
  let k := (blockIndex off).1
  sourceOf (off / 0x1000 * 0x1000) (if k == Reg.qdScorePace 0 then 1 else if k == Reg.qdScanPace 0 0 then 2 else 0) 0

/-! ### Work that is lost with a unit (R136, R220 to R222) -/

/-- The merge unit of quadrant q loses the partials that it holds: their tiles are reissued (R221). `served` tells whether a session's
merges ran there. -/
def Dev.loseMerge (x : Ctx) (d : Dev) (served : Nat → Bool) : Dev :=
  let lost := d.attn.reqs.flatMap fun r => (r.tiles.zipIdx.filter fun t => t.1.delivered && served t.1.idx &&
    (match r.entries[t.1.entry]? with | some e => e.status.isNone | none => false)).map fun t => (r.id, t.2, t.1)
  lost.foldl (fun (d : Dev) l => d.loseTile x l.1 l.2.1 l.2.2) d

/-- A score engine loses its pages in flight: their tiles are reissued, and AEs score the pages (R222). Tiles that wait have not started to use it. -/
def Dev.loseScore (x : Ctx) (d : Dev) (s : Nat) : Dev :=
  let onIt := fun (t : WorkTile) => t.offload.any fun p => !(t.scored.contains p) &&
    (match tblGet p t.snap with | some g => stackOf g.payload == s | none => false)
  let lost := d.attn.reqs.flatMap fun r => (r.tiles.zipIdx.filter fun t => t.1.ae.isSome && !t.1.done && onIt t.1).map fun t => (r.id, t.2, t.1)
  lost.foldl (fun (d : Dev) l => d.loseTile x l.1 l.2.1 l.2.2) d

/-- A stack controller loses the reads in flight: the tiles that wait for them are reissued (R78, R136). -/
def Dev.loseReads (x : Ctx) (d : Dev) (s : Nat) : Dev :=
  let onIt := fun (t : WorkTile) => t.snap.any fun g => !(inSram g.2.payload) && stackOf g.2.payload == s
  let lost := d.attn.reqs.flatMap fun r => (r.tiles.zipIdx.filter fun t => t.1.ae.isSome && !t.1.done && onIt t.1).map fun t => (r.id, t.2, t.1)
  lost.foldl (fun (d : Dev) l => d.loseTile x l.1 l.2.1 l.2.2) d

/-- Transfers over the Ecliptic are lost, and with them the tiles whose pages or partials they carry (R45, R136). -/
def Dev.loseXfers (x : Ctx) (d : Dev) (p : EclXfer → Bool) : Dev :=
  let on := fun (r : LayerReq) (t : WorkTile) => !t.delivered && d.arb.xfers.any fun k => p k && (k.op == .pages r.id t.key || k.op == .partials r.id t.key)
  let lost := d.attn.reqs.flatMap fun r => (r.tiles.zipIdx.filter fun t => on r t.1).map fun t => (r.id, t.2, t.1)
  let d := lost.foldl (fun (d : Dev) l => d.loseTile x l.1 l.2.1 l.2.2) d
  { d with arb := { d.arb with xfers := d.arb.xfers.filter fun t => !(p t) } }

/-- Partials on their way go to the merge unit that now serves their session (R221). -/
def Dev.remerge (d : Dev) : Dev :=
  let tile := fun (r k : Nat) => (d.attn.reqs.find? fun q => q.id == r).bind fun q => q.tiles.find? fun u => u.key == k
  let moved := fun (t : EclXfer) => match t.op with
    | .partials r k => match tile r k with | some u => { t with dst := d.mergeQuad u.idx } | none => t
    | _ => t
  { d with arb := { d.arb with xfers := (d.arb.xfers.map moved).filter fun t => t.src != t.dst } }

/-! ### Commands without a deadline (R78, R289) -/

/-- Whether pages of a session lie on stacks that satisfy a test. -/
def Dev.onStacks (d : Dev) (p : Nat → Bool) (i : Nat) : Bool := d.kv.pool.used.any fun u => u.key.owner == POwner.sess i && p (stackOf u.addr)

/-- A command that parks, revives or moves a session ends with a status, and the session returns to its prior state (R78, R289). A move whose last tile
has gone has no operation left here (R285). -/
def Dev.endTransit (x : Ctx) (d : Dev) (st : Status) (i : Nat) : Dev :=
  let d := match d.tier.parks.find? fun p => p.idx == i with | some p => d.endPark x p st | none => d
  let d := match d.tier.revives.find? fun r => r.idx == i with | some r => d.endRevive x r st | none => d
  let d := match d.tier.movesIn.find? fun m => m.idx == i && m.offer.isSome with | some m => d.failMoveIn x m st | none => d
  match d.moveOut fun m => m.idx == i && !m.sentAll with
  | some m => (d.sendNote m.dest 0x10 2 "MOVE_ABORT" 64 [m.tag, st.code] 0).endMoveOut x m st
  | none => d

/-- What commands without a deadline do on sessions that satisfy a test is abandoned (R78): parks, revives, moves, imports, exports and captures. -/
def Dev.endUndated (x : Ctx) (d : Dev) (st : Status) (p : Nat → Bool) : Dev :=
  ((d.sess.table.filter fun s => p s.1).map (·.1)).foldl (fun (d : Dev) i => (d.endTransit x st i).abandonWork x st i) d

/-- Tail entries in progress that read a lost share of the tail store are handled as unit loss (R136, R322). -/
def Dev.loseShares (x : Ctx) (d : Dev) : Dev :=
  let mine := d.tail.reqs.flatMap fun q => (q.entries.zipIdx.filter fun e => match e.1.stage with
    | .running _ => (d.desc e.1.idx).variant != 0 || (d.desc e.1.idx).grammar != 0xFFFF
    | _ => false).map fun e => (q, e.2, e.1)
  let d := mine.foldl (fun (d : Dev) m =>
    if d.now + lTail + 16 < m.1.deadline then
      (d.updTailEntry m.1.id m.2.1 fun e => { e with stage := .waiting, detail := 1, detail2 := 0 }).bump Reg.tailReissue 1
    else d.faultEntry m.1 m.2.1 m.2.2 .FAULT_UNIT) d
  d.settleTails x

/-- Roll the HOT sessions of a list back; their outstanding entries read FAULT_UNIT (R101). -/
def Dev.rollbackUnits (x : Ctx) : List Nat → Dev → Dev
  | [], d => d
  | i :: t, d => Dev.rollbackUnits x t (if (d.desc i).state == .hot then (d.rollback x i .FAULT_UNIT true).1 else d)

/-! ### A quadrant (R101, R263, R322, R360, R578, R618, R694) -/

/-- STATE of every block of a quadrant. -/
def Dev.quadPaces (x : Ctx) (d : Dev) (q st : Nat) : Dev := (quadBlocks x.fuses.part q).foldl (fun (d : Dev) b => d.setFld b 28 2 st) d

/-- What a quadrant holds is lost: SRAM and staging with the sessions, pins, shares, copies, masks and contexts in them, tiles on its AEs, partials in its
merge unit, scans of its engines, what crosses its Ecliptic port, and the alignment of its timekeeper. Commands without a deadline end FAULT_TIMEOUT;
DEDUCED (log 42): those on sessions of its index class or with pages on its stacks. A mask of the cache is lost whichever quadrant held it, as no rule places entries (log
42). -/
def Dev.quadLost (x : Ctx) (d : Dev) (q : Nat) : Dev :=
  let up : Dev := { d with boot := { d.boot with quadResets := d.boot.quadResets.filter fun r => r.quad != q } }
  let served := fun (i : Nat) => up.cacheQuad i == q
  let merged := fun (i : Nat) => up.mergeQuad i == q
  let hot := ((d.sess.table.filter fun s => s.2.state == .hot && (served s.1 || s.1 % 4 == q)).map (·.1))
  let touched := fun (i : Nat) => served i || d.onStacks (fun s => quadOfStack s == q) i
  let d : Dev := { d with sess := { d.sess with cache := d.sess.cache.filter fun i => !(served i) } }
  let d := (List.range 16).foldl (fun (d : Dev) a => d.loseAe x q a) d
  let d := d.loseXfers x fun t => t.src == q || (t.dst == q && (match t.op with | .partials _ _ => false | _ => true))
  let d := (Dev.rollbackUnits x hot (d.loseMerge x merged).remerge).settleAll x
  let d := d.endUndated x .FAULT_TIMEOUT touched
  let d := (rangeFrom (3 * q) 3).foldl (fun (d : Dev) s => d.loseScan s false) d
  let pins := (d.kv.prefixes.filter fun p => p.pinned && d.pinnedIn q p.id).map (·.id)
  let d := pins.foldl (fun (d : Dev) p => d.losePins x p fun k => k == q) d
  let d : Dev := { d with tail := { d.tail with lostShare := d.tail.lostShare.filter (fun k => k != q) ++ [q], masks := [] },
                          text := { d.text with tokenizer := d.text.tokenizer.map fun t => { t with copies := t.copies.filter fun k => k != q } } }
  let d := (d.loseShares x).loseSaved x fun h => h / 2048 == q
  let d := ((d.loseBytes (sramRanges q)).setKeeper (q + 1) { d.keeper (q + 1) with aligned := false }).setFld Reg.chipTkStatus (20 + q) 1 0
  (d.sendRates x).settleRings x

/-- The chip level when no quadrant remains online (R693, R694): a warm reset. -/
def Dev.noQuadLeft (x : Ctx) (d : Dev) : Dev :=
  if (List.range 4).all fun q => d.boot.quadOffline.contains q then d.warmReset x 5 else d

/-- A quadrant is left offline until the next start-up (R694). -/
def Dev.quadOff (x : Ctx) (d : Dev) (q : Nat) : Dev :=
  let d := if d.boot.quadResets.any fun r => r.quad == q && r.stage != 1 then d else d.quadLost x q
  let d : Dev := { d with boot := { d.boot with quadResets := d.boot.quadResets.filter fun r => r.quad != q,
                                                quadOffline := d.boot.quadOffline.filter (fun k => k != q) ++ [q] } }
  let d := ((d.quadPaces x q 2).setFld Reg.errlogQuadOff q 1 1).setFld Reg.chipRstCtl (4 + q) 1 0
  ((d.event x 7 (quadBase q) 2 0).sendRates x).noQuadLeft x

/-- Whether a quadrant can be reset: it is on, and no reset of it is in progress (R615, R694). -/
def Dev.quadResettable (d : Dev) (q : Nat) : Bool :=
  q < 4 && d.operational && !(bit (d.reg Reg.pmcGate) q) && !(d.boot.quadResets.any fun r => r.quad == q) && !(d.boot.quadOffline.contains q)

/-- A quadrant reset begins (R618, R693); resets of its blocks are absorbed (R695). The one that reaches QRST_LIMIT within 10 s leaves the
quadrant offline. -/
def Dev.quadReset (x : Ctx) (d : Dev) (q cause : Nat) : Dev :=
  if !(d.quadResettable q) then d
  else
    let d := (d.report (sourceOf (quadBase q) 0 0) 0x29 2 cause).bump Reg.errlogQrstCnt 1
    let seen := (d.err.quadResets.filter fun r => d.now < r.2 + 10000000000) ++ [(q, d.now)]
    let d : Dev := { d with err := { d.err with quadResets := seen },
                            boot := { d.boot with blockResets := d.boot.blockResets.filter fun b => quadOf b.block != some q } }
    if d.fld Reg.errlogQrstLimit 0 8 ≤ (seen.filter fun r => r.1 == q).length then d.quadOff x q
    else { d with boot := { d.boot with quadResets := d.boot.quadResets ++ [(⟨q, 1, d.now⟩ : QuadReset)] } }

/-- PMC forces the reset: what the quadrant held is lost, and it waits for power-good (R618 steps 2 and 3). -/
def Dev.quadForce (x : Ctx) (d : Dev) (q : Nat) : Dev :=
  let d := d.quadLost x q
  let forced := fun (r : QuadReset) => if r.quad == q then { r with stage := 2, since := d.now } else r
  { d with boot := { d.boot with quadResets := d.boot.quadResets.map forced } }

/-- The quadrant rejoins (R135, R322, R360, R618 step 5): its share, its copy and its blocks are back. -/
def Dev.quadBack (x : Ctx) (d : Dev) (q : Nat) : Dev :=
  let tok := d.text.tokenizer.map fun t => { t with copies := t.copies.filter (fun k => k != q) ++ [q] }
  let d : Dev := { d with tail := { d.tail with lostShare := d.tail.lostShare.filter fun k => k != q }, text := { d.text with tokenizer := tok } }
  let score := fun (b : Nat) => b == Reg.qdScorePace q && bit (d.reg Reg.pmcGate) (16 + 3 * q)
  let on := (quadBlocks x.fuses.part q).filter fun b => d.fld b 28 2 == 3 && !(score b)
  (on.foldl (fun (d : Dev) b => d.setFld b 28 2 1) d).sendRates x

/-! ### Blocks and chip-level units (R223, R356, R414, R585, R619, R696) -/

/-- The work in flight on a block is abandoned (R78, R619): what has a deadline goes to surviving units, and commands that have none end FAULT_TIMEOUT
where a watcher expired (cause 3), or with what the failure means to them. -/
def Dev.dropWork (x : Ctx) (d : Dev) (block cause : Nat) : Dev :=
  let (kind, n) := blockIndex block
  if kind == Reg.qdAePace 0 0 then (d.loseAe x (n / 64) (n % 64)).settleAll x
  else if kind == Reg.qdMergePace 0 then (d.loseMerge x fun i => d.mergeQuad i == n).settleAll x
  else if kind == Reg.qdHsPace 0 0 then
    let s := 3 * (n / 64) + n % 64
    ((d.loseReads x s).endUndated x (if cause == 3 then .FAULT_TIMEOUT else .FAULT_MEDIA) (d.onStacks fun k => k == s)).settleAll x
  else if kind == Reg.qdScorePace 0 then (d.loseScore x (3 * n)).settleAll x
  else if kind == Reg.qdScanPace 0 0 then d.loseScan (3 * (n / 64) + n % 64) false
  else if kind == Reg.tailMaskPace 0 || kind == Reg.tailTopkPace 0 || kind == Reg.tailSampPace 0 then d.dropPipe x n
  else if kind == Reg.recallQePace 0 then d.dropQe x n cause
  else if kind == Reg.beltCorePace 0 then d.loseHarts x fun h => h / 64 == n
  else d

/-- A stack controller fails: its pages cannot be read, and the stack leaves the ledger and the pool (R696). -/
def Dev.loseStack (d : Dev) (s : Nat) : Dev :=
  let pcs := (rangeFrom (32 * s) 32).filter fun pc => !(d.kv.pool.retiredPcs.contains pc)
  { d with err := { d.err with deadStacks := d.err.deadStacks.filter (fun k => k != s) ++ [s] },
           kv := { d.kv with pool := { d.kv.pool with retiredPcs := d.kv.pool.retiredPcs ++ pcs } } }

/-- A port whose block fails goes down until the next start-up (R506, R619, R696). No rule gives the CAUSE: it is a free value. -/
def Dev.portGone (x : Ctx) (d : Dev) (p : Nat) : Dev :=
  let (c, d) := d.draw
  (d.setFld (Reg.cvfPace p) 28 2 2).portDown x p (c % 16)

/-- A block that has been reset is offline until the next start-up, with a CAUSE of R242 (2 fault, 3 timeout), and what it held is lost
(R619, R696). -/
def Dev.blockLost (x : Ctx) (d : Dev) (block cause : Nat) : Dev :=
  let d := d.setFld block 28 2 2
  let (kind, n) := blockIndex block
  if kind == Reg.qdAePace 0 0 then
    let q := n / 64
    let a := n % 64
    let d : Dev := { d with attn := { d.attn with aePendingOffline := d.attn.aePendingOffline.filter (fun p => p != (q, a)),
                                                  aeOffline := d.attn.aeOffline.filter (fun p => !(p.1 == q && p.2.1 == a)) ++ [(q, a, cause)] } }
    ((((d.setFld (Reg.qdAeStat q a) 30 2 cause).setFld (Reg.qdAeCtl q a) 0 1 0).loseAe x q a).sendRates x).settleAll x
  else if kind == Reg.qdMergePace 0 then
    let merged := fun (i : Nat) => d.mergeQuad i == n
    let d := d.loseMerge x merged
    ((({ d with attn := { d.attn with mergeOffline := d.attn.mergeOffline.filter (fun q => q != n) ++ [n] } } : Dev).remerge).sendRates x).settleAll x
  else if kind == Reg.qdHsPace 0 0 then ((d.dropWork x block cause).loseStack (3 * (n / 64) + n % 64)).sendRates x
  else if kind == Reg.qdScorePace 0 then
    let d : Dev := { d with attn := { d.attn with scoreOffline := d.attn.scoreOffline.filter (fun s => s != 3 * n) ++ [3 * n] } }
    ((d.loseScore x (3 * n)).sendRates x).settleAll x
  else if kind == Reg.qdScanPace 0 0 then d.loseScan (3 * (n / 64) + n % 64) true
  else if kind == Reg.qdEclPace 0 then d.quadOff x n
  else if kind == Reg.tailMaskPace 0 || kind == Reg.tailTopkPace 0 || kind == Reg.tailSampPace 0 then d.losePipe x n cause
  else if kind == Reg.textEngPace 0 then d.loseEngine n cause
  else if kind == Reg.recallQePace 0 then d.loseQe x n cause
  else if kind == Reg.cvfPace 0 then d.portGone x n
  else if kind == Reg.beltCorePace 0 then d.loseCore x n cause
  else d

/-- Whether a block's reset is absorbed: it is in progress, or its quadrant is being reset or is offline (R615, R695). -/
def Dev.blockAbsorbed (d : Dev) (block : Nat) : Bool :=
  (d.boot.blockResets.any fun b => b.block == block) || d.blockState block == 2 ||
    (match quadOf block with
      | some q => (d.boot.quadResets.any fun r => r.quad == q) || d.boot.quadOffline.contains q
      | none => false)

/-- IDLE_REQ is raised at a block, whose reset begins (R614, R619 step 1). -/
def Dev.blockReset (d : Dev) (block cause : Nat) : Dev :=
  if d.blockAbsorbed block then d
  else ({ d with boot := { d.boot with blockResets := d.boot.blockResets ++ [(⟨block, cause, d.now⟩ : BlockReset)] } } : Dev).cellsAnew block

/-- The block reset is complete: reports, event, and the loss of the unit (R537, R619 step 4, R684, R693). `forced` is the INFO of BLOCK_RESET. -/
def Dev.blockDone (x : Ctx) (d : Dev) (b : BlockReset) (forced : Nat) : Dev :=
  let d : Dev := { d with boot := { d.boot with blockResets := d.boot.blockResets.filter fun k => k.block != b.block } }
  let src := blockSource b.block
  let d := ((d.report src 0x28 2 forced).report src 0x2A 2 b.cause).bump Reg.errlogBrstCnt 1
  (d.event x 7 (b.block / 0x1000 * 0x1000) b.cause 0).blockLost x b.block b.cause

/-- A block reset in progress. -/
def Dev.blockPending (d : Dev) (block : Nat) : Option BlockReset := d.boot.blockResets.find? fun b => b.block == block

/-- Whether an offset names a block that the part has. -/
def blockOk (p : Part) (block : Nat) : Bool := isPace block && !(absentBlock p block)

/-! ### Ports of the Ecliptic (R38, R44, R696) -/

/-- A chip-level unit whose Ecliptic port failed (R696). DESIGN CHOICE (log 42): ports are numbered in the order of R38. -/
def Dev.portLost (x : Ctx) (d : Dev) (port : Nat) : Dev :=
  if port == 10 then (List.range 4).foldl (fun (d : Dev) e => d.loseQe x e 2) d
  else if port == 11 then (List.range 128).foldl (fun (d : Dev) c => d.loseCore x c 2) d
  else if port == 12 then d.abandonRun x .FAULT_UNIT
  else if port == 5 || port == 6 then (rangeFrom (4 * (port - 5)) 4).foldl (fun (d : Dev) p => d.portGone x p) d
  else d.warmReset x 5

end Sys2Proof.Machine
end

