-- ==== Sys2Proof/Machine/Power.lean ====
section
/-! DEFINITION. Machine/Power.lean: thermal samples, the throttling ladder, voltage control and power gating (chapter 15). Temperatures are in
1/16 degree Celsius. -/

namespace Sys2Proof.Machine

/-! ### Gating domains (R667 to R669) -/

/-- The GATE bit of a domain code (R667, R672); none for a code that is undefined, absent or a CVF group's. -/
def gateBit (p : Part) (code : Nat) : Option Nat :=
  if code < 4 then some code
  else if 0x10 ≤ code && code < 0x1C && p.computeStacks.contains (code - 0x10) then some (code - 0x10 + 16)
  else if code == 0x20 && p.hasBelt then some 4
  else if code == 0x21 && p.hasRecall then some 5
  else none

/-- Whether a domain is gated. -/
def Dev.gated (x : Ctx) (d : Dev) (code : Nat) : Bool := match gateBit x.fuses.part code with | some b => bit (d.reg Reg.pmcGate) b | none => false

/-- The PACE registers of a domain's blocks. -/
def domainBlocks (p : Part) (code : Nat) : List Nat :=
  if code < 4 then (quadBlocks p code).filter fun b => !((blockIndex b).1 == Reg.qdHsPace 0 0 || (blockIndex b).1 == Reg.qdEclPace 0 ||
    (blockIndex b).1 == Reg.qdScorePace 0 || (blockIndex b).1 == Reg.qdScanPace 0 0)
  else if code < 0x1C then [Reg.qdScorePace ((code - 0x10) / 3)]
  else if code == 0x20 then (List.range 128).map Reg.beltCorePace
  else (List.range 4).map Reg.recallQePace

/-- STATE of a domain's blocks: those that are offline stay so. -/
def Dev.domainPaces (x : Ctx) (d : Dev) (code st : Nat) : Dev :=
  ((domainBlocks x.fuses.part code).filter fun b => d.blockState b != 2).foldl (fun (d : Dev) b => d.setFld b 28 2 st) d

/-- Whether quadrant q is the last that is neither gated nor offline (R668). DEDUCED (log 43): a quadrant that another PWR_GATE is about to gate
counts as gated. -/
def Dev.lastQuad (d : Dev) (q : Nat) : Bool :=
  (List.range 4).all fun k => k == q || bit (d.reg Reg.pmcGate) k || d.boot.quadOffline.contains k || d.leaving k

/-- The Belt is in use (R668). -/
def Dev.beltBusy (d : Dev) : Bool := (d.belt.parts.any fun p => p.job.isSome) || !d.belt.harts.isEmpty || !d.belt.saved.isEmpty

/-- Whether PWR_GATE refuses a domain (R668). DEDUCED (log 43): so it does while the domain is being gated, and for a quadrant that is being reset. -/
def Dev.gateRefused (x : Ctx) (d : Dev) (code : Nat) : Bool :=
  (gateBit x.fuses.part code).isNone || d.gated x code || d.leaving code ||
    (code < 4 && (!(d.quadUp code) || d.lastQuad code || d.belt.saved.any fun h => h.1 / 2048 == code)) || (code == 0x20 && d.beltBusy)

/-- PWR_GATE (R668): the domain leaves the ledger for new batches and waits for those that are open. -/
def execPwrGate (e : Entry) (s : State) : Host.Outcome State Fault Refusal :=
  s.ring e [(16, 1)] [] fun x d c =>
    d.checked x c [(d.gateRefused x (e.f 16 1), .REFUSED_STATE)] fun d =>
      let op : GateOp := ⟨e.f 16 1, c, d.now, d.sess.batches.map (·.id), false, []⟩
      ({ d with pmc := { d.pmc with gating := d.pmc.gating ++ [op] } } : Dev).sendRates x

/-- What a domain holds is lost as its switches open (R101, R263, R322, R360, R414, R667). -/
def Dev.domainLost (x : Ctx) (d : Dev) (code : Nat) : Dev :=
  if code < 4 then d.quadLost x code
  else if 0x10 ≤ code && code < 0x1C then (d.loseScore x (code - 0x10)).settleAll x
  else if code == 0x21 then d.dropQueries x
  else d

/-- The switches open: the gate completes, and a PWR_WAKE that waited for it wakes the domain (R668, R669). -/
def Dev.gateNow (x : Ctx) (d : Dev) (g : GateOp) : Dev :=
  let d : Dev := { d with pmc := { d.pmc with gating := d.pmc.gating.filter fun k => k.domain != g.domain } }
  let d := d.domainLost x g.domain
  let d := match gateBit x.fuses.part g.domain with | some b => d.setFld Reg.pmcGate b 1 1 | none => d
  let d := ((d.domainPaces x g.domain 3).bump Reg.pmcGateCnt 1).finish x g.cmd .DONE 0
  match g.wakes with
  | [] => d
  | w :: ws => { d with pmc := { d.pmc with waking := d.pmc.waking ++ [(⟨g.domain, w, d.now, [], false, ws⟩ : GateOp)] } }

/-- The gate of a domain in progress. -/
def Dev.gateOf (d : Dev) (code : Nat) : Option GateOp := d.pmc.gating.find? fun g => g.domain == code

/-- The batches that a gate waits for have closed: the domain drains, a quadrant under its drain watcher, and is gated (R618, R668). -/
def execGateBatchesClosed (domain : Nat) (s : State) : Host.Outcome State Fault Refusal :=
  s.run fun x d => match d.gateOf domain with
    | some g =>
      if !g.batches.isEmpty || g.drained then d
      else if domain < 4 then
        let drain := fun (k : GateOp) => if k.domain == domain then { k with drained := true, since := d.now } else k
        { d with pmc := { d.pmc with gating := d.pmc.gating.map drain } }
      else d.gateNow x g
    | none => d

/-- A PWR_GATE still waits after 1 s (R668). -/
def execPwrGateTimeout (domain : Nat) (s : State) : Host.Outcome State Fault Refusal :=
  s.run fun x d => match d.gateOf domain with
    | some g =>
      if g.drained || d.now < g.since + 1000000000 then d
      else (({ d with pmc := { d.pmc with gating := d.pmc.gating.filter fun k => k.domain != domain } } : Dev).sendRates x).finish x g.cmd .FAULT_TIMEOUT 0
    | none => d

/-- A PWR_WAKE on a domain that a PWR_GATE is about to gate: it cancels a gate that waits for batches, and waits for one that drains (R669). -/
def Dev.wakeGating (x : Ctx) (d : Dev) (c : Cmd) (g : GateOp) : Dev :=
  if g.drained then
    let add := fun (k : GateOp) => if k.domain == g.domain then { k with wakes := k.wakes ++ [c] } else k
    { d with pmc := { d.pmc with gating := d.pmc.gating.map add } }
  else
    let d : Dev := { d with pmc := { d.pmc with gating := d.pmc.gating.filter fun k => k.domain != g.domain } }
    ((d.sendRates x).finish x g.cmd .CANCELLED 0).finish x c .DONE 0

/-- PWR_WAKE (R669). DEDUCED (log 43): a code that PWR_GATE cannot gate is refused here too. -/
def execPwrWake (e : Entry) (s : State) : Host.Outcome State Fault Refusal :=
  s.ring e [(16, 1)] [] fun x d c =>
    let code := e.f 16 1
    d.checked x c [((gateBit x.fuses.part code).isNone, .REFUSED_STATE)] fun d =>
      match d.gateOf code with
      | some g => d.wakeGating x c g
      | none =>
        if !(d.gated x code) then d.finish x c .DONE 0
        else if d.pmc.waking.any fun w => w.domain == code then
          let add := fun (w : GateOp) => if w.domain == code then { w with wakes := w.wakes ++ [c] } else w
          { d with pmc := { d.pmc with waking := d.pmc.waking.map add } }
        else { d with pmc := { d.pmc with waking := d.pmc.waking ++ [(⟨code, c, d.now, [], false, []⟩ : GateOp)] } }

/-- A woken domain is ready: it rejoins the ledger, and the commands that waited complete (R667, R669). A quadrant's timekeeper has to be aligned
(R63). -/
def execWakeReady (domain : Nat) (s : State) : Host.Outcome State Fault Refusal :=
  s.run fun x d => match d.pmc.waking.find? fun w => w.domain == domain && (3 < domain || (d.keeper (domain + 1)).aligned) with
    | some w =>
      let d : Dev := { d with pmc := { d.pmc with waking := d.pmc.waking.filter fun k => k.domain != domain } }
      let d := match gateBit x.fuses.part domain with | some b => d.setFld Reg.pmcGate b 1 0 | none => d
      let d := (if domain < 4 then d.quadBack x domain else d).domainPaces x domain 1
      (w.cmd :: w.wakes).foldl (fun (d : Dev) c => d.finish x c .DONE 0) (d.sendRates x)
    | none => d

/-! ### PWR_LIMIT and PWR_VMODE (R660, R670) -/

/-- PWR_LIMIT (R670): the limit holds from the next evaluation. -/
def execPwrLimit (e : Entry) (s : State) : Host.Outcome State Fault Refusal :=
  s.ring e [(16, 2)] [] fun x d c =>
    let w := e.f 16 2
    d.checked x c [(decide (w < 0x4B0) || decide (0x5DC < w) || (bit (d.reg Reg.sessLedgerCtl) 31 && decide (w < 1400)), .REFUSED_STATE)] fun d =>
      ({ d with pmc := { d.pmc with pendingLimit := some w } } : Dev).finish x c .DONE 0

/-- PWR_VMODE (R670). -/
def execPwrVmode (e : Entry) (s : State) : Host.Outcome State Fault Refusal :=
  s.ring e [(16, 1)] [] fun x d c =>
    d.checked x c [(2 < e.f 16 1, .REFUSED_STATE)] fun d =>
      ({ d with pmc := { d.pmc with pendingMode := some (e.f 16 1) } } : Dev).finish x c .DONE 0

/-! ### The alert (R658, R666) -/

/-- Ladder level of a quadrant. -/
def Dev.level (d : Dev) (q : Nat) : Nat := d.fld Reg.pmcStat (16 + 2 * q) 2

/-- ALERT_N is asserted at level 2 or above, and while a stack is at HOT_C. -/
def Dev.setAlert (d : Dev) : Dev :=
  let on := ((List.range 4).any fun q => 2 ≤ d.level q) || d.pmc.stackHot != 0
  if bit (d.reg Reg.pmcStat) 31 == on then d else (d.setFld Reg.pmcStat 31 1 (ofB on)).send (.pin .alertN (!on))

/-! ### PMC evaluation (R650, R655 to R660) -/

/-- Tj of a quadrant at the last sample. -/
def Dev.tj (d : Dev) (q : Nat) : Int := getAt 0 q d.pmc.tjs

/-- A point of QTRIP in 1/16 degree. -/
def Dev.qtrip (d : Dev) (lo : Nat) : Int := 16 * (d.fld Reg.pmcQtrip lo 8 : Nat)

/-- The level of a quadrant after an evaluation (R658). -/
def Dev.nextLevel (d : Dev) (q : Nat) : Nat :=
  let t := d.tj q
  let p := d.fld Reg.pmcPkgPower 0 16
  let lim := d.fld Reg.pmcPkgLimit 0 16
  let enter := if d.qtrip 16 ≤ t then 3 else if decide (d.qtrip 8 ≤ t) || lim ≤ p then 2 else if decide (d.qtrip 0 ≤ t) || lim ≤ p + 50 then 1 else 0
  let left := match d.level q with
    | 1 => decide (t < d.qtrip 0 - 48) && p + 100 < lim
    | 2 => decide (t < d.qtrip 8 - 48) && p + 50 < lim
    | 3 => decide (t < d.qtrip 8)
    | _ => true
  if left then enter else max enter (d.level q)

/-- The lowest target under throttling: 0.65 V, or 0.75 V at the nominal corner (R127, R655, R658). -/
def Dev.floorMv (d : Dev) : Nat := if bit (d.reg Reg.sessLedgerCtl) 31 then 750 else 650

/-- The highest target. -/
def Dev.vmaxMv (d : Dev) : Nat := 5 * d.fld Reg.pmcVctl 8 8

/-- The mode target (R655). BOOST takes the highest voltage that keeps the quadrant at level 0 and power below the limit, which no figure of the spec
gives: it is a free value of its range. -/
def Dev.modeTarget (d : Dev) : Nat × Dev :=
  match d.fld Reg.pmcVctl 30 2 with
  | 0 => (d.floorMv, d)
  | 1 => (750, d)
  | _ =>
    let (n, d) := d.draw
    (750 + 5 * (n % ((d.vmaxMv - 750) / 5 + 1)), d)

/-- Whether a block of a quadrant has BELOW set (R657). -/
def Dev.anyBelow (x : Ctx) (d : Dev) (q : Nat) : Bool := (quadBlocks x.fuses.part q).any fun b => bit (d.reg b) 30

/-- BELOW keeps a raise until it has been clear for 100 ms (R657). -/
def Dev.boost (x : Ctx) (d : Dev) (q : Nat) : Bool × Dev :=
  let was := d.now < getAt 0 q d.pmc.boostUntil
  if d.anyBelow x q && d.level q ≤ 1 then
    let d : Dev := { d with pmc := { d.pmc with boostUntil := setAt 0 (d.now + 100000000) q d.pmc.boostUntil } }
    (true, if was then d else d.bump Reg.pmcBelowBoost 1)
  else (was && d.level q ≤ 1, d)

/-- The target of a quadrant (R655 to R658): deep idle, else the mode target with the ladder's action. DEDUCED (log 43): without deep idle the mode
target holds while no batch is open as well. -/
def Dev.target (x : Ctx) (d : Dev) (q : Nat) : Dev :=
  let old := d.fld (Reg.pmcRail q) 16 12
  let (m, d) := d.modeTarget
  let (up, d) := d.boost x q
  let base := if up then min (m + 25) d.vmaxMv else m
  let v := if d.pmc.deepIdle then 5 * d.fld Reg.pmcVctl 0 8
    else match d.level q with
      | 0 => base
      | 1 => min base 750
      | 2 => max d.floorMv (min base ((if old == 0 then 750 else old) - 5))
      | _ => d.floorMv
  d.setFld (Reg.pmcRail q) 16 12 v

/-- Levels of all quadrants, with the counts of R672 and a PLDM warning on the way to level 1 (R658). -/
def Dev.setLevels (d : Dev) : Dev :=
  (List.range 4).foldl (fun (d : Dev) q =>
    let old := d.level q
    let new := d.nextLevel q
    let d := d.setFld Reg.pmcStat (16 + 2 * q) 2 new
    let d := if old < 2 && new == 2 then d.bump Reg.pmcLevel2Cnt 1 else d
    let d := if old < 3 && new == 3 then d.bump Reg.pmcLevel3Cnt 1 else d
    if old == 0 && new == 1 && d.hif.eventReceiver.isSome then d.mctp (.platformEvent (q + 1) (d.sense (q + 1))) else d) d

/-- PKG_OVER counts the milliseconds that power stays at the limit with every quadrant at its level 2 floor (R660). -/
def Dev.countOver (d : Dev) : Dev :=
  let atLimit := d.fld Reg.pmcPkgLimit 0 16 ≤ d.fld Reg.pmcPkgPower 0 16 &&
    (List.range 4).all fun q => 2 ≤ d.level q && d.fld (Reg.pmcRail q) 16 12 == d.floorMv
  match atLimit, d.pmc.overSince with
  | false, _ => { d with pmc := { d.pmc with overSince := none } }
  | true, none => { d with pmc := { d.pmc with overSince := some d.now } }
  | true, some t =>
    if d.now < t + 1000000 then d else ({ d with pmc := { d.pmc with overSince := some (t + 1000000) } } : Dev).bump Reg.pmcPkgOver 1

/-- An evaluation (R650): settings that waited take effect, levels, targets and telemetry. -/
def Dev.evaluate (x : Ctx) (d : Dev) (railMv : List Nat) : Dev :=
  let before := (List.range 4).map fun q => d.level q == 3
  let d := match d.pmc.pendingLimit with | some w => d.setFld Reg.pmcPkgLimit 0 16 w | none => d
  let d := match d.pmc.pendingMode with | some m => d.setFld Reg.pmcVctl 30 2 m | none => d
  let idle := bit (d.reg Reg.pmcVctl) 16 && d.sess.batches.isEmpty
  let d : Dev := { d with pmc := { d.pmc with pendingLimit := none, pendingMode := none, deepIdle := idle, railMv := railMv.take 4 } }
  let d := (List.range 4).foldl (fun (d : Dev) q => (d.target x q).setFld (Reg.pmcRail q) 0 12 (getAt 0 q railMv)) d.setLevels
  let d : Dev := { d with pmc := { d.pmc with bulkStop := (List.range 4).filter fun q => d.level q == 3 } }
  let d := d.setAlert.countOver
  if before == (List.range 4).map fun q => d.level q == 3 then d else d.sendRates x

/-- Every 100 us PMC evaluates (R650), from the CORES stage on (R671). -/
def execPmcEvaluation (railMv : List Nat) (s : State) : Host.Outcome State Fault Refusal :=
  s.run fun x d => if d.held || d.stage ≤ 2 || d.eclipse || d.pmc.tripped then d else d.evaluate x railMv

/-! ### Thermal samples (R653, R654, R662 to R666) -/

/-- A sensor that fails is named once and reads TRIP_C - 1 until the next start-up (R654). -/
def Dev.sensorFails (d : Dev) (id : Nat) : Dev :=
  if d.pmc.failedSensors.contains id then d
  else ({ d with pmc := { d.pmc with failedSensors := d.pmc.failedSensors ++ [id] } } : Dev).report chipSource 0x51 2 id

/-- A reading outside -20 to 150 degrees (R654). -/
def outOfRange (t : Int) : Bool := decide (t < -320) || decide (2400 < t)

/-- What a sensor counts as. -/
def Dev.reading (d : Dev) (id : Nat) (trip : Nat) (t : Int) : Int := if d.pmc.failedSensors.contains id then 16 * (trip : Int) - 16 else t

/-- A quadrant's sample: TEMP and PEAK (R653, R672). -/
def Dev.quadSample (d : Dev) (q : Nat) (t : Int) : Dev :=
  let d := if outOfRange t then d.sensorFails (q + 1) else d
  let v := d.reading (q + 1) (d.fld Reg.pmcQtrip 24 8) t
  let d : Dev := { d with pmc := { d.pmc with tjs := setAt 0 v q d.pmc.tjs } }
  let peak := toSigned (d.fld (Reg.pmcQtemp q) 16 16) 16
  (d.setFld (Reg.pmcQtemp q) 0 16 (ofSigned v 16)).setFld (Reg.pmcQtemp q) 16 16 (ofSigned (max peak v) 16)

/-- The samples of a stack in the last millisecond, the present one last. -/
def Dev.stackHistory (d : Dev) (s : Nat) (v : Int) : List (Ns × Int) :=
  (((tblGet s d.pmc.stackHist).getD []).filter fun h => d.now ≤ h.1 + 1000000) ++ [(d.now, v)]

/-- BULK_THR of a stack: set while the slope passes 0.40 degrees a millisecond, clear once it has stayed at or below 0.30 for 1 ms (R664). -/
def Dev.bulkThrottle (d : Dev) (s : Nat) (slope : Int) : Dev :=
  let on := bit (d.reg (Reg.pmcStemp s)) 30
  let slow := fun (v : Option Ns) => ({ d with pmc := { d.pmc with slowSince := match v with | some t => tblSet s t d.pmc.slowSince | none => tblDel s d.pmc.slowSince } } : Dev)
  if 64 < slope * 10 then (slow none).setFld (Reg.pmcStemp s) 30 1 1
  else if !on then d
  else if 48 < slope * 10 then slow none
  else match tblGet s d.pmc.slowSince with
    | none => slow (some d.now)
    | some t => if t + 1000000 ≤ d.now then (slow none).setFld (Reg.pmcStemp s) 30 1 0 else d

/-- A bit of a stack mask: set at one point, clear below another, else as it was. -/
def hold (mask s : Nat) (t set clear : Int) : Nat := setBits mask s 1 (ofB (if set ≤ t then true else if t < clear then false else bit mask s))

/-- A stack's sample (R653, R662 to R666). -/
def Dev.stackSample (x : Ctx) (d : Dev) (s : Nat) (t : Int) : Dev :=
  let d := if outOfRange t then d.sensorFails (0x10 + s) else d
  let v := d.reading (0x10 + s) (d.fld Reg.pmcStrip 24 8) t
  let h := d.stackHistory s v
  let d : Dev := { d with pmc := { d.pmc with stackHist := tblSet s h d.pmc.stackHist } }
  let slope := match h with | (a, w) :: _ => if a + 1000000 ≤ d.now then v - w else 0 | [] => 0
  let d := d.bulkThrottle s slope
  let was := d.fld Reg.pmcStat 0 12
  let two := hold was s v (16 * 85) (16 * 83)
  let hot : Int := 16 * (d.fld Reg.pmcStrip 8 8 : Nat)
  let crit : Int := 16 * (d.fld Reg.pmcStrip 16 8 : Nat)
  let d := if bit two s && !(bit was s) then d.bump Reg.pmcRefresh2xCnt 1 else d
  let d : Dev := { d with pmc := { d.pmc with stackHot := hold d.pmc.stackHot s v hot (hot - 32), stackCrit := hold d.pmc.stackCrit s v crit hot } }
  let d := (d.setFld Reg.pmcStat 0 12 two).setFld (Reg.pmcStemp s) 31 1 (ofB (bit two s))
  let d := d.setFld (Reg.pmcStemp s) 29 1 (ofB (bit two s && x.fuses.part.computeStacks.contains s))
  (d.setFld (Reg.pmcStemp s) 28 1 (ofB (decide (crit ≤ v)))).setFld (Reg.pmcStemp s) 0 16 (ofSigned v 16)

/-- Every 100 us the sensors are sampled (R653). `bad` names sensors that fail their self-test. -/
def execThermalSample (quads : List Int) (stackT : List (Nat × Int)) (pkgW : Nat) (bad : List Nat) (s : State) :
    Host.Outcome State Fault Refusal :=
  s.run fun x d =>
    if d.held || d.stage ≤ 2 || d.eclipse then d
    else
      let crit := d.pmc.stackCrit
      let d := bad.foldl (fun (d : Dev) b => d.sensorFails b) d
      let d := ((quads.take 4).zipIdx).foldl (fun (d : Dev) q => d.quadSample q.2 q.1) d
      let d := (stackT.filter fun k => x.fuses.part.fittedStacks.contains k.1).foldl (fun (d : Dev) k => d.stackSample x k.1 k.2) d
      let w := min pkgW 0xFFFF
      let d := (d.setFld Reg.pmcPkgPower 0 16 w).setFld Reg.pmcPkgPower 16 16 (max w (d.fld Reg.pmcPkgPower 16 16))
      (if d.pmc.stackCrit == crit then d else d.sendRates x).setAlert

/-- A comparator reaches TRIP_C (R658, R661, R666): the fatal event from the CORES stage on, THERMTRIP_N, and VDD_CORE goes. It stays so until power-on
reset. -/
def execThermtrip (sensor : Nat) (s : State) : Host.Outcome State Fault Refusal :=
  s.run fun _ d =>
    if d.pmc.tripped || d.boot.railsOut then d
    else
      let d := if 2 ≤ d.stage && !d.eclipse && d.hif.eventReceiver.isSome then d.mctp (.platformEvent sensor (d.sense sensor)) else d
      ({ d with pmc := { d.pmc with tripped := true, railMv := [0, 0, 0, 0] } } : Dev).send (.pin .thermtripN false)

end Sys2Proof.Machine
end

