-- ==== Sys2Proof/Machine/SelfRepair.lean ====
section
/-! DEFINITION. Machine/SelfRepair.lean: watchers, resets of quadrants and blocks, hardware errors, segment checks, scrubbing and retired SRAM
lines (R44, R62, R74 to R78, R601, R614, R618, R619, R676 to R680, R691 to R696). -/

namespace Sys2Proof.Machine

/-! ### Quadrant resets (R618, R693, R694) -/

/-- Software sets bits of RST_CTL.QRST (R614, R623): each clears as its quadrant rejoins, at once where it cannot be reset. -/
def execQrst (mask : Nat) (s : State) : Host.Outcome State Fault Refusal :=
  s.run fun x d => d.bar0 x Reg.chipRstCtl fun d =>
    ((List.range 4).filter fun q => bit mask q).foldl (fun (d : Dev) q =>
      if d.quadResettable q then (d.setFld Reg.chipRstCtl (4 + q) 1 1).quadReset x q 3 else d) d

/-- A reset of a quadrant that is draining. -/
def Dev.quadDraining (d : Dev) (q : Nat) : Bool := d.boot.quadResets.any fun r => r.quad == q && r.stage == 1

/-- The drain of a quadrant has ended: its reset is forced, or its gate opens (R618 step 2, R668). -/
def Dev.drained (x : Ctx) (d : Dev) (q : Nat) : Dev :=
  if d.quadDraining q then d.quadForce x q
  else match d.gateOf q with
    | some g => if g.drained then d.gateNow x g else d
    | none => d

/-- A quadrant has drained. -/
def execQuadDrainDone (q : Nat) (s : State) : Host.Outcome State Fault Refusal := s.run fun x d => if q < 4 then d.drained x q else d

/-- Whether a command is the end of a quadrant's drain, or of its refills. -/
def endsDrain (q : Nat) : Instr → Bool
  | .quadDrainDone k => k == q
  | _ => false

@[inherit_doc endsDrain] def endsRefill (q : Nat) : Instr → Bool
  | .quadRefillDone k => k == q
  | _ => false

/-- A drain watcher expires (R74): TO_DRAIN, and the drain is abandoned. The end of the drain at the same moment wins (R76). -/
def execDrainTimeout (q : Nat) (s : State) : Host.Outcome State Fault Refusal :=
  s.run fun x d =>
    let late := fun (t : Ns) => decide (t + d.fld (Reg.qdQctlToDrain q) 0 16 * 1000 ≤ d.now)
    let gate := match d.gateOf q with | some g => g.drained && late g.since | none => false
    let reset := d.boot.quadResets.any fun r => r.quad == q && r.stage == 1 && late r.since
    if q < 4 && (reset || gate) && !(s.pending.any (endsDrain q)) then (d.report (sourceOf (quadBase q) 0 0) 0x22 2 q).drained x q else d

/-- A stage of a quadrant's reset. -/
def Dev.quadStage (d : Dev) (q a b : Nat) : Dev :=
  let f := fun (r : QuadReset) => if r.quad == q && r.stage == a then { r with stage := b } else r
  { d with boot := { d.boot with quadResets := d.boot.quadResets.map f } }

/-- Power-good after a reset: alignment and the refills begin (R63, R618 step 4). -/
def execQuadPowerGood (q : Nat) (s : State) : Host.Outcome State Fault Refusal :=
  s.run fun _ d => if q < 4 && d.boot.quadResets.any fun r => r.quad == q && r.stage == 2 then d.quadStage q 2 3 else d

/-- The refills are done: once its timekeeper is aligned the quadrant rejoins the ledger, and its QRST bit clears (R618 steps 4 and 5). -/
def execQuadRefillDone (q : Nat) (s : State) : Host.Outcome State Fault Refusal :=
  s.run fun x d =>
    if q < 4 && (d.keeper (q + 1)).aligned && d.boot.quadResets.any fun r => r.quad == q && r.stage == 3 then
      let d : Dev := { d with boot := { d.boot with quadResets := d.boot.quadResets.filter fun r => r.quad != q } }
      (d.setFld Reg.chipRstCtl (4 + q) 1 0).quadBack x q
    else d

/-- The quadrant has not rejoined within 50 ms of the forced reset: it is left offline (R618, R693, R694). -/
def execQuadRejoinTimeout (q : Nat) (s : State) : Host.Outcome State Fault Refusal :=
  s.run fun x d => if q < 4 && d.boot.quadResets.any fun r => r.quad == q && r.stage != 1 && decide (r.since + 50000000 ≤ d.now) then
      d.quadOff x q else d

/-! ### Watchdogs and timekeepers (R62 to R69, R601, R696) -/

/-- The watchdog of a firmware core expires (R601, R605, R607): those of SEC (0), PMC (1) and SCH (2) restart the chip, a moon's (3 to 6) its quadrant;
before OPERATIONAL the start fails. -/
def Dev.coreDown (x : Ctx) (d : Dev) (core : Nat) : Dev :=
  let d := d.report chipSource 0x24 3 core
  if core < 3 || !d.operational then d.chipLevel x core else d.quadReset x (core - 3) 2

/-- Three kicks in a row are missed (R601). -/
def execWatchdogMiss (core : Nat) (s : State) : Host.Outcome State Fault Refusal :=
  s.run fun x d =>
    if core == 0 || 6 < core || d.held || d.eclipse || d.stage == 1 then d
    else d.coreDown x core

/-- Every 1 ms a timekeeper compares itself with the reference (R62, R66). A quadrant's whose skew passes 16 ns takes its quadrant with it (R63, R696); DEDUCED
(log 42): with the cause of a moon, as the table has it. -/
def execTkCalibrate (tk counted refTicks : Nat) (s : State) : Host.Outcome State Fault Refusal :=
  s.run fun x d =>
    if 4 < tk || d.held || d.eclipse || (tk != 0 && !(d.keeper tk).aligned) then d
    else if !(refGood refTicks) then d.holdover tk
    else
      let d := d.calibrate tk counted
      if tk != 0 && 16 < d.skewOf (tk - 1) then d.quadReset x (tk - 1) 2 else d

/-! ### Blocks (R74, R78, R619, R693) -/

/-- The TAG of the request that a block works on (R684): an AE, a merge unit, a score engine, a stack controller or a pipe. -/
def Dev.blockTag (d : Dev) (block : Nat) : Option Nat :=
  let (kind, n) := blockIndex block
  let layer := fun (p : WorkTile → Bool) => (d.attn.reqs.find? fun r => r.tiles.any p).map (·.tag)
  let reads := fun (t : WorkTile) (s : Nat) => t.ae.isSome && !t.done && t.snap.any fun g => !(inSram g.2.payload) && stackOf g.2.payload == s
  if kind == Reg.qdAePace 0 0 then
    (layer fun t => t.ae == some (n / 64, n % 64) && !t.done).or
      ((d.tail.reqs.find? fun r => r.deltas.any fun t => t.ae == some (n / 64, n % 64) && !t.done).map (·.tag))
  else if kind == Reg.qdMergePace 0 then layer fun t => t.delivered && d.mergeQuad t.idx == n
  else if kind == Reg.qdScorePace 0 then layer fun t => reads t (3 * n) && t.offload.any fun p => !(t.scored.contains p)
  else if kind == Reg.qdHsPace 0 0 then layer fun t => reads t (3 * (n / 64) + n % 64)
  else if kind == Reg.tailMaskPace 0 || kind == Reg.tailTopkPace 0 || kind == Reg.tailSampPace 0 then
    (d.tail.reqs.find? fun q => q.entries.any fun e => match e.stage with | .running p => p == n | .hook p _ _ _ => p == n | _ => false).map (·.tag)
  else none

/-- Whether a block has an operation of which the model knows. -/
def Dev.blockWorks (d : Dev) (block : Nat) : Bool :=
  let (kind, n) := blockIndex block
  if kind == Reg.recallQePace 0 then d.rcl.queries.any fun c => c.qe == n
  else if kind == Reg.qdScanPace 0 0 then d.rcl.queries.any fun c => c.queries.any fun q => q.status.isNone && q.todo.any fun t => t.2 == 3 * (n / 64) + n % 64
  else if kind == Reg.beltCorePace 0 then d.belt.harts.any fun h => h.1 / 64 == n
  else (d.blockTag block).isSome

/-- Whether the model holds every operation that a block can have. The others also serve what the model takes as one event. -/
def trackedBlock (block : Nat) : Bool :=
  [Reg.qdAePace 0 0, Reg.qdMergePace 0, Reg.qdScorePace 0, Reg.tailMaskPace 0, Reg.tailTopkPace 0, Reg.tailSampPace 0, Reg.recallQePace 0,
    Reg.qdScanPace 0 0, Reg.beltCorePace 0].contains (blockIndex block).1

/-- What a TO_BLOCK report says of an operation (R684): the TAG of a request, no TAG but ORIGIN 0x1 for Recall, whose queries of the model hold none, ORIGIN
0x2 for a Belt command; else a free value of the three forms, as no rule says which operation the block ran. -/
def Dev.blockInfo (d : Dev) (block : Nat) : Nat × Dev :=
  let kind := (blockIndex block).1
  match d.blockTag block with
  | some t => (2 ^ 32 + u32 t, d)
  | none =>
    let (v, d) := d.draw
    (if kind == Reg.recallQePace 0 || kind == Reg.qdScanPace 0 0 then 2 ^ 32 + u32 v
     else if kind == Reg.beltCorePace 0 then 2 ^ 33 + v % 256
     else match v % 3 with | 0 => 0 | 1 => 2 ^ 32 + u32 (v / 3) | _ => 2 ^ 33 + v / 3 % 256, d)

/-- TO_BLOCK: the operation is abandoned, and the block's reset begins (R74, R78, R619, R695). -/
def Dev.blockExpires (x : Ctx) (d : Dev) (block : Nat) : Dev :=
  let (info, d) := d.blockInfo block
  let busy := !(d.blockAbsorbed block)
  let d := (d.report (blockSource block) 0x21 2 info).blockReset block 3
  if busy then d.dropWork x block 3 else d

/-- Whether a command is the end of a block's operation. -/
def endsWork (block : Nat) : Instr → Bool
  | .tileComplete q ae _ => block == Reg.qdAePace q ae
  | .blockIdleAck b => b == block
  | .btWaitResume h => block == Reg.beltCorePace (h / 64)
  | _ => false

/-- The time of a cell's acknowledge watcher (R74). DESIGN CHOICE (log 51): a chip-level block, which stands in no quadrant, has that of QD0. -/
def Dev.cellNs (d : Dev) (block : Nat) : Nat := d.fld (Reg.qdQctlToCb ((quadOf block).getD 0)) 0 16

/-- A cell's acknowledge watcher expires (R74, R693): the requester that has the grant raises its request once more; when it expires again, or, for a
handshake of which the model holds no request, within the time of the second attempt, the expiry is one of block level. -/
def Dev.cellExpires (x : Ctx) (d : Dev) (block cell : Nat) : Dev :=
  let c := d.cellOf block cell
  let d := d.report (blockSource block + (cell + 1) * 0x100000) 0x20 1 0
  let who := c.granted.getD otherRequester
  let again := match tblGet who c.again with
    | some t => c.granted.isSome || decide (d.now ≤ t + d.cellNs block + 256)
    | none => false
  if again then (d.setCell { c with again := tblDel who c.again }).blockExpires x block else d.setCell (c.retry d.now)

/-- A cell's acknowledge watcher expires. An acknowledge at the same moment wins (R76); the cells of a block that is offline or being reset wait for none (R695). -/
def execCellTimeout (cell : CellId) (s : State) : Host.Outcome State Fault Refusal :=
  s.run fun x d =>
    let (block, cell) := (cell.block, cell.cell)
    let acked := match (d.cellOf block cell).granted with | some r => s.pending.any (endsWork (Reg.qdAePace (r / 64) (r % 64))) | none => false
    if !(blockOk x.fuses.part block) || 4095 ≤ cell || acked || d.blockAbsorbed block then d else d.cellExpires x block cell

/-- A block operation watcher expires (R74, R78): of an operation that is open, and does not end at the same moment (R76). -/
def execBlockTimeout (block : Nat) (s : State) : Host.Outcome State Fault Refusal :=
  s.run fun x d =>
    let closed := d.blockState block == 2 || (trackedBlock block && !(d.blockWorks block)) || s.pending.any (endsWork block)
    if !(blockOk x.fuses.part block) || closed then d else d.blockExpires x block

/-- The block acknowledges idle, and its reset completes (R619 steps 2 and 4). -/
def execBlockIdleAck (block : Nat) (s : State) : Host.Outcome State Fault Refusal :=
  s.run fun x d => match d.blockPending block with | some b => d.blockDone x b 0 | none => d

/-- Whether a command is a block's acknowledgement of IDLE_REQ. -/
def acksIdle (block : Nat) : Instr → Bool
  | .blockIdleAck b => b == block
  | _ => false

/-- No acknowledgement has come: the block is reset by force (R619 steps 3 and 4). An acknowledgement at the same moment wins (R76). -/
def execBlockForcedReset (block : Nat) (s : State) : Host.Outcome State Fault Refusal :=
  s.run fun x d => match d.blockPending block with
    | some b => if s.pending.any (acksIdle block) then d else d.blockDone x b 1
    | none => d

/-- The block does not reach step 4: its quadrant is reset, or the chip where it stands in none (R693). -/
def execFailedBlockReset (block : Nat) (s : State) : Host.Outcome State Fault Refusal :=
  s.run fun x d => match d.blockPending block with
    | some _ =>
      let d : Dev := { d with boot := { d.boot with blockResets := d.boot.blockResets.filter fun b => b.block != block } }
      match quadOf block with
      | some q => d.quadReset x q 5
      | none => d.warmReset x 5
    | none => d

/-- A hardware error inside a unit (R614, R674, R684): a corrected lane register is counted; anything else fails the block. A stack-controller or core fault has no
report of its own. -/
def execBlockHardwareError (block typ : Nat) (corrected : Bool) (s : State) : Host.Outcome State Fault Refusal :=
  s.run fun x d =>
    if !(blockOk x.fuses.part block) then d
    else if corrected then
      let d := d.report (blockSource block) 0x05 0 0
      let (kind, n) := blockIndex block
      if kind == Reg.qdAePace 0 0 then d.bump (Reg.qdAeEccCnt (n / 64) (n % 64)) 1 else d
    else
      let d := if typ == 6 || typ == 7 then d.report (blockSource block) typ 2 0 else d
      d.blockReset block 2

/-! ### Ecliptic segments (R44, R45, R693, R696) -/

/-- The blocks of the unit behind an Ecliptic port, in the numbering of log 42. -/
def portBlocks (p : Part) (port : Nat) : List Nat :=
  (if port < 4 then quadBlocks p port
  else if port == 5 || port == 6 then (rangeFrom (4 * (port - 5)) 4).map Reg.cvfPace
  else if port == 8 then (List.range 4).flatMap fun k => [Reg.tailMaskPace k, Reg.tailTopkPace k, Reg.tailSampPace k]
  else if port == 9 then (List.range 8).map Reg.textEngPace
  else if port == 10 then (List.range 4).map Reg.recallQePace
  else if port == 11 then (List.range 128).map Reg.beltCorePace
  else []).filter fun b => !(absentBlock p b)

/-- The operation that a transfer belongs to fails at block level (R44, R45, R78): tiles are handled as unit loss, entries whose request image was on its way
read FAULT_UNIT, and parks, revives and checkpoint runs end FAULT_UNIT. -/
def Dev.opFails (x : Ctx) (d : Dev) (t : EclXfer) : Dev :=
  let d := d.crossed fun o => o == t.op
  match t.op with
  | .pages r k | .partials r k =>
    match (d.attn.reqs.find? fun q => q.id == r).bind fun q => q.tiles.zipIdx.find? fun u => u.1.key == k with
    | some u => (d.loseTile x r u.2 u.1).settleAll x
    | none => d
  | .layerImage r =>
    let fix := fun (e : AttnEntry) => if e.status.isNone && d.cacheQuad e.idx == t.dst then { e with status := some .FAULT_UNIT } else e
    (d.updReq r fun q => { q with entries := q.entries.map fix, tiles := q.tiles.filter fun u => d.cacheQuad u.idx != t.dst }).settleAll x
  | .tailImage r => match d.tail.reqs.find? fun q => q.id == r with
    | some q => ((q.entries.zipIdx.filter fun e => e.1.status.isNone && d.cacheQuad e.1.idx == t.dst).foldl (fun (d : Dev) e =>
        d.faultEntry q e.2 e.1 .FAULT_UNIT) d).settleAll x
    | none => d
  | .stream k n => if k == 3 then d.abandonRun x .FAULT_UNIT else d.endTransit x .FAULT_UNIT n

/-- The block that sent is reset (R693); one without a register of its own fails as its port does (R696). -/
def Dev.senderFails (x : Ctx) (d : Dev) (src block : Nat) : Dev :=
  if blockOk x.fuses.part block then d.blockReset block 2 else d.portLost x src

/-- A segment of a transfer in its turn (R44, R45). -/
def Dev.segment (x : Ctx) (d : Dev) (t : EclXfer) (crcOk : Bool) : Dev :=
  if t.dst < 4 && !(d.quadPowered t.dst) then d.opFails x t
  else if crcOk then d.eclArrive t
  else if !t.again then (d.eclResend t).report chipSource 0x10 1 t.dst
  else (((d.report chipSource 0x10 2 t.dst).eclServed t).opFails x t).senderFails x t.src t.block

/-- A CONTROL segment, of register and mailbox traffic (R37); one to a quadrant without power is answered with an error (R45). Which block of the source sent it no rule says: it is a free choice. -/
def Dev.controlSegment (x : Ctx) (d : Dev) (src dst : Nat) (crcOk : Bool) : Dev :=
  let again := d.arb.control.contains (src, dst)
  let d : Dev := { d with arb := { d.arb with control := d.arb.control.filter fun k => k != (src, dst) } }
  if crcOk || (dst < 4 && !(d.quadPowered dst)) then d
  else if !again then ({ d with arb := { d.arb with control := d.arb.control ++ [(src, dst)] } } : Dev).report chipSource 0x10 1 dst
  else
    let (n, d) := (d.report chipSource 0x10 2 dst).draw
    let bs := portBlocks x.fuses.part src
    d.senderFails x src (getAt 0 (n % max 1 bs.length) bs)

/-- A segment arrives, and its CRC is checked (R40 to R45): of the transfers that wait at the port, the one whose turn it is. A source whose turn it is not
sends nothing; one without a transfer to this port sends a CONTROL segment. -/
def execSegmentArrive (src dst : Nat) (crcOk : Bool) (s : State) : Host.Outcome State Fault Refusal :=
  s.run fun x d =>
    if eclPorts ≤ src || eclPorts ≤ dst || src == dst then d
    else if d.arb.xfers.any fun t => t.src == src && t.dst == dst then match d.eclNext dst with
      | some t => if t.src == src then d.segment x t crcOk else d
      | none => d
    else d.controlSegment x src dst crcOk

/-! ### SRAM regions (R255, R679, R680) -/

/-- The region of an SRAM offset within its quadrant, in the order of R255: 0 DESC, 1 BELT_SAVE, 2 TAIL, 3 TEXT, 4 MASK, 5 RECALL, 6 T0. -/
def Dev.sramRegion (x : Ctx) (d : Dev) (q off : Nat) : Nat :=
  let a := d.reg (Reg.qdSramPartA q)
  let sizes := [16, if x.fuses.part.hasBelt then 8 else 0, bits a 24 8, bits a 16 8, bits a 8 8, if x.fuses.part.hasRecall then bits a 0 8 else 0]
  let ends := (List.range 6).map fun k => 0x100000 * sumOf (sizes.take (k + 1))
  (ends.filter fun e => e ≤ off).length

/-- A free pick of a list. -/
def Dev.pickOf {α : Type} (d : Dev) (l : List α) : Option α × Dev :=
  let (n, d) := d.draw
  (if l.isEmpty then none else l[n % l.length]?, d)

/-- What a region's owner does about SRAM that is lost at a place, a word or a whole line of `len` bytes (R679, R680). In which of the 16 ways of its set an
entry of the descriptor cache lies, and which mask lay there, no rule says: they are free choices. -/
def Dev.sramLoses (x : Ctx) (d : Dev) (q off len : Nat) : Dev :=
  match d.sramRegion x q off with
  | 0 =>
    let ways := d.sess.cache.filter fun i => d.cacheQuad i == q && i / 4 % 4096 == off / 4096
    let (n, d) := d.draw
    let gone := if len < 4096 then (ways.drop (n % 16)).take 1 else ways
    { d with sess := { d.sess with cache := d.sess.cache.filter fun i => !(gone.contains i) } }
  | 2 => d.loseShares x
  | 4 =>
    match d.pickOf d.tail.masks with
    | (some k, d) => ({ d with tail := { d.tail with masks := d.tail.masks.filter fun m => m != k } } : Dev).bump Reg.tailMcacheEcc 1
    | (none, d) => d
  | 6 =>
    let a := sramBase q + off
    let hit := d.tier.pins.filter fun c => c.addr < a + len && a < c.addr + c.bytes
    let ids := (hit.filterMap fun c => match c.key.owner with | .pfx id => some id | .sess _ => none).eraseDups
    ids.foldl (fun (d : Dev) id => d.losePins x id fun _ => false) d
  | _ => d

/-- A staging word is lost: the entries whose request image holds it read FAULT_MEDIA (R679). Which image of the quadrant that is no rule says: a free choice among
those and none. -/
def Dev.stagingLoses (x : Ctx) (d : Dev) (q : Nat) : Dev :=
  let ls := (d.attn.reqs.filter fun r => r.share.any fun s => s.1 == q).map fun r => some (Sum.inl r.id)
  let ts := (d.tail.reqs.filter fun r => r.share.any fun s => s.1 == q).map fun r => some (Sum.inr r.id)
  match d.pickOf (none :: (ls ++ ts)) with
  | (some (some (Sum.inl id)), d) =>
    let fix := fun (e : AttnEntry) => if e.status.isNone && d.cacheQuad e.idx == q then { e with status := some .FAULT_MEDIA } else e
    (d.updReq id fun r => { r with entries := r.entries.map fix, tiles := r.tiles.filter fun t => d.cacheQuad t.idx != q }).settleAll x
  | (some (some (Sum.inr id)), d) => match d.tail.reqs.find? fun r => r.id == id with
    | some r =>
      let mine := r.entries.zipIdx.filter fun e => e.1.status.isNone && d.cacheQuad e.1.idx == q
      (mine.foldl (fun (d : Dev) e => d.faultEntry r e.2 e.1 .FAULT_MEDIA) d).settleAll x
    | none => d
  | (_, d) => d

/-! ### Scrubbing (R678, R301, R676) -/

/-- Words that are found wrong join those that are known. -/
def Dev.findBad (d : Dev) (found : List (Nat × Bool)) : Dev :=
  found.foldl (fun (d : Dev) f =>
    let w := wordBase f.1
    if d.err.bad.any fun b => b.addr == w then d
    else { d with err := { d.err with bad := d.err.bad ++ [(⟨w, f.2, false, false⟩ : BadWord)] } }) d

/-- Whether an HBM address holds something: a slot in use, or a place outside the pool's slots. -/
def Dev.holdsData (x : Ctx) (d : Dev) (a : Nat) : Bool := !(d.isSlot x (d.slotOf a)) || d.kv.pool.used.any fun u => u.addr == d.slotOf a

/-- The cached descriptor whose copy in the table holds an HBM address. -/
def Dev.cachedAt (d : Dev) (a : Nat) : Option Nat := d.sess.cache.find? fun i => d.descAddr i ≤ a && a < d.descAddr i + 256

/-- A patrol scrub reads a stack: its wrong words are corrected or reported, the copies of cached descriptors are written anew (R95), and slots that fail are
retired (R301, R676, R678). The scrub of a stack at HOT_C stands still (R666). -/
def execHbmScrubPass (stack : Nat) (found : List (Nat × Bool)) (s : State) : Host.Outcome State Fault Refusal :=
  s.run fun x d =>
    if !(x.fuses.part.fittedStacks.contains stack) || d.err.deadStacks.contains stack || !d.operational || d.baseHot stack then d
    else
      let d := d.findBad (found.filter fun f => stackOf f.1 == stack)
      let words := d.err.bad.filter fun b => b.addr < 0x12000000000 && stackOf b.addr == stack
      words.foldl (fun (d : Dev) b =>
        let d := match d.cachedAt b.addr with
          | some i => (d.eccRead b.addr 1 false).putDesc x i (d.desc i)
          | none => d.eccRead b.addr 1 (d.holdsData x b.addr)
        if d.slotFails (d.slotOf b.addr) then d.retire x (d.slotOf b.addr) else d) d

/-- An uncorrectable word of the control domain (R679): the core whose boot RAM it was misses its watchdog (R601), or an entry of a log reads as zero. The layout of
the control domain is in no rule: which of them the word was is a free choice. -/
def Dev.controlLoses (x : Ctx) (d : Dev) : Dev :=
  let (n, d) := d.draw
  if n % 2 == 0 then d.coreDown x (n / 2 % 7)
  else
    let k := n / 2 % 5
    let l := getAt ErrLog.reset k d.err.logs
    let i := n / 10 % 4096
    let zero : LogEntry := ⟨0, 0, 0, 0, 0, 0, 0, false, 0, 0⟩
    let j := i - 2048 + (4096 - l.oldest)
    let ring := if i < 2048 || l.ring.isEmpty then l.ring else l.ring.set (j % 2048) zero
    let fixed := if i < 2048 then l.fixed.set i zero else l.fixed
    if fixed == l.fixed && ring == l.ring then d
    else ({ d with err := { d.err with logs := setAt ErrLog.reset { l with fixed := fixed, ring := ring } k d.err.logs } } : Dev).bump (Reg.errlogLLost k) 1

/-- SEC scrubs the control domain (R678): corrected words are reported, and the others lose what they held. -/
def Dev.controlScrub (x : Ctx) (d : Dev) (found : List (Nat × Bool)) : Dev :=
  found.foldl (fun (d : Dev) f => if f.2 then (d.report chipSource 0x04 3 f.1).controlLoses x else d.report chipSource 0x03 0 f.1) d

/-- Each moon scrubs its quadrant's SRAM and staging (q 0 to 3), or SEC the control domain (q 4) (R678 to R680). The counts of R680 begin anew after the pass. -/
def execSramScrubPass (q : Nat) (found : List (Nat × Bool)) (s : State) : Host.Outcome State Fault Refusal :=
  s.run fun x d =>
    if q == 4 && 2 ≤ d.stage && !d.held && !d.eclipse then d.controlScrub x found
    else if 4 ≤ q || !d.operational || !(d.quadUp q) then d
    else
      let rs := sramRanges q
      let d := d.findBad (found.filter fun f => inRanges f.1 rs)
      let words := d.err.bad.filter fun b => inRanges b.addr rs
      let d := words.foldl (fun (d : Dev) b =>
        let off := (b.addr - 0x400000000000) % 0x18000000
        let stg := inStaging b.addr
        let d := d.eccRead b.addr 1 (stg || d.sramRegion x q off == 1)
        if !b.uncorrectable then d else if stg then d.stagingLoses x q else d.sramLoses x q off 16) d
      { d with err := { d.err with lineCe := d.err.lineCe.filter fun l => !(inRanges (l.1 * 4096) rs && l.2 < d.fld Reg.errlogSramCtl 0 8) } }

/-- The 4 KiB line of a quadrant's SRAM that returns an uncorrectable word or reaches CE_LIMIT is retired (R680). -/
def execSramLineRetire (q line : Nat) (s : State) : Host.Outcome State Fault Refusal :=
  s.run fun x d =>
    let a := 0x400000000000 + q * 0x18000000 + line * 4096
    let fails := (d.err.bad.any fun b => b.uncorrectable && !b.held && b.addr / 4096 == a / 4096) ||
      d.fld Reg.errlogSramCtl 0 8 ≤ (tblGet (a / 4096) d.err.lineCe).getD 0
    if 4 ≤ q || 98304 ≤ line || !fails || d.err.retiredLines.contains (a / 4096) then d
    else
      let d := (d.report (eccSource a) 0x33 2 a).bump Reg.errlogSramRetired 1
      let keep := d.sramRegion x q (line * 4096) == 1
      let d : Dev := { d with err := { d.err with
        retiredLines := d.err.retiredLines ++ [a / 4096], lineCe := tblDel (a / 4096) d.err.lineCe,
        bad := if keep then d.err.bad else d.err.bad.filter fun b => b.addr / 4096 != a / 4096 } }
      d.sramLoses x q (line * 4096) 4096

end Sys2Proof.Machine
end

