-- ==== Sys2Proof/Machine/Chain.lean ====
section
/-! DEFINITION. Machine/Chain.lean: the management chain (R609 to R613). -/

namespace Sys2Proof.Machine

/-- One bit through the CRC of R609: CRC-8 with polynomial 0x07. -/
def crc8Bit (c : Nat) : Nat := if 128 ≤ c then ((2 * c) ^^^ 0x107) % 256 else 2 * c

/-- CRC-8 over bytes, from 0x00 (R609). -/
def crc8 : List Nat → Nat → Nat
  | [], c => c
  | b :: t, c =>
    let v := c ^^^ (b % 256)
    crc8 t (crc8Bit (crc8Bit (crc8Bit (crc8Bit (crc8Bit (crc8Bit (crc8Bit (crc8Bit v))))))))

/-- A frame whose SYNC and CRC are good (R609, R610). -/
def frameOk (f : List Nat) : Bool := f.length == 8 && getAt 0 0 f == 0xC5 && crc8 (f.take 7) 0 == getAt 0 7 f

/-- ARG of a frame. -/
def frameArg (f : List Nat) : Nat := leNat ((f.drop 4).take 3)

/-- A frame with its CRC. -/
def frameOf (cmd dst src arg : Nat) : List Nat :=
  let b := [0xC5, cmd % 256, dst % 256, src % 256] ++ leBytes arg 3
  b ++ [crc8 b 0]

/-- Whether the DST of a frame matches this device (R609). -/
def Dev.dstMatches (d : Dev) (dst : Nat) : Bool :=
  dst == 0xFF || (if d.boot.posAssigned then dst == d.fld Reg.chipMchStat 0 5 else dst == 0xFE)

/-- The frame as it goes on: ENUM with ARG[7:0] + 1, saturating at 32 (R611). -/
def forwarded (f : List Nat) : List Nat :=
  if getAt 0 1 f == 1 then
    let a := frameArg f
    frameOf 1 (getAt 0 2 f) (getAt 0 3 f) (a / 256 * 256 + min (a % 256 + 1) 32)
  else f

/-- A frame reaches a chain input: a bad one is dropped and counted, a good one goes on, and then the device acts on it once if it is for this device
(R610, R611, R613). The second chain is in use with CHAIN2_EN only. -/
def Dev.chainFrame (d : Dev) (second : Bool) (f : List Nat) (act : Dev → Dev) : Dev :=
  if d.boot.railsOut || (second && !d.boot.chain2) then d
  else if !(frameOk f) then d.bump Reg.chipMchErr 1
  else
    let d := d.send (.chain second (forwarded f))
    let recent := d.boot.chain.filter fun c => d.now ≤ c.2.2 + 100000
    let twice := d.boot.chain2 && recent.any fun c => c.1 != second && c.2.1 == f
    let d : Dev := { d with boot := { d.boot with chain := recent ++ [(second, f, d.now)] } }
    if twice || !(d.dstMatches (getAt 0 2 f)) then d else act d

/-- ENUM: a device without a position takes it; another position sets MISMATCH (R611, R612). -/
def Dev.enumAct (d : Dev) (arg : Nat) : Dev :=
  let pos := arg % 256
  if !d.boot.posAssigned then if pos ≤ 31 then d.takePos pos else d
  else if d.fld Reg.chipMchStat 0 5 == pos then d
  else (d.setFld Reg.chipMchStat 29 1 1).report chipSource 0x72 1 arg

/-- A chain ENUM frame. -/
def execEnum (second : Bool) (bytes : List Nat) (s : State) : Host.Outcome State Fault Refusal :=
  s.run fun _ d => d.chainFrame second bytes fun d => if getAt 0 1 bytes == 1 then d.enumAct (frameArg bytes) else d

/-- The STATUS frame that PING asks for (R611). A device without a position has no SRC: it is a free value. -/
def Dev.statusFrame (d : Dev) (second : Bool) : Dev :=
  let (v, d) := if d.boot.posAssigned then (d.fld Reg.chipMchStat 0 5, d) else d.draw
  let arg := d.stage + d.fld Reg.chipBootStat 8 8 * 16 + d.fld Reg.chipBootStat 26 2 * 4096 + ofB d.eclipse * 16384
  d.send (.chain second (frameOf 3 0xFD v arg))

/-- A chain PING frame. -/
def execPing (second : Bool) (bytes : List Nat) (s : State) : Host.Outcome State Fault Refusal :=
  s.run fun _ d => d.chainFrame second bytes fun d => if getAt 0 1 bytes == 2 then d.statusFrame second else d

/-- A chain WARM_RESET frame (R611, R614). -/
def execWarmReset (second : Bool) (bytes : List Nat) (s : State) : Host.Outcome State Fault Refusal :=
  s.run fun x d => d.chainFrame second bytes fun d => if getAt 0 1 bytes == 4 then d.warmAsked x 4 else d

/-- A chain QUAD_RESET frame (R611, R614). -/
def execQuadReset (second : Bool) (bytes : List Nat) (s : State) : Host.Outcome State Fault Refusal :=
  s.run fun x d => d.chainFrame second bytes fun d =>
    if getAt 0 1 bytes == 5 then
      ((List.range 4).filter fun q => bit (frameArg bytes) q).foldl (fun (d : Dev) q => d.quadReset x q 4) d
    else d

/-- Another chain frame: forwarded only, or dropped (R610, R611). -/
def execChainForward (second : Bool) (bytes : List Nat) (s : State) : Host.Outcome State Fault Refusal :=
  s.run fun _ d => d.chainFrame second bytes fun d => d

end Sys2Proof.Machine
end

