-- ==== Sys2Proof/Machine/Security.lean ====
section
/-! DEFINITION. Machine/Security.lean: authorisation records, the tenant switch and zeroing, attestation, debug unlock, firmware update
and the SVN floor (chapter 14). -/

namespace Sys2Proof.Machine

/-! ### Authorisation records (R633, R634) -/

/-- The record that a command names, and the owner's public key. -/
def Dev.recordAt (x : Ctx) (d : Dev) (e : Entry) : Nat := d.ld x (e.f 24 8) 256
@[inherit_doc Dev.recordAt] def Dev.ownerKeyAt (x : Ctx) (d : Dev) (e : Entry) : Nat := d.ld x (e.f 32 8) 64

/-- ARG, TENANT and the store-key blob of a record. -/
def recArg (r : Nat) : Nat := byteOf r 6
@[inherit_doc recArg] def recTenant (r : Nat) : Nat := bits r 192 64
@[inherit_doc recArg] def recBlob (r : Nat) : Nat := bits r 256 1032

/-- Whether SEC accepts a record as one of a KIND (R634). DEDUCED (log 44): a TENANT_SWITCH record with a TENANT that R633 rules out is
not accepted. -/
def Dev.recordOk (x : Ctx) (d : Dev) (kind r pk : Nat) : Bool :=
  bits r 0 32 == 0x4855414B && byteOf r 4 == 1 && byteOf r 5 == kind && bits r 64 64 == u64 x.fuses.serial &&
  bits r 128 64 == d.sec.epoch && Config.sm3 64 pk == Config.ownerHash && Config.sm2Verify pk (Config.sm3 192 (bits r 0 1536)) (bits r 1536 512) &&
  (!(bit r 56) || (Config.sm2Decrypt (recBlob r)).isSome) &&
  (kind != 1 || (recTenant r != 0 && recTenant r != 2 ^ 64 - 1)) && (kind != 2 || !d.sec.debugUsed)

/-- A command that takes a record: one that is not accepted completes REFUSED_STATE and counts (R634). -/
def Dev.authorised (x : Ctx) (d : Dev) (c : Cmd) (e : Entry) (kind : Nat) (f : Dev → Nat → Dev) : Dev :=
  d.buffers x c [(e.f 24 8, 256), (e.f 32 8, 64)] fun d => d.source x c (e.f 24 8) 256 fun d => d.source x c (e.f 32 8) 64 fun d =>
    let r := d.recordAt x e
    if d.recordOk x kind r (d.ownerKeyAt x e) then f d r else (d.bump Reg.secAuthFail 1).finish x c .REFUSED_STATE 0

/-! ### What a tenant switch cancels (R635, R637) -/

/-- Every HOT session is rolled back, and the responses that were accepted are sent with their entries CANCELLED. -/
def Dev.cancelSteps (x : Ctx) (d : Dev) : Dev :=
  let hot := (d.sess.table.filter fun s => s.2.state == .hot).map (·.1)
  (hot.foldl (fun (d : Dev) i => (d.rollback x i .CANCELLED true).1) d).settleAll x

/-- Moves in progress are aborted at their peers (R637). -/
def Dev.abortMoves (d : Dev) : Dev :=
  let d := d.tier.movesOut.foldl (fun (d : Dev) m => d.sendNote m.dest 0x10 2 "MOVE_ABORT" 64 [m.tag, Status.CANCELLED.code] 0) d
  d.tier.movesIn.foldl (fun (d : Dev) m => d.sendNote m.src 0x10 2 "MOVE_ABORT" 64 [m.tag, Status.CANCELLED.code] 0) d

/-- A RING_BREAK naming this device's position goes to each ring and is counted (R245); the rings are closed (R637). -/
def Dev.leaveRings (d : Dev) : Dev :=
  let d := d.attn.rings.foldl (fun (d : Dev) r =>
    (if r.pos == 0 then d.ringRecord r "RING_BREAK" [r.tag, 0] else d.sendNote r.headAddr 0x32 5 "RING_BREAK" 64 [r.tag, r.pos] r.id).bump
      Reg.sessOrbitBreakCnt 1) d
  { d with attn := { d.attn with rings := [], cancels := [] } }

/-- RELEASE is sent for each borrowed unit, and the T4 objects of parks are released by host requests (R636). -/
def Dev.returnTargets (x : Ctx) (d : Dev) : Dev :=
  let d := d.tier.borrowed.foldl (fun (d : Dev) l => l.units.foldl (fun (d : Dev) u => d.sendNote l.peer 0x30 5 "RELEASE" 64 [l.number, u] 0) d) d
  let parked := d.tier.manifests.flatMap fun m => m.2.targets
  let going := d.tier.parks.flatMap fun p => p.targets
  ((parked ++ going).filter fun t => t.tier == 4).foldl (fun (d : Dev) t => d.releaseTarget x t) d

/-- Shaping changes and power gates that wait for their boundary are withdrawn. DEDUCED (log 44): a gate past its drain and a wake go on. -/
def Dev.withdrawSettings (d : Dev) : Dev :=
  let ports := d.cvf.ports.map fun p => { p with shaper := { p.shaper with pendingSets := [] } }
  { d with cvf := { d.cvf with ports := ports, hp := { d.cvf.hp with pendingSets := [] } },
           pmc := { d.pmc with gating := d.pmc.gating.filter (·.drained) } }

/-- Whether a command in flight is cancelled by a switch: not one of SEC's own, not a queue deletion that waits for its queue, and not a
gate or wake that goes on. -/
def Dev.cancels (d : Dev) (c : Cmd) : Bool :=
  !(0xA0 ≤ c.opcode && c.opcode ≤ 0xA6) && !(d.hif.sqs.any fun q => q.2.deleting == some c) &&
    !((d.pmc.gating ++ d.pmc.waking).any fun g => g.cmd == c || g.wakes.contains c)

/-- The other commands in flight complete CANCELLED (R635). -/
def Dev.cancelFlights (x : Ctx) (d : Dev) : Dev :=
  ((d.hif.flights.map (·.cmd)).filter d.cancels).foldl (fun (d : Dev) c => d.finish x c .CANCELLED 0) d

/-- A run in progress is abandoned, and the next run is FULL (R432); the T4 objects of the store stay (R636). -/
def Dev.leaveStore (x : Ctx) (d : Dev) : Dev :=
  let d := if d.ckpt.run.isSome then d.setFld Reg.ckptRunStat 27 1 1 else d
  ({ d with ckpt := { d.ckpt with store := none } } : Dev).abandonRun x .CANCELLED

/-- Steps 2 and 3 of the switch. Outstanding HRQ WRITE and READ requests go; RELEASE requests stay (R636). -/
def Dev.cancelWork (x : Ctx) (d : Dev) : Dev :=
  let d := ((d.cancelSteps x).abortMoves).leaveRings
  let d := d.rcl.queries.foldl (fun (d : Dev) q => d.answerQuery x q.path q.index .CANCELLED 0 []) d
  let d := (((d.leaveStore x).clearBelt x).returnTargets x).withdrawSettings
  let d := { d with hif := { d.hif with requests := d.hif.requests.filter fun r => r.op == 3 } }
  d.cancelFlights x

/-! ### What a tenant switch clears (R635, R636, R725) -/

/-- The device without the tenant: sessions VOID with their generations advanced, and nothing else of chapters 2 to 9 but what R636
keeps. -/
def Dev.dropTenant (d : Dev) : Dev :=
  let r := Dev.reset
  let d := d.freeSlots (d.kv.pool.used.map (·.addr))
  let blank := d.sess.blank
  let table := d.sess.table.map fun p => (p.1, Desc.void ((p.2.gen + 1) % 1024) d.now)
  let sess := { r.sess with table := table, voided := some ((blank.gen + 1) % 1024, d.now), lastAlloc := d.sess.lastAlloc }
  let pool := { r.kv.pool with retired := d.kv.pool.retired, retiredPcs := d.kv.pool.retiredPcs, ce := d.kv.pool.ce, injected := d.kv.pool.injected }
  { d with sess := sess, kv := { r.kv with shape := d.kv.shape, pool := pool },
           tier := { r.tier with lent := d.tier.lent, lendList := d.tier.lendList, voided := d.tier.voided, offeredAt := d.tier.offeredAt },
           attn := { d.attn with reqs := [], rings := [], cancels := [] }, arb := { d.arb with cells := [], xfers := [] },
           tail := { d.tail with reqs := [], variants := [], grammars := [], masks := [], prefetch := [] },
           text := { d.text with streams := [], channels := [], bindings := [], late := [] },
           rcl := { d.rcl with indexes := [], used := [], queries := [], compactions := [], dropWait := [] },
           ckpt := { r.ckpt with lastUsed := d.ckpt.lastUsed } }

/-! ### Memory at a tenant switch (R627, R635, R638) -/

/-- The queues that exist, as (base, end). -/
def Dev.queueRanges (d : Dev) : List (Nat × Nat) :=
  let at_ := fun (off log entry : Nat) => (d.ringBase + off, d.ringBase + off + 2 ^ log * entry)
  d.hif.sqs.map (fun q => at_ q.2.offset q.2.sizeLog2 64) ++ d.hif.cqs.map (fun q => at_ q.2.offset q.2.sizeLog2 32) ++
    (match d.hif.hrq with | some h => [at_ h.offset h.sizeLog2 64] | none => [])

/-- Ranges without some others. -/
def cutAll (cuts rs : List (Nat × Nat)) : List (Nat × Nat) := cuts.foldl (fun rs c => cutRange c.1 c.2 rs) rs

/-- The boot region, the ring area and the usage-meter table: they lie under epoch 0 (R627). -/
def Dev.epochZero (d : Dev) : List (Nat × Nat) :=
  [(0, 0x20000000), (d.ringBase, d.ringBase + gib), (d.meterBase, d.meterBase + 0x400000)]

/-- The tokenizer's shadow, which is rewritten from the SRAM copy. -/
def Dev.shadowRange (d : Dev) : List (Nat × Nat) := match d.text.tokenizer with | some t => [(t.addr, t.addr + t.bytes)] | none => []

/-- Write zeros over some ranges; their check words are renewed. -/
def Dev.zeroRanges (d : Dev) (rs : List (Nat × Nat)) : Dev :=
  let bad := d.err.bad.filter fun b => !(rs.any fun r => r.1 ≤ b.addr && b.addr + eccWord b.addr ≤ r.2)
  { d with err := { d.err with bad := bad }, writes := rs.map (fun (r : Nat × Nat) => MemOp.zero r.1 r.2) ++ d.writes }

/-- Step 4 for memory: HBM of the old epoch reads free values, SRAM, staging and the ring area outside the queues read 0, and the session
table is written under the new epoch. -/
def Dev.switchMemory (x : Ctx) (d : Dev) : Dev :=
  let old := cutAll (d.epochZero ++ d.shadowRange) (hbmRanges x.fuses.part)
  let d : Dev := { d with writes := old.map (fun (r : Nat × Nat) => MemOp.stale r.1 r.2) ++ d.writes }
  let d := d.zeroRanges (cutAll d.queueRanges [(d.ringBase, d.ringBase + gib)] ++ allSram)
  d.sess.table.foldl (fun (d : Dev) s => d.st x (d.descAddr s.1) 256 s.2.pack) d

/-- The next tenant epoch (R632). -/
def Dev.nextEpoch (d : Dev) : Nat × Dev :=
  if d.sec.epoch % 2 ^ 32 == 0xFFFFFFFF then (Config.random d.free % 2 ^ 32 * 2 ^ 32 + 1, { d with free := d.free + 1 }) else (d.sec.epoch + 1, d)

/-- A tenant switch (R635 to R639): `r` is the record, `tenant` and `key` what the new epoch holds. -/
def Dev.switchTenant (x : Ctx) (d : Dev) (event r tenant : Nat) (key : Option Nat) : Dev :=
  let d := ((d.cancelWork x).dropTenant.settleLoans).switchMemory x
  let (epoch, d) := d.nextEpoch
  let sec := { d.sec with epoch := epoch, tenant := tenant, storeKey := key, debugUsed := false, zeroing := x.fuses.part.fittedStacks }
  let d := { d with sec := sec }
  (d.measure 6 event 0 (Config.sm3 32 (setBits (bits r 0 256) 128 64 epoch))).bump Reg.secSwitchCnt 1

/-- TENANT_SWITCH (R635). -/
def execTenantSwitch (e : Entry) (s : State) : Host.Outcome State Fault Refusal :=
  s.ring e [(24, 16)] [] fun x d c => d.checked x c [(d.sec.debugLevel == 2, .REFUSED_STATE)] fun d =>
    d.authorised x c e 1 fun d r =>
      let d := d.switchTenant x 0xA0 r (recTenant r) (if bit r 56 then Config.sm2Decrypt (recBlob r) else none)
      d.finish x c .DONE (u32 d.sec.epoch)

/-- What zeroing leaves alone beside slots that the pool has allocated (R638). -/
def Dev.unzeroed (d : Dev) : List (Nat × Nat) :=
  d.epochZero ++ [(d.tableBase, d.tableBase + gib), (d.textArea, d.textArea + gib)] ++ d.kv.pool.used.map fun u => (u.addr, u.addr + d.slotBytes)

/-- Background zeroing of a stack finishes (R638); it pauses while the stack is at HOT_C (R666). DEDUCED (log 44): bytes that have been written since the switch are not zeroed. -/
def execZeroStackDone (stack : Nat) (s : State) : Host.Outcome State Fault Refusal :=
  s.run fun x d =>
    if !(d.sec.zeroing.contains stack) || d.baseHot stack then d
    else
      let old := x.mem.stale.filterMap fun r =>
        let lo := max r.1 (stack * stackBytes)
        let hi := min r.2 ((stack + 1) * stackBytes)
        if lo < hi then some (lo, hi) else none
      let d := d.zeroRanges (cutAll d.unzeroed old)
      let left := d.sec.zeroing.filter fun k => k != stack
      { d with sec := { d.sec with zeroing := left, zeroDone := if left.isEmpty then d.now else d.sec.zeroDone } }

/-! ### Measurement and attestation (R640, R641) -/

/-- The 64 B of a measurement log entry (R640). -/
def MEntry.pack (m : MEntry) : Nat := packFields [(0, 1, m.mr), (1, 1, m.event), (8, 8, m.stamp), (16, 8, m.id), (24, 32, m.digest)]

/-- Bytes 0 to 383 of a quote (R641). -/
def Dev.quote (x : Ctx) (d : Dev) (nonce : Nat) : Nat :=
  packFields ([(0, 4, 0x544F5551), (4, 1, 1), (5, 1, d.sec.debugLevel), (6, 1, d.sec.svnFloor), (7, 1, ofB d.sec.mOvf), (8, 8, x.fuses.serial),
    (16, 8, d.sec.epoch), (24, 8, d.sec.tenant), (32, 4, d.boot.bundleVer), (36, 4, d.sec.mcount), (40, 8, d.now), (48, 32, nonce)] ++
    (List.range 8).map fun k => (80 + 32 * k, 32, getAt 0 k d.sec.mrs))

/-- ATTEST (R641). -/
def execAttest (e : Entry) (s : State) : Host.Outcome State Fault Refusal :=
  s.ring e [(24, 16)] [] fun x d c => d.buffers x c [(e.f 24 8, 32), (e.f 32 8, 448)] fun d => d.source x c (e.f 24 8) 32 fun d =>
    let q := d.quote x (d.ld x (e.f 24 8) 32)
    let sig := Config.sm2Sign (Config.sm3 384 q) d.free % 2 ^ 512
    let d := { d with free := d.free + 1 }
    (d.st x (e.f 32 8) 448 (q + sig * 2 ^ 3072)).finish x c .DONE 0

/-- MLOG_READ (R641). DEDUCED (log 44): fewer entries than COUNT complete DONE_PARTIAL; RESULT is the count written. A COUNT outside 1 to
4,096 is the host's own error. -/
def execMlogRead (e : Entry) (s : State) : Host.Outcome State Fault Refusal :=
  s.ring e [(16, 4), (24, 8)] [] fun x d c =>
    let n := e.f 18 2
    if n == 0 || 4096 < n then d.unpredictable x c
    else
      let es := (d.sec.mlog.drop (e.f 16 2)).take n
      d.buffers x c [(e.f 24 8, 64 * es.length)] fun d =>
        (d.stRecords x (e.f 24 8) 64 (es.map MEntry.pack)).finish x c (if es.length < n then .DONE_PARTIAL else .DONE) es.length

/-- CERT_READ (R641). -/
def execCertRead (e : Entry) (s : State) : Host.Outcome State Fault Refusal :=
  s.ring e [(24, 12)] [] fun x d c =>
    let n := Config.certChain.1
    d.checked x c [(decide (e.f 32 4 < n), .REFUSED_RESOURCE)] fun d => d.buffers x c [(e.f 24 8, n)] fun d =>
      (d.st x (e.f 24 8) n Config.certChain.2).finish x c .DONE n

/-! ### Debug, firmware and the SVN floor (R642 to R645) -/

/-- DEBUG_UNLOCK (R642): level 2 first switches to a tenant that is no tenant. -/
def execDebugUnlock (e : Entry) (s : State) : Host.Outcome State Fault Refusal :=
  s.ring e [(24, 16)] [] fun x d c => d.authorised x c e 2 fun d r =>
    let level := recArg r
    d.checked x c [(level != 1 && level != 2, .REFUSED_STATE), (decide (level < d.sec.debugLevel), .REFUSED_STATE)] fun d =>
      let d : Dev := if level == 2 then d.switchTenant x 0xA4 r (2 ^ 64 - 1) none else { d with sec := { d.sec with debugUsed := true } }
      (({ d with sec := { d.sec with debugLevel := level } } : Dev).measure 7 0xA4 0 (Config.sm3 32 (bits r 0 256))).finish x c .DONE 0

/-- SVN_COMMIT (R645). -/
def execSvnCommit (e : Entry) (s : State) : Host.Outcome State Fault Refusal :=
  s.ring e [(24, 16)] [] fun x d c => d.authorised x c e 3 fun d r =>
    let floor := recArg r
    d.checked x c [(decide (floor ≤ d.sec.svnFloor) || decide (63 < floor) || decide (d.boot.bundleVer / 2 ^ 24 < floor), .REFUSED_STATE)] fun d =>
      (({ d with sec := { d.sec with svnFloor := floor } } : Dev).measure 7 0xA6 0 (Config.sm3 32 (bits r 0 256))).finish x c .DONE 0

/-- Whether an item fits its slot area. DEDUCED (log 44): the area reaches to the next item of the directory, or to the end of the largest
flash (R591). -/
def fitsArea (v off n : Nat) : Bool :=
  let places := ([0, 1].flatMap fun s => [(dirSlot v s).1.1, (dirSlot v s).2.1]).filter fun o => off < o
  off + n ≤ places.foldl min 0x40000000

/-- The new directory: the other slot with its new sizes, preferred, one GEN later (R644). -/
def newDirectory (v slot fwBytes imgBytes : Nat) : Nat :=
  let v := setBits (setBits v 40 8 slot) 64 32 (dirGen v + 1)
  let v := setBits (setBits v (8 * (24 + 32 * slot)) 64 fwBytes) (8 * (40 + 32 * slot)) 64 imgBytes
  setBits v (8 * 0xFFC) 32 (crcOf v 0xFFC)

/-- Write both items and then the directory copy with the lower GEN (R644). -/
def Dev.writeSlot (d : Dev) (copy v slot : Nat) (fw img : Nat × Nat) : Dev :=
  let p := dirSlot v slot
  let d := (d.flashSt p.1.1 (leBytes fw.2 fw.1)).flashSt p.2.1 (leBytes img.2 img.1)
  d.flashSt (dirAt (1 - copy)) (leBytes (newDirectory v slot fw.1 img.1) 4096)

/-- Whether both items verify, FW_MIN against the bundle that is written (R594, R595, R643, R644). -/
def Dev.updateOk (x : Ctx) (d : Dev) (fw img : Nat × Nat) : Bool :=
  match d.bundleOk fw.1 fw.2 with
  | some v => img.1 ≤ 0x20000000 && imgVerifies img.2 && imgFwMin img.2 ≤ v && (formatFault x.fuses img.2).isNone
  | none => false

/-- FW_UPDATE (R644). `flashFault` tells whether the flash fails; it is then left as it was (DEDUCED, log 44). -/
def execFwUpdate (e : Entry) (flashFault : Bool) (s : State) : Host.Outcome State Fault Refusal :=
  s.ring e [(24, 24)] [] fun x d c =>
    let given := e.f 24 8 != 0
    let n := if given then e.f 40 4 else 0
    d.buffers x c [(e.f 24 8, n), (e.f 32 8, e.f 44 4)] fun d => d.source x c (e.f 24 8) n fun d => d.source x c (e.f 32 8) (e.f 44 4) fun d =>
      let fw := if given then (n, d.ld x (e.f 24 8) n) else d.boot.bundle.getD (0, 0)
      let img := (e.f 44 4, d.ld x (e.f 32 8) (e.f 44 4))
      let slot := 1 - d.fld Reg.chipBootStat 25 1
      if !(d.updateOk x fw img) then d.finish x c .REFUSED_STATE 0
      else match d.directory with
        | none => d.finish x c .FAULT_MEDIA 0
        | some (copy, v) =>
          if !(fitsArea v (dirSlot v slot).1.1 fw.1) || !(fitsArea v (dirSlot v slot).2.1 img.1) then d.finish x c .REFUSED_RESOURCE 0
          else if flashFault then d.finish x c .FAULT_MEDIA 0
          else (d.writeSlot copy v slot fw img).finish x c .DONE 0

end Sys2Proof.Machine
end

