-- ==== Sys2Proof/Machine/RegAccess.lean ====
section
/-! DEFINITION. Machine/RegAccess.lean: what a BAR0 register reads, reads and writes of registers under their access codes, CHIP.LOCK,
and PCIe configuration requests (R6 to R10, R22, R23, R80, R85, R86, R512, R545, R621). -/

namespace Sys2Proof.Machine

/-! ### Read-only registers that show state (the register tables of chapters 1 to 16)

Each view answers none for an offset that it does not cover; a register that no view covers reads what is stored for it. -/

/-- Pick the value beside an offset. -/
def viewOf (off : Nat) (ts : List (Nat × Nat)) : Option Nat := tblGet off ts

/-- A number in a field of some bits, saturating. -/
def satBits (n w : Nat) : Nat := min n (2 ^ w - 1)

/-- The CHIP block (R6 to R10, R60, R72). DESIGN CHOICE (log 50): with PERIOD_MS 0 there is no period, and ACTIVE reads 0. -/
def Dev.chipView (x : Ctx) (d : Dev) (off : Nat) : Option Nat :=
  let active := match d.time.ptmLastAt with | some t => d.now < t + d.fld Reg.chipPtmCtl 8 8 * 1000000 | none => false
  viewOf off [(Reg.chipCap0, capReg x.fuses 0), (Reg.chipCap1, capReg x.fuses 1), (Reg.chipCap2, capReg x.fuses 2), (Reg.chipCap3, capReg x.fuses 3),
    (Reg.chipTimeLo, u32 d.now), (Reg.chipPtmCtl, setBits (d.reg Reg.chipPtmCtl) 31 1 (ofB active))]

/-- Sessions in some states. -/
def Dev.countIn (d : Dev) (p : SState → Bool) : Nat := (d.sess.table.filter fun s => p s.2.state).length

/-- HOT sessions: one whose rollback met a bad descriptor counts no longer (R726). -/
def Dev.countHot (d : Dev) : Nat := (d.sess.table.filter fun s => s.2.state == .hot && (d.stepRec s.1).isSome).length

/-- The counts of SESS (R96, R145). -/
def Dev.sessView (x : Ctx) (d : Dev) (off : Nat) : Option Nat :=
  let f := d.figures x
  viewOf off [(Reg.sessCntLive, d.countIn (· != .void)), (Reg.sessCntHot, d.countHot), (Reg.sessCntParked, d.countIn (· == .parked)),
    (Reg.sessCntMoving, d.countIn fun s => s == .transit || s == .reviving), (Reg.sessLeakedPages, d.sess.leaked.1), (Reg.sessLeakedKib, d.sess.leaked.2),
    (Reg.sessLedgerStat, ofB (4096 ≤ d.sess.bookings.length) * 2 ^ 31 + d.sess.bookings.length),
    (Reg.sessLedgerUnits, f.score.length * 256 + sumOf f.aeCount)]

/-- Pages, prefixes, the pool and the areas (R186, R258, R305, R724). -/
def Dev.poolView (x : Ctx) (d : Dev) (off : Nat) : Option Nat :=
  let mib := fun k => satBits (d.areaFree k / 0x100000) 16
  viewOf off [(Reg.sessKvCompPend, d.kv.passes.length + d.kv.deferred.length), (Reg.sessPfxLive, d.kv.prefixes.length), (Reg.sessAreaFree, mib .root * 65536 + mib .gstack),
    (Reg.sessPoolSlots, d.poolSlots x), (Reg.sessPoolFree, d.poolFree x), (Reg.sessPoolRsvd, sumOf (d.kv.pool.reserved.map (·.2.2))),
    (Reg.sessLendOut, d.slotsLent), (Reg.sessLendIn, 16384 * sumOf (d.tier.borrowed.map (·.units.length))), (Reg.sessRetired, d.poolRetired x)]

/-- Whether two tiles hold partials of the same query rows. -/
def WorkTile.sameRows (a b : WorkTile) : Bool :=
  a.entry == b.entry && a.head == b.head && a.span.rows.1 < b.span.rows.1 + b.span.rows.2 && b.span.rows.1 < a.span.rows.1 + a.span.rows.2

/-- Partials that a merge unit holds for their predecessors: those that have reached it before a tile that is merged ahead of them (R204). -/
def Dev.mergeHeld (d : Dev) (q : Nat) : Nat :=
  sumOf (d.attn.reqs.map fun r => sumOf ((r.tiles.filter fun t => t.delivered && d.mergeQuad t.idx == q &&
    r.tiles.any fun u => u.sameRows t && u.order < t.order && !u.delivered).map fun t => t.partials.length))

/-- The quadrant blocks: SRAM, merge unit and engines (R204, R221, R242, R243, R258). -/
def Dev.quadView (x : Ctx) (d : Dev) (q off : Nat) : Option Nat :=
  let ae := (List.range 16).map fun a => (Reg.qdAeStat q a, setBits (d.reg (Reg.qdAeStat q a)) 0 16 (ofB (d.aeBusy q a)))
  viewOf off ([(Reg.qdSramPartA q, if x.fuses.part.hasRecall then d.reg (Reg.qdSramPartA q) else setBits (d.reg (Reg.qdSramPartA q)) 0 8 0),
    (Reg.qdSramPartB q, ofB x.fuses.part.hasBelt * 8 * 256 + 16), (Reg.qdSramPartC q, d.t0Bytes x q / 0x100000),
    (Reg.qdSramPinUsed q, cdiv (d.pinUsed q) 1024), (Reg.qdMergeHeld q, satBits (d.mergeHeld q) 16),
    (Reg.qdMergeRedirect q, d.mergeQuad q + ofB (d.mergeQuad q != q) * 4)] ++ ae)

/-- The code of a ring's state. -/
def RingState.code : RingState → Nat
  | .closed => 0 | .forming => 1 | .up => 2 | .broken => 3

/-- The ring status registers (R245); OFFLOAD_EN reads 0 on a part without compute stacks (R246). -/
def Dev.ringView (x : Ctx) (d : Dev) (off : Nat) : Option Nat :=
  if off == Reg.sessAttnCtl && x.fuses.part.computeStacks.isEmpty then some (setBits (d.reg off) 0 1 0)
  else (d.attn.rings.find? fun r => off == Reg.sessOrbitStat r.id && r.id < 4).map fun r =>
    (r.m - 1) % 16 * 2 ^ 28 + r.pos % 16 * 2 ^ 24 + r.state.code * 2 ^ 22 + r.lostPos % 16 * 2 ^ 18 + satBits r.bindings.length 17

/-- STATE and CAUSE of a pipe or text engine: idle, running or offline. -/
def Pipe.stat (p : Pipe) (busy : Bool) : Nat := if p.offline then 2 else if busy then 1 else 0

/-- The TAIL block (R351). -/
def Dev.tailView (d : Dev) (off : Nat) : Option Nat :=
  let pipe := fun (k : Pipe × Nat) => (k.1.stat (d.pipeBusy k.2) + k.1.cause % 4 * 64) * 256 ^ k.2
  viewOf off [(Reg.tailStore, satBits d.storeFree 16), (Reg.tailPipeStat, sumOf (d.tail.pipes.zipIdx.map pipe)),
    (Reg.tailLoaded, d.tail.grammars.length * 65536 + d.tail.variants.length)]

/-- The TEXT block (R385). -/
def Dev.textView (x : Ctx) (d : Dev) (off : Nat) : Option Nat :=
  let eng := fun (k : Pipe × Nat) => (k.1.stat false + k.1.cause % 4 * 4) * 16 ^ k.2
  let tok := match d.text.tokenizer with
    | some t => let h := d.tokHead x t.addr
                2 ^ 31 + h.maxLen % 256 * 2 ^ 20 + h.vocab % 2 ^ 20
    | none => 0
  viewOf off [(Reg.textTokStat, tok), (Reg.textEngStat, sumOf (d.text.engines.zipIdx.map eng)), (Reg.textStreams, d.text.streams.length)]

/-- The RECALL and CKPT blocks (R415, R448). -/
def Dev.recallView (x : Ctx) (d : Dev) (off : Nat) : Option Nat :=
  let qe := sumOf ((d.rcl.engines.zipIdx.filter fun p => p.1.up).map fun p => 2 ^ p.2)
  let scan := sumOf (((plainStacks x.fuses.part).zipIdx.filter fun p => !(d.rcl.scanOffline.contains p.1)).map fun p => 2 ^ p.2)
  viewOf off [(Reg.recallExtFree, d.extentsFree x), (Reg.recallStat, qe * 2 ^ 24 + scan % 256 * 65536 + satBits d.rcl.indexes.length 7),
    (Reg.ckptEpochLo, u32 d.ckpt.epoch), (Reg.ckptFullLo, u32 d.ckpt.full)]

/-- The fabric: tokens of each class and the time offset of each port, and the position in FAB_ID (R482, R508, R510). -/
def Dev.fabView (d : Dev) (off : Nat) : Option Nat :=
  let toks := fun (s : Shaper) (r : Nat → Nat) => s.classes.zipIdx.map fun c => (r c.2, ofSigned c.1.tokens 32)
  let ports := d.cvf.ports.zipIdx.flatMap fun p => toks p.1.shaper (Reg.cvfTbTokens p.2) ++ [(Reg.cvfTofsLo p.2, u32 (ofSigned p.1.ofs 64))]
  viewOf off (ports ++ toks d.cvf.hp Reg.hpsTbTokens)

/-- The HIF block: the link, and each queue (R552). The trained rate, width and mode of HP are free values. -/
def Dev.hifView (d : Dev) (off : Nat) : Option Nat :=
  if off == Reg.hifStat then some (Config.hpLink % 2 ^ 11 * 2 ^ 21 + ofB d.hif.hp.bme * 2 ^ 20)
  else match d.hif.sqs.find? fun q => off == Reg.hifSqStat q.1 with
    | some q => some (2 ^ 31 + ofB q.2.high * 2 ^ 30 + q.2.cq % 2 ^ 11 * 65536 + q.2.head % 65536)
    | none => (d.hif.cqs.find? fun q => off == Reg.hifCqStat q.1).map fun q => 2 ^ 31 + ofB q.2.phase * 2 ^ 30 + q.2.tail % 65536

/-- FULL, COLLIDE and IRQ_EN of a mailbox word. -/
def MboxWord.stat (w : MboxWord) : Nat := ofB w.full + ofB w.collide * 2

/-- The mailboxes (R541). -/
def Dev.mboxView (d : Dev) (off : Nat) : Option Nat :=
  (d.hif.mboxes.find? fun m => m.1 == (off - 0x1C00000) / 0x100).bind fun m => match off % 0x100 with
    | 0x00 => some m.2.h2d.data
    | 0x04 => some m.2.h2d.stat
    | 0x08 => some m.2.d2h.data
    | 0x0C => some (m.2.d2h.stat + ofB m.2.irqEn * 4)
    | _ => none

/-- STATE of a Belt partition: idle, running or suspended. -/
def BeltPart.code (p : BeltPart) : Nat := match p.job with | some j => if j.suspended then 2 else 1 | none => 0

/-- STAT of a Belt core (R588): its harts that run something, beside the field CAUSE. -/
def Dev.coreView (d : Dev) (off : Nat) : Option Nat :=
  ((List.range 128).find? fun c => off == Reg.beltCoreStat c).map fun c =>
    d.reg off / 128 * 128 + (d.belt.harts.filter fun h => h.1 / 64 == c).length % 128

/-- The BELT block (R587). -/
def Dev.beltView (d : Dev) (off : Nat) : Option Nat :=
  let st := fun k => (getAt ⟨none, [], 0⟩ k d.belt.parts).code
  let cores := ((List.range 128).filter fun c => d.coreUp c).length
  viewOf off [(Reg.beltStat, st 1 * 2 ^ 30 + st 0 * 2 ^ 28 + cores * 65536 + satBits d.belt.harts.length 14),
    (Reg.beltSaved, satBits d.belt.saved.length 14)] |>.or (d.coreView off)

/-- The SEC block (R647). A switch takes place in one command, so SWITCHING reads 0. -/
def Dev.secView (x : Ctx) (d : Dev) (off : Nat) : Option Nat :=
  let done := sumOf (((List.range 12).filter fun s => !(d.sec.zeroing.contains s) && (d.sec.zeroDone != 0 || !(d.sec.zeroing.isEmpty) ||
    !(x.fuses.part.fittedStacks.contains s))).map fun s => 2 ^ s)
  viewOf off [(Reg.secStat, ofB d.sec.storeKey.isSome * 2 ^ 30 + d.sec.debugLevel % 4 * 2 ^ 28 + d.sec.svnFloor % 64 * 2 ^ 22 + x.fuses.linkDomain % 65536),
    (Reg.secLinkDomain, u32 x.fuses.linkDomain), (Reg.secEpochLo, u32 d.sec.epoch), (Reg.secTenantLo, u32 d.sec.tenant),
    (Reg.secZeroStat, ofB (!(d.sec.zeroing.isEmpty)) * 2 ^ 31 + done), (Reg.secZeroDoneLo, u32 d.sec.zeroDone),
    (Reg.secMlog, ofB d.sec.mOvf * 2 ^ 31 + d.sec.mcount % 2 ^ 31)]

/-- Entry i of a log: the first 2,048 stay in place, the others lie in the ring (R686). -/
def ErrLog.entryAt (l : ErrLog) (i : Nat) : Option LogEntry :=
  if i < 2048 then l.fixed[i]? else l.ring[(i + 2048 - l.oldest) % 2048]?

/-- Warnings of the current window, and of the last whole second (R422, R692). -/
def Dev.warnNow (d : Dev) : Nat := if d.warnWindow != 0 && d.err.warnWin == d.now / d.warnWindow then d.err.warnCount else 0
@[inherit_doc Dev.warnNow] def Dev.warnSecond (d : Dev) : Nat :=
  let s := d.now / 1000000000
  if d.err.secWin == s then d.err.secPrev else if d.err.secWin + 1 == s then d.err.secCount else 0

/-- The ERRLOG block (R683, R686, R700). -/
def Dev.logView (d : Dev) (off : Nat) : Option Nat :=
  if 0x1D10000 ≤ off && off < 0x1D10000 + 5 * 0x20000 then
    let k := (off - 0x1D10000) / 0x20000
    let o := (off - 0x1D10000) % 0x20000
    some (match (getAt ErrLog.reset k d.err.logs).entryAt (o / 32) with
      | some e => bits e.pack (8 * (o % 32)) 32
      | none => 0)
  else
    let logs := d.err.logs.zipIdx.flatMap fun l =>
      [(Reg.errlogLStat l.2, l.1.seqNext % 65536 * 65536 + (l.1.fixed.length + l.1.ring.length)), (Reg.errlogLRing l.2, l.1.oldest)]
    viewOf off (logs ++ [(Reg.errlogWarnNow, d.warnNow), (Reg.errlogCeSec, d.warnSecond)])

/-- SESS.MOVE_CTL.IMAGE_ONLY reads 1 on a part without tile-mode movement (R306). -/
def Dev.moveView (x : Ctx) (d : Dev) (off : Nat) : Option Nat :=
  if off == Reg.sessMoveCtl && !x.fuses.part.tileMove then some (setBits (d.reg off) 31 1 1) else none

/-- What a BAR0 offset reads: the view of its block, or what is stored (R86). -/
def Dev.barRead (x : Ctx) (d : Dev) (off : Nat) : Nat :=
  let v :=
    if off < 0x100000 then d.chipView x off
    else if off < 0x1100000 then d.quadView x ((off - 0x100000) / 0x400000) off
    else if off < 0x1200000 then ((d.sessView x off).or (d.poolView x off)).or ((d.ringView x off).or (d.moveView x off))
    else if off < 0x1300000 then d.tailView off
    else if off < 0x1400000 then d.textView x off
    else if off < 0x1600000 then d.recallView x off
    else if off < 0x1700000 then d.fabView off
    else if off < 0x1900000 then (d.hifView off).or (d.fabView off)
    else if off < 0x1A00000 then d.beltView off
    else if off < 0x1B00000 then d.secView x off
    else if 0x1C00000 ≤ off && off < 0x1D00000 then d.mboxView off
    else if 0x1D00000 ≤ off && off < 0x1E00000 then d.logView off
    else none
  v.getD (d.reg off)

/-! ### Reads (R22, R23) -/

/-- The 64-bit values whose low half latches the high half when it is read. -/
def Dev.pairAt (d : Dev) (off : Nat) : Option (Nat × Nat) :=
  let ports := d.cvf.ports.zipIdx.map fun p => (Reg.cvfTofsLo p.2, Reg.cvfTofsHi p.2, ofSigned p.1.ofs 64)
  tblGet off ([(Reg.chipTimeLo, Reg.chipTimeHi, u64 d.now), (Reg.ckptEpochLo, Reg.ckptEpochHi, u64 d.ckpt.epoch),
    (Reg.ckptFullLo, Reg.ckptFullHi, u64 d.ckpt.full), (Reg.secEpochLo, Reg.secEpochHi, u64 d.sec.epoch),
    (Reg.secTenantLo, Reg.secTenantHi, u64 d.sec.tenant), (Reg.secZeroDoneLo, Reg.secZeroDoneHi, u64 d.sec.zeroDone)] ++ ports)

/-- What a read leaves behind: RC fields clear, a low half latches its high half, PTM_SEQ latches its snapshot, and a D2H word that is read
is no longer FULL. -/
def Dev.readEffect (d : Dev) (off : Nat) : Dev :=
  let d := match regRowAt off with
    | some r => if r.rc == 0 then d else d.setReg off ((BitVec.ofNat 32 (d.reg off)) &&& ~~~r.rc).toNat
    | none => d
  let d := match d.pairAt off with | some p => d.setReg p.1 (p.2 / 2 ^ 32) | none => d
  let d := if off == Reg.chipPtmSeq then d.ptmLatch else d
  match (List.range 8).find? fun m => off == Reg.mboxD2hData m with
  | some m => d.setMbox (.m m) { d.mbox (.m m) with d2h := (d.mbox (.m m)).d2h.take }
  | none => d

/-- A read of a BAR0 register (R22, R23, R85, R86): its value is returned, and its RC fields clear. -/
def execRcRead (off : Nat) (s : State) : Host.Outcome State Fault Refusal :=
  s.run fun x d => d.bar0 x off fun d => (d.readEffect off).send (.cpl .success (d.barRead x off) false)

/-! ### Writes (R22, R80) -/

/-- What a write leaves in a register: RW fields, and RWL fields until CHIP.LOCK is set, take the value; W1C bits written 1 clear. W1S bits
act afterwards. -/
def RegRow.write (r : RegRow) (locked : Bool) (old val : Word) : Word :=
  let w := r.rw ||| (if locked then 0 else r.rwl)
  ((old &&& ~~~w) ||| (val &&& w)) &&& ~~~(val &&& r.w1c)

/-- A write to a mailbox register: the H2D word, the COLLIDE bits and IRQ_EN (R541, R542). -/
def Dev.writeMbox (d : Dev) (m off val : Nat) : Dev :=
  let b := d.mbox (.m m)
  let clear := fun (w : MboxWord) => { w with collide := w.collide && !(bit val 1) }
  match off % 0x100 with
  | 0x00 => d.setMbox (.m m) { b with h2d := b.h2d.put val }
  | 0x04 => d.setMbox (.m m) { b with h2d := clear b.h2d }
  | 0x0C => d.setMbox (.m m) { b with d2h := clear b.d2h, irqEn := bit val 2 }
  | _ => d

/-- Send the message of a vector whose pending bit is set and which nothing masks any longer (R535). -/
def Dev.sendPending (d : Dev) (v : Nat) : Dev :=
  if bit (d.reg (Reg.msixPba (v / 32))) (v % 32) && !(bit (d.reg (Reg.msixCtrl v)) 0) && d.hif.hp.msixEnable && !d.hif.hp.functionMask && d.hif.hp.bme then
    (d.setFld (Reg.msixPba (v / 32)) (v % 32) 1 0).send (.msix v)
  else d

/-- What follows from a register's new value: ADMIN_CTL.EN makes or removes queue 0 (R523), a vector's mask bit releases its message (R535), and
a port whose EN is cleared goes down with CAUSE disabled (R506). -/
def Dev.writeEffect (x : Ctx) (old d : Dev) (off : Nat) : Dev :=
  if off == Reg.hifAdminCtl then
    let en := bit (d.reg off) 31
    if en == bit (old.reg off) 31 then d else d.adminEnable en (d.reg off % 2048)
  else if 0x1880000 ≤ off && off < 0x1890000 then d.sendPending ((off - 0x1880000) / 16)
  else match (List.range 8).find? fun p => off == Reg.cvfCtl p with
    | some p => if bit (old.reg off) 31 && !(bit (d.reg off) 31) && d.portState p != 0 then d.portDown x p 1 else d
    | none => d

/-- What cannot be written now of a register: OFFSET of ADMIN_SQ and ADMIN_CQ while ADMIN_CTL.EN is 1 (R523, R552). -/
def Dev.fixedNow (d : Dev) (off : Nat) : Word :=
  if (off == Reg.hifAdminSq || off == Reg.hifAdminCq) && bit (d.reg Reg.hifAdminCtl) 31 then 0x3FFFF000 else 0

/-- A write of a BAR0 register under its access code (R22, R85, R86). -/
def Dev.barWrite (x : Ctx) (d : Dev) (off val : Nat) : Dev :=
  match (regRowAt off).map fun r => { r with rw := r.rw &&& ~~~(d.fixedNow off) } with
  | some r => Dev.writeEffect x d (d.setReg off (r.write d.locked (BitVec.ofNat 32 (d.reg off)) (BitVec.ofNat 32 val)).toNat) off
  | none => d

/-- Setting CHIP.LOCK: RWL fields are read only from now on (R22, R80). -/
def execChipLockSet (s : State) : Host.Outcome State Fault Refusal :=
  s.run fun x d => d.bar0 x Reg.chipLock fun d => d.setFld Reg.chipLock 0 1 1

/-! ### W1S bits that a register write sets (R22, R80, R223, R508, R623, R700) -/

/-- A command that may follow another: it takes place on the next state. -/
def State.andThen (o : Host.Outcome State Fault Refusal) (f : State → Host.Outcome State Fault Refusal) : Host.Outcome State Fault Refusal :=
  match o with
  | .next t => f t
  | o => o

/-- The requests that a control register's W1S bits make for `n` units: a unit whose two bits are set gets the offline request alone (R223). -/
def offOn (val n : Nat) (off on : Nat → State → Host.Outcome State Fault Refusal) : List (State → Host.Outcome State Fault Refusal) :=
  (List.range n).flatMap fun k => if bit val k then [off k] else if bit val (n + k) then [on k] else []

/-- The commands that W1S bits written 1 stand for. Each has a row of its own, too. -/
def w1sRows (off val : Nat) : List (State → Host.Outcome State Fault Refusal) :=
  let aes := (List.range 4).flatMap fun q => (List.range 16).flatMap fun a =>
    if off == Reg.qdAeCtl q a then offOn val 1 (fun _ => execAeOfflineReq q a) (fun _ => execAeOnlineReq q a) else []
  let ports := (List.range 8).flatMap fun p => if off == Reg.cvfCtl p && bit val 30 then [execCvfRetrain p] else []
  aes ++ ports ++
  (if off == Reg.tailPipeCtl then offOn val 4 execPipeOfflineReq execPipeOnlineReq else []) ++
  (if off == Reg.textEngCtl then offOn val 8 execTextOfflineReq execTextOnlineReq else []) ++
  (if off == Reg.recallEngCtl then offOn val 4 execQeOfflineReq execQeOnlineReq else []) ++
  (if off == Reg.errlogCtl then (List.range 5).flatMap (fun k => if bit val (16 + k) then [execLogClear k] else []) else []) ++
  (if off == Reg.chipPtmCtl && bit val 1 then [execPtmTrigger] else []) ++
  (if off == Reg.chipLock && bit val 0 then [execChipLockSet] else []) ++
  (if off == Reg.chipRstCtl then (if bits val 4 4 != 0 then [execQrst (bits val 4 4)] else []) ++ (if bit val 0 then [execRstCtlWarm] else []) else [])

/-- A BAR0 write to a register without a row of its own (R22, R85, R86), and to the other fields of a register that has one; the W1S bits that it
sets then act. -/
def execRegisterWrite (off val : Nat) (s : State) : Host.Outcome State Fault Refusal :=
  (if s.dev.bar0Cpl s.ctx off == .success then w1sRows off val else []).foldl State.andThen (s.run fun x d => d.bar0 x off fun d =>
    if 0x1C00000 ≤ off && off < 0x1C00800 then d.writeMbox ((off - 0x1C00000) / 0x100) off val else d.barWrite x off val)

/-! ### Configuration requests (R512, R545, R603, R621) -/

/-- A configuration register that no rule gives an effect reads what was last written, or its identity (R4, R512). PRESUMED (log 5): the
identity lies where the PCIe header has it. -/
def Dev.cfgRaw (x : Ctx) (d : Dev) (off : Nat) : Nat :=
  match off with
  | 0x00 => x.fuses.part.deviceId * 65536 + 0xC7E1
  | 0x08 => 0x120000 * 256 + x.fuses.revision % 256
  | 0x2C => 0x00010000 + 0xC7E1
  | _ => (tblGet off d.hif.hp.raw).getD 0

/-- A read of configuration space. -/
def Dev.cfgRead (x : Ctx) (d : Dev) : CfgField → Nat
  | .command => setBits (d.cfgRaw x 0x04) 2 1 (ofB d.hif.hp.bme)
  | .powerState => if d.hif.hp.d3hot then 3 else 0
  | .bar2Size => d.hif.hp.bar2SizeLog2
  | .ptmControl => ofB d.hif.hp.ptmEnable
  | .msixControl => ofB d.hif.hp.msixEnable * 2 ^ 15 + ofB d.hif.hp.functionMask * 2 ^ 14
  | .vsec 0x08 => d.hif.recovery.h2d.data
  | .vsec 0x0C => d.hif.recovery.h2d.stat
  | .vsec 0x10 => d.hif.recovery.d2h.data
  | .vsec 0x14 => d.hif.recovery.d2h.stat
  | .vsec 0x18 => d.reg Reg.chipBootStat
  | .vsec 0x1C => d.reg Reg.chipBootDetail
  | .vsec _ => 0
  | .other off => d.cfgRaw x off

/-- What a configuration read leaves behind: a recovery D2H word that is read is taken (R545). -/
def Dev.cfgReadEffect (d : Dev) : CfgField → Dev
  | .vsec 0x10 => (d.setMbox .recovery { d.mbox .recovery with d2h := (d.mbox .recovery).d2h.take }).nextAnswer .recovery
  | _ => d

/-- Change the configuration state. -/
def Dev.setHp (d : Dev) (f : HpConfig → HpConfig) : Dev := { d with hif := { d.hif with hp := f d.hif.hp } }

/-- Every vector that waits and may go is sent (R535). -/
def Dev.sendAllPending (d : Dev) : Dev :=
  if d.regs.any fun r => 0x1890000 ≤ r.1 && r.1 < 0x18A0000 then (List.range 2048).foldl (fun (d : Dev) v => d.sendPending v) d else d

/-- Clear COLLIDE bits of the recovery mailbox. -/
def Dev.cfgCollide (d : Dev) (h2d : Bool) (val : Nat) : Dev :=
  let b := d.mbox .recovery
  let clear := fun (w : MboxWord) => { w with collide := w.collide && !(bit val 1) }
  d.setMbox .recovery (if h2d then { b with h2d := clear b.h2d } else { b with d2h := clear b.d2h })

/-- A write of configuration space: Bus Master Enable, the power state, the size of BAR2, PTM Enable, MSI-X control and the recovery
mailbox have effects (R512, R513, R545). A value that R512 does not support leaves the field alone. -/
def Dev.cfgWrite (d : Dev) (f : CfgField) (val : Nat) : Dev :=
  match f with
  | .command => (d.setHp fun h => { h with bme := bit val 2, raw := tblSet 0x04 (u32 val) h.raw }).sendAllPending
  | .powerState => if val % 4 == 3 then d.setHp fun h => { h with d3hot := true }
      else if val % 4 == 0 then d.setHp fun h => { h with d3hot := false } else d
  | .bar2Size => if 31 ≤ val && val ≤ 41 then d.setHp fun h => { h with bar2SizeLog2 := val } else d
  | .ptmControl => d.setHp fun h => { h with ptmEnable := bit val 0 }
  | .msixControl => (d.setHp fun h => { h with msixEnable := bit val 15, functionMask := bit val 14 }).sendAllPending
  | .vsec 0x08 => d.setMbox .recovery { d.mbox .recovery with h2d := (d.mbox .recovery).h2d.put val }
  | .vsec 0x0C => d.cfgCollide true val
  | .vsec 0x14 => d.cfgCollide false val
  | .vsec _ => d
  | .other off => if off == 0x00 || off == 0x08 || off == 0x2C then d else d.setHp fun h => { h with raw := tblSet off (u32 val) h.raw }

/-- Whether a configuration request is answered with Request Retry Status: while the start is held, and in its first 100 ms in the ROM stage
as the device is ready or not (R603, a free value). -/
def Dev.cfgRetry (d : Dev) : Bool × Dev :=
  if d.held then (true, d)
  else if d.stage == 1 && d.now < d.boot.started + 100000000 then
    let (n, d) := d.draw
    (n % 2 == 1, d)
  else (false, d)

/-- A configuration request reaches HP and is answered (R512). -/
def execConfigurationRequest (wr : Bool) (field : CfgField) (val : Nat) (s : State) : Host.Outcome State Fault Refusal :=
  s.run fun x d =>
    let (retry, d) := d.cfgRetry
    if retry then d.send (.cpl .requestRetry 0 false)
    else if wr then (d.cfgWrite field val).send (.cpl .success 0 false)
    else (d.cfgReadEffect field).send (.cpl .success (d.cfgRead x field) false)

end Sys2Proof.Machine
end

