-- ==== Sys2Proof/Machine/Dispatch.lean ====
section
/-! DEFINITION. Machine/Dispatch.lean: one arm per command, each one call of its meaning. -/

namespace Sys2Proof.Machine

/-- The effect of a command on everything but the queue. -/
def exec (i : Instr) (s : State) : Host.Outcome State Fault Refusal :=
  match i with
  | .nop e => Sys2Proof.Machine.execNop e s
  | .qCreateCq e => Sys2Proof.Machine.execQCreateCq e s
  | .qCreateSq e => Sys2Proof.Machine.execQCreateSq e s
  | .qDeleteSq e => Sys2Proof.Machine.execQDeleteSq e s
  | .qDeleteCq e => Sys2Proof.Machine.execQDeleteCq e s
  | .hrqCreate e => Sys2Proof.Machine.execHrqCreate e s
  | .storeDone e => Sys2Proof.Machine.execStoreDone e s
  | .meterRead e => Sys2Proof.Machine.execMeterRead e s
  | .sessOpen e => Sys2Proof.Machine.execSessOpen e s
  | .sessStepOpen e => Sys2Proof.Machine.execSessStepOpen e s
  | .sessStepClose e => Sys2Proof.Machine.execSessStepClose e s
  | .sessCancel e => Sys2Proof.Machine.execSessCancel e s
  | .sessClose e => Sys2Proof.Machine.execSessClose e s
  | .sessQuery e => Sys2Proof.Machine.execSessQuery e s
  | .sessPark e => Sys2Proof.Machine.execSessPark e s
  | .sessRevive e => Sys2Proof.Machine.execSessRevive e s
  | .sessMoveOut e => Sys2Proof.Machine.execSessMoveOut e s
  | .sessMoveIn e => Sys2Proof.Machine.execSessMoveIn e s
  | .sessSetTail e => Sys2Proof.Machine.execSessSetTail e s
  | .sessSetLists e => Sys2Proof.Machine.execSessSetLists e s
  | .prefixCapture e => Sys2Proof.Machine.execPrefixCapture e s
  | .prefixRelease e => Sys2Proof.Machine.execPrefixRelease e s
  | .prefixPin e => Sys2Proof.Machine.execPrefixPin e s
  | .prefixUnpin e => Sys2Proof.Machine.execPrefixUnpin e s
  | .kvImport e => Sys2Proof.Machine.execKvImport e s
  | .kvExport e => Sys2Proof.Machine.execKvExport e s
  | .layerReq src => Sys2Proof.Machine.execLayerReq src s
  | .decisionTimeout tail src => Sys2Proof.Machine.execDecisionTimeout tail src s
  | .batchTimeout batch => Sys2Proof.Machine.execBatchTimeout batch s
  | .ringOpen e => Sys2Proof.Machine.execRingOpen e s
  | .ringBind e => Sys2Proof.Machine.execRingBind e s
  | .ringClose e => Sys2Proof.Machine.execRingClose e s
  | .tailReq src => Sys2Proof.Machine.execTailReq src s
  | .variantLoad e => Sys2Proof.Machine.execVariantLoad e s
  | .variantUnload e => Sys2Proof.Machine.execVariantUnload e s
  | .grammarLoad e => Sys2Proof.Machine.execGrammarLoad e s
  | .grammarUnload e => Sys2Proof.Machine.execGrammarUnload e s
  | .topkRow e => Sys2Proof.Machine.execTopkRow e s
  | .tokenizerLoad e => Sys2Proof.Machine.execTokenizerLoad e s
  | .textInOpen e => Sys2Proof.Machine.execTextInOpen e s
  | .textInClose e => Sys2Proof.Machine.execTextInClose e s
  | .textTokenise e => Sys2Proof.Machine.execTextTokenise e s
  | .textCtrlInsert e => Sys2Proof.Machine.execTextCtrlInsert e s
  | .textChanSet e => Sys2Proof.Machine.execTextChanSet e s
  | .textOutBind e => Sys2Proof.Machine.execTextOutBind e s
  | .recallCreate e => Sys2Proof.Machine.execRecallCreate e s
  | .recallCentroids e => Sys2Proof.Machine.execRecallCentroids e s
  | .recallDrop e => Sys2Proof.Machine.execRecallDrop e s
  | .recallStat e => Sys2Proof.Machine.execRecallStat e s
  | .recallInsert e => Sys2Proof.Machine.execRecallInsert e s
  | .recallDelete e => Sys2Proof.Machine.execRecallDelete e s
  | .recallCompact e => Sys2Proof.Machine.execRecallCompact e s
  | .recallQuery src => Sys2Proof.Machine.execRecallQuery src s
  | .ckptRun e => Sys2Proof.Machine.execCkptRun e s
  | .ckptStore e => Sys2Proof.Machine.execCkptStore e s
  | .ckptScan e t4 => Sys2Proof.Machine.execCkptScan e t4 s
  | .ckptRestore e t4 => Sys2Proof.Machine.execCkptRestore e t4 s
  | .shapeSet e => Sys2Proof.Machine.execShapeSet e s
  | .policeSet e => Sys2Proof.Machine.execPoliceSet e s
  | .routeSet e => Sys2Proof.Machine.execRouteSet e s
  | .beltJobStart e => Sys2Proof.Machine.execBeltJobStart e s
  | .beltJobKill e => Sys2Proof.Machine.execBeltJobKill e s
  | .beltJobSuspend e => Sys2Proof.Machine.execBeltJobSuspend e s
  | .beltJobResume e => Sys2Proof.Machine.execBeltJobResume e s
  | .beltQueueSet e => Sys2Proof.Machine.execBeltQueueSet e s
  | .beltTaskSubmit e => Sys2Proof.Machine.execBeltTaskSubmit e s
  | .beltHookReg e => Sys2Proof.Machine.execBeltHookReg e s
  | .beltHookUnreg e => Sys2Proof.Machine.execBeltHookUnreg e s
  | .beltLifeReg e => Sys2Proof.Machine.execBeltLifeReg e s
  | .tenantSwitch e => Sys2Proof.Machine.execTenantSwitch e s
  | .attest e => Sys2Proof.Machine.execAttest e s
  | .mlogRead e => Sys2Proof.Machine.execMlogRead e s
  | .certRead e => Sys2Proof.Machine.execCertRead e s
  | .debugUnlock e => Sys2Proof.Machine.execDebugUnlock e s
  | .fwUpdate e flashFault => Sys2Proof.Machine.execFwUpdate e flashFault s
  | .svnCommit e => Sys2Proof.Machine.execSvnCommit e s
  | .pwrGate e => Sys2Proof.Machine.execPwrGate e s
  | .pwrWake e => Sys2Proof.Machine.execPwrWake e s
  | .pwrLimit e => Sys2Proof.Machine.execPwrLimit e s
  | .pwrVmode e => Sys2Proof.Machine.execPwrVmode e s
  | .elogRead e => Sys2Proof.Machine.execElogRead e s
  | .errInject e => Sys2Proof.Machine.execErrInject e s
  | .sqDoorbell sq off width val => Sys2Proof.Machine.execSqDoorbell sq off width val s
  | .cqDoorbell cq off width val => Sys2Proof.Machine.execCqDoorbell cq off width val s
  | .hrqDoorbell off width val => Sys2Proof.Machine.execHrqDoorbell off width val s
  | .sqFetch => Sys2Proof.Machine.execSqFetch s
  | .bar2Access wr off len val => Sys2Proof.Machine.execBar2Access wr off len val s
  | .adminCtlEn val => Sys2Proof.Machine.execAdminCtlEn val s
  | .vectorCoalTimeout v => Sys2Proof.Machine.execVectorCoalTimeout v s
  | .vectorUnmask v => Sys2Proof.Machine.execVectorUnmask v s
  | .hrqTimeout reqId => Sys2Proof.Machine.execHrqTimeout reqId s
  | .mboxH2dWrite m val => Sys2Proof.Machine.execMboxH2dWrite m val s
  | .mboxD2hRead m => Sys2Proof.Machine.execMboxD2hRead m s
  | .mboxOwnerWrite m val => Sys2Proof.Machine.execMboxOwnerWrite m val s
  | .mboxOwnerRead m => Sys2Proof.Machine.execMboxOwnerRead m s
  | .ppLinkDown => Sys2Proof.Machine.execPpLinkDown s
  | .ppLinkUp serials => Sys2Proof.Machine.execPpLinkUp serials s
  | .meterAdvance => Sys2Proof.Machine.execMeterAdvance s
  | .sensorRefresh => Sys2Proof.Machine.execSensorRefresh s
  | .setEndpointId eid => Sys2Proof.Machine.execSetEndpointId eid s
  | .getEndpointId => Sys2Proof.Machine.execGetEndpointId s
  | .getEndpointUuid => Sys2Proof.Machine.execGetEndpointUuid s
  | .getMctpVersionSupport typ => Sys2Proof.Machine.execGetMctpVersionSupport typ s
  | .getMessageTypeSupport => Sys2Proof.Machine.execGetMessageTypeSupport s
  | .mctpOtherMessage typ cmd => Sys2Proof.Machine.execMctpOtherMessage typ cmd s
  | .settid tid => Sys2Proof.Machine.execSettid tid s
  | .gettid => Sys2Proof.Machine.execGettid s
  | .getpldmversion typ => Sys2Proof.Machine.execGetpldmversion typ s
  | .getpldmtypes => Sys2Proof.Machine.execGetpldmtypes s
  | .getpldmcommands typ => Sys2Proof.Machine.execGetpldmcommands typ s
  | .seteventreceiver eid => Sys2Proof.Machine.execSeteventreceiver eid s
  | .getpdrrepositoryinfo => Sys2Proof.Machine.execGetpdrrepositoryinfo s
  | .getpdr record => Sys2Proof.Machine.execGetpdr record s
  | .getsensorreading sensor => Sys2Proof.Machine.execGetsensorreading sensor s
  | .getstatesensorreadings sensor => Sys2Proof.Machine.execGetstatesensorreadings sensor s
  | .pldmUnsupportedCmd typ cmd => Sys2Proof.Machine.execPldmUnsupportedCmd typ cmd s
  | .tkCalibrate tk counted refTicks => Sys2Proof.Machine.execTkCalibrate tk counted refTicks s
  | .qdTkAlign q => Sys2Proof.Machine.execQdTkAlign q s
  | .paceWindowEnd block ops busyNs => Sys2Proof.Machine.execPaceWindowEnd block ops busyNs s
  | .timeLoRead => Sys2Proof.Machine.execTimeLoRead s
  | .ptmTrigger => Sys2Proof.Machine.execPtmTrigger s
  | .ptmPeriod => Sys2Proof.Machine.execPtmPeriod s
  | .ptmDialogDone dev host linkDly => Sys2Proof.Machine.execPtmDialogDone dev host linkDly s
  | .ptmDialogFail => Sys2Proof.Machine.execPtmDialogFail s
  | .ptmSeqRead => Sys2Proof.Machine.execPtmSeqRead s
  | .ckptEpochLoRead => Sys2Proof.Machine.execCkptEpochLoRead s
  | .ckptFullLoRead => Sys2Proof.Machine.execCkptFullLoRead s
  | .tofsLoRead port => Sys2Proof.Machine.execTofsLoRead port s
  | .secEpochLoRead => Sys2Proof.Machine.execSecEpochLoRead s
  | .tenantLoRead => Sys2Proof.Machine.execTenantLoRead s
  | .zeroDoneLoRead => Sys2Proof.Machine.execZeroDoneLoRead s
  | .cellTimeout cell => Sys2Proof.Machine.execCellTimeout cell s
  | .blockTimeout block => Sys2Proof.Machine.execBlockTimeout block s
  | .drainTimeout q => Sys2Proof.Machine.execDrainTimeout q s
  | .stageTimeout => Sys2Proof.Machine.execStageTimeout s
  | .startLimit => Sys2Proof.Machine.execStartLimit s
  | .registerWrite off val => Sys2Proof.Machine.execRegisterWrite off val s
  | .rcRead off => Sys2Proof.Machine.execRcRead off s
  | .chipLockSet => Sys2Proof.Machine.execChipLockSet s
  | .segmentArrive src dst crcOk => Sys2Proof.Machine.execSegmentArrive src dst crcOk s
  | .compressionPassStart page => Sys2Proof.Machine.execCompressionPassStart page s
  | .compressionHeaderSwap page => Sys2Proof.Machine.execCompressionHeaderSwap page s
  | .fp8FrameRelease owner => Sys2Proof.Machine.execFp8FrameRelease owner s
  | .fadeSweep => Sys2Proof.Machine.execFadeSweep s
  | .fadeTrialDone page => Sys2Proof.Machine.execFadeTrialDone page s
  | .fadeSwap page => Sys2Proof.Machine.execFadeSwap page s
  | .comaRowWrite idx layer head fail => Sys2Proof.Machine.execComaRowWrite idx layer head fail s
  | .tileDispatch q ae => Sys2Proof.Machine.execTileDispatch q ae s
  | .tileComplete q ae busyNs => Sys2Proof.Machine.execTileComplete q ae busyNs s
  | .partialArrive req entry head tile => Sys2Proof.Machine.execPartialArrive req entry head tile s
  | .scorePageDone req entry head tile page => Sys2Proof.Machine.execScorePageDone req entry head tile page s
  | .aeOfflineReq q ae => Sys2Proof.Machine.execAeOfflineReq q ae s
  | .aeOnlineReq q ae => Sys2Proof.Machine.execAeOnlineReq q ae s
  | .hello ring h => Sys2Proof.Machine.execHello ring h s
  | .helloAck ring => Sys2Proof.Machine.execHelloAck ring s
  | .ringFormTimeout ring => Sys2Proof.Machine.execRingFormTimeout ring s
  | .ringRates ring pos rates => Sys2Proof.Machine.execRingRates ring pos rates s
  | .ringLeg ring leg => Sys2Proof.Machine.execRingLeg ring leg s
  | .runningPartial ring leg ps => Sys2Proof.Machine.execRunningPartial ring leg ps s
  | .kvTile ring leg tile => Sys2Proof.Machine.execKvTile ring leg tile s
  | .memberOutputs ring leg pos outs => Sys2Proof.Machine.execMemberOutputs ring leg pos outs s
  | .stepRecord ring rsn stepSeq commit rows => Sys2Proof.Machine.execStepRecord ring rsn stepSeq commit rows s
  | .cancelRecord ring rsn => Sys2Proof.Machine.execCancelRecord ring rsn s
  | .cancelAckTimeout ring rsn => Sys2Proof.Machine.execCancelAckTimeout ring rsn s
  | .ringPartialTimeout ring leg => Sys2Proof.Machine.execRingPartialTimeout ring leg s
  | .ringBreak ring lost => Sys2Proof.Machine.execRingBreak ring lost s
  | .ringParkRecord ring rsn task => Sys2Proof.Machine.execRingParkRecord ring rsn task s
  | .ringMemberReport ring rsn pos status => Sys2Proof.Machine.execRingMemberReport ring rsn pos status s
  | .ckptRecord ring rsn epoch stepSeq => Sys2Proof.Machine.execCkptRecord ring rsn epoch stepSeq s
  | .moveRecord ring rsn ringB tag dests => Sys2Proof.Machine.execMoveRecord ring rsn ringB tag dests s
  | .parkWritesDone idx => Sys2Proof.Machine.execParkWritesDone idx s
  | .parkRelease idx => Sys2Proof.Machine.execParkRelease idx s
  | .reviveReserved idx => Sys2Proof.Machine.execReviveReserved idx s
  | .reviveTile idx n ok => Sys2Proof.Machine.execReviveTile idx n ok s
  | .pressureEviction => Sys2Proof.Machine.execPressureEviction s
  | .moveOffer offer => Sys2Proof.Machine.execMoveOffer offer s
  | .moveAccept tag src => Sys2Proof.Machine.execMoveAccept tag src s
  | .moveReject tag status => Sys2Proof.Machine.execMoveReject tag status s
  | .moveTile tag src item => Sys2Proof.Machine.execMoveTile tag src item s
  | .moveDone tag src gen => Sys2Proof.Machine.execMoveDone tag src gen s
  | .moveAbort tag peer status => Sys2Proof.Machine.execMoveAbort tag peer status s
  | .moveStatusTick => Sys2Proof.Machine.execMoveStatusTick s
  | .moveStatus tag src => Sys2Proof.Machine.execMoveStatus tag src s
  | .moveStatusAnswer tag committed => Sys2Proof.Machine.execMoveStatusAnswer tag committed s
  | .moveResolveTimeout tag => Sys2Proof.Machine.execMoveResolveTimeout tag s
  | .moveInTimeout tag => Sys2Proof.Machine.execMoveInTimeout tag s
  | .moveOfferTimeout tag => Sys2Proof.Machine.execMoveOfferTimeout tag s
  | .moveReady ring rsn pos => Sys2Proof.Machine.execMoveReady ring rsn pos s
  | .moveCommit ring rsn => Sys2Proof.Machine.execMoveCommit ring rsn s
  | .lendOfferTick => Sys2Proof.Machine.execLendOfferTick s
  | .offer lender units recallable => Sys2Proof.Machine.execOffer lender units recallable s
  | .loanReq borrower units => Sys2Proof.Machine.execLoanReq borrower units s
  | .loanGrant lender number units => Sys2Proof.Machine.execLoanGrant lender number units s
  | .revoke lender number unit => Sys2Proof.Machine.execRevoke lender number unit s
  | .release borrower number unit => Sys2Proof.Machine.execRelease borrower number unit s
  | .loanVoid peer number => Sys2Proof.Machine.execLoanVoid peer number s
  | .evacuationDeadline lender number unit => Sys2Proof.Machine.execEvacuationDeadline lender number unit s
  | .revokeReclaim borrower number unit => Sys2Proof.Machine.execRevokeReclaim borrower number unit s
  | .loanRevokeTrigger => Sys2Proof.Machine.execLoanRevokeTrigger s
  | .pinSpaceRelease prefixId => Sys2Proof.Machine.execPinSpaceRelease prefixId s
  | .slotRetire slot => Sys2Proof.Machine.execSlotRetire slot s
  | .retirementCopy slot => Sys2Proof.Machine.execRetirementCopy slot s
  | .maskPrefetch => Sys2Proof.Machine.execMaskPrefetch s
  | .deltaTileComplete req n => Sys2Proof.Machine.execDeltaTileComplete req n s
  | .tailEntryRun req entry pipe => Sys2Proof.Machine.execTailEntryRun req entry pipe s
  | .hookReply req entry token rngAdv => Sys2Proof.Machine.execHookReply req entry token rngAdv s
  | .hookDeadline req entry => Sys2Proof.Machine.execHookDeadline req entry s
  | .pipeOfflineReq p => Sys2Proof.Machine.execPipeOfflineReq p s
  | .pipeOnlineReq p => Sys2Proof.Machine.execPipeOnlineReq p s
  | .channelBacklogSend channel => Sys2Proof.Machine.execChannelBacklogSend channel s
  | .textOfflineReq q => Sys2Proof.Machine.execTextOfflineReq q s
  | .textOnlineReq q => Sys2Proof.Machine.execTextOnlineReq q s
  | .recallScanDone query n list engine => Sys2Proof.Machine.execRecallScanDone query n list engine s
  | .recallQueryTimeout query => Sys2Proof.Machine.execRecallQueryTimeout query s
  | .recallFold index row => Sys2Proof.Machine.execRecallFold index row s
  | .compactionStart index => Sys2Proof.Machine.execCompactionStart index s
  | .compactionPublish index => Sys2Proof.Machine.execCompactionPublish index s
  | .qeOfflineReq e => Sys2Proof.Machine.execQeOfflineReq e s
  | .qeOnlineReq e => Sys2Proof.Machine.execQeOnlineReq e s
  | .ckptSchedule => Sys2Proof.Machine.execCkptSchedule s
  | .failureWarning => Sys2Proof.Machine.execFailureWarning s
  | .shardAck part ok => Sys2Proof.Machine.execShardAck part ok s
  | .catalogueAck target ok => Sys2Proof.Machine.execCatalogueAck target ok s
  | .ckptRunTimeout => Sys2Proof.Machine.execCkptRunTimeout s
  | .portTrained port lanes nonce => Sys2Proof.Machine.execPortTrained port lanes nonce s
  | .init port init => Sys2Proof.Machine.execInit port init s
  | .portRetry port => Sys2Proof.Machine.execPortRetry port s
  | .idleFlit port ack credCls credN => Sys2Proof.Machine.execIdleFlit port ack credCls credN s
  | .frameReceive port frame => Sys2Proof.Machine.execFrameReceive port frame s
  | .nak port seq => Sys2Proof.Machine.execNak port seq s
  | .replayTimeout port => Sys2Proof.Machine.execReplayTimeout port s
  | .degrade port mask => Sys2Proof.Machine.execDegrade port mask s
  | .degradeAck port mask seq => Sys2Proof.Machine.execDegradeAck port mask seq s
  | .widthChangeTimeout port => Sys2Proof.Machine.execWidthChangeTimeout port s
  | .laneRetire port lane => Sys2Proof.Machine.execLaneRetire port lane s
  | .down port => Sys2Proof.Machine.execDown port s
  | .laneLockLost port => Sys2Proof.Machine.execLaneLockLost port s
  | .timeExchange port => Sys2Proof.Machine.execTimeExchange port s
  | .timeFlit port answer => Sys2Proof.Machine.execTimeFlit port answer s
  | .dropNotice cls msgId reason => Sys2Proof.Machine.execDropNotice cls msgId reason s
  | .memWr port src off len val => Sys2Proof.Machine.execMemWr port src off len val s
  | .memWrAck msgId => Sys2Proof.Machine.execMemWrAck msgId s
  | .memRd port src off len => Sys2Proof.Machine.execMemRd port src off len s
  | .memRdData msgId => Sys2Proof.Machine.execMemRdData msgId s
  | .memErr msgId => Sys2Proof.Machine.execMemErr msgId s
  | .shaperRefill port => Sys2Proof.Machine.execShaperRefill port s
  | .queueSample port => Sys2Proof.Machine.execQueueSample port s
  | .frameStart port => Sys2Proof.Machine.execFrameStart port s
  | .cvfRetrain port => Sys2Proof.Machine.execCvfRetrain port s
  | .bootReqTick => Sys2Proof.Machine.execBootReqTick s
  | .bootReq port => Sys2Proof.Machine.execBootReq port s
  | .bootAnswer port bundle image => Sys2Proof.Machine.execBootAnswer port bundle image s
  | .powerOnReset straps testMode rnd => Sys2Proof.Machine.execPowerOnReset straps testMode rnd s
  | .railOutOfRange => Sys2Proof.Machine.execRailOutOfRange s
  | .perstNAssert => Sys2Proof.Machine.execPerstNAssert s
  | .perstNDeassert straps rnd => Sys2Proof.Machine.execPerstNDeassert straps rnd s
  | .warmRstN => Sys2Proof.Machine.execWarmRstN s
  | .rstCtlWarm => Sys2Proof.Machine.execRstCtlWarm s
  | .qrst mask => Sys2Proof.Machine.execQrst mask s
  | .quadDrainDone q => Sys2Proof.Machine.execQuadDrainDone q s
  | .quadPowerGood q => Sys2Proof.Machine.execQuadPowerGood q s
  | .quadRefillDone q => Sys2Proof.Machine.execQuadRefillDone q s
  | .blockIdleAck block => Sys2Proof.Machine.execBlockIdleAck block s
  | .blockForcedReset block => Sys2Proof.Machine.execBlockForcedReset block s
  | .romStage flashFault => Sys2Proof.Machine.execRomStage flashFault s
  | .coresStage => Sys2Proof.Machine.execCoresStage s
  | .powerStage badQuad => Sys2Proof.Machine.execPowerStage badQuad s
  | .memoryStage badStack => Sys2Proof.Machine.execMemoryStage badStack s
  | .imageStage flashFault => Sys2Proof.Machine.execImageStage flashFault s
  | .configStage => Sys2Proof.Machine.execConfigStage s
  | .fabricStage ppSerials => Sys2Proof.Machine.execFabricStage ppSerials s
  | .watchdogMiss core => Sys2Proof.Machine.execWatchdogMiss core s
  | .hardwareWatchdog => Sys2Proof.Machine.execHardwareWatchdog s
  | .recoveryStatus => Sys2Proof.Machine.execRecoveryStatus s
  | .erase sector flashFault => Sys2Proof.Machine.execErase sector flashFault s
  | .write sector => Sys2Proof.Machine.execWrite sector s
  | .recoveryDataWord word flashFault => Sys2Proof.Machine.execRecoveryDataWord word flashFault s
  | .crc sector flashFault => Sys2Proof.Machine.execCrc sector flashFault s
  | .restart => Sys2Proof.Machine.execRestart s
  | .pushDone item => Sys2Proof.Machine.execPushDone item s
  | .enum second bytes => Sys2Proof.Machine.execEnum second bytes s
  | .ping second bytes => Sys2Proof.Machine.execPing second bytes s
  | .warmReset second bytes => Sys2Proof.Machine.execWarmReset second bytes s
  | .quadReset second bytes => Sys2Proof.Machine.execQuadReset second bytes s
  | .chainForward second bytes => Sys2Proof.Machine.execChainForward second bytes s
  | .zeroStackDone stack => Sys2Proof.Machine.execZeroStackDone stack s
  | .pmcEvaluation railMv => Sys2Proof.Machine.execPmcEvaluation railMv s
  | .thermalSample quads stackT pkgW bad => Sys2Proof.Machine.execThermalSample quads stackT pkgW bad s
  | .thermtrip sensor => Sys2Proof.Machine.execThermtrip sensor s
  | .gateBatchesClosed domain => Sys2Proof.Machine.execGateBatchesClosed domain s
  | .pwrGateTimeout domain => Sys2Proof.Machine.execPwrGateTimeout domain s
  | .wakeReady domain => Sys2Proof.Machine.execWakeReady domain s
  | .errorReport r => Sys2Proof.Machine.execErrorReport r s
  | .logIntake log => Sys2Proof.Machine.execLogIntake log s
  | .vector0Deferred => Sys2Proof.Machine.execVector0Deferred s
  | .logClear log => Sys2Proof.Machine.execLogClear log s
  | .hbmScrubPass stack found => Sys2Proof.Machine.execHbmScrubPass stack found s
  | .sramScrubPass q found => Sys2Proof.Machine.execSramScrubPass q found s
  | .sramLineRetire q line => Sys2Proof.Machine.execSramLineRetire q line s
  | .btTdone hart rs1 rs2 => Sys2Proof.Machine.execBtTdone hart rs1 rs2 s
  | .btExit hart rs1 => Sys2Proof.Machine.execBtExit hart rs1 s
  | .btTime hart rd => Sys2Proof.Machine.execBtTime hart rd s
  | .btSelf hart rd => Sys2Proof.Machine.execBtSelf hart rd s
  | .btMix hart rd rs1 => Sys2Proof.Machine.execBtMix hart rd rs1 s
  | .btRkey hart rd rs1 => Sys2Proof.Machine.execBtRkey hart rd rs1 s
  | .btFlush hart => Sys2Proof.Machine.execBtFlush hart s
  | .btSubmit hart rd rs1 rs2 => Sys2Proof.Machine.execBtSubmit hart rd rs1 rs2 s
  | .btWait hart rd rs1 rs2 => Sys2Proof.Machine.execBtWait hart rd rs1 rs2 s
  | .btWaitResume hart => Sys2Proof.Machine.execBtWaitResume hart s
  | .btWaitTimeout hart => Sys2Proof.Machine.execBtWaitTimeout hart s
  | .btMbox hart rs1 => Sys2Proof.Machine.execBtMbox hart rs1 s
  | .btMboxr hart rd => Sys2Proof.Machine.execBtMboxr hart rd s
  | .hartException hart cause => Sys2Proof.Machine.execHartException hart cause s
  | .taskDispatch part => Sys2Proof.Machine.execTaskDispatch part s
  | .taskTimeout hart => Sys2Proof.Machine.execTaskTimeout hart s
  | .jobLimit part => Sys2Proof.Machine.execJobLimit part s
  | .configurationRequest wr field val => Sys2Proof.Machine.execConfigurationRequest wr field val s
  | .warmRstNRelease => Sys2Proof.Machine.execWarmRstNRelease s
  | .portTrainingFailed port => Sys2Proof.Machine.execPortTrainingFailed port s
  | .quadRejoinTimeout q => Sys2Proof.Machine.execQuadRejoinTimeout q s
  | .failedBlockReset block => Sys2Proof.Machine.execFailedBlockReset block s
  | .blockHardwareError block typ corrected => Sys2Proof.Machine.execBlockHardwareError block typ corrected s
  | .ringResponseDeadline ring leg => Sys2Proof.Machine.execRingResponseDeadline ring leg s
  | .moveSourceRelease idx => Sys2Proof.Machine.execMoveSourceRelease idx s
  | .kvImportExportEnd idx => Sys2Proof.Machine.execKvImportExportEnd idx s

end Sys2Proof.Machine
end

