-- ==== Sys2Proof/Machine/Step.lean ====
section
/-! DEFINITION. Machine/Step.lean: one step of the block: the command at the front of the queue takes place. -/

namespace Sys2Proof.Machine

/-- The state with a command put at the front of its queue. -/
def State.withFront (s : State) (c : Instr) : State := { s with pending := c :: s.pending }

/-- The state with the command that a table word spells at the front of its queue; the same state where it spells none. -/
def State.withFetchWord (s : State) (nbits w : Nat) : State :=
  match decodeTableWord nbits w with
  | some c => s.withFront c
  | none => s

/-- An idle block: device time advances by one nanosecond (R60; DESIGN CHOICE, log 4: a step of an empty queue is a tick). -/
def State.idle (s : State) : State := { s with dev := { s.dev with now := s.dev.now + 1 } }

/-- One step: the command at the front takes place on the rest; an empty queue idles. -/
def step (s : State) : Host.Outcome State Fault Refusal :=
  match s.pending with
  | [] => .next s.idle
  | c :: rest => exec c { s with pending := rest }

end Sys2Proof.Machine
end

