-- ==== Sys2Proof/Safety.lean ====
section
/-! DEFINITION. Safety.lean: what the statements call a safe state, and the parts of the device that queue operations leave alone. -/

namespace Sys2Proof.Machine

/-- The invariant that every step keeps: device memory is in its canonical form, and no memory effect is left over. -/
def State.Inv (s : State) : Prop := s.mem.wf = true ∧ s.dev.writes = []

/-- The units that posting an entry, raising a vector or writing a register does not reach: time, arbiters, sessions, tiers, attention, tail,
text, Recall, checkpoints, Belt, fabric, security, power and start-up. -/
def Dev.units (d : Dev) : Ns × Nat × TimeSt × ArbSt × Sess × Tier × Attn × TailSt × TextSt × RecallSt × CkptSt × BeltSt × CvfSt × SecSt × PmcSt × BootSt :=
  (d.now, d.free, d.time, d.arb, d.sess, d.tier, d.attn, d.tail, d.text, d.rcl, d.ckpt, d.belt, d.cvf, d.sec, d.pmc, d.boot)

end Sys2Proof.Machine
end

