-- ==== Sys2Proof/Certificates/Slice0/Obligations.lean ====
section
/-! DEFINITION. Certificates/Slice0/Obligations.lean: what is stated about the model, for the provers. The first group is about the machine
as a whole and the operations its commands share; the second says, for every command of the table, where it completes and with
what next state. In the second group x is the context and d the device as the command finds them; State.commit applies the memory
effects that the device lists, and everything that the expression of the next device does not change is as before. -/

open Sys2Proof Sys2Proof.Machine

/-! ### The machine and its shared operations -/

/-- A step takes the command at the front of the queue. The queue is the model's own (R522 gives the device's queues, which are state of their own). -/
def Obligations.StepRunsFrontCommand : Prop :=
  ∀ (c : Instr) (s : State),
    step (s.withFront c) = exec c s ∧ ∀ rest : List Instr, s.pending = c :: rest → step s = exec c { s with pending := rest }

/-- The choice of the model that log 4 records: an empty queue is a tick of device time. -/
def Obligations.IdleStepIsOneTick : Prop :=
  ∀ s : State, s.pending = [] → step s = .next { s with dev := { s.dev with now := s.dev.now + 1 } }

/-- The state after power-on reset (R60, R541, R602, R604). -/
def Obligations.ResetLeavesFirstStage : Prop :=
  State.reset.dev.now = 0 ∧ State.reset.dev.stage = 1 ∧ State.reset.pending = [] ∧
    State.reset.dev.hif.sqs = [] ∧ State.reset.dev.hif.cqs = [] ∧ State.reset.dev.hif.hrq = none ∧
    State.reset.dev.sess.batches = [] ∧ State.reset.dev.sess.bookings = [] ∧
    (∀ m ∈ List.range 8, (State.reset.dev.mbox (.m m)).h2d.full = false ∧ (State.reset.dev.mbox (.m m)).h2d.collide = false ∧
      (State.reset.dev.mbox (.m m)).d2h.full = false ∧ (State.reset.dev.mbox (.m m)).d2h.collide = false) ∧
    ∀ i : Nat, (State.reset.dev.desc i).state = .void

/-- State.Inv at State.reset. -/
def Obligations.InvariantHoldsAtReset : Prop :=
  State.reset.Inv

/-- The invariant of the model over every command of the table: memory stays canonical, so that equal memories are equal data. -/
def Obligations.EveryStepKeepsInvariant : Prop :=
  ∀ s t : State, s.Inv → step s = .next t → t.Inv

/-- No command of the table stops the model, and no command changes what the capability registers report (R11). -/
def Obligations.EveryCommandAnswersNext : Prop :=
  (∀ (c : Instr) (s : State), ∃ t, exec c s = .next t ∧ t.fuses = s.fuses ∧ t.pending = s.pending) ∧
    ∀ (s : State) (c : Instr) (rest : List Instr), s.pending = c :: rest → ∃ t, step s = .next t ∧ t.fuses = s.fuses ∧ t.pending = rest

/-- What a command sees of its own effects is what memory holds after it. -/
def Obligations.MemoryReadsBackEffects : Prop :=
  ∀ (m : Memory) (ops : List MemOp) (a : Nat), m.wf = true → (m.applyAll ops).read a = peekOps m a ops

/-- R20 for every access of a command to device memory. -/
def Obligations.StoreThenLoad : Prop :=
  ∀ (x : Ctx) (d : Dev) (a len v : Nat), (∀ k, k < len → mapped x.fuses.part d (a + k) = true) → 0 < len →
    (d.st x a len v).ld x a len = v % 256 ^ len ∧
    (∀ k, k < len → (d.st x a len v).byte x (a + k) = v / 256 ^ k % 256) ∧
    ∀ b, (b < a ∨ a + len ≤ b) → (d.st x a len v).byte x b = d.byte x b

/-- R84. -/
def Obligations.UnmappedAccess : Prop :=
  ∀ (x : Ctx) (d : Dev) (a len v : Nat),
    (mapped x.fuses.part d a = false → d.byte x a = 0) ∧
    (∀ h, holeIn x.fuses.part d a len = some h →
      a ≤ h ∧ h < a + len ∧ mapped x.fuses.part d h = false ∧ (∀ b, a ≤ b → b < h → mapped x.fuses.part d b = true) ∧
      d.st x a len v = d ∧ d.holeCheck x a len = d.report chipSource 0x12 3 h ∧
      ∀ c f, d.buffers x c [(a, len)] f = (d.report chipSource 0x12 3 h).unpredictable x c) ∧
    ((∀ k, k < len → mapped x.fuses.part d (a + k) = true) → holeIn x.fuses.part d a len = none ∧ d.holeCheck x a len = d)

/-- R526 and R528 for an entry of any form. -/
def Obligations.EntryPosted : Prop :=
  ∀ (x : Ctx) (d : Dev) (cq form val : Nat) (now : Bool) (q : Cq), tblGet cq d.hif.cqs = some q →
    mappedRange x.fuses.part d (d.ringBase + q.offset + 32 * q.tail) 32 = true → form < 128 →
    let t := d.post x cq form val now
    t.writes = .store (d.ringBase + q.offset + 32 * q.tail) 32 (setBits val 40 8 (form + ofB q.phase * 128)) :: d.writes ∧
    byteOf (setBits val 40 8 (form + ofB q.phase * 128)) 5 = form + ofB q.phase * 128 ∧
    tblGet cq t.hif.cqs = some { q with tail := (q.tail + 1) % 2 ^ q.sizeLog2,
                                        phase := if (q.tail + 1) % 2 ^ q.sizeLog2 == 0 then !q.phase else q.phase, live := q.live + 1 } ∧
    (∀ k, k ≠ cq → tblGet k t.hif.cqs = tblGet k d.hif.cqs) ∧ t.hif.sqs = d.hif.sqs ∧ t.units = d.units ∧ t.kv = d.kv

/-- R26 over the operation that every checked command shares. -/
def Obligations.RefusedCommandChangesNothing : Prop :=
  ∀ (x : Ctx) (d : Dev) (c : Cmd) (cs : List (Bool × Status)) (f : Dev → Dev) (st : Status), firstFail cs = some st →
    d.checked x c cs f = d.finish x c st 0 ∧ (d.checked x c cs f).units = d.units ∧ (d.checked x c cs f).kv = d.kv ∧
    (d.checked x c cs f).err.logs = d.err.logs ∧ (d.checked x c cs f).hif.requests = d.hif.requests

/-- The promise of the step: what R132 accepts, R134 plans in time. -/
def Obligations.AcceptedRequestFinishesInTime : Prop :=
  ∀ (rate : Res → Rate) (pct t : Nat) (new : Booking) (open_ : List Booking),
    (∀ r ∈ new.uses, 0 < new.on r ∧ 0 < (rate r).2) → passes rate pct t new open_ = true →
    bookedFinish rate t new open_ ≤ new.deadline - 16

/-- Counters saturate at 0xFFFF_FFFF (R700 and the register chapters). -/
def Obligations.CountersSaturate : Prop :=
  ∀ (d : Dev) (off n : Nat),
    (d.bump off n).reg off = min (d.reg off + n) 0xFFFFFFFF ∧ d.reg off ≤ (d.bump off n).reg off ∧
    ∀ o, o ≠ off → (d.bump off n).reg o = d.reg o

/-- R542. -/
def Obligations.MailboxWords : Prop :=
  (∀ (w : MboxWord) (v : Nat), w.put v = ⟨v % 2 ^ 32, true, w.collide || w.full⟩ ∧ (w.full = false → w.take = w) ∧ w.take.data = w.data) ∧
    ∀ (s : State) (n v : Nat), n < 8 →
      let b := s.dev.mbox (.m n)
      (s.view.bar0Cpl s.ctx (Reg.mboxH2dData n) = .success →
        (∃ t, exec (.mboxH2dWrite (.m n) v) s = .next t ∧ (t.dev.mbox (.m n)).h2d = b.h2d.put v ∧ (t.dev.mbox (.m n)).d2h = b.d2h) ∧
        ∃ t, exec (.mboxD2hRead (.m n)) s = .next t ∧ (t.dev.mbox (.m n)).d2h = b.d2h.take ∧ (t.dev.mbox (.m n)).h2d = b.h2d ∧
          t.dev.wire = s.dev.wire ++ [.cpl .success b.d2h.data false]) ∧
      (s.view.ownerUp s.ctx (.m n) = true →
        (∃ t, exec (.mboxOwnerWrite (.m n) v) s = .next t ∧ (t.dev.mbox (.m n)).d2h = b.d2h.put v ∧ (t.dev.mbox (.m n)).h2d = b.h2d) ∧
        ∃ t, exec (.mboxOwnerRead (.m n)) s = .next t ∧ (t.dev.mbox (.m n)).h2d = b.h2d.take ∧ (t.dev.mbox (.m n)).d2h = b.d2h ∧
          t.dev.wire = s.dev.wire ++ [.answer [b.h2d.data]])

/-- The hard-wired register of RV64I, which R559 gives the harts. -/
def Obligations.HartRegisterZero : Prop :=
  (∀ (r : HartRegs) (n v : Nat), n % 32 = 0 → r.get n = 0 ∧ r.set n v = r) ∧
    (∀ (r : HartRegs) (n m v : Nat), n % 32 ≠ 0 →
      (r.set n v).get n = v % 2 ^ 64 ∧ (m % 32 ≠ n % 32 → (r.set n v).get m = r.get m)) ∧
    ∀ old r : HartRegs, getAt 0 0 (old.norm r).x = 0 ∧ (old.norm r).x.length = 32 ∧ (∀ v ∈ (old.norm r).x, v < 2 ^ 64) ∧
      old.retired ≤ (old.norm r).retired

/-- R17, R46 and R604 for every BAR0 offset. -/
def Obligations.EarlyAccessRefused : Prop :=
  ∀ (x : Ctx) (d : Dev) (off : Nat), d.eclipse = false → d.hif.hp.d3hot = false → off < 0x4000000 →
    (absentBlock x.fuses.part off = true → d.bar0Cpl x off = .unsupportedRequest) ∧
    (absentBlock x.fuses.part off = false → d.operational = false → 0x100000 ≤ off → (off < 0x1C00000 ∨ 0x1D00000 ≤ off) →
      d.bar0Cpl x off = .completerAbort) ∧
    (absentBlock x.fuses.part off = false → d.operational = true → ∀ dom, domainOf off = some dom → d.domainUp dom = false →
      d.bar0Cpl x off = .completerAbort) ∧
    (absentBlock x.fuses.part off = false → d.operational = true → (∀ dom, domainOf off = some dom → d.domainUp dom = true) →
      d.bar0Cpl x off = .success) ∧
    ∀ f, d.bar0Cpl x off ≠ .success → d.bar0 x off f = d.send (.cpl (d.bar0Cpl x off) 0 false)

/-- R685 and R686. -/
def Obligations.LogKeepsFirstEntries : Prop :=
  (∀ (l : ErrLog) (r : Report), l.fixed.length ≤ 2048 → l.ring.length ≤ 2048 →
      let p := l.openEntry r
      l.fixed <+: p.1.fixed ∧ p.1.fixed.length ≤ 2048 ∧ p.1.ring.length ≤ 2048 ∧
      (l.fixed.length < 2048 → p.1.fixed.length = l.fixed.length + 1 ∧ p.1.ring = l.ring ∧ p.2 = false) ∧
      (l.fixed.length = 2048 → l.ring.length < 2048 → p.1.ring.length = l.ring.length + 1 ∧ l.ring <+: p.1.ring ∧ p.2 = false) ∧
      (l.fixed.length = 2048 → l.ring.length = 2048 → p.1.ring.length = 2048 ∧ l.ring.drop 1 <+: p.1.ring ∧ p.2 = true)) ∧
    ∀ (l : ErrLog) (r : Report) (e : LogEntry), l.openFor r = some e →
      e.source = r.source ∧ e.type = r.type ∧ e.injected = r.injected ∧ e.first ≤ r.stamp ∧ r.stamp < e.first + 1000000 ∧
      (e.add r).count = min (e.count + r.count) 0xFFFFFFFF ∧ (e.add r).sev = max e.sev r.sev ∧ (e.add r).info = e.info ∧
      (e.add r).lastOfs = max e.lastOfs (r.lastStamp - e.first)

/-- R91 for the commands that name a session by its handle. -/
def Obligations.StaleHandleRefused : Prop :=
  ∀ (s : State) (e : Entry) (ds : Desc),
    (s.view.readDesc s.ctx (handleIdx (e.f 16 4))).2 = some ds → ds.gen % 1024 ≠ handleGen (e.f 16 4) →
    (e.reservedSet [(16, 5), (24, 4), (32, 8)] [(162, 6), (272, 48)] = false → 
      exec (.sessMoveOut e) s = .next (s.commit ((s.view.readDesc s.ctx (handleIdx (e.f 16 4))).1.finish s.ctx e.cmd .REFUSED_STATE 0))) ∧
    (e.reservedSet [(16, 8)] [] = false → 
      exec (.prefixCapture e) s = .next (s.commit ((s.view.readDesc s.ctx (handleIdx (e.f 16 4))).1.finish s.ctx e.cmd .REFUSED_STATE 0))) ∧
    (e.reservedSet [(16, 10), (32, 8)] [(304, 16)] = false → 
      exec (.kvImport e) s = .next (s.commit ((s.view.readDesc s.ctx (handleIdx (e.f 16 4))).1.finish s.ctx e.cmd .REFUSED_STATE 0))) ∧
    (e.reservedSet [(16, 10), (28, 4), (32, 8)] [(304, 16)] = false → 
      exec (.kvExport e) s = .next (s.commit ((s.view.readDesc s.ctx (handleIdx (e.f 16 4))).1.finish s.ctx e.cmd .REFUSED_STATE 0))) ∧
    (e.reservedSet [(16, 5), (24, 4)] [] = false → 
      exec (.ringBind e) s = .next (s.commit ((s.view.readDesc s.ctx (handleIdx (e.f 16 4))).1.finish s.ctx e.cmd .REFUSED_STATE 0))) ∧
    (e.reservedSet [(16, 42), (60, 4)] [(166, 2), (171, 5)] = false → setTailAbsent s.fuses.part e = false → 
      exec (.sessSetTail e) s = .next (s.commit ((s.view.readDesc s.ctx (handleIdx (e.f 16 4))).1.finish s.ctx e.cmd .REFUSED_STATE 0))) ∧
    (e.reservedSet [(16, 5), (24, 8)] [(162, 6)] = false → 
      exec (.sessSetLists e) s = .next (s.commit ((s.view.readDesc s.ctx (handleIdx (e.f 16 4))).1.finish s.ctx e.cmd .REFUSED_STATE 0))) ∧
    (e.reservedSet [(16, 6)] [(171, 5)] = false → 
      exec (.textOutBind e) s = .next (s.commit ((s.view.readDesc s.ctx (handleIdx (e.f 16 4))).1.finish s.ctx e.cmd .REFUSED_STATE 0))) ∧
    (e.reservedSet [(16, 7), (24, 8)] [(161, 7), (171, 1), (175, 1)] = false → 
      exec (.sessPark e) s = .next (s.commit ((s.view.readDesc s.ctx (handleIdx (e.f 16 4))).1.finish s.ctx e.cmd .REFUSED_STATE 0))) ∧
    (e.reservedSet [(16, 4)] [] = false → 
      exec (.sessRevive e) s = .next (s.commit ((s.view.readDesc s.ctx (handleIdx (e.f 16 4))).1.finish s.ctx e.cmd .REFUSED_STATE 0))) ∧
    (e.reservedSet [(16, 4)] [] = false → s.view.memberBound (handleIdx (e.f 16 4)) = false → 
      exec (.sessClose e) s = .next (s.commit ((s.view.readDesc s.ctx (handleIdx (e.f 16 4))).1.finish s.ctx e.cmd .REFUSED_STATE 0)))

/-- R60, R614, R616 and R632: what the resets keep and clear. -/
def Obligations.DeviceTimeAcrossResets : Prop :=
  ∀ (x : Ctx) (d : Dev) (cause rnd : Nat),
    ((d.powerOn x rnd).now = 0 ∧ (d.powerOn x rnd).err.logs = List.replicate 5 .reset ∧ (d.powerOn x rnd).sec.epoch = rnd % 2 ^ 32 * 2 ^ 32 + 1) ∧
    ((d.coldReset x cause rnd).now = d.now ∧ (d.coldReset x cause rnd).err.logs = d.err.logs ∧ (d.coldReset x cause rnd).sess = Dev.reset.sess ∧
      (d.coldReset x cause rnd).sec.epoch = rnd % 2 ^ 32 * 2 ^ 32 + 1 ∧ (d.coldReset x cause rnd).sec.storeKey = none) ∧
    ((d.warmReset x cause).now = d.now ∧ (d.warmReset x cause).err.logs = d.err.logs ∧ (d.warmReset x cause).sec.epoch = d.sec.epoch ∧
      (d.warmReset x cause).sec.tenant = d.sec.tenant ∧ (d.warmReset x cause).sec.storeKey = d.sec.storeKey ∧
      (d.warmReset x cause).sess = d.sess ∧ (d.warmReset x cause).hif.hp = d.hif.hp ∧ (d.warmReset x cause).hif.recovery = d.hif.recovery ∧
      (d.warmReset x cause).hif.sqs = [] ∧ (d.warmReset x cause).hif.cqs = [] ∧ (d.warmReset x cause).hif.hrq = none ∧
      (d.warmReset x cause).hif.mboxes = (List.range 8).map fun m => (m, Mbox.reset)) ∧
    ∀ t ∈ [d.powerOn x rnd, d.coldReset x cause rnd, d.warmReset x cause], t.boot.flash = d.boot.flash ∧ t.sec.svnFloor = d.sec.svnFloor

/-- R25. -/
def Obligations.StatusCodes : Prop :=
  (Status.DONE.code = 0x00 ∧ Status.DONE_DEGRADED.code = 0x01 ∧ Status.DONE_PARTIAL.code = 0x02 ∧ Status.REFUSED_CAPACITY.code = 0x10 ∧ Status.REFUSED_STATE.code = 0x11 ∧ Status.REFUSED_RESOURCE.code = 0x12 ∧ Status.CANCELLED.code = 0x20 ∧ Status.GRAMMAR_DEAD.code = 0x21 ∧ Status.STOPPED.code = 0x22 ∧ Status.FAULT_MEDIA.code = 0x30 ∧ Status.FAULT_UNIT.code = 0x31 ∧ Status.FAULT_TIMEOUT.code = 0x32 ∧ Status.FAULT_LINK.code = 0x40 ∧ Status.NOT_PRESENT.code = 0x7F) ∧
    (∀ a b : Status, a.code = b.code → a = b) ∧
    ∀ (c : Cmd) (head result stamp : Nat) (s : Status), byteOf (finalEntry c head s result stamp) 4 = s.code

/-- R90. -/
def Obligations.FirstFreeIndexAllocated : Prop :=
  ∀ (d : Dev) (i : Nat), d.allocIdx = some i →
    i < 4194304 ∧ (d.desc i).state = .void ∧
    (∃ n, i = (d.sess.lastAlloc + 1 + n) % 4194304 ∧ ∀ m, m < n → (d.desc ((d.sess.lastAlloc + 1 + m) % 4194304)).state ≠ .void) ∧
    (∀ s, tblGet i d.sess.table = some s → d.nextGen i = (s.gen + 1) % 1024) ∧
    (tblGet i d.sess.table = none → d.sess.voided = none → d.nextGen i = 0)

/-- The frame of a command whose whole effect is its completion (R526, R527, R533). -/
def Obligations.NopFrame : Prop :=
  ∀ (s : State) (e : Entry) (q : Sq) (k : Cq), s.mem.wf = true → e.reservedSet [] [] = false →
    tblGet e.sq s.dev.hif.sqs = some q → q.deleting = none → tblGet q.cq s.dev.hif.cqs = some k →
    mappedRange s.fuses.part s.dev (s.dev.ringBase + k.offset + 32 * k.tail) 32 = true →
    let slot := s.dev.ringBase + k.offset + 32 * k.tail
    let entry := setBits (finalEntry e.cmd q.head .DONE 0 s.dev.now) 40 8 (ofB k.phase * 128)
    ∃ t, exec (.nop e) s = .next t ∧ (∀ j, j < 32 → (t.mem.read (slot + j)).toNat = byteOf entry j) ∧
      (∀ a, (a < slot ∨ slot + 32 ≤ a) → t.mem.read a = s.mem.read a) ∧
      t.dev.units = s.dev.units ∧ t.dev.kv = s.dev.kv ∧ t.dev.hif.sqs = s.dev.hif.sqs ∧ t.dev.err.logs = s.dev.err.logs ∧
      ∀ j, j ≠ q.cq → tblGet j t.dev.hif.cqs = tblGet j s.dev.hif.cqs

/-- R535, with the masking rules of log 11. -/
def Obligations.VectorRaised : Prop :=
  ∀ (d : Dev) (v : Nat), v < 2048 →
    let masked := d.hif.hp.functionMask || bit (d.reg (Reg.msixCtrl v)) 0 || !d.hif.hp.bme
    (d.hif.hp.msixEnable = false → d.raise v = d) ∧
    (d.hif.hp.msixEnable = true → masked = false → d.raise v = { d with wire := d.wire ++ [.msix v] }) ∧
    (d.hif.hp.msixEnable = true → masked = true → bit ((d.raise v).reg (Reg.msixPba (v / 32))) (v % 32) = true ∧
      (∀ w, w ≠ v % 32 → w < 32 → bit ((d.raise v).reg (Reg.msixPba (v / 32))) w = bit (d.reg (Reg.msixPba (v / 32))) w) ∧
      (∀ o, o ≠ Reg.msixPba (v / 32) → (d.raise v).reg o = d.reg o) ∧ (d.raise v).wire = d.wire) ∧
    (d.raise v).hif = d.hif ∧ (d.raise v).units = d.units ∧ (d.raise v).err = d.err ∧ (d.raise v).kv = d.kv

/-- R636, over what a switch drops. -/
def Obligations.TenantSwitchVoidsSessions : Prop :=
  ∀ d : Dev,
    (∀ i s, tblGet i d.sess.table = some s → tblGet i d.dropTenant.sess.table = some (Desc.void ((s.gen + 1) % 1024) d.now)) ∧
    (∀ p ∈ d.dropTenant.sess.table, p.2.state = .void) ∧ (∀ i, (d.dropTenant.desc i).state = .void) ∧
    d.dropTenant.kv.pages = [] ∧ d.dropTenant.kv.prefixes = [] ∧ d.dropTenant.tier.manifests = [] ∧ d.dropTenant.tail.variants = [] ∧
    d.dropTenant.tail.grammars = [] ∧ d.dropTenant.rcl.indexes = [] ∧ d.dropTenant.text.streams = [] ∧ d.dropTenant.text.channels = [] ∧
    d.dropTenant.text.bindings = [] ∧ d.dropTenant.kv.shape = d.kv.shape ∧ d.dropTenant.tier.lent = d.tier.lent ∧
    d.dropTenant.sess.lastAlloc = d.sess.lastAlloc

/-- R21, R29 and R31 for the commands of the rings. -/
def Obligations.ReservedBitsContained : Prop :=
  ∀ (s : State) (e : Entry),
    (e.reservedSet [] [] = true → exec (.nop e) s = .next (s.commit (s.view.unpredictable s.ctx e.cmd))) ∧
    (e.reservedSet [(16, 3), (20, 2), (24, 8)] [(222, 34)] = true → exec (.qCreateCq e) s = .next (s.commit (s.view.unpredictable s.ctx e.cmd))) ∧
    (e.reservedSet [(16, 8), (24, 8)] [(222, 34)] = true → exec (.qCreateSq e) s = .next (s.commit (s.view.unpredictable s.ctx e.cmd))) ∧
    (e.reservedSet [(16, 2)] [] = true → exec (.qDeleteSq e) s = .next (s.commit (s.view.unpredictable s.ctx e.cmd))) ∧
    (e.reservedSet [(16, 2)] [] = true → exec (.qDeleteCq e) s = .next (s.commit (s.view.unpredictable s.ctx e.cmd))) ∧
    (e.reservedSet [(18, 1), (20, 2), (24, 8)] [(222, 34)] = true → exec (.hrqCreate e) s = .next (s.commit (s.view.unpredictable s.ctx e.cmd))) ∧
    (e.reservedSet [(16, 5), (24, 8)] [] = true → exec (.storeDone e) s = .next (s.commit (s.view.unpredictable s.ctx e.cmd))) ∧
    (e.reservedSet [(16, 5), (24, 8)] [(161, 7)] = true → exec (.meterRead e) s = .next (s.commit (s.view.unpredictable s.ctx e.cmd))) ∧
    (e.reservedSet [(16, 7), (24, 36)] [(179, 5)] = true → exec (.sessOpen e) s = .next (s.commit (s.view.unpredictable s.ctx e.cmd))) ∧
    (e.reservedSet [(16, 4), (24, 34)] [(240, 16), (432, 16)] = true → exec (.sessStepOpen e) s = .next (s.commit (s.view.unpredictable s.ctx e.cmd))) ∧
    (e.reservedSet [(16, 3), (24, 8)] [(145, 7)] = true → exec (.sessStepClose e) s = .next (s.commit (s.view.unpredictable s.ctx e.cmd))) ∧
    (e.reservedSet [(16, 7)] [(177, 7)] = true → exec (.sessCancel e) s = .next (s.commit (s.view.unpredictable s.ctx e.cmd))) ∧
    (e.reservedSet [(16, 4)] [] = true → exec (.sessClose e) s = .next (s.commit (s.view.unpredictable s.ctx e.cmd))) ∧
    (e.reservedSet [(16, 4), (24, 8)] [] = true → exec (.sessQuery e) s = .next (s.commit (s.view.unpredictable s.ctx e.cmd))) ∧
    (e.reservedSet [(16, 42), (60, 4)] [(166, 2), (171, 5)] = true → exec (.sessSetTail e) s = .next (s.commit (s.view.unpredictable s.ctx e.cmd))) ∧
    (e.reservedSet [(16, 5), (24, 8)] [(162, 6)] = true → exec (.sessSetLists e) s = .next (s.commit (s.view.unpredictable s.ctx e.cmd))) ∧
    (e.reservedSet [(16, 7), (24, 8)] [(161, 7), (171, 1), (175, 1)] = true → exec (.sessPark e) s = .next (s.commit (s.view.unpredictable s.ctx e.cmd))) ∧
    (e.reservedSet [(16, 4)] [] = true → exec (.sessRevive e) s = .next (s.commit (s.view.unpredictable s.ctx e.cmd))) ∧
    (e.reservedSet [(16, 5), (24, 4), (32, 8)] [(162, 6), (272, 48)] = true → exec (.sessMoveOut e) s = .next (s.commit (s.view.unpredictable s.ctx e.cmd))) ∧
    (e.reservedSet [(16, 2), (20, 12), (32, 16)] [(129, 7), (163, 1), (167, 1), (272, 48)] = true → exec (.sessMoveIn e) s = .next (s.commit (s.view.unpredictable s.ctx e.cmd))) ∧
    (e.reservedSet [(16, 8)] [] = true → exec (.prefixCapture e) s = .next (s.commit (s.view.unpredictable s.ctx e.cmd))) ∧
    (e.reservedSet [(20, 4)] [] = true → exec (.prefixRelease e) s = .next (s.commit (s.view.unpredictable s.ctx e.cmd))) ∧
    (e.reservedSet [(20, 4)] [] = true → exec (.prefixPin e) s = .next (s.commit (s.view.unpredictable s.ctx e.cmd))) ∧
    (e.reservedSet [(20, 4)] [] = true → exec (.prefixUnpin e) s = .next (s.commit (s.view.unpredictable s.ctx e.cmd))) ∧
    (e.reservedSet [(16, 10), (32, 8)] [(304, 16)] = true → exec (.kvImport e) s = .next (s.commit (s.view.unpredictable s.ctx e.cmd))) ∧
    (e.reservedSet [(16, 10), (28, 4), (32, 8)] [(304, 16)] = true → exec (.kvExport e) s = .next (s.commit (s.view.unpredictable s.ctx e.cmd))) ∧
    (e.reservedSet [(16, 8)] [(176, 16)] = true → exec (.layerReq (.hp e)) s = .next (s.commit (s.view.unpredictable s.ctx e.cmd))) ∧
    (e.reservedSet [(16, 8)] [(176, 16)] = true → exec (.tailReq (.hp e)) s = .next (s.commit (s.view.unpredictable s.ctx e.cmd))) ∧
    (e.reservedSet [(16, 5), (24, 16)] [(272, 48)] = true → exec (.ringOpen e) s = .next (s.commit (s.view.unpredictable s.ctx e.cmd))) ∧
    (e.reservedSet [(16, 5), (24, 4)] [] = true → exec (.ringBind e) s = .next (s.commit (s.view.unpredictable s.ctx e.cmd))) ∧
    (e.reservedSet [(16, 2)] [(137, 7)] = true → exec (.ringClose e) s = .next (s.commit (s.view.unpredictable s.ctx e.cmd))) ∧
    (e.reservedSet [(16, 2), (24, 16)] [(240, 16)] = true → exec (.variantLoad e) s = .next (s.commit (s.view.unpredictable s.ctx e.cmd))) ∧
    (e.reservedSet [(16, 2)] [] = true → exec (.variantUnload e) s = .next (s.commit (s.view.unpredictable s.ctx e.cmd))) ∧
    (e.reservedSet [(16, 2), (24, 16)] [(240, 16)] = true → exec (.grammarLoad e) s = .next (s.commit (s.view.unpredictable s.ctx e.cmd))) ∧
    (e.reservedSet [(16, 2)] [] = true → exec (.grammarUnload e) s = .next (s.commit (s.view.unpredictable s.ctx e.cmd))) ∧
    (e.reservedSet [(16, 1), (20, 20), (40, 2)] [(240, 16), (304, 16)] = true → exec (.topkRow e) s = .next (s.commit (s.view.unpredictable s.ctx e.cmd))) ∧
    (e.reservedSet [(24, 16)] [] = true → exec (.tokenizerLoad e) s = .next (s.commit (s.view.unpredictable s.ctx e.cmd))) ∧
    (e.reservedSet [(16, 2)] [] = true → exec (.textInOpen e) s = .next (s.commit (s.view.unpredictable s.ctx e.cmd))) ∧
    (e.reservedSet [(16, 2)] [] = true → exec (.textInClose e) s = .next (s.commit (s.view.unpredictable s.ctx e.cmd))) ∧
    (e.reservedSet [(16, 3), (20, 24), (48, 8)] [(145, 7), (240, 16), (304, 16), (432, 16)] = true → exec (.textTokenise e) s = .next (s.commit (s.view.unpredictable s.ctx e.cmd))) ∧
    (e.reservedSet [(16, 2), (20, 4), (32, 12)] [(304, 16)] = true → exec (.textCtrlInsert e) s = .next (s.commit (s.view.unpredictable s.ctx e.cmd))) ∧
    (e.reservedSet [(16, 5), (24, 12)] (if e.f 17 1 == 2 then [(208, 48)] else []) = true → exec (.textChanSet e) s = .next (s.commit (s.view.unpredictable s.ctx e.cmd))) ∧
    (e.reservedSet [(16, 6)] [(171, 5)] = true → exec (.textOutBind e) s = .next (s.commit (s.view.unpredictable s.ctx e.cmd))) ∧
    (e.reservedSet [(16, 6), (24, 12)] [(154, 6)] = true → exec (.recallCreate e) s = .next (s.commit (s.view.unpredictable s.ctx e.cmd))) ∧
    (e.reservedSet [(16, 1), (24, 8)] [(240, 16)] = true → exec (.recallCentroids e) s = .next (s.commit (s.view.unpredictable s.ctx e.cmd))) ∧
    (e.reservedSet [(16, 1)] [] = true → exec (.recallDrop e) s = .next (s.commit (s.view.unpredictable s.ctx e.cmd))) ∧
    (e.reservedSet [(16, 1), (24, 8)] [(240, 16)] = true → exec (.recallStat e) s = .next (s.commit (s.view.unpredictable s.ctx e.cmd))) ∧
    (e.reservedSet [(16, 1), (20, 12)] [] = true → exec (.recallInsert e) s = .next (s.commit (s.view.unpredictable s.ctx e.cmd))) ∧
    (e.reservedSet [(16, 1), (20, 12)] [] = true → exec (.recallDelete e) s = .next (s.commit (s.view.unpredictable s.ctx e.cmd))) ∧
    (e.reservedSet [(16, 1)] [] = true → exec (.recallCompact e) s = .next (s.commit (s.view.unpredictable s.ctx e.cmd))) ∧
    (e.reservedSet [(16, 1), (18, 2), (24, 8)] [(240, 16)] = true → exec (.recallQuery (.hp e)) s = .next (s.commit (s.view.unpredictable s.ctx e.cmd))) ∧
    (e.reservedSet [(16, 1), (24, 8)] [(129, 7)] = true → exec (.ckptRun e) s = .next (s.commit (s.view.unpredictable s.ctx e.cmd))) ∧
    (e.reservedSet [(24, 8)] [] = true → exec (.ckptStore e) s = .next (s.commit (s.view.unpredictable s.ctx e.cmd))) ∧
    (∀ (t4 : T4Store), e.reservedSet [(24, 16)] [] = true → exec (.ckptScan e t4) s = .next (s.commit (s.view.unpredictable s.ctx e.cmd))) ∧
    (∀ (t4 : T4Store), e.reservedSet [(16, 1), (24, 32)] [(129, 7)] = true → exec (.ckptRestore e t4) s = .next (s.commit (s.view.unpredictable s.ctx e.cmd))) ∧
    (e.reservedSet [(16, 3), (20, 17)] [(148, 4)] = true → exec (.shapeSet e) s = .next (s.commit (s.view.unpredictable s.ctx e.cmd))) ∧
    (e.reservedSet [(16, 6), (24, 8)] [(145, 7)] = true → exec (.policeSet e) s = .next (s.commit (s.view.unpredictable s.ctx e.cmd))) ∧
    (e.reservedSet [(16, 1), (18, 3)] [(130, 6)] = true → exec (.routeSet e) s = .next (s.commit (s.view.unpredictable s.ctx e.cmd))) ∧
    (e.reservedSet [(16, 1), (18, 22)] [(240, 16)] = true → exec (.beltJobStart e) s = .next (s.commit (s.view.unpredictable s.ctx e.cmd))) ∧
    (e.reservedSet [(16, 1)] [] = true → exec (.beltJobKill e) s = .next (s.commit (s.view.unpredictable s.ctx e.cmd))) ∧
    (e.reservedSet [(16, 1)] [] = true → exec (.beltJobSuspend e) s = .next (s.commit (s.view.unpredictable s.ctx e.cmd))) ∧
    (e.reservedSet [(16, 1)] [] = true → exec (.beltJobResume e) s = .next (s.commit (s.view.unpredictable s.ctx e.cmd))) ∧
    (e.reservedSet [(16, 8), (24, 8)] [(153, 7), (240, 16)] = true → exec (.beltQueueSet e) s = .next (s.commit (s.view.unpredictable s.ctx e.cmd))) ∧
    (e.reservedSet [(16, 2), (24, 8)] [(240, 16)] = true → exec (.beltTaskSubmit e) s = .next (s.commit (s.view.unpredictable s.ctx e.cmd))) ∧
    (e.reservedSet [(16, 4)] [] = true → exec (.beltHookReg e) s = .next (s.commit (s.view.unpredictable s.ctx e.cmd))) ∧
    (e.reservedSet [(16, 2)] [] = true → exec (.beltHookUnreg e) s = .next (s.commit (s.view.unpredictable s.ctx e.cmd))) ∧
    (e.reservedSet [(16, 2), (20, 2)] [] = true → exec (.beltLifeReg e) s = .next (s.commit (s.view.unpredictable s.ctx e.cmd))) ∧
    (e.reservedSet [(24, 16)] [] = true → exec (.tenantSwitch e) s = .next (s.commit (s.view.unpredictable s.ctx e.cmd))) ∧
    (e.reservedSet [(24, 16)] [] = true → exec (.attest e) s = .next (s.commit (s.view.unpredictable s.ctx e.cmd))) ∧
    (e.reservedSet [(16, 4), (24, 8)] [] = true → exec (.mlogRead e) s = .next (s.commit (s.view.unpredictable s.ctx e.cmd))) ∧
    (e.reservedSet [(24, 12)] [] = true → exec (.certRead e) s = .next (s.commit (s.view.unpredictable s.ctx e.cmd))) ∧
    (e.reservedSet [(24, 16)] [] = true → exec (.debugUnlock e) s = .next (s.commit (s.view.unpredictable s.ctx e.cmd))) ∧
    (e.reservedSet [(24, 16)] [] = true → exec (.svnCommit e) s = .next (s.commit (s.view.unpredictable s.ctx e.cmd))) ∧
    (e.reservedSet [(24, 24)] [] = true → exec (.fwUpdate e false) s = .next (s.commit (s.view.unpredictable s.ctx e.cmd))) ∧
    (e.reservedSet [(16, 1)] [] = true → exec (.pwrGate e) s = .next (s.commit (s.view.unpredictable s.ctx e.cmd))) ∧
    (e.reservedSet [(16, 1)] [] = true → exec (.pwrWake e) s = .next (s.commit (s.view.unpredictable s.ctx e.cmd))) ∧
    (e.reservedSet [(16, 2)] [] = true → exec (.pwrLimit e) s = .next (s.commit (s.view.unpredictable s.ctx e.cmd))) ∧
    (e.reservedSet [(16, 1)] [] = true → exec (.pwrVmode e) s = .next (s.commit (s.view.unpredictable s.ctx e.cmd))) ∧
    (e.reservedSet [(16, 2), (24, 12)] [(137, 7)] = true → exec (.elogRead e) s = .next (s.commit (s.view.unpredictable s.ctx e.cmd))) ∧
    (e.reservedSet [(16, 2), (20, 4), (24, 16)] [(240, 16)] = true → exec (.errInject e) s = .next (s.commit (s.view.unpredictable s.ctx e.cmd)))

/-! ### Where every command completes, and with what effect -/

/-- NOP, queue creation and deletion, HRQ creation, STORE_DONE and METER_READ. With every reserved byte and bit 0 and every check of its rule passed, each answers the next state that holds its effect and its completion. Each clause names the state and operands on which the command completes, and the next state. -/
def Obligations.QueueCommandsComplete : Prop :=
  ∀ s : State,
  (∀ (e : Entry),
     let x := s.ctx
     let d := s.view
     let c := e.cmd
     e.reservedSet [] [] = false →
     exec (.nop e) s =
       .next (s.commit (d.finish x c .DONE 0))) ∧
  (∀ (e : Entry),
     let x := s.ctx
     let d := s.view
     let c := e.cmd
     e.reservedSet [(16, 3), (20, 2), (24, 8)] [(222, 34)] = false →
     firstFail (createCqChecks d e) = none →
     exec (.qCreateCq e) s =
       .next (s.commit ((d.createCq e).finish x c .DONE 0))) ∧
  (∀ (e : Entry),
     let x := s.ctx
     let d := s.view
     let c := e.cmd
     e.reservedSet [(16, 8), (24, 8)] [(222, 34)] = false →
     firstFail (createSqChecks d e) = none →
     exec (.qCreateSq e) s =
       .next (s.commit ((d.createSq e).finish x c .DONE 0))) ∧
  (∀ (e : Entry) (q : Sq),
     let x := s.ctx
     let d := s.view
     let c := e.cmd
     e.reservedSet [(16, 2)] [] = false →
     firstFail (deleteSqChecks d e) = none →
     tblGet (e.f 16 2) d.hif.sqs = some q →
     exec (.qDeleteSq e) s =
       .next (s.commit (({ d with hif := { d.hif with sqs := tblSet (e.f 16 2) { q with deleting := some c } d.hif.sqs } } : Dev).settleDelete x (e.f 16 2)))) ∧
  (∀ (e : Entry),
     let x := s.ctx
     let d := s.view
     let c := e.cmd
     e.reservedSet [(16, 2)] [] = false →
     firstFail (deleteCqChecks d e) = none →
     exec (.qDeleteCq e) s =
       .next (s.commit (({ d with hif := { d.hif with cqs := tblDel (e.f 16 2) d.hif.cqs } } : Dev).finish x c .DONE 0))) ∧
  (∀ (e : Entry),
     let x := s.ctx
     let d := s.view
     let c := e.cmd
     e.reservedSet [(18, 1), (20, 2), (24, 8)] [(222, 34)] = false →
     firstFail (hrqCreateChecks d e) = none →
     exec (.hrqCreate e) s =
       .next (s.commit (({ d with hif := { d.hif with hrq := some ⟨e.f 24 8, e.f 18 1, e.f 20 2, 0, true, 0, 0⟩ } } : Dev).finish x c .DONE 0))) ∧
  (∀ (e : Entry) (r : HostReq) (st : Status),
     let x := s.ctx
     let d := s.view
     let c := e.cmd
     e.reservedSet [(16, 5), (24, 8)] [] = false →
     (d.hif.requests.find? fun r => r.reqId == e.f 16 4) = some r →
     storeStatus (e.f 20 1) (e.f 24 8) r = some st →
     exec (.storeDone e) s =
       .next (s.commit (((((d.dropRequest r.reqId).requestDone x r.owner st).settleTransfers x)).finish x c .DONE 0))) ∧
  (∀ (e : Entry),
     let x := s.ctx
     let d := s.view
     let c := e.cmd
     e.reservedSet [(16, 5), (24, 8)] [(161, 7)] = false →
     e.f 18 2 ≠ 0 →
     e.f 18 2 ≤ 4096 →
     e.f 16 2 + e.f 18 2 ≤ 65536 →
     (([(e.f 24 8, 64 * e.f 18 2)]).find? fun b => !(mappedRange x.fuses.part d b.1 b.2)) = none →
     exec (.meterRead e) s =
       .next (s.commit ((d.copyMeters x (e.f 16 2) (e.f 18 2) (e.f 24 8) (bit (e.f 20 1) 0)).finish x c .DONE 0)))

/-- Doorbells with an index the queue has, a visit of the fetcher of each priority, BAR2 accesses of mapped memory, and ADMIN_CTL.EN. Each clause names the state and operands on which the command completes, and the next state. -/
def Obligations.HostEventsComplete : Prop :=
  ∀ s : State,
  (∀ (sq val : Nat) (q : Sq),
     let d := s.view
     d.barsDecoded = true →
     d.operational = true →
     tblGet sq d.hif.sqs = some q →
     q.deleting = none →
     val < 2 ^ q.sizeLog2 →
     let k := (val + 2 ^ q.sizeLog2 - q.tail) % 2 ^ q.sizeLog2
     q.waiting + k < 2 ^ q.sizeLog2 →
     exec (.sqDoorbell sq 0 4 val) s =
       .next (s.commit ({ d with hif := { d.hif with sqs := tblSet sq { q with tail := val, waiting := q.waiting + k } d.hif.sqs } }))) ∧
  (∀ (cq val : Nat) (q : Cq),
     let d := s.view
     d.barsDecoded = true →
     d.operational = true →
     tblGet cq d.hif.cqs = some q →
     val < 2 ^ q.sizeLog2 →
     (val + 2 ^ q.sizeLog2 - q.head) % 2 ^ q.sizeLog2 ≤ q.live →
     exec (.cqDoorbell cq 0 4 val) s =
       .next (s.commit ({ d with hif := { d.hif with cqs := tblSet cq { q with head := val, live := q.live - (val + 2 ^ q.sizeLog2 - q.head) % 2 ^ q.sizeLog2 } d.hif.cqs } }))) ∧
  (∀ (val : Nat) (h : Hrq),
     let x := s.ctx
     let d := s.view
     d.barsDecoded = true →
     d.operational = true →
     d.hif.hrq = some h →
     val < 2 ^ h.sizeLog2 →
     (val + 2 ^ h.sizeLog2 - h.head) % 2 ^ h.sizeLog2 ≤ h.live →
     exec (.hrqDoorbell 0 4 val) s =
       .next (s.commit (({ d with hif := { d.hif with hrq := some { h with head := val, live := h.live - (val + 2 ^ h.sizeLog2 - h.head) % 2 ^ h.sizeLog2 } } } : Dev).postWaiting x))) ∧
  (∀ (n : Nat),
     let x := s.ctx
     let d := s.view
     nextInTurn d.hif.fetchTurn.1 (d.fetchable x true) = some n →
     (nextInTurn d.hif.fetchTurn.2 (d.fetchable x false)).isNone ∨ d.hif.highVisits < 4 →
     exec .sqFetch s =
       .next (s.commit (Dev.fetchFrom x n 8 { d with hif := { d.hif with fetchTurn := (n, d.hif.fetchTurn.2), highVisits := d.hif.highVisits + 1 } }))) ∧
  (∀ (n : Nat),
     let x := s.ctx
     let d := s.view
     nextInTurn d.hif.fetchTurn.2 (d.fetchable x false) = some n →
     (nextInTurn d.hif.fetchTurn.1 (d.fetchable x true)).isNone ∨ 4 ≤ d.hif.highVisits →
     exec .sqFetch s =
       .next (s.commit (Dev.fetchFrom x n 8 { d with hif := { d.hif with fetchTurn := (d.hif.fetchTurn.1, n), highVisits := 0 } }))) ∧
  (∀ (off len val : Nat),
     let x := s.ctx
     let d := s.view
     d.barsDecoded = true →
     off < 2 ^ d.hif.hp.bar2SizeLog2 →
     d.operational = true →
     let a := d.bar2Addr off
     d.bar2Hole x a len = none →
     (d.err.bad.filter fun b => b.uncorrectable && b.within a len && !(a ≤ b.addr && b.addr + eccWord b.addr ≤ a + len)) = [] →
     let d1 := d.st x a len val
     d1.operational = true →
     (d1.deviceOnly.any fun r => a < r.1 + r.2 && r.1 < a + len) = false →
     exec (.bar2Access true off len val) s =
       .next (s.commit (d1))) ∧
  (∀ (off len val : Nat),
     let x := s.ctx
     let d := s.view
     d.barsDecoded = true →
     off < 2 ^ d.hif.hp.bar2SizeLog2 →
     d.operational = true →
     let a := d.bar2Addr off
     d.bar2Hole x a len = none →
     (inHbm x.fuses.part a || inSram a || inStaging a) = true →
     exec (.bar2Access false off len val) s =
       .next (s.commit ((d.eccRead a len false).send (.cpl .success (leNat ((List.range len).map fun i => d.hostByte x (a + i))) (d.mediaBad a len))))) ∧
  (∀ (val : Nat),
     let x := s.ctx
     let d := s.view
     d.bar0Cpl x Reg.hifAdminCtl = .success →
     bit val 31 ≠ bit (d.reg Reg.hifAdminCtl) 31 →
     exec (.adminCtlEn val) s =
       .next (s.commit (((d.setFld Reg.hifAdminCtl 0 11 val).setFld Reg.hifAdminCtl 31 1 (val / 2 ^ 31)).adminEnable (bit val 31) (val % 2048))))

/-- The coalescing timer of a vector, a vector that is unmasked with its message pending, both outcomes of a host request's timeout, the four mailbox accesses, and the pool port's link going down and coming up. Each clause names the state and operands on which the command completes, and the next state. -/
def Obligations.HostSignalsComplete : Prop :=
  ∀ s : State,
  (∀ (v : Nat) (w : VecState),
     let d := s.view
     tblGet v d.hif.vecs = some w →
     d.fld (Reg.hifVecCoal v) 16 16 ≠ 0 →
     w.oldest + d.fld (Reg.hifVecCoal v) 16 16 * 1000 ≤ d.now →
     exec (.vectorCoalTimeout v) s =
       .next (s.commit (d.raiseVec v))) ∧
  (∀ (v : Nat),
     let x := s.ctx
     let d := s.view
     d.bar0Cpl x (Reg.msixCtrl v) = .success →
     let d1 := d.setFld (Reg.msixCtrl v) 0 1 0
     bit (d1.reg (Reg.msixPba (v / 32))) (v % 32) = true →
     d.hif.hp.msixEnable = true →
     d.hif.hp.functionMask = false →
     d.hif.hp.bme = true →
     exec (.vectorUnmask v) s =
       .next (s.commit ((d1.setFld (Reg.msixPba (v / 32)) (v % 32) 1 0).send (.msix v)))) ∧
  (∀ (n : Nat) (r : HostReq),
     let x := s.ctx
     let d := s.view
     (d.hif.requests.find? fun r => r.reqId == n) = some r →
     r.since + d.fld Reg.hifHrqCtl 0 16 * 1000000 ≤ d.now →
     r.retries % 2 = 1 →
     let r1 := { r with retries := r.retries + 1, since := d.now, posted := false }
     exec (.hrqTimeout n) s =
       .next (s.commit (({ d with hif := { d.hif with requests := replaceFirst (fun (q : HostReq) => q.reqId == n) (fun _ => r1) d.hif.requests } } : Dev).postReq x r1))) ∧
  (∀ (n : Nat) (r : HostReq),
     let x := s.ctx
     let d := s.view
     (d.hif.requests.find? fun r => r.reqId == n) = some r →
     r.since + d.fld Reg.hifHrqCtl 0 16 * 1000000 ≤ d.now →
     r.retries % 2 = 0 →
     let d1 := (d.bump Reg.hifHrqTimeout 1).event x 0xA r.reqId r.origin 0
     r.op = 3 →
     r.retries < 6 →
     let r1 := { r with retries := r.retries + 1, since := d.now }
     exec (.hrqTimeout n) s =
       .next (s.commit ({ d1 with hif := { d1.hif with requests := replaceFirst (fun (q : HostReq) => q.reqId == n) (fun _ => r1) d1.hif.requests } }))) ∧
  (∀ (n : Nat) (r : HostReq),
     let x := s.ctx
     let d := s.view
     (d.hif.requests.find? fun r => r.reqId == n) = some r →
     r.since + d.fld Reg.hifHrqCtl 0 16 * 1000000 ≤ d.now →
     r.retries % 2 = 0 →
     let d1 := (d.bump Reg.hifHrqTimeout 1).event x 0xA r.reqId r.origin 0
     r.op ≠ 3 ∨ 6 ≤ r.retries →
     exec (.hrqTimeout n) s =
       .next (s.commit (((d1.dropRequest n).requestDone x r.owner .FAULT_LINK).settleTransfers x))) ∧
  (∀ (n val : Nat),
     let x := s.ctx
     let d := s.view
     d.bar0Cpl x (Reg.mboxH2dData n) = .success →
     n < 8 →
     exec (.mboxH2dWrite (.m n) val) s =
       .next (s.commit (d.setMbox (.m n) { d.mbox (.m n) with h2d := (d.mbox (.m n)).h2d.put val }))) ∧
  (∀ (val : Nat),
     let d := s.view
     exec (.mboxH2dWrite .recovery val) s =
       .next (s.commit (d.setMbox .recovery { d.mbox .recovery with h2d := (d.mbox .recovery).h2d.put val }))) ∧
  (∀ (n : Nat),
     let x := s.ctx
     let d := s.view
     d.bar0Cpl x (Reg.mboxH2dData n) = .success →
     n < 8 →
     exec (.mboxD2hRead (.m n)) s =
       .next (s.commit (((d.setMbox (.m n) { d.mbox (.m n) with d2h := (d.mbox (.m n)).d2h.take }).send (.cpl .success (d.mbox (.m n)).d2h.data false)).nextAnswer (.m n)))) ∧
  (
     let d := s.view
     exec (.mboxD2hRead .recovery) s =
       .next (s.commit (((d.setMbox .recovery { d.mbox .recovery with d2h := (d.mbox .recovery).d2h.take }).send (.cpl .success (d.mbox .recovery).d2h.data false)).nextAnswer .recovery))) ∧
  (∀ (m : MboxId) (val : Nat),
     let x := s.ctx
     let d := s.view
     d.ownerUp x m = true →
     exec (.mboxOwnerWrite m val) s =
       .next (s.commit (d.ownerWrite m val))) ∧
  (∀ (m : MboxId),
     let x := s.ctx
     let d := s.view
     d.ownerUp x m = true →
     exec (.mboxOwnerRead m) s =
       .next (s.commit ((d.setMbox m { d.mbox m with h2d := (d.mbox m).h2d.take }).send (.answer [(d.mbox m).h2d.data])))) ∧
  (
     let x := s.ctx
     let d := s.view
     d.hif.ppUp = true →
     let d1 := ((({ d with hif := { d.hif with ppUp := false } } : Dev).setFld Reg.hifPpStat 24 8 0).report (sourceOf 0x1800000 0 0) 0x41 2 0x10).event x 8 0x10 0 0
     d1.tier.parks = [] →
     d1.tier.revives = [] →
     d1.tier.evacuating = [] →
     exec .ppLinkDown s =
       .next (s.commit ((d1.storeLinkDown x).settleTransfers x))) ∧
  (∀ (serials : List Nat),
     let x := s.ctx
     let d := s.view
     d.hif.ppUp = false →
     d.operational = true →
     exec (.ppLinkUp serials) s =
       .next (s.commit (d.ppEnumerate x serials)))

/-- Each MCTP control message of R546 outside Eclipse mode: its answer is sent, and Set Endpoint ID keeps the identifier. Each PLDM request of R547 and R548 outside Eclipse mode. Each clause names the state and operands on which the command completes, and the next state. -/
def Obligations.ManagementCommandsComplete : Prop :=
  ∀ s : State,
  (∀ (eid : Nat),
     let d := s.view
     d.eclipse = false →
     exec (.setEndpointId eid) s =
       .next (s.commit (({ d with hif := { d.hif with eid := eid } } : Dev).send (.mctp (.endpointSet eid))))) ∧
  (
     let d := s.view
     d.eclipse = false →
     exec .getEndpointId s =
       .next (s.commit (d.send (.mctp (.endpointId d.hif.eid))))) ∧
  (
     let x := s.ctx
     let d := s.view
     d.eclipse = false →
     exec .getEndpointUuid s =
       .next (s.commit (d.send (.mctp (.uuid x.fuses.serial))))) ∧
  (∀ (typ : Nat),
     let d := s.view
     d.eclipse = false →
     exec (.getMctpVersionSupport typ) s =
       .next (s.commit (d.send (.mctp (.versions typ (typ == 0xFF || typ == 0x00 || typ == 0x01)))))) ∧
  (
     let d := s.view
     d.eclipse = false →
     exec .getMessageTypeSupport s =
       .next (s.commit (d.send (.mctp (.messageTypes [0x01]))))) ∧
  (∀ (cmd : Nat),
     let d := s.view
     d.eclipse = false →
     exec (.mctpOtherMessage 0 cmd) s =
       .next (s.commit (d.send (.mctp (.unsupportedCmd cmd))))) ∧
  (
     let x := s.ctx
     let d := s.view
     exec .meterAdvance s =
       .next (s.commit (d.advanceMeters x))) ∧
  (
     let x := s.ctx
     let d := s.view
     exec .sensorRefresh s =
       .next (s.commit ((sensorIds x.fuses.part).foldl (fun d id => d.refreshSensor id) d))) ∧
  (∀ (tid : Nat),
     let d := s.view
     d.eclipse = false →
     exec (.settid tid) s =
       .next (s.commit (({ d with hif := { d.hif with tid := tid } } : Dev).send (.mctp .tidSet)))) ∧
  (
     let d := s.view
     d.eclipse = false →
     exec .gettid s =
       .next (s.commit (d.send (.mctp (.tid d.hif.tid))))) ∧
  (∀ (typ : Nat),
     let d := s.view
     d.eclipse = false →
     exec (.getpldmversion typ) s =
       .next (s.commit (d.send (.mctp (.pldmVersion typ (typ == 0 || typ == 2)))))) ∧
  (
     let d := s.view
     d.eclipse = false →
     exec .getpldmtypes s =
       .next (s.commit (d.send (.mctp (.pldmTypes [0, 2]))))) ∧
  (∀ (typ : Nat),
     let d := s.view
     d.eclipse = false →
     exec (.getpldmcommands typ) s =
       .next (s.commit (d.send (.mctp (.pldmCommands typ (pldmCommandNames typ)))))) ∧
  (∀ (eid : Nat),
     let d := s.view
     d.eclipse = false →
     exec (.seteventreceiver eid) s =
       .next (s.commit (({ d with hif := { d.hif with eventReceiver := some eid } } : Dev).send (.mctp .receiverSet)))) ∧
  (
     let x := s.ctx
     let d := s.view
     d.eclipse = false →
     exec .getpdrrepositoryinfo s =
       .next (s.commit (d.send (.mctp (.pdrInfo (sensorIds x.fuses.part).length))))) ∧
  (∀ (record id : Nat),
     let x := s.ctx
     let d := s.view
     d.eclipse = false →
     let i := if record = 0 then 1 else record
     (sensorIds x.fuses.part)[i - 1]? = some id →
     exec (.getpdr record) s =
       .next (s.commit (d.send (.mctp (.pdr i id (sensorNumeric id) (sensorUnit id) (if i < (sensorIds x.fuses.part).length then i + 1 else 0)))))) ∧
  (∀ (sensor : Nat),
     let x := s.ctx
     let d := s.view
     d.eclipse = false →
     (sensorIds x.fuses.part).contains sensor = true →
     sensorNumeric sensor = true →
     exec (.getsensorreading sensor) s =
       .next (s.commit (d.send (.mctp (.sensorReading sensor (d.sensor sensor)))))) ∧
  (∀ (sensor : Nat),
     let x := s.ctx
     let d := s.view
     d.eclipse = false →
     (sensorIds x.fuses.part).contains sensor = true →
     sensorNumeric sensor = false →
     exec (.getstatesensorreadings sensor) s =
       .next (s.commit (d.send (.mctp (.sensorState sensor (d.sensor sensor)))))) ∧
  (∀ (typ cmd : Nat),
     let d := s.view
     d.eclipse = false →
     exec (.pldmUnsupportedCmd typ cmd) s =
       .next (s.commit (d.send (.mctp (.unsupportedPldm typ cmd)))))

/-- SESS_OPEN, SESS_STEP_OPEN, SESS_STEP_CLOSE, SESS_CANCEL of a batch and of one session, SESS_CLOSE, SESS_QUERY and SESS_SET_TAIL on sessions whose descriptors read well and whose generation matches. Each clause names the state and operands on which the command completes, and the next state. -/
def Obligations.SessionCommandsComplete : Prop :=
  ∀ s : State,
  (∀ (e : Entry) (i : Nat) (d1 : Dev),
     let x := s.ctx
     let d := s.view
     let c := e.cmd
     e.reservedSet [(16, 7), (24, 36)] [(179, 5)] = false →
     firstFail (d.openChecks x e) = none →
     d.allocIdx = some i →
     d.allocAll (.sess i) d.openKinds = some d1 →
     exec (.sessOpen e) s =
       .next (s.commit (d1.openAt x e c i))) ∧
  (∀ (e : Entry),
     let x := s.ctx
     let d := s.view
     let c := e.cmd
     e.reservedSet [(16, 4), (24, 34)] [(240, 16), (432, 16)] = false →
     let d1 := d.raiseRails
     firstFail (d.stepOpenChecks e) = none →
     (([(e.f 24 6, 4 * e.f 18 2), (e.f 48 6, e.f 18 2)]).find? fun b => !(mappedRange x.fuses.part d1 b.1 b.2)) = none →
     d1.mediaBad (e.f 24 6) (4 * e.f 18 2) = false →
     let d2 := d1.eccRead (e.f 24 6) (4 * e.f 18 2) true
     let j := Dev.joinAll x (e.f 16 2) ((List.range (e.f 18 2)).map fun k => d2.ld x (e.f 24 6 + 4 * k) 4) d2
     j.2.1.isEmpty = false →
     exec (.sessStepOpen e) s =
       .next (s.commit (((j.1.stBytes x (e.f 48 6) (j.2.2.map Status.code)).openBatch x e j.2.1).finish x c .DONE 0))) ∧
  (∀ (e : Entry) (b : Batch),
     let x := s.ctx
     let d := s.view
     let c := e.cmd
     e.reservedSet [(16, 3), (24, 8)] [(145, 7)] = false →
     d.batch (e.f 16 2) = some b →
     (([(e.f 24 8, b.members.length)]).find? fun b => !(mappedRange x.fuses.part d b.1 b.2)) = none →
     let r := Dev.closeMembers x (bit (e.f 18 1) 0) b.members d
     exec (.sessStepClose e) s =
       .next (s.commit (((r.1.stBytes x (e.f 24 8) (r.2.map Status.code)).settleAll x).finish x c .DONE r.2.length))) ∧
  (∀ (e : Entry) (b : Batch),
     let x := s.ctx
     let d := s.view
     let c := e.cmd
     e.reservedSet [(16, 7)] [(177, 7)] = false →
     e.f 16 4 = 0xFFFFFFFF →
     d.batch (e.f 20 2) = some b →
     let r := Dev.cancelMembers x b.members d
     exec (.sessCancel e) s =
       .next (s.commit ((r.1.settleAll x).endOfCancel x c r.2.1 r.2.2))) ∧
  (∀ (e : Entry) (ds : Desc),
     let x := s.ctx
     let d := s.view
     let c := e.cmd
     e.reservedSet [(16, 7)] [(177, 7)] = false →
     e.f 16 4 ≠ 0xFFFFFFFF →
     let i := handleIdx (e.f 16 4)
     (d.readDesc x i).2 = some ds →
     ds.gen % 1024 = handleGen (e.f 16 4) →
     let d1 := (d.readDesc x i).1
     d1.memberBound i = false →
     ds.state = .hot →
     exec (.sessCancel e) s =
       .next (s.commit (d1.cancelHot x c i))) ∧
  (∀ (e : Entry) (ds : Desc),
     let x := s.ctx
     let d := s.view
     let c := e.cmd
     e.reservedSet [(16, 4)] [] = false →
     let i := handleIdx (e.f 16 4)
     (d.readDesc x i).2 = some ds →
     ds.gen % 1024 = handleGen (e.f 16 4) →
     let d1 := (d.readDesc x i).1
     d.memberBound i = false →
     ds.state = .idle ∨ ds.state = .parked →
     d1.canPin i = true →
     exec (.sessClose e) s =
       .next (s.commit (d1.closeGood x c i))) ∧
  (∀ (e : Entry) (ds : Desc),
     let x := s.ctx
     let d := s.view
     let c := e.cmd
     e.reservedSet [(16, 4), (24, 8)] [] = false →
     (([(e.f 24 8, 256)]).find? fun b => !(mappedRange x.fuses.part d b.1 b.2)) = none →
     let i := handleIdx (e.f 16 4)
     (d.readDesc x i).2 = some ds →
     ds.gen % 1024 = handleGen (e.f 16 4) →
     let d1 := (d.readDesc x i).1
     exec (.sessQuery e) s =
       .next (s.commit ((d1.st x (e.f 24 8) 256 ds.pack).finish x c .DONE 0))) ∧
  (∀ (e : Entry) (ds : Desc),
     let x := s.ctx
     let d := s.view
     let c := e.cmd
     e.reservedSet [(16, 42), (60, 4)] [(166, 2), (171, 5)] = false →
     setTailAbsent x.fuses.part e = false →
     let i := handleIdx (e.f 16 4)
     (d.readDesc x i).2 = some ds →
     ds.gen % 1024 = handleGen (e.f 16 4) →
     let d1 := (d.readDesc x i).1
     ds.state = .idle →
     d1.memberBound i = false →
     firstFail (d1.setTailChecks e) = none →
     exec (.sessSetTail e) s =
       .next (s.commit ((d1.putDesc x i (setTail e (d1.startState x (e.f 56 2)) ds)).finish x c .DONE 0)))

/-- SESS_SET_LISTS in both forms, SESS_PARK in place and outside T1, SESS_REVIVE, SESS_MOVE_OUT and SESS_MOVE_IN of sessions that are in the state their rules ask for. Each clause names the state and operands on which the command completes, and the next state. -/
def Obligations.SessionPlacesComplete : Prop :=
  ∀ s : State,
  (∀ (e : Entry) (ds : Desc),
     let x := s.ctx
     let d := s.view
     let c := e.cmd
     e.reservedSet [(16, 5), (24, 8)] [(162, 6)] = false →
     let i := handleIdx (e.f 16 4)
     (d.readDesc x i).2 = some ds →
     ds.gen % 1024 = handleGen (e.f 16 4) →
     let d1 := (d.readDesc x i).1
     ds.state = .idle →
     d1.memberBound i = false →
     bit (e.f 20 1) 0 = true →
     exec (.sessSetLists e) s =
       .next (s.commit ((((d1.releaseHeld x i).freeAreas fun u => u.owner == POwner.sess i && u.kind == .lists).updDesc x i fun s => { s with listsAddr := 0 }).finish x c .DONE 0))) ∧
  (∀ (e : Entry) (ds : Desc) (d3 : Dev) (addr : Nat),
     let x := s.ctx
     let d := s.view
     let c := e.cmd
     e.reservedSet [(16, 5), (24, 8)] [(162, 6)] = false →
     let i := handleIdx (e.f 16 4)
     (d.readDesc x i).2 = some ds →
     ds.gen % 1024 = handleGen (e.f 16 4) →
     let d1 := (d.readDesc x i).1
     ds.state = .idle →
     d1.memberBound i = false →
     bit (e.f 20 1) 0 = false →
     (([(e.f 24 8, 36864)]).find? fun b => !(mappedRange x.fuses.part d1 b.1 b.2)) = none →
     d1.mediaBad (e.f 24 8) (36864) = false →
     let d2 := d1.eccRead (e.f 24 8) (36864) true
     d2.listBlock i = some (d3, addr) →
     let keep := bit (e.f 20 1) 1
     exec (.sessSetLists e) s =
       .next (s.commit (((if keep then d3 else d3.releaseHeld x i).installLists x i addr (e.f 24 8) (ds.listsAddr != 0) keep).finish x c .DONE 0))) ∧
  (∀ (e : Entry) (ds : Desc),
     let x := s.ctx
     let d := s.view
     let c := e.cmd
     e.reservedSet [(16, 7), (24, 8)] [(161, 7), (171, 1), (175, 1)] = false →
     let i := handleIdx (e.f 16 4)
     (d.readDesc x i).2 = some ds →
     ds.gen % 1024 = handleGen (e.f 16 4) →
     let d1 := (d.readDesc x i).1
     ds.state = .idle →
     d1.memberBound i = false →
     d1.occupied i = false →
     parkFieldsOk (e.f 21 1) (e.f 22 1) = true →
     let image := bit (e.f 20 1) 0
     firstFail (d1.tileMode x image) = none →
     d1.bindingOf i = none →
     (d1.chain (e.f 21 1)).1 = 1 →
     d1.inPlaceOk x = true →
     exec (.sessPark e) s =
       .next (s.commit (d1.parkInPlace x i none (some c) image))) ∧
  (∀ (e : Entry) (ds : Desc) (d2 : Dev) (ts : List Target),
     let x := s.ctx
     let d := s.view
     let c := e.cmd
     e.reservedSet [(16, 7), (24, 8)] [(161, 7), (171, 1), (175, 1)] = false →
     let i := handleIdx (e.f 16 4)
     (d.readDesc x i).2 = some ds →
     ds.gen % 1024 = handleGen (e.f 16 4) →
     let d1 := (d.readDesc x i).1
     ds.state = .idle →
     d1.memberBound i = false →
     d1.occupied i = false →
     parkFieldsOk (e.f 21 1) (e.f 22 1) = true →
     let image := bit (e.f 20 1) 0
     firstFail (d1.tileMode x image) = none →
     d1.bindingOf i = none →
     (d1.chain (e.f 21 1)).1 ≠ 1 ∨ d1.inPlaceOk x = false →
     d1.canPin i = true →
     let f := d1.contentOf x i false
     let d0 := d1.askLoan (max 2 (d1.chain (e.f 21 1)).1) (d1.chain (e.f 21 1)).2 (d1.areaSizes f.1 image (e.f 22 1))
     d0.placeContent f.1 image (max 2 (d1.chain (e.f 21 1)).1) (d1.chain (e.f 21 1)).2 (e.f 22 1) (e.f 24 8) = some (d2, ts) →
     f.2 = false →
     exec (.sessPark e) s =
       .next (s.commit (((d2.setState x i .transit .parking).withdraw i).startWrites x ⟨i, some c, false, image, max 2 (d1.chain (e.f 21 1)).1, (d1.chain (e.f 21 1)).2, e.f 22 1, e.f 24 8, ts, f.1, [], none⟩))) ∧
  (∀ (e : Entry) (ds : Desc) (m : Manifest),
     let x := s.ctx
     let d := s.view
     let c := e.cmd
     e.reservedSet [(16, 4)] [] = false →
     let i := handleIdx (e.f 16 4)
     (d.readDesc x i).2 = some ds →
     ds.gen % 1024 = handleGen (e.f 16 4) →
     let d1 := (d.readDesc x i).1
     ds.state = .parked →
     d1.memberBound i = false →
     d1.bindingOf i = none →
     tblGet i d1.tier.manifests = some m →
     firstFail (d1.tileMode x (d1.desc i).image) = none →
     d1.manifestBad x i = false →
     m.inPlace = true →
     exec (.sessRevive e) s =
       .next (s.commit (d1.reviveInPlace x i none (some c)))) ∧
  (∀ (e : Entry) (ds : Desc) (m : Manifest),
     let x := s.ctx
     let d := s.view
     let c := e.cmd
     e.reservedSet [(16, 4)] [] = false →
     let i := handleIdx (e.f 16 4)
     (d.readDesc x i).2 = some ds →
     ds.gen % 1024 = handleGen (e.f 16 4) →
     let d1 := (d.readDesc x i).1
     ds.state = .parked →
     d1.memberBound i = false →
     d1.bindingOf i = none →
     tblGet i d1.tier.manifests = some m →
     firstFail (d1.tileMode x (d1.desc i).image) = none →
     d1.manifestBad x i = false →
     m.inPlace = false →
     m.lost = false →
     (m.targets.all fun t => d1.reachable t) = true →
     d1.canPin i = true →
     let d2 := d1.setState x i .reviving .none
     exec (.sessRevive e) s =
       .next (s.commit ({ d2 with tier := { d2.tier with revives := d2.tier.revives ++ [(⟨i, some c, false, [], [], [], [], none⟩ : ReviveOp)] } }))) ∧
  (∀ (e : Entry) (ds : Desc),
     let x := s.ctx
     let d := s.view
     let c := e.cmd
     e.reservedSet [(16, 5), (24, 4), (32, 8)] [(162, 6), (272, 48)] = false →
     let i := handleIdx (e.f 16 4)
     (d.readDesc x i).2 = some ds →
     ds.gen % 1024 = handleGen (e.f 16 4) →
     let d1 := (d.readDesc x i).1
     let image := bit (e.f 20 1) 0
     let flat := bit (e.f 20 1) 1
     ds.state = .idle ∨ ds.state = .parked →
     d1.occupied i = false →
     firstFail (d1.tileMode x image) = none →
     d1.memberBound i = false →
     d1.bindingOf i = none →
     d1.parkedMoveFault x i = none →
     d1.canPin i = true →
     let d2 := d1.dropDemotion x i
     exec (.sessMoveOut e) s =
       .next (s.commit (d2.startMove x i (some c) (e.f 24 4) (e.f 32 8) image flat ((d1.bindingOf i).map (·.1.id))))) ∧
  (∀ (e : Entry) (i : Nat),
     let x := s.ctx
     let d := s.view
     let c := e.cmd
     e.reservedSet [(16, 2), (20, 12), (32, 16)] [(129, 7), (163, 1), (167, 1), (272, 48)] = false →
     bit (e.f 16 1) 0 = false →
     d.allocIdx = some i →
     d.canPin i = true →
     let d1 : Dev := { d with sess := { d.sess with lastAlloc := i } }
     let d2 := (d1.putDesc x i { Desc.void (d.nextGen i) d.now with state := .transit, sub := .movingIn, composition := e.f 22 2 }).touch i
     d2.tier.offersWaiting = [] →
     exec (.sessMoveIn e) s =
       .next (s.commit ({ d2 with tier := { d2.tier with movesIn := d2.tier.movesIn ++ [(⟨i, c, e.f 24 4, e.f 32 8, e.f 20 1, e.f 21 1, e.f 22 2, e.f 40 8, none, d2.now, none, [], [], none, [], false, [], ((d.nextGen i + 1023) % 1024, d.sess.lastAlloc)⟩ : MoveIn)] } })))

/-- PREFIX_CAPTURE of a session without FULL pages, PREFIX_RELEASE, PREFIX_PIN, PREFIX_UNPIN, KV_IMPORT and KV_EXPORT. Each clause names the state and operands on which the command completes, and the next state. -/
def Obligations.PrefixCommandsComplete : Prop :=
  ∀ s : State,
  (∀ (e : Entry) (ds : Desc),
     let x := s.ctx
     let d := s.view
     let c := e.cmd
     e.reservedSet [(16, 8)] [] = false →
     let i := handleIdx (e.f 16 4)
     (d.readDesc x i).2 = some ds →
     ds.gen % 1024 = handleGen (e.f 16 4) →
     let d1 := (d.readDesc x i).1
     ds.state = .idle →
     d1.memberBound i = false →
     d1.occupied i = false →
     ds.prefixId = 0xFFFFFFFF →
     ds.commitLen ≠ 0 →
     let id := e.f 20 4
     id ≠ 0xFFFFFFFF →
     d1.kv.prefixes.any (fun p => p.id == id) = false →
     d1.kv.captures.any (fun o => o.prefixId == id) = false →
     d1.kv.prefixes.length < 4096 →
     let d2 : Dev := { d1 with kv := { d1.kv with captures := d1.kv.captures ++ [(⟨i, id, c⟩ : CaptureOp)] } }
     let mine := d2.kv.pages.filter fun p => p.1.owner == POwner.sess i
     (mine.filter fun p => p.2.kind == .full) = [] →
     (mine.any fun p => d2.headerBad x p.1) = false →
     exec (.prefixCapture e) s =
       .next (s.commit (d2.captureDone x ⟨i, id, c⟩))) ∧
  (∀ (e : Entry) (p : Prefix),
     let x := s.ctx
     let d := s.view
     let c := e.cmd
     e.reservedSet [(20, 4)] [] = false →
     d.loadedPrefix (e.f 20 4) = some p →
     p.loadRef = true →
     exec (.prefixRelease e) s =
       .next (s.commit (((d.updPrefix (e.f 20 4) fun p => { p with loadRef := false }).dropRef (e.f 20 4)).finish x c .DONE (p.refs - 1)))) ∧
  (∀ (e : Entry) (p : Prefix) (d1 : Dev),
     let x := s.ctx
     let d := s.view
     let c := e.cmd
     e.reservedSet [(20, 4)] [] = false →
     d.loadedPrefix (e.f 20 4) = some p →
     p.pinned = false →
     ((d.pagesOf (.pfx (e.f 20 4))).any fun k => d.tileBad x k.1 k.2 0) = false →
     d.pinPages x (d.pagesOf (.pfx (e.f 20 4))) = some d1 →
     exec (.prefixPin e) s =
       .next (s.commit (((d1.updPrefix (e.f 20 4) fun p => { p with pinned := true, pinnedAt := d1.now }).retier x (e.f 20 4)).finish x c .DONE 0))) ∧
  (∀ (e : Entry) (p : Prefix),
     let x := s.ctx
     let d := s.view
     let c := e.cmd
     e.reservedSet [(20, 4)] [] = false →
     d.loadedPrefix (e.f 20 4) = some p →
     p.pinned = true →
     exec (.prefixUnpin e) s =
       .next (s.commit ((d.unpin x (e.f 20 4)).finish x c .DONE 0))) ∧
  (∀ (e : Entry) (ds : Desc),
     let x := s.ctx
     let d := s.view
     let c := e.cmd
     e.reservedSet [(16, 10), (32, 8)] [(304, 16)] = false →
     let i := handleIdx (e.f 16 4)
     (d.readDesc x i).2 = some ds →
     ds.gen % 1024 = handleGen (e.f 16 4) →
     let d1 := (d.readDesc x i).1
     ds.state = .idle →
     d1.memberBound i = false →
     d1.occupied i = false →
     e.f 20 4 ≠ 0 →
     e.f 20 4 ≤ 65536 →
     (mxFmt (e.f 24 1)).isSome = true →
     (mxFmt (e.f 25 1)).isSome = true →
     ds.commitLen + e.f 20 4 ≤ 1048576 →
     d1.importSlots i (e.f 20 4) ≤ d1.poolFree x →
     (([(e.f 32 6, d1.mxBytes (e.f 20 4) (e.f 24 1) (e.f 25 1))]).find? fun b => !(mappedRange x.fuses.part d1 b.1 b.2)) = none →
     exec (.kvImport e) s =
       .next (s.commit (d1.startMx e c i true))) ∧
  (∀ (e : Entry) (ds : Desc),
     let x := s.ctx
     let d := s.view
     let c := e.cmd
     e.reservedSet [(16, 10), (28, 4), (32, 8)] [(304, 16)] = false →
     let i := handleIdx (e.f 16 4)
     (d.readDesc x i).2 = some ds →
     ds.gen % 1024 = handleGen (e.f 16 4) →
     let d1 := (d.readDesc x i).1
     ds.state = .idle →
     d1.memberBound i = false →
     d1.occupied i = false →
     e.f 20 4 ≠ 0 →
     e.f 20 4 ≤ 65536 →
     (mxFmt (e.f 24 1)).isSome = true →
     (mxFmt (e.f 25 1)).isSome = true →
     e.f 28 4 + e.f 20 4 ≤ ds.commitLen →
     (([(e.f 32 6, d1.mxBytes (e.f 20 4) (e.f 24 1) (e.f 25 1))]).find? fun b => !(mappedRange x.fuses.part d1 b.1 b.2)) = none →
     exec (.kvExport e) s =
       .next (s.commit (d1.startMx e c i false)))

/-- A layer or tail request whose form and sessions stand, for which there is room and which the ledger passes, is accepted and its admission record sent, on the HP path and from a neighbour. DECISION_TIMEOUT answers the request; BATCH_TIMEOUT closes its batch. Each clause names the state and operands on which the command completes, and the next state. -/
def Obligations.LayerAndTailRequestsComplete : Prop :=
  ∀ s : State,
  (∀ (e : Entry) (d1 : Dev) (b : Batch) (dl : Ns) (es : List LEnt) (fin : Nat),
     let x := s.ctx
     let d := s.view
     e.reservedSet [(16, 8)] [(176, 16)] = false →
     let g := d.reqImg x (.hp e)
     d.layerForm x g = .good d1 b dl es →
     (d1.layerPlan x g b dl es).room = true →
     (d1.layerPlan x g b dl es).verdict = .pass fin →
     exec (.layerReq (.hp e)) s =
       .next (s.commit (d1.takeLayer x g dl es (d1.layerPlan x g b dl es) fin))) ∧
  (∀ (port from_ len val : Nat) (d1 : Dev) (b : Batch) (dl : Ns) (es : List LEnt) (fin : Nat),
     let x := s.ctx
     let d := s.view
     let g := d.reqImg x (.cvf port from_ len val)
     d.layerForm x g = .good d1 b dl es →
     (d1.layerPlan x g b dl es).room = true →
     (d1.layerPlan x g b dl es).verdict = .pass fin →
     exec (.layerReq (.cvf port from_ len val)) s =
       .next (s.commit (d1.takeLayer x g dl es (d1.layerPlan x g b dl es) fin))) ∧
  (∀ (e : Entry) (d1 : Dev) (b : Batch) (dl : Ns) (es : List TEnt) (fin : Nat),
     let x := s.ctx
     let d := s.view
     e.reservedSet [(16, 8)] [(176, 16)] = false →
     let g := d.reqImg x (.hp e)
     d.tailForm x g = .good d1 b dl es →
     (d1.tailPlan x g b dl es).room = true →
     (d1.tailPlan x g b dl es).verdict = .pass fin →
     exec (.tailReq (.hp e)) s =
       .next (s.commit (d1.takeTail x g dl es (d1.tailPlan x g b dl es) fin))) ∧
  (∀ (port from_ len val : Nat) (d1 : Dev) (b : Batch) (dl : Ns) (es : List TEnt) (fin : Nat),
     let x := s.ctx
     let d := s.view
     let g := d.reqImg x (.cvf port from_ len val)
     d.tailForm x g = .good d1 b dl es →
     (d1.tailPlan x g b dl es).room = true →
     (d1.tailPlan x g b dl es).verdict = .pass fin →
     exec (.tailReq (.cvf port from_ len val)) s =
       .next (s.commit (d1.takeTail x g dl es (d1.tailPlan x g b dl es) fin))) ∧
  (∀ (tail : Bool) (e : Entry),
     let x := s.ctx
     let d := s.view
     e.reservedSet [(16, 8)] [(176, 16)] = false →
     let g := d.reqImg x (.hp e)
     exec (.decisionTimeout tail (.hp e)) s =
       .next (s.commit (d.sendAdmit x g.path ⟨g.rd 0 4, .REFUSED_CAPACITY, if tail then 2 else 1, g.rd 6 2, d.now, 0, 1024, 0xFFFFFFFF⟩))) ∧
  (∀ (tail : Bool) (port from_ len val : Nat),
     let x := s.ctx
     let d := s.view
     let g := d.reqImg x (.cvf port from_ len val)
     exec (.decisionTimeout tail (.cvf port from_ len val)) s =
       .next (s.commit (d.sendAdmit x g.path ⟨g.rd 0 4, .REFUSED_CAPACITY, if tail then 2 else 1, g.rd 6 2, d.now, 0, 1024, 0xFFFFFFFF⟩))) ∧
  (∀ (batch : Nat) (b : Batch),
     let x := s.ctx
     let d := s.view
     d.batch batch = some b →
     b.winEnd + d.fld Reg.sessBatchTo 0 16 * 1000000 ≤ d.now →
     exec (.batchTimeout batch) s =
       .next (s.commit ((Dev.closeMembers x false b.members d).1.settleAll x)))

/-- RING_OPEN, RING_BIND, RING_CLOSE, HELLO and HELLO_ACK, the formation timeout and a member's rates. What reaches a ring's head or member during a step. Each clause names the state and operands on which the command completes, and the next state. -/
def Obligations.RingsFormAndStep : Prop :=
  ∀ s : State,
  (∀ (e : Entry),
     let x := s.ctx
     let d := s.view
     let c := e.cmd
     e.reservedSet [(16, 5), (24, 16)] [(272, 48)] = false →
     firstFail (d.ringOpenChecks x e) = none →
     exec (.ringOpen e) s =
       .next (s.commit (d.ringOpen x e c))) ∧
  (∀ (e : Entry) (ds : Desc) (r : Ring),
     let x := s.ctx
     let d := s.view
     let c := e.cmd
     e.reservedSet [(16, 5), (24, 4)] [] = false →
     let i := handleIdx (e.f 16 4)
     (d.readDesc x i).2 = some ds →
     ds.gen % 1024 = handleGen (e.f 16 4) →
     let d1 := (d.readDesc x i).1
     ds.state = .idle →
     (d1.attn.rings.any fun r => r.bindings.any fun b => b.rsn == e.f 24 4 || b.idx == i) = false →
     d1.ringAt (e.f 20 1) = some r →
     r.state = .up →
     r.pos = 0 ∨ ds.prefixId = 0xFFFFFFFF →
     r.bindings.length < 131071 →
     exec (.ringBind e) s =
       .next (s.commit ((d1.updRing (e.f 20 1) fun r => { r with bindings := r.bindings ++ [(⟨e.f 24 4, i, ds.commitLen, ds.stepSeq⟩ : RingBinding)] }).finish x c .DONE 0))) ∧
  (∀ (e : Entry) (r : Ring),
     let x := s.ctx
     let d := s.view
     let c := e.cmd
     e.reservedSet [(16, 2)] [(137, 7)] = false →
     d.ringAt (e.f 16 1) = some r →
     r.bindings = [] ∨ bit (e.f 17 1) 0 = true →
     exec (.ringClose e) s =
       .next (s.commit (((d.stopRing x r).finish? x r.cmd .FAULT_TIMEOUT 0).finish x c .DONE 0))) ∧
  (∀ (ring : Nat) (h : Hello) (r : Ring),
     let d := s.view
     d.ringAt ring = some r →
     r.pos = 0 →
     r.state = .forming →
     h.tag = r.tag →
     h.seg = r.seg →
     h.pos ≠ 0 →
     h.pos < r.m →
     let hs := r.hellos.filter (fun o => o.pos != h.pos) ++ [h]
     let d1 := d.updRing ring fun r => { r with hellos := hs }
     hs.length < r.m - 1 →
     exec (.hello ring h) s =
       .next (s.commit (d1))) ∧
  (∀ (ring : Nat) (h : Hello) (r : Ring),
     let x := s.ctx
     let d := s.view
     d.ringAt ring = some r →
     r.pos = 0 →
     r.state = .forming →
     h.tag = r.tag →
     h.seg = r.seg →
     h.pos ≠ 0 →
     h.pos < r.m →
     let hs := r.hellos.filter (fun o => o.pos != h.pos) ++ [h]
     let d1 := d.updRing ring fun r => { r with hellos := hs }
     r.m - 1 ≤ hs.length →
     r.reopening = false →
     exec (.hello ring h) s =
       .next (s.commit ((d1.ringUp x r).ringRecord r "HELLO_ACK" [r.tag]))) ∧
  (∀ (ring : Nat) (r : Ring),
     let x := s.ctx
     let d := s.view
     d.ringAt ring = some r →
     r.pos ≠ 0 →
     r.state = .forming →
     let d1 := d.ringUp x r
     exec (.helloAck ring) s =
       .next (s.commit (if r.pos + 1 < r.m then d1.ringRecord r "HELLO_ACK" [r.tag] else d1))) ∧
  (∀ (ring : Nat) (r : Ring),
     let x := s.ctx
     let d := s.view
     d.ringAt ring = some r →
     r.state = .forming →
     r.since + d.fld Reg.sessOrbitTo 0 16 * 1000000 ≤ d.now →
     let d1 : Dev := if r.reopening then d.updRing ring fun r => { r with state := .broken, cmd := none, reopening := false } else { d with attn := { d.attn with rings := d.attn.rings.filter fun q => q.id != ring } }
     exec (.ringFormTimeout ring) s =
       .next (s.commit (d1.finish? x r.cmd .FAULT_TIMEOUT 0))) ∧
  (∀ (ring pos : Nat) (rates : List (Res × Nat)),
     let d := s.view
     exec (.ringRates ring pos rates) s =
       .next (s.commit (d.updRing ring fun r => if r.pos == 0 then { r with hellos := r.hellos.map fun h => if h.pos == pos then { h with rates := rates } else h } else r))) ∧
  (∀ (ring : Nat) (leg : RingLeg) (r : Ring),
     let x := s.ctx
     let d := s.view
     d.ringAt ring = some r →
     r.pos ≠ 0 →
     r.state = .up →
     exec (.ringLeg ring leg) s =
       .next (s.commit (d.ringLeg x r leg))) ∧
  (∀ (ring leg : Nat) (ps : List RunEntry) (r : Ring) (q : LayerReq),
     let x := s.ctx
     let d := s.view
     d.ringAt ring = some r →
     d.legReq r leg = some q →
     q.running = none →
     q.kvTop = none →
     let d1 := d.updReq q.id fun q => { q with running := some ps }
     r.pos = 0 →
     exec (.runningPartial ring leg ps) s =
       .next (s.commit ((d1.rowsOnRing q ((ps.filter (·.rowsWritten)).map (·.rsn))).settleEntries x q))) ∧
  (∀ (ring leg : Nat) (ps : List RunEntry) (r : Ring) (q : LayerReq),
     let d := s.view
     d.ringAt ring = some r →
     d.legReq r leg = some q →
     q.running = none →
     q.kvTop = none →
     let d1 := d.updReq q.id fun q => { q with running := some ps }
     r.pos ≠ 0 →
     exec (.runningPartial ring leg ps) s =
       .next (s.commit (d1.settleLeg { q with running := some ps }))) ∧
  (∀ (ring leg top : Nat) (tile : Tile) (r : Ring) (q : LayerReq),
     let x := s.ctx
     let d := s.view
     d.ringAt ring = some r →
     r.pos ≠ 0 →
     d.legReq r leg = some q →
     q.kvTop = some top →
     exec (.kvTile ring leg tile) s =
       .next (s.commit (d.kvTile x r q top tile))) ∧
  (∀ (ring leg pos : Nat) (outs : List MemberOut) (r : Ring) (q : LayerReq),
     let x := s.ctx
     let d := s.view
     d.ringAt ring = some r →
     r.pos = 0 →
     d.legReq r leg = some q →
     q.kvTop.isSome = true →
     pos ≠ 0 →
     pos < r.m →
     (q.memberOuts.any fun m => m.1 == pos) = false →
     let d1 := d.updReq q.id fun q => { q with memberOuts := q.memberOuts ++ [(pos, outs)] }
     exec (.memberOutputs ring leg pos outs) s =
       .next (s.commit ((d1.rowsOnRing q ((outs.filter (·.rowsWritten)).map (·.rsn))).settleEntries x q))) ∧
  (∀ (ring rsn stepSeq rows : Nat) (commit : Bool) (r : Ring) (b : RingBinding),
     let x := s.ctx
     let d := s.view
     d.ringAt ring = some r →
     r.pos ≠ 0 →
     (r.bindings.find? fun b => b.rsn == rsn && (d.desc b.idx).state == .hot) = some b →
     let d1 := d.ringBoth r "STEP" [rsn, stepSeq, ofB commit, rows]
     commit = true →
     b.stepSeq = stepSeq →
     exec (.stepRecord ring rsn stepSeq commit rows) s =
       .next (s.commit (d1.commitLeg x b.idx rows))) ∧
  (∀ (ring rsn stepSeq rows : Nat) (commit : Bool) (r : Ring) (b : RingBinding),
     let x := s.ctx
     let d := s.view
     d.ringAt ring = some r →
     r.pos ≠ 0 →
     (r.bindings.find? fun b => b.rsn == rsn && (d.desc b.idx).state == .hot) = some b →
     let d1 := d.ringBoth r "STEP" [rsn, stepSeq, ofB commit, rows]
     commit = false ∨ b.stepSeq ≠ stepSeq →
     exec (.stepRecord ring rsn stepSeq commit rows) s =
       .next (s.commit (d1.rollbackLeg x b.idx))) ∧
  (∀ (ring rsn : Nat) (r : Ring),
     let x := s.ctx
     let d := s.view
     d.ringAt ring = some r →
     r.pos = 0 →
     exec (.cancelRecord ring rsn) s =
       .next (s.commit (d.endCancel x ring rsn))) ∧
  (∀ (ring rsn : Nat) (r : Ring) (b : RingBinding),
     let x := s.ctx
     let d := s.view
     d.ringAt ring = some r →
     r.pos ≠ 0 →
     let d1 := d.ringCancel r rsn
     (r.bindings.find? fun b => b.rsn == rsn) = some b →
     (d1.desc b.idx).state = .hot →
     exec (.cancelRecord ring rsn) s =
       .next (s.commit (d1.rollbackLeg x b.idx))) ∧
  (∀ (ring rsn : Nat),
     let x := s.ctx
     let d := s.view
     (d.attn.cancels.any fun w => w.waits.contains (ring, rsn) && w.since + d.fld Reg.sessOrbitTo 0 16 * 1000000 ≤ d.now) = true →
     exec (.cancelAckTimeout ring rsn) s =
       .next (s.commit (d.endCancel x ring rsn)))

/-- A lost member, a break, the response deadline, and the records that carry parks, reports, checkpoints and moves around a ring. Each clause names the state and operands on which the command completes, and the next state. -/
def Obligations.RingFailuresAndRecordsComplete : Prop :=
  ∀ s : State,
  (∀ (ring leg : Nat) (r : Ring) (q : LayerReq),
     let x := s.ctx
     let d := s.view
     d.ringAt ring = some r →
     d.legReq r leg = some q →
     r.state = .up →
     q.running = none →
     q.kvTop = none →
     r.pos ≠ 1 →
     (if r.pos = 0 then q.deadline - 6000 else q.deadline) ≤ d.now →
     exec (.ringPartialTimeout ring leg) s =
       .next (s.commit (d.memberLost x r (if r.pos == 0 then r.m - 1 else r.pos - 1)))) ∧
  (∀ (ring lost : Nat) (r : Ring),
     let x := s.ctx
     let d := s.view
     d.ringAt ring = some r →
     r.state = .up →
     exec (.ringBreak ring lost) s =
       .next (s.commit (d.breakRing x ring lost))) ∧
  (∀ (ring leg : Nat) (r : Ring) (q : LayerReq),
     let x := s.ctx
     let d := s.view
     d.ringAt ring = some r →
     d.legReq r leg = some q →
     q.deadline ≤ d.now →
     r.pos = 0 →
     exec (.ringResponseDeadline ring leg) s =
       .next (s.commit ((d.lackMember x q).settleAll x))) ∧
  (∀ (ring leg : Nat) (r : Ring) (q : LayerReq),
     let x := s.ctx
     let d := s.view
     d.ringAt ring = some r →
     d.legReq r leg = some q →
     q.deadline ≤ d.now →
     r.pos ≠ 0 →
     let late := (q.entries.zipIdx.filter fun e => e.1.status.isNone && !(d.legReady q e.2 e.1)).map (·.2)
     let fix := fun (e : AttnEntry × Nat) => if late.contains e.2 then { e.1 with status := some Status.FAULT_UNIT } else e.1
     let d1 := d.updReq q.id fun q => { q with entries := q.entries.zipIdx.map fix, tiles := q.tiles.filter fun t => !(late.contains t.entry) }
     exec (.ringResponseDeadline ring leg) s =
       .next (s.commit (d1.settleLayers x))) ∧
  (∀ (ring rsn n store last : Nat) (image : Bool) (r : Ring) (b : RingBinding),
     let x := s.ctx
     let d := s.view
     d.ringAt ring = some r →
     r.pos ≠ 0 →
     let d1 := if r.pos + 1 < r.m then d.ringRecord r (RingTask.words (.park image 1 last n store)).1 (rsn :: (RingTask.words (.park image 1 last n store)).2) else d
     (r.bindings.find? fun b => b.rsn == rsn) = some b →
     (d1.desc b.idx).state = .idle →
     let d2 := d1.dropUndo x b.idx
     d2.occupied b.idx = false →
     firstFail (d2.tileMode x image) = none →
     d2.inPlaceOk x = true →
     exec (.ringParkRecord ring rsn (.park image 1 last n store)) s =
       .next (s.commit (d2.parkInPlace x b.idx (some ring) none image))) ∧
  (∀ (ring rsn : Nat) (r : Ring) (b : RingBinding),
     let x := s.ctx
     let d := s.view
     d.ringAt ring = some r →
     r.pos ≠ 0 →
     let d1 := if r.pos + 1 < r.m then d.ringRecord r (RingTask.words .revive).1 (rsn :: (RingTask.words .revive).2) else d
     (r.bindings.find? fun b => b.rsn == rsn) = some b →
     (d1.desc b.idx).state = .parked →
     exec (.ringParkRecord ring rsn .revive) s =
       .next (s.commit (d1.startRevive x b.idx (some ring) none))) ∧
  (∀ (ring rsn : Nat) (r : Ring) (b : RingBinding),
     let x := s.ctx
     let d := s.view
     d.ringAt ring = some r →
     r.pos ≠ 0 →
     let d1 := if r.pos + 1 < r.m then d.ringRecord r (RingTask.words .close).1 (rsn :: (RingTask.words .close).2) else d
     (r.bindings.find? fun b => b.rsn == rsn) = some b →
     let d2 := if (d1.desc b.idx).state = .hot then d1.rollbackLeg x b.idx else d1
     exec (.ringParkRecord ring rsn .close) s =
       .next (s.commit (((d2.dropUndo x b.idx).dropDemotion x b.idx).endSession x b.idx))) ∧
  (∀ (ring rsn kind : Nat) (who : List Nat) (r : Ring) (b : RingBinding),
     let x := s.ctx
     let d := s.view
     d.ringAt ring = some r →
     r.pos ≠ 0 →
     let d1 := if r.pos + 1 < r.m then d.ringRecord r (RingTask.words (.undo kind who)).1 (rsn :: (RingTask.words (.undo kind who)).2) else d
     (r.bindings.find? fun b => b.rsn == rsn) = some b →
     who.contains r.pos = true →
     exec (.ringParkRecord ring rsn (.undo kind who)) s =
       .next (s.commit (d1.undoPart x b.idx kind))) ∧
  (∀ (ring rsn pos : Nat) (status : Status) (r : Ring),
     let x := s.ctx
     let d := s.view
     d.ringAt ring = some r →
     r.pos = 0 →
     pos ≠ 0 →
     pos < r.m →
     (r.ops.any fun o => o.rsn == rsn && o.kind != 3) = true →
     let add := fun (o : RingOp) => if o.reports.any fun p => p.1 == pos then o else { o with reports := o.reports ++ [(pos, status)] }
     exec (.ringMemberReport ring rsn pos status) s =
       .next (s.commit ((d.updRing ring fun r => { r with ops := replaceFirst (fun (o : RingOp) => o.rsn == rsn && o.kind != 3) add r.ops }).settleRing x ring))) ∧
  (∀ (ring rsn epoch stepSeq : Nat) (r : Ring) (b : RingBinding),
     let x := s.ctx
     let d := s.view
     d.ringAt ring = some r →
     r.pos ≠ 0 →
     let d1 := if r.pos + 1 < r.m then d.ringRecord r "CKPT" [rsn, epoch, stepSeq] else d
     (r.bindings.find? fun b => b.rsn == rsn) = some b →
     d1.ckpt.store.isSome = true →
     (d1.desc b.idx).stepSeq = stepSeq →
     d1.ckpt.run = none →
     exec (.ckptRecord ring rsn epoch stepSeq) s =
       .next (s.commit ((d1.startRun x (u64 (d1.ckpt.lastUsed + 1)) 0 false none (some ⟨b.idx, false, false, some (epoch, stepSeq)⟩)).settleRun x))) ∧
  (∀ (ring rsn epoch stepSeq : Nat) (r : Ring) (b : RingBinding) (q : CkRun),
     let d := s.view
     d.ringAt ring = some r →
     r.pos ≠ 0 →
     let d1 := if r.pos + 1 < r.m then d.ringRecord r "CKPT" [rsn, epoch, stepSeq] else d
     (r.bindings.find? fun b => b.rsn == rsn) = some b →
     d1.ckpt.store.isSome = true →
     (d1.desc b.idx).stepSeq = stepSeq →
     d1.ckpt.run = some q →
     q.catalogues = [] →
     exec (.ckptRecord ring rsn epoch stepSeq) s =
       .next (s.commit (d1.updRun fun k => { k with dirty := (⟨b.idx, false, false, some (epoch, stepSeq)⟩ : DirtyOwner) :: (q.dirty.filter fun p => p.pfx || p.owner != b.idx) }))) ∧
  (∀ (ring rsn ringB tag : Nat) (dests : List Nat) (image : Bool) (r : Ring) (b : RingBinding),
     let x := s.ctx
     let d := s.view
     d.ringAt ring = some r →
     r.pos ≠ 0 →
     let d1 := if r.pos + 1 < r.m then d.ringRecord r "MOVE" ([rsn, ringB, tag, ofB image] ++ dests) else d
     (r.bindings.find? fun b => b.rsn == rsn) = some b →
     let whole := image || !x.fuses.part.tileMove
     d1.moveRecordFault x b.idx whole = none →
     exec (.moveRecord ring rsn ringB tag ⟨dests, image⟩) s =
       .next (s.commit (((d1.dropUndo x b.idx).dropDemotion x b.idx).startMove x b.idx none tag (getAt 0 r.pos dests) whole false (some ring)))) ∧
  (∀ (ring rsn pos : Nat) (r : Ring),
     let x := s.ctx
     let d := s.view
     d.ringAt ring = some r →
     r.pos = 0 →
     pos ≠ 0 →
     pos < r.m →
     exec (.moveReady ring rsn pos) s =
       .next (s.commit (d.ringReady x r rsn pos))) ∧
  (∀ (ring rsn : Nat) (r : Ring),
     let x := s.ctx
     let d := s.view
     d.ringAt ring = some r →
     r.pos ≠ 0 →
     let d1 := if r.pos + 1 < r.m then d.ringRecord r "COMMIT" [rsn] else d
     exec (.moveCommit ring rsn) s =
       .next (s.commit (d1.ringCommitMove x ring rsn)))

/-- VARIANT_LOAD, VARIANT_UNLOAD, GRAMMAR_LOAD, GRAMMAR_UNLOAD and TOPK_ROW. Each clause names the state and operands on which the command completes, and the next state. -/
def Obligations.TailCommandsComplete : Prop :=
  ∀ s : State,
  (∀ (e : Entry) (a : Nat),
     let x := s.ctx
     let d := s.view
     let c := e.cmd
     e.reservedSet [(16, 2), (24, 16)] [(240, 16)] = false →
     (([(e.f 24 6, e.f 32 8)]).find? fun b => !(mappedRange x.fuses.part d b.1 b.2)) = none →
     d.mediaBad (e.f 24 6) (e.f 32 8) = false →
     let d1 := d.eccRead (e.f 24 6) (e.f 32 8) true
     e.f 16 2 ≠ 0 →
     e.f 16 2 ≠ 0xFFFF →
     imageOf d1.tail.variants (e.f 16 2) = none →
     d1.variantOk x (e.f 24 6) (e.f 32 8) = true →
     d1.variantOdd x (e.f 24 6) = false →
     d1.shadowPlace (e.f 32 8) = some a →
     d1.tail.variants.length < 64 →
     cdiv (e.f 32 8) 65536 ≤ d1.storeFree →
     let d2 := ({ d1 with free := d1.free + 1 } : Dev).st x a (e.f 32 8) (d1.ld x (e.f 24 6) (e.f 32 8))
     exec (.variantLoad e) s =
       .next (s.commit ((({ d2 with tail := { d2.tail with variants := d2.tail.variants ++ [⟨e.f 16 2, a, e.f 32 8, cdiv (e.f 32 8) 65536⟩] } } : Dev).measureAt x 4 c.opcode (e.f 16 2) (e.f 24 6) (e.f 32 8)).finish x c .DONE 0))) ∧
  (∀ (e : Entry),
     let x := s.ctx
     let d := s.view
     let c := e.cmd
     e.reservedSet [(16, 2)] [] = false →
     (imageOf d.tail.variants (e.f 16 2)).isSome = true →
     (d.sess.table.any fun p => p.2.state != .void && p.2.variant == e.f 16 2) = false →
     exec (.variantUnload e) s =
       .next (s.commit (({ d with tail := { d.tail with variants := d.tail.variants.filter fun g => g.id != e.f 16 2 } } : Dev).finish x c .DONE 0))) ∧
  (∀ (e : Entry) (a : Nat),
     let x := s.ctx
     let d := s.view
     let c := e.cmd
     e.reservedSet [(16, 2), (24, 16)] [(240, 16)] = false →
     (([(e.f 24 6, e.f 32 8)]).find? fun b => !(mappedRange x.fuses.part d b.1 b.2)) = none →
     d.mediaBad (e.f 24 6) (e.f 32 8) = false →
     let d1 := d.eccRead (e.f 24 6) (e.f 32 8) true
     e.f 16 2 ≠ 0xFFFF →
     imageOf d1.tail.grammars (e.f 16 2) = none →
     d1.grammarOk x (e.f 24 6) = true →
     d1.grammarOdd x (e.f 24 6) (e.f 32 8) = false →
     d1.shadowPlace (e.f 32 8) = some a →
     d1.tail.grammars.length < 1024 →
     cdiv (e.f 32 8) 65536 ≤ d1.storeFree →
     let d2 := ({ d1 with free := d1.free + 1 } : Dev).st x a (e.f 32 8) (d1.ld x (e.f 24 6) (e.f 32 8))
     exec (.grammarLoad e) s =
       .next (s.commit ((({ d2 with tail := { d2.tail with grammars := d2.tail.grammars ++ [⟨e.f 16 2, a, e.f 32 8, cdiv (e.f 32 8) 65536⟩] } } : Dev).measureAt x 4 c.opcode (e.f 16 2) (e.f 24 6) (e.f 32 8)).finish x c .DONE 0))) ∧
  (∀ (e : Entry),
     let x := s.ctx
     let d := s.view
     let c := e.cmd
     e.reservedSet [(16, 2)] [] = false →
     (imageOf d.tail.grammars (e.f 16 2)).isSome = true →
     (d.sess.table.any fun p => p.2.state != .void && p.2.grammar == e.f 16 2) = false →
     exec (.grammarUnload e) s =
       .next (s.commit (({ d with tail := { d.tail with grammars := d.tail.grammars.filter (fun g => g.id != e.f 16 2), masks := d.tail.masks.filter (fun k => k.grammar != e.f 16 2), prefetch := d.tail.prefetch.filter fun k => k.grammar != e.f 16 2 } } : Dev).finish x c .DONE 0))) ∧
  (∀ (e : Entry),
     let x := s.ctx
     let d := s.view
     let c := e.cmd
     e.reservedSet [(16, 1), (20, 20), (40, 2)] [(240, 16), (304, 16)] = false →
     let f := topkFmt (e.f 16 1)
     let n := e.f 20 4
     let k := e.f 40 2
     e.f 16 1 ≤ 2 →
     n ≠ 0 →
     n ≤ 1048576 →
     k ≠ 0 →
     k ≤ 4096 →
     (d.tail.pipes.any (·.up)) = true →
     (([(e.f 24 6, n * f.2), (e.f 32 6, 8 * k)]).find? fun b => !(mappedRange x.fuses.part d b.1 b.2)) = none →
     d.mediaBad (e.f 24 6) (n * f.2) = false →
     let d1 := d.eccRead (e.f 24 6) (n * f.2) true
     let vals := (elemsOf f (d1.ld x (e.f 24 6) (n * f.2)) n).map intakeVal
     let top := rankRow vals k
     let nValid := (vals.filter (·.isSome)).length
     let d2 := d1.stBytes x (e.f 32 6) ((top ++ List.replicate (k - top.length) (0xFFFFFFFF, 0xFF800000)).flatMap fun (r : Nat × Nat) => leBytes r.1 4 ++ leBytes r.2 4)
     let d3 := (if vals.any (·.isNone) then d2.bump Reg.tailNonfinite 1 else d2).chargeSome x (d2.sqComp c) 2
     exec (.topkRow e) s =
       .next (s.commit (if nValid < k then (d3.bump Reg.tailPartialCnt 1).finish x c .DONE_PARTIAL nValid else d3.finish x c .DONE nValid)))

/-- TOKENIZER_LOAD, TEXT_IN_OPEN, TEXT_IN_CLOSE, TEXT_TOKENISE, TEXT_CTRL_INSERT, TEXT_CHAN_SET and TEXT_OUT_BIND. Each clause names the state and operands on which the command completes, and the next state. -/
def Obligations.TextCommandsComplete : Prop :=
  ∀ s : State,
  (∀ (e : Entry),
     let x := s.ctx
     let d := s.view
     let c := e.cmd
     e.reservedSet [(24, 16)] [] = false →
     let src := e.f 24 8
     let n := e.f 32 8
     d.text.bindings = [] →
     d.text.streams = [] →
     (([(src, n)]).find? fun b => !(mappedRange x.fuses.part d b.1 b.2)) = none →
     d.mediaBad (src) (n) = false →
     let d1 := d.eccRead (src) (n) true
     d1.tokenizerOk x src = true →
     let room := (List.range 4).foldl (fun m q => min m (d1.fld (Reg.qdSramPartA q) 16 8)) 255 * 0x100000
     n ≤ room →
     n ≤ 0x4000000 →
     d1.tokenizerOdd x src n = false →
     let d2 := d1.measureAt x 3 c.opcode 0 src n
     let d3 := d2.st x d2.textArea n (d2.ld x src n)
     exec (.tokenizerLoad e) s =
       .next (s.commit (({ d3 with text := { d3.text with tokenizer := some ⟨d3.textArea, n, (List.range 4).filter fun q => d3.quadUp q⟩ } } : Dev).finish x c .DONE (d1.tokHead x src).maxLen))) ∧
  (∀ (e : Entry),
     let x := s.ctx
     let d := s.view
     let c := e.cmd
     e.reservedSet [(16, 2)] [] = false →
     d.text.tokenizer.isSome = true →
     tblGet (e.f 16 2) d.text.streams = none →
     exec (.textInOpen e) s =
       .next (s.commit ((d.putStream (e.f 16 2) ⟨[], 0⟩).finish x c .DONE 0))) ∧
  (∀ (e : Entry) (z : Tokenizer) (st : Stream),
     let x := s.ctx
     let d := s.view
     let c := e.cmd
     e.reservedSet [(16, 2)] [] = false →
     d.text.tokenizer = some z →
     tblGet (e.f 16 2) d.text.streams = some st →
     exec (.textInClose e) s =
       .next (s.commit (({ d with text := { d.text with streams := tblDel (e.f 16 2) d.text.streams } } : Dev).finish x c .DONE st.carry.length))) ∧
  (∀ (e : Entry) (z : Tokenizer) (st : Stream),
     let x := s.ctx
     let d := s.view
     let c := e.cmd
     e.reservedSet [(16, 3), (20, 24), (48, 8)] [(145, 7), (240, 16), (304, 16), (432, 16)] = false →
     d.text.tokenizer = some z →
     tblGet (e.f 16 2) d.text.streams = some st →
     e.f 20 4 ≤ 1048576 →
     1088 ≤ e.f 40 4 →
     d.textOnline = true →
     (([(e.f 24 6, e.f 20 4)]).find? fun b => !(mappedRange x.fuses.part d b.1 b.2)) = none →
     d.mediaBad (e.f 24 6) (e.f 20 4) = false →
     let d1 := d.eccRead (e.f 24 6) (e.f 20 4) true
     let n := e.f 20 4
     let bs := st.carry ++ d1.ldBytes x (e.f 24 6) n
     let h := d1.tokHead x z.addr
     let run := (d1.scanOf x z.addr h (bit (e.f 18 1) 0)).run (bs.length + 1) bs ⟨[], [], st.dfa, st.dfa⟩
     let fit := fitPieces (d1.pieceWords x z.addr h) (e.f 40 4) run.1.out.reverse [] []
     let used := sumOf (fit.2.1.map (·.bytes.length))
     let new : Stream := match fit.2.2 with | [] => ⟨run.1.cur.reverse ++ run.2, if run.1.cur.isEmpty then run.1.dfa else run.1.curDfa⟩ | p :: _ => ⟨(bs.take st.carry.length).drop used, p.dfa⟩
     let res := packFields [(0, 4, fit.1.length), (4, 4, match fit.2.2 with | [] => n | _ => used - st.carry.length), (8, 2, new.carry.length), (10, 2, (fit.2.1.filter (·.first)).length), (12, 4, (fit.2.1.filter (·.invalid)).length)]
     (([(e.f 32 6, 4 * fit.1.length), (e.f 48 6, 16)]).find? fun b => !(mappedRange x.fuses.part d1 b.1 b.2)) = none →
     let d2 := (d1.stBytes x (e.f 32 6) (fit.1.flatMap fun w => leBytes w 4)).st x (e.f 48 6) 16 res
     let d3 := ((d2.countPieces fit.2.1).putStream (e.f 16 2) new).chargeSome x (d2.sqComp c) 3
     exec (.textTokenise e) s =
       .next (s.commit (d3.finish x c (if fit.2.2.isEmpty then .DONE else .DONE_PARTIAL) fit.1.length))) ∧
  (∀ (e : Entry) (z : Tokenizer) (st : Stream),
     let x := s.ctx
     let d := s.view
     let c := e.cmd
     e.reservedSet [(16, 2), (20, 4), (32, 12)] [(304, 16)] = false →
     d.text.tokenizer = some z →
     tblGet (e.f 16 2) d.text.streams = some st →
     let h := d.tokHead x z.addr
     e.f 20 4 < h.vocab →
     (d.tokEntry x z.addr h (e.f 20 4)).2.2 = true →
     st.carry.length + 1 ≤ e.f 40 4 →
     d.textOnline = true →
     let run := (d.scanOf x z.addr h true).run (st.carry.length + 1) st.carry ⟨[], [], st.dfa, st.dfa⟩
     let ps := run.1.out.reverse
     let ws := (ps.flatMap fun p => d.pieceWords x z.addr h p) ++ [e.f 20 4 + 2 ^ 31]
     (([(e.f 32 6, 4 * ws.length)]).find? fun b => !(mappedRange x.fuses.part d b.1 b.2)) = none →
     let d1 := ((d.stBytes x (e.f 32 6) (ws.flatMap fun w => leBytes w 4)).countPieces ps).bump Reg.textCtrlIns 1
     exec (.textCtrlInsert e) s =
       .next (s.commit (((d1.putStream (e.f 16 2) ⟨[], run.1.dfa⟩).chargeSome x (d1.sqComp c) 3).finish x c .DONE ws.length))) ∧
  (∀ (e : Entry),
     let x := s.ctx
     let d := s.view
     let c := e.cmd
     e.reservedSet [(16, 5), (24, 12)] (if e.f 17 1 == 2 then [(208, 48)] else []) = false →
     let n := e.f 16 1
     d.text.bindings.any (fun b => b.channel == n) = false →
     chanFieldsOk e = true →
     let kind := match e.f 17 1 with | 0 => ChanKind.off | 1 => .hp | _ => .cvf
     ((if kind == .hp then [(e.f 24 8, 2 ^ e.f 20 1)] else []).find? fun b => !(mappedRange x.fuses.part d b.1 b.2)) = none →
     exec (.textChanSet e) s =
       .next (s.commit (((d.setChannel n { d.channel n with kind := kind, vector := e.f 18 2, ringLog2 := e.f 20 1, addr := e.f 24 8, tag := e.f 32 4, wr := 0 }).lateCancels x n).finish x c .DONE 0))) ∧
  (∀ (e : Entry) (ds : Desc),
     let x := s.ctx
     let d := s.view
     let c := e.cmd
     e.reservedSet [(16, 6)] [(171, 5)] = false →
     let i := handleIdx (e.f 16 4)
     (d.readDesc x i).2 = some ds →
     ds.gen % 1024 = handleGen (e.f 16 4) →
     let d1 := (d.readDesc x i).1
     ds.state = .idle ∨ ds.state = .parked →
     d1.memberBound i = false →
     d1.text.tokenizer.isSome = true →
     let rest := d1.text.bindings.filter fun b => b.idx != i
     bit (e.f 21 1) 2 = true →
     exec (.textOutBind e) s =
       .next (s.commit (({ d1 with text := { d1.text with bindings := rest } } : Dev).finish x c .DONE 0))) ∧
  (∀ (e : Entry) (ds : Desc),
     let x := s.ctx
     let d := s.view
     let c := e.cmd
     e.reservedSet [(16, 6)] [(171, 5)] = false →
     let i := handleIdx (e.f 16 4)
     (d.readDesc x i).2 = some ds →
     ds.gen % 1024 = handleGen (e.f 16 4) →
     let d1 := (d.readDesc x i).1
     ds.state = .idle ∨ ds.state = .parked →
     d1.memberBound i = false →
     d1.text.tokenizer.isSome = true →
     let rest := d1.text.bindings.filter fun b => b.idx != i
     bit (e.f 21 1) 2 = false →
     (d1.channel (e.f 20 1)).kind ≠ .off →
     let d2 : Dev := { d1 with text := { d1.text with bindings := rest ++ [(⟨i, e.f 20 1, bit (e.f 21 1) 0, bit (e.f 21 1) 1, 0⟩ : Binding)] } }
     exec (.textOutBind e) s =
       .next (s.commit ((if bit (e.f 21 1) 0 && ds.pendN != 0 then (d2.flushPend x i).updDesc x i fun s => { s with pendN := 0, pendBytes := 0 } else d2).finish x c .DONE 0)))

/-- RECALL_CREATE, RECALL_CENTROIDS, RECALL_DROP, RECALL_STAT, RECALL_INSERT, RECALL_DELETE, RECALL_COMPACT and RECALL_QUERY on an index in the state their rules ask for. Each clause names the state and operands on which the command completes, and the next state. -/
def Obligations.RecallCommandsComplete : Prop :=
  ∀ s : State,
  (∀ (e : Entry) (d1 : Dev) (ix : Index),
     let x := s.ctx
     let d := s.view
     let c := e.cmd
     e.reservedSet [(16, 6), (24, 12)] [(154, 6)] = false →
     firstFail (d.recallChecks (e.f 16 1)) = none →
     d.index (e.f 16 1) = none →
     createOk e = true →
     d.createIndex x e = some (d1, ix) →
     exec (.recallCreate e) s =
       .next (s.commit ((d1.putIndex x (e.f 16 1) ix).finish x c .DONE 0))) ∧
  (∀ (e : Entry) (ix : Index),
     let x := s.ctx
     let d := s.view
     let c := e.cmd
     e.reservedSet [(16, 1), (24, 8)] [(240, 16)] = false →
     let n := e.f 16 1
     firstFail (d.recallChecks n) = none →
     d.index n = some ix →
     ix.state = .building →
     (ix.structures.any fun b => d.mediaBad b.1 b.2) = false →
     let len := ix.lists * vecBytes ix.metric ix.dim
     (([(e.f 24 6, len)]).find? fun b => !(mappedRange x.fuses.part d b.1 b.2)) = none →
     d.mediaBad (e.f 24 6) (len) = false →
     let d1 := d.eccRead (e.f 24 6) (len) true
     let lacks : Bool := ix.cache && d1.centroidRoom < d1.centroidUsed n + len
     let d2 := d1.st x ix.centAddr len (d1.ld x (e.f 24 6) len)
     exec (.recallCentroids e) s =
       .next (s.commit ((d2.putIndex x n { ix with state := .ready, cache := ix.cache && !lacks }).finish x c .DONE (ofB lacks)))) ∧
  (∀ (e : Entry) (ix : Index),
     let x := s.ctx
     let d := s.view
     let c := e.cmd
     e.reservedSet [(16, 1)] [] = false →
     let n := e.f 16 1
     firstFail (d.recallChecks n) = none →
     d.index n = some ix →
     ix.state ≠ .dropping →
     let d1 := d.putIndex x n { ix with state := .dropping }
     let cmds := (d1.rcl.compactions.filter fun p => p.index == n).filterMap (·.cmd)
     let d2 : Dev := { d1 with rcl := { d1.rcl with compactions := d1.rcl.compactions.filter (fun p => p.index != n), dropWait := d1.rcl.dropWait ++ [(n, c)] } }
     exec (.recallDrop e) s =
       .next (s.commit ((cmds.foldl (fun (d : Dev) k => d.finish x k .CANCELLED 0) d2).settleDrop x n))) ∧
  (∀ (e : Entry) (ix : Index),
     let x := s.ctx
     let d := s.view
     let c := e.cmd
     e.reservedSet [(16, 1), (24, 8)] [(240, 16)] = false →
     let n := e.f 16 1
     firstFail (d.recallChecks n) = none →
     d.index n = some ix →
     (([(e.f 24 6, 256)]).find? fun b => !(mappedRange x.fuses.part d b.1 b.2)) = none →
     d.mediaBad ix.headerAddr 256 = false →
     let d1 := d.eccRead ix.headerAddr 256 true
     exec (.recallStat e) s =
       .next (s.commit ((d1.st x (e.f 24 6) 256 (d1.ld x ix.headerAddr 256)).finish x c .DONE 0))) ∧
  (∀ (e : Entry),
     let x := s.ctx
     let d := s.view
     let c := e.cmd
     e.reservedSet [(16, 1), (24, 8)] [(240, 16)] = false →
     let n := e.f 16 1
     firstFail (d.recallChecks n) = none →
     d.index n = none →
     (([(e.f 24 6, 256)]).find? fun b => !(mappedRange x.fuses.part d b.1 b.2)) = none →
     exec (.recallStat e) s =
       .next (s.commit ((d.st x (e.f 24 6) 256 freeHeader).finish x c .DONE 0))) ∧
  (∀ (e : Entry) (ix ix2 : Index) (d2 : Dev),
     let x := s.ctx
     let d := s.view
     let c := e.cmd
     e.reservedSet [(16, 1), (20, 12)] [] = false →
     let n := e.f 16 1
     firstFail (d.recallChecks n) = none →
     d.index n = some ix →
     ix.state = .ready →
     (ix.structures.any fun b => d.mediaBad b.1 b.2) = false →
     let k := e.f 20 4
     k ≠ 0 →
     k ≤ 65536 →
     (([(e.f 24 8, k * ix.rowBytes)]).find? fun b => !(mappedRange x.fuses.part d b.1 b.2)) = none →
     d.mediaBad (e.f 24 8) (k * ix.rowBytes) = false →
     let d1 := d.eccRead (e.f 24 8) (k * ix.rowBytes) true
     let rows := (List.range k).map fun j => d1.ld x (e.f 24 8 + j * ix.rowBytes) ix.rowBytes
     let charge := (1 + ofB ix.assign2) * k
     (rows.any fun v => bits v 64 32 == 0xFFFFFFFF) = false →
     ix.rowsUsed + charge ≤ ix.capacity →
     ix.side.length + k ≤ ix.sideMax →
     ix.commitSeq + 1 ≠ 0xFFFFFFFF →
     (rows.any fun v => isNan (rowScale ix.efmt ix.dim (v / 2 ^ 128)) || (rowElems ix.efmt ix.dim (v / 2 ^ 128)).any isNan) = false →
     Dev.appendSide x n rows d1 ix = some (d2, ix2) →
     exec (.recallInsert e) s =
       .next (s.commit (((d2.commitIndex x n { ix2 with rowsUsed := ix2.rowsUsed + charge }).bump Reg.recallInserted k).finish x c .DONE 0))) ∧
  (∀ (e : Entry) (ix : Index),
     let x := s.ctx
     let d := s.view
     let c := e.cmd
     e.reservedSet [(16, 1), (20, 12)] [] = false →
     let n := e.f 16 1
     firstFail (d.recallChecks n) = none →
     d.index n = some ix →
     ix.state = .ready →
     (ix.structures.any fun b => d.mediaBad b.1 b.2) = false →
     let k := e.f 20 4
     k ≠ 0 →
     k ≤ 65536 →
     (([(e.f 24 8, 4 * k)]).find? fun b => !(mappedRange x.fuses.part d b.1 b.2)) = none →
     d.mediaBad (e.f 24 8) (4 * k) = false →
     let d1 := d.eccRead (e.f 24 8) (4 * k) true
     let vids := (List.range k).map fun j => d1.ld x (e.f 24 8 + 4 * j) 4
     let seq := ix.commitSeq + 1
     let hit := (ix.rows.filter fun r => (ix.mainIds ++ ix.side).contains r.id).filter fun r => vids.contains r.vid && decide (r.insSeq < seq)
     ix.pendingNow.length + hit.length ≤ 1048576 →
     seq ≠ 0xFFFFFFFF →
     exec (.recallDelete e) s =
       .next (s.commit (((d1.commitIndex x n { ix with pending := ix.pending ++ hit.map fun r => (⟨r.id, seq⟩ : PendDel) }).bump Reg.recallDeleted hit.length).finish x c .DONE (vids.filter fun v => !(hit.any fun r => r.vid == v)).length))) ∧
  (∀ (e : Entry) (ix : Index),
     let d := s.view
     let c := e.cmd
     e.reservedSet [(16, 1)] [] = false →
     let n := e.f 16 1
     firstFail (d.recallChecks n) = none →
     d.index n = some ix →
     ix.state = .ready →
     (ix.structures.any fun b => d.mediaBad b.1 b.2) = false →
     d.rclWorks = true →
     exec (.recallCompact e) s =
       .next (s.commit ({ d with rcl := { d.rcl with compactions := d.rcl.compactions ++ [(⟨n, false, [], [], some c⟩ : Compaction)] } }))) ∧
  (∀ (e : Entry) (ix : Index) (qe : Nat),
     let x := s.ctx
     let d := s.view
     e.reservedSet [(16, 1), (18, 2), (24, 8)] [(240, 16)] = false →
     let n := e.f 16 1
     let count := e.f 18 2
     let img := fun o n => d.ld x (e.f 24 6 + o) n
     d.domainUp .rcl = true →
     d.index n = some ix →
     ix.state = .ready →
     count ≠ 0 →
     count ≤ 64 →
     (ix.structures.any fun b => d.mediaBad b.1 b.2) = false →
     d.qesUp[Config.placeHint d.free % max 1 d.qesUp.length]? = some qe →
     let qs := (List.range count).map fun k => readQuery img ix k
     let bufs := [(e.f 24 6, count * queryBlock ix)]
     ((bufs ++ qs.map fun (q : Query) => (q.resAddr, 64 + 16 * (if q.refused ix then 0 else q.k))).find? fun b => !(mappedRange x.fuses.part d b.1 b.2)) = none →
     (bufs.any fun (b : Nat × Nat) => d.mediaBad b.1 b.2) = false →
     exec (.recallQuery (.hp e)) s =
       .next (s.commit (d.runQuery x (.hp e.cmd) n ix qe qs))) ∧
  (∀ (port from_ len val : Nat) (ix : Index) (qe : Nat),
     let x := s.ctx
     let d := s.view
     x.fuses.part.hasRecall = true →
     let n := bits val 0 8
     let count := bits val 8 16
     let img := fun o n => bits val (8 * (o + 4)) (8 * n)
     d.domainUp .rcl = true →
     d.index n = some ix →
     ix.state = .ready →
     count ≠ 0 →
     count ≤ 64 →
     (ix.structures.any fun b => d.mediaBad b.1 b.2) = false →
     d.qesUp[Config.placeHint d.free % max 1 d.qesUp.length]? = some qe →
     let qs := (List.range count).map fun k => readQuery img ix k
     exec (.recallQuery (.cvf port from_ len val)) s =
       .next (s.commit (d.runQuery x (.cvf port from_) n ix qe qs)))

/-- CKPT_RUN, CKPT_STORE, CKPT_SCAN, CKPT_RESTORE, SHAPE_SET, POLICE_SET and ROUTE_SET. Each clause names the state and operands on which the command completes, and the next state. -/
def Obligations.CheckpointCommandsComplete : Prop :=
  ∀ s : State,
  (∀ (e : Entry),
     let x := s.ctx
     let d := s.view
     let c := e.cmd
     e.reservedSet [(16, 1), (24, 8)] [(129, 7)] = false →
     d.ckpt.run = none →
     d.ckpt.store.isSome = true →
     e.f 24 8 = 0 ∨ d.ckpt.lastUsed < e.f 24 8 →
     exec (.ckptRun e) s =
       .next (s.commit ((d.startRun x (if e.f 24 8 == 0 then u64 (d.ckpt.lastUsed + 1) else e.f 24 8) 1 (d.runFull (bit (e.f 16 1) 0)) (some c) none).settleRun x))) ∧
  (∀ (e : Entry) (st : CkStore),
     let x := s.ctx
     let d := s.view
     let c := e.cmd
     e.reservedSet [(24, 8)] [] = false →
     d.ckpt.run = none →
     (([(e.f 24 8, 256)]).find? fun b => !(mappedRange x.fuses.part d b.1 b.2)) = none →
     d.mediaBad (e.f 24 8) (256) = false →
     let d1 := d.eccRead (e.f 24 8) (256) true
     d1.storeRecord x (e.f 24 8) = some st →
     (d1.sec.storeKey.isNone && st.targets.any fun t => t.tier == 4) = false →
     (st.targets.all fun t => d1.storeHeld t) = true →
     let same : Bool := match d1.ckpt.store with | some o => o.targets == st.targets | none => false
     exec (.ckptStore e) s =
       .next (s.commit (({ d1 with ckpt := { d1.ckpt with store := some st, epochs := if same then d1.ckpt.epochs else [] } } : Dev).finish x c .DONE 0))) ∧
  (∀ (e : Entry) (t4 : T4Store) (st : CkStore),
     let x := s.ctx
     let d := s.view
     let c := e.cmd
     e.reservedSet [(24, 16)] [] = false →
     (([(e.f 24 8, 256)]).find? fun b => !(mappedRange x.fuses.part d b.1 b.2)) = none →
     d.mediaBad (e.f 24 8) (256) = false →
     let d1 := d.eccRead (e.f 24 8) (256) true
     d1.storeRecord x (e.f 24 8) = some st →
     d1.storeShut st false = false →
     let v := d1.nativeView st t4
     let w := if d1.t4Open then s7View t4 else { s7View t4 with epochs := [] }
     let one := fun (u : StoreView) (n : Nat) (verdict : Nat) => (n, packFields [(0, 8, n), (8, 8, u.base n), (16, 1, ofB (u.full n)), (17, 1, verdict), (20, 4, u.count n)])
     let es := sortBy (fun (a b : Nat × Nat) => decide (a.1 < b.1)) ((v.epochs.map fun n => one v n (v.verdict n)) ++ w.epochs.map fun n => one w n 4)
     (([(e.f 32 8, 32 * es.length)]).find? fun b => !(mappedRange x.fuses.part d1 b.1 b.2)) = none →
     exec (.ckptScan e t4) s =
       .next (s.commit ((d1.stRecords x (e.f 32 8) 32 (es.map (·.2))).finish x c .DONE es.length))) ∧
  (∀ (e : Entry) (t4 : T4Store) (st : CkStore) (n : Nat),
     let x := s.ctx
     let d := s.view
     let c := e.cmd
     e.reservedSet [(16, 1), (24, 32)] [(129, 7)] = false →
     d.ckpt.run = none →
     (([(e.f 24 8, 256), (e.f 48 8, 1)]).find? fun b => !(mappedRange x.fuses.part d b.1 b.2)) = none →
     d.mediaBad (e.f 24 8) (256) = false →
     let d1 := d.eccRead (e.f 24 8) (256) true
     d1.storeRecord x (e.f 24 8) = some st →
     bit (e.f 16 1) 0 = false →
     d1.storeShut st false = false →
     let v := d1.nativeView st t4
     (v.epochs.filter fun n => v.verdict n == 0 && (e.f 32 8 == 0 || n ≤ e.f 32 8)).getLast? = some n →
     let ring := e.f 40 8
     let chain := ((d1.nativeShards st t4).map (·.2)).filter fun s => (v.base n ≤ s.epoch && s.epoch ≤ n) && (ring == 0 || s.rsn == 0 || s.headEpoch ≤ ring)
     exec (.ckptRestore e t4) s =
       .next (s.commit ((d1.ignoreEpochs v n).restoreNative x c (e.f 48 8) chain))) ∧
  (∀ (e : Entry) (t4 : T4Store) (st : CkStore) (n : Nat),
     let x := s.ctx
     let d := s.view
     let c := e.cmd
     e.reservedSet [(16, 1), (24, 32)] [(129, 7)] = false →
     d.ckpt.run = none →
     (([(e.f 24 8, 256), (e.f 48 8, 1)]).find? fun b => !(mappedRange x.fuses.part d b.1 b.2)) = none →
     d.mediaBad (e.f 24 8) (256) = false →
     let d1 := d.eccRead (e.f 24 8) (256) true
     d1.storeRecord x (e.f 24 8) = some st →
     bit (e.f 16 1) 0 = true →
     d1.storeShut st true = false →
     let v := s7View t4
     (v.epochs.filter fun n => v.verdict n == 0 && (e.f 32 8 == 0 || n ≤ e.f 32 8)).getLast? = some n →
     t4.s7Shape = (d1.shape.hkv, d1.shape.d, d1.shape.vocab) →
     bit (capReg x.fuses 3) 25 = true →
     exec (.ckptRestore e t4) s =
       .next (s.commit ((d1.ignoreEpochs v n).restoreFromS7 x c (e.f 48 8) (t4.s7Sessions.filter fun s => v.base n ≤ s.epoch && s.epoch ≤ n) (t4.s7Shards.filter fun s => v.base n ≤ s.epoch && s.epoch ≤ n)))) ∧
  (∀ (e : Entry),
     let x := s.ctx
     let d := s.view
     let c := e.cmd
     e.reservedSet [(16, 3), (20, 17)] [(148, 4)] = false →
     d.shapeOk e = true →
     d.shaperOn (e.f 16 1) = true →
     exec (.shapeSet e) s =
       .next (s.commit ((d.refillDue x (e.f 16 1)).setShaper (e.f 16 1) fun S => { S with pendingSets := S.pendingSets ++ [(⟨c, false, e.bytes⟩ : PendingShape)] }))) ∧
  (∀ (e : Entry),
     let x := s.ctx
     let d := s.view
     let c := e.cmd
     e.reservedSet [(16, 6), (24, 8)] [(145, 7)] = false →
     e.f 16 1 ≤ 7 →
     e.f 17 1 ≤ 15 →
     e.f 19 1 ≤ 5 →
     e.f 24 4 < 2 ^ 24 →
     e.f 28 4 < 2 ^ 24 →
     d.burstOk (e.f 16 1) (e.f 24 4) (e.f 28 4) = true →
     d.shaperOn (e.f 16 1) = true →
     exec (.policeSet e) s =
       .next (s.commit ((d.refillDue x (e.f 16 1)).setShaper (e.f 16 1) fun S => { S with pendingSets := S.pendingSets ++ [(⟨c, true, e.bytes⟩ : PendingShape)] }))) ∧
  (∀ (e : Entry),
     let x := s.ctx
     let d := s.view
     let c := e.cmd
     e.reservedSet [(16, 1), (18, 3)] [(130, 6)] = false →
     let pos := bit (e.f 16 1) 0
     e.f 20 1 ≤ 7 →
     e.f 18 2 ≤ (if pos then 31 else 2047) →
     d.domainUp (.cvfGroup 0) = true →
     let v := ofB (bit (e.f 16 1) 1) * 2 ^ 31 + e.f 20 1
     exec (.routeSet e) s =
       .next (s.commit (((if pos then d.setReg (Reg.fabRoutePos (e.f 18 2)) v else d.setReg (Reg.fabRouteNode (e.f 18 2)) v).settleReach).finish x c .DONE 0)))

/-- Job, queue, task, hook and lifecycle commands of a partition that the part has, on a Belt that is on. Each clause names the state and operands on which the command completes, and the next state. -/
def Obligations.BeltCommandsComplete : Prop :=
  ∀ s : State,
  (∀ (e : Entry),
     let x := s.ctx
     let d := s.view
     let c := e.cmd
     e.reservedSet [(16, 1), (18, 22)] [(240, 16)] = false →
     let p := e.f 16 1
     firstFail (d.beltChecks x p) = none →
     d.taskMode p = false →
     (d.beltPart p).job = none →
     e.f 18 2 ≠ 0 →
     e.f 18 2 ≤ 64 * (d.onlineCores p).length →
     d.windowed p (e.f 24 6) 1 2 = true →
     exec (.beltJobStart e) s =
       .next (s.commit ((d.measureAt x 5 c.opcode 0 (e.f 24 6) 0x10000).startJob c p (e.f 18 2) (e.f 20 4) (e.f 24 6) (e.f 32 8)))) ∧
  (∀ (e : Entry),
     let x := s.ctx
     let d := s.view
     let c := e.cmd
     e.reservedSet [(16, 1)] [] = false →
     let p := e.f 16 1
     firstFail (d.beltChecks x p) = none →
     (d.beltPart p).job.isSome = true →
     exec (.beltJobKill e) s =
       .next (s.commit ((d.endJob x p .CANCELLED 0).finish x c .DONE 0))) ∧
  (∀ (e : Entry),
     let x := s.ctx
     let d := s.view
     let c := e.cmd
     e.reservedSet [(16, 1)] [] = false →
     let p := e.f 16 1
     firstFail (d.beltChecks x p) = none →
     d.jobIs p false = true →
     exec (.beltJobSuspend e) s =
       .next (s.commit ((d.suspendJob x p).finish x c .DONE 0))) ∧
  (∀ (e : Entry),
     let x := s.ctx
     let d := s.view
     let c := e.cmd
     e.reservedSet [(16, 1)] [] = false →
     let p := e.f 16 1
     firstFail (d.beltChecks x p) = none →
     d.jobIs p true = true →
     let d1 := d.resumeJob x p
     exec (.beltJobResume e) s =
       .next (s.commit (d1.finish x c (if (d1.beltPart p).job.isSome then .DONE else .FAULT_MEDIA) 0))) ∧
  (∀ (e : Entry),
     let x := s.ctx
     let d := s.view
     let c := e.cmd
     e.reservedSet [(16, 8), (24, 8)] [(153, 7), (240, 16)] = false →
     let p := e.f 16 1
     let q := e.f 17 1
     firstFail (d.beltChecks x p) = none →
     d.taskMode p = true →
     q ≤ 15 →
     d.windowed p (e.f 24 6) 1 2 = true →
     bit (e.f 19 1) 0 = true →
     4 ≤ e.f 18 1 →
     e.f 18 1 ≤ 11 →
     d.beltQueue p q = none →
     sumOf ((d.beltPart p).queues.map fun b => b.2.slots) + 2 ^ e.f 18 1 ≤ 2048 →
     exec (.beltQueueSet e) s =
       .next (s.commit (((d.measureAt x 5 c.opcode 0 (e.f 24 6) 0x10000).setBeltQueue p q ⟨2 ^ e.f 18 1, e.f 20 4, e.f 24 6, []⟩).finish x c .DONE 0))) ∧
  (∀ (e : Entry),
     let x := s.ctx
     let d := s.view
     let c := e.cmd
     e.reservedSet [(16, 8), (24, 8)] [(153, 7), (240, 16)] = false →
     let p := e.f 16 1
     let q := e.f 17 1
     firstFail (d.beltChecks x p) = none →
     d.taskMode p = true →
     q ≤ 15 →
     d.windowed p (e.f 24 6) 1 2 = true →
     bit (e.f 19 1) 0 = false →
     d.queueBound p q = false →
     exec (.beltQueueSet e) s =
       .next (s.commit ((d.disableQueue x p q).finish x c .DONE 0))) ∧
  (∀ (e : Entry) (b q : BeltQueue),
     let x := s.ctx
     let d := s.view
     let c := e.cmd
     e.reservedSet [(16, 2), (24, 8)] [(240, 16)] = false →
     let p := e.f 16 1
     let n := e.f 17 1
     firstFail (d.beltChecks x p) = none →
     d.taskMode p = true →
     d.beltQueue p n = some b →
     b.waiting.length < b.slots →
     (([(e.f 24 6, 64)]).find? fun b => !(mappedRange x.fuses.part d b.1 b.2)) = none →
     d.mediaBad (e.f 24 6) (64) = false →
     let d1 := d.eccRead (e.f 24 6) (64) true
     d1.beltQueue p n = some q →
     q.waiting.length < q.slots →
     d1.domainUp .belt = true →
     exec (.beltTaskSubmit e) s =
       .next (s.commit (d1.setBeltQueue p n { q with waiting := q.waiting ++ [⟨n, q.entry, d1.ld x (e.f 24 6) 64, .cmd c, d1.now⟩] }))) ∧
  (∀ (e : Entry),
     let x := s.ctx
     let d := s.view
     let c := e.cmd
     e.reservedSet [(16, 4)] [] = false →
     let p := e.f 18 1
     firstFail (d.beltChecks x p) = none →
     e.f 16 2 ≠ 0xFFFF →
     (d.belt.hooks.any fun h => h.1 == e.f 16 2) = false →
     d.taskMode p = true →
     (d.beltQueue p (e.f 19 1)).isSome = true →
     d.belt.hooks.length < 256 →
     exec (.beltHookReg e) s =
       .next (s.commit (({ d with belt := { d.belt with hooks := d.belt.hooks ++ [(e.f 16 2, p, e.f 19 1)] } } : Dev).finish x c .DONE 0))) ∧
  (∀ (e : Entry),
     let x := s.ctx
     let d := s.view
     let c := e.cmd
     e.reservedSet [(16, 2)] [] = false →
     x.fuses.part.hasBelt = true →
     d.domainUp .belt = true →
     (d.belt.hooks.any fun h => h.1 == e.f 16 2) = true →
     (d.sess.table.any fun p => p.2.state != .void && p.2.hook == e.f 16 2) = false →
     exec (.beltHookUnreg e) s =
       .next (s.commit (({ d with belt := { d.belt with hooks := d.belt.hooks.filter fun h => h.1 != e.f 16 2 } } : Dev).finish x c .DONE 0))) ∧
  (∀ (e : Entry),
     let x := s.ctx
     let d := s.view
     let c := e.cmd
     e.reservedSet [(16, 2), (20, 2)] [] = false →
     let p := e.f 16 1
     firstFail (d.beltChecks x p) = none →
     d.taskMode p = true →
     (d.beltQueue p (e.f 17 1)).isSome = true →
     exec (.beltLifeReg e) s =
       .next (s.commit (({ d with belt := { d.belt with life := if e.f 20 2 == 0 then none else some (p, e.f 17 1, e.f 20 2) } } : Dev).finish x c .DONE 0)))

/-- TENANT_SWITCH, DEBUG_UNLOCK and SVN_COMMIT with a record that SEC accepts, ATTEST, MLOG_READ, CERT_READ and FW_UPDATE. Each clause names the state and operands on which the command completes, and the next state. -/
def Obligations.SecurityCommandsComplete : Prop :=
  ∀ s : State,
  (∀ (e : Entry),
     let x := s.ctx
     let d := s.view
     let c := e.cmd
     e.reservedSet [(24, 16)] [] = false →
     d.sec.debugLevel ≠ 2 →
     (([(e.f 24 8, 256), (e.f 32 8, 64)]).find? fun b => !(mappedRange x.fuses.part d b.1 b.2)) = none →
     d.mediaBad (e.f 24 8) (256) = false →
     let d1 := d.eccRead (e.f 24 8) (256) true
     d1.mediaBad (e.f 32 8) (64) = false →
     let d2 := d1.eccRead (e.f 32 8) (64) true
     let r := d2.recordAt x e
     let d3 := d2.switchTenant x 0xA0 r (recTenant r) (if bit r 56 then Config.sm2Decrypt (recBlob r) else none)
     exec (.tenantSwitch e) s =
       .next (s.commit (if d2.recordOk x 1 r (d2.ownerKeyAt x e) then d3.finish x c .DONE (u32 d3.sec.epoch) else (d2.bump Reg.secAuthFail 1).finish x c .REFUSED_STATE 0))) ∧
  (∀ (e : Entry),
     let x := s.ctx
     let d := s.view
     let c := e.cmd
     e.reservedSet [(24, 16)] [] = false →
     (([(e.f 24 8, 32), (e.f 32 8, 448)]).find? fun b => !(mappedRange x.fuses.part d b.1 b.2)) = none →
     d.mediaBad (e.f 24 8) (32) = false →
     let d1 := d.eccRead (e.f 24 8) (32) true
     let q := d1.quote x (d1.ld x (e.f 24 8) 32)
     let sig := Config.sm2Sign (Config.sm3 384 q) d1.free % 2 ^ 512
     exec (.attest e) s =
       .next (s.commit ((({ d1 with free := d1.free + 1 } : Dev).st x (e.f 32 8) 448 (q + sig * 2 ^ 3072)).finish x c .DONE 0))) ∧
  (∀ (e : Entry),
     let x := s.ctx
     let d := s.view
     let c := e.cmd
     e.reservedSet [(16, 4), (24, 8)] [] = false →
     e.f 18 2 ≠ 0 →
     e.f 18 2 ≤ 4096 →
     let es := (d.sec.mlog.drop (e.f 16 2)).take (e.f 18 2)
     (([(e.f 24 8, 64 * es.length)]).find? fun b => !(mappedRange x.fuses.part d b.1 b.2)) = none →
     exec (.mlogRead e) s =
       .next (s.commit ((d.stRecords x (e.f 24 8) 64 (es.map MEntry.pack)).finish x c (if es.length < e.f 18 2 then .DONE_PARTIAL else .DONE) es.length))) ∧
  (∀ (e : Entry),
     let x := s.ctx
     let d := s.view
     let c := e.cmd
     e.reservedSet [(24, 12)] [] = false →
     let n := Config.certChain.1
     exec (.certRead e) s =
       .next (s.commit (if e.f 32 4 < n then d.finish x c .REFUSED_RESOURCE 0 else d.buffers x c [(e.f 24 8, n)] fun d => (d.st x (e.f 24 8) n Config.certChain.2).finish x c .DONE n))) ∧
  (∀ (e : Entry),
     let x := s.ctx
     let d := s.view
     let c := e.cmd
     e.reservedSet [(24, 16)] [] = false →
     (([(e.f 24 8, 256), (e.f 32 8, 64)]).find? fun b => !(mappedRange x.fuses.part d b.1 b.2)) = none →
     d.mediaBad (e.f 24 8) (256) = false →
     let d1 := d.eccRead (e.f 24 8) (256) true
     d1.mediaBad (e.f 32 8) (64) = false →
     let d2 := d1.eccRead (e.f 32 8) (64) true
     let r := d2.recordAt x e
     let level := recArg r
     level = 1 ∨ level = 2 →
     d2.sec.debugLevel ≤ level →
     let d3 : Dev := if level == 2 then d2.switchTenant x 0xA4 r (2 ^ 64 - 1) none else { d2 with sec := { d2.sec with debugUsed := true } }
     exec (.debugUnlock e) s =
       .next (s.commit (if d2.recordOk x 2 r (d2.ownerKeyAt x e) then (({ d3 with sec := { d3.sec with debugLevel := level } } : Dev).measure 7 0xA4 0 (Config.sm3 32 (bits r 0 256))).finish x c .DONE 0 else (d2.bump Reg.secAuthFail 1).finish x c .REFUSED_STATE 0))) ∧
  (∀ (e : Entry),
     let x := s.ctx
     let d := s.view
     let c := e.cmd
     e.reservedSet [(24, 16)] [] = false →
     (([(e.f 24 8, 256), (e.f 32 8, 64)]).find? fun b => !(mappedRange x.fuses.part d b.1 b.2)) = none →
     d.mediaBad (e.f 24 8) (256) = false →
     let d1 := d.eccRead (e.f 24 8) (256) true
     d1.mediaBad (e.f 32 8) (64) = false →
     let d2 := d1.eccRead (e.f 32 8) (64) true
     let r := d2.recordAt x e
     let floor := recArg r
     d2.sec.svnFloor < floor →
     floor ≤ 63 →
     floor ≤ d2.boot.bundleVer / 2 ^ 24 →
     exec (.svnCommit e) s =
       .next (s.commit (if d2.recordOk x 3 r (d2.ownerKeyAt x e) then (({ d2 with sec := { d2.sec with svnFloor := floor } } : Dev).measure 7 0xA6 0 (Config.sm3 32 (bits r 0 256))).finish x c .DONE 0 else (d2.bump Reg.secAuthFail 1).finish x c .REFUSED_STATE 0))) ∧
  (∀ (e : Entry) (copy v : Nat),
     let x := s.ctx
     let d := s.view
     let c := e.cmd
     e.reservedSet [(24, 24)] [] = false →
     let n := if e.f 24 8 != 0 then e.f 40 4 else 0
     (([(e.f 24 8, n), (e.f 32 8, e.f 44 4)]).find? fun b => !(mappedRange x.fuses.part d b.1 b.2)) = none →
     d.mediaBad (e.f 24 8) (n) = false →
     let d1 := d.eccRead (e.f 24 8) (n) true
     d1.mediaBad (e.f 32 8) (e.f 44 4) = false →
     let d2 := d1.eccRead (e.f 32 8) (e.f 44 4) true
     let fw := if e.f 24 8 != 0 then (n, d2.ld x (e.f 24 8) n) else d2.boot.bundle.getD (0, 0)
     let img := (e.f 44 4, d2.ld x (e.f 32 8) (e.f 44 4))
     let slot := 1 - d2.fld Reg.chipBootStat 25 1
     d2.directory = some (copy, v) →
     fitsArea v (dirSlot v slot).1.1 fw.1 = true →
     fitsArea v (dirSlot v slot).2.1 img.1 = true →
     exec (.fwUpdate e false) s =
       .next (s.commit (if d2.updateOk x fw img then (d2.writeSlot copy v slot fw img).finish x c .DONE 0 else d2.finish x c .REFUSED_STATE 0)))

/-- PWR_GATE, PWR_WAKE of a domain that is gated or about to be, PWR_LIMIT, PWR_VMODE, and the events of gating and waking. An evaluation, a thermal sample and THERMTRIP of a device that runs. Each clause names the state and operands on which the command completes, and the next state. -/
def Obligations.PowerComplete : Prop :=
  ∀ s : State,
  (∀ (e : Entry),
     let x := s.ctx
     let d := s.view
     let c := e.cmd
     e.reservedSet [(16, 1)] [] = false →
     d.gateRefused x (e.f 16 1) = false →
     exec (.pwrGate e) s =
       .next (s.commit (({ d with pmc := { d.pmc with gating := d.pmc.gating ++ [(⟨e.f 16 1, c, d.now, d.sess.batches.map (·.id), false, []⟩ : GateOp)] } } : Dev).sendRates x))) ∧
  (∀ (e : Entry) (g : GateOp),
     let x := s.ctx
     let d := s.view
     let c := e.cmd
     e.reservedSet [(16, 1)] [] = false →
     let code := e.f 16 1
     (gateBit x.fuses.part code).isSome = true →
     d.gateOf code = some g →
     exec (.pwrWake e) s =
       .next (s.commit (d.wakeGating x c g))) ∧
  (∀ (e : Entry),
     let x := s.ctx
     let d := s.view
     let c := e.cmd
     e.reservedSet [(16, 1)] [] = false →
     let code := e.f 16 1
     (gateBit x.fuses.part code).isSome = true →
     d.gateOf code = none →
     d.gated x code = false →
     exec (.pwrWake e) s =
       .next (s.commit (d.finish x c .DONE 0))) ∧
  (∀ (e : Entry),
     let x := s.ctx
     let d := s.view
     let c := e.cmd
     e.reservedSet [(16, 1)] [] = false →
     let code := e.f 16 1
     (gateBit x.fuses.part code).isSome = true →
     d.gateOf code = none →
     d.gated x code = true →
     (d.pmc.waking.any fun w => w.domain == code) = false →
     exec (.pwrWake e) s =
       .next (s.commit ({ d with pmc := { d.pmc with waking := d.pmc.waking ++ [(⟨code, c, d.now, [], false, []⟩ : GateOp)] } }))) ∧
  (∀ (e : Entry),
     let x := s.ctx
     let d := s.view
     let c := e.cmd
     e.reservedSet [(16, 2)] [] = false →
     let w := e.f 16 2
     0x4B0 ≤ w →
     w ≤ 0x5DC →
     bit (d.reg Reg.sessLedgerCtl) 31 = false ∨ 1400 ≤ w →
     exec (.pwrLimit e) s =
       .next (s.commit (({ d with pmc := { d.pmc with pendingLimit := some w } } : Dev).finish x c .DONE 0))) ∧
  (∀ (e : Entry),
     let x := s.ctx
     let d := s.view
     let c := e.cmd
     e.reservedSet [(16, 1)] [] = false →
     e.f 16 1 ≤ 2 →
     exec (.pwrVmode e) s =
       .next (s.commit (({ d with pmc := { d.pmc with pendingMode := some (e.f 16 1) } } : Dev).finish x c .DONE 0))) ∧
  (∀ (domain : Nat) (g : GateOp),
     let d := s.view
     d.gateOf domain = some g →
     g.drained = false →
     g.batches = [] →
     domain < 4 →
     exec (.gateBatchesClosed domain) s =
       .next (s.commit ({ d with pmc := { d.pmc with gating := d.pmc.gating.map fun k => if k.domain == domain then { k with drained := true, since := d.now } else k } }))) ∧
  (∀ (domain : Nat) (g : GateOp),
     let x := s.ctx
     let d := s.view
     d.gateOf domain = some g →
     g.drained = false →
     g.batches = [] →
     4 ≤ domain →
     exec (.gateBatchesClosed domain) s =
       .next (s.commit (d.gateNow x g))) ∧
  (∀ (domain : Nat) (g : GateOp),
     let x := s.ctx
     let d := s.view
     d.gateOf domain = some g →
     g.drained = false →
     g.since + 1000000000 ≤ d.now →
     exec (.pwrGateTimeout domain) s =
       .next (s.commit ((({ d with pmc := { d.pmc with gating := d.pmc.gating.filter fun k => k.domain != domain } } : Dev).sendRates x).finish x g.cmd .FAULT_TIMEOUT 0))) ∧
  (∀ (domain b : Nat) (w : GateOp),
     let x := s.ctx
     let d := s.view
     (d.pmc.waking.find? fun w => w.domain == domain && (3 < domain || (d.keeper (domain + 1)).aligned)) = some w →
     gateBit x.fuses.part domain = some b →
     let d1 := ({ d with pmc := { d.pmc with waking := d.pmc.waking.filter fun k => k.domain != domain } } : Dev).setFld Reg.pmcGate b 1 0
     let d2 := (if domain < 4 then d1.quadBack x domain else d1).domainPaces x domain 1
     exec (.wakeReady domain) s =
       .next (s.commit ((w.cmd :: w.wakes).foldl (fun (d : Dev) c => d.finish x c .DONE 0) (d2.sendRates x)))) ∧
  (∀ (railMv : List Nat),
     let x := s.ctx
     let d := s.view
     d.held = false →
     2 < d.stage →
     d.eclipse = false →
     d.pmc.tripped = false →
     exec (.pmcEvaluation railMv) s =
       .next (s.commit (d.evaluate x railMv))) ∧
  (∀ (quads : List Int) (stackT : List (Nat × Int)) (pkgW : Nat) (bad : List Nat),
     let x := s.ctx
     let d := s.view
     d.held = false →
     2 < d.stage →
     d.eclipse = false →
     let d1 := bad.foldl (fun (d : Dev) b => d.sensorFails b) d
     let d2 := ((quads.take 4).zipIdx).foldl (fun (d : Dev) q => d.quadSample q.2 q.1) d1
     let d3 := (stackT.filter fun k => x.fuses.part.fittedStacks.contains k.1).foldl (fun (d : Dev) k => d.stackSample x k.1 k.2) d2
     let w := min pkgW 0xFFFF
     let d4 := (d3.setFld Reg.pmcPkgPower 0 16 w).setFld Reg.pmcPkgPower 16 16 (max w (d3.fld Reg.pmcPkgPower 16 16))
     exec (.thermalSample quads stackT pkgW bad) s =
       .next (s.commit ((if d4.pmc.stackCrit == d.pmc.stackCrit then d4 else d4.sendRates x).setAlert))) ∧
  (∀ (sensor : Nat),
     let d := s.view
     d.pmc.tripped = false →
     d.boot.railsOut = false →
     let d1 := if 2 ≤ d.stage && !d.eclipse && d.hif.eventReceiver.isSome then d.mctp (.platformEvent sensor (d.sense sensor)) else d
     exec (.thermtrip sensor) s =
       .next (s.commit (({ d1 with pmc := { d1.pmc with tripped := true, railMv := [0, 0, 0, 0] } } : Dev).send (.pin .thermtripN false))))

/-- ELOG_READ, ERR_INJECT of each mode, a report, the intake of a log, vector 0, the clearing of a log, scrub passes and line retirement. Each clause names the state and operands on which the command completes, and the next state. -/
def Obligations.ErrorCommandsComplete : Prop :=
  ∀ s : State,
  (∀ (e : Entry),
     let x := s.ctx
     let d := s.view
     let c := e.cmd
     e.reservedSet [(16, 2), (24, 12)] [(137, 7)] = false →
     let k := e.f 16 1
     k ≤ 4 →
     let es := (getAt ErrLog.reset k d.err.logs).entries
     let n := min (e.f 32 4) es.length
     (([(e.f 24 8, 32 * n)]).find? fun b => !(mappedRange x.fuses.part d b.1 b.2)) = none →
     let d1 := d.stRecords x (e.f 24 8) 32 ((es.take n).map LogEntry.pack)
     exec (.elogRead e) s =
       .next (s.commit (if n < es.length then d1.finish x c .DONE_PARTIAL n else (if bit (e.f 17 1) 0 then d1.clearLog k else d1).finish x c .DONE n))) ∧
  (∀ (e : Entry),
     let x := s.ctx
     let d := s.view
     let c := e.cmd
     e.reservedSet [(16, 2), (20, 4), (24, 16)] [(240, 16)] = false →
     firstFail (injectChecks x d e) = none →
     e.f 16 1 = 1 →
     exec (.errInject e) s =
       .next (s.commit ((d.synthetic (e.f 20 4) (e.f 17 1) (e.f 32 8)).finish x c .DONE 0))) ∧
  (∀ (e : Entry),
     let x := s.ctx
     let d := s.view
     let c := e.cmd
     e.reservedSet [(16, 2), (20, 4), (24, 16)] [(240, 16)] = false →
     firstFail (injectChecks x d e) = none →
     e.f 16 1 = 2 ∨ e.f 16 1 = 4 →
     exec (.errInject e) s =
       .next (s.commit ((d.corrupt (e.f 24 6) false).finish x c .DONE 0))) ∧
  (∀ (e : Entry),
     let x := s.ctx
     let d := s.view
     let c := e.cmd
     e.reservedSet [(16, 2), (20, 4), (24, 16)] [(240, 16)] = false →
     firstFail (injectChecks x d e) = none →
     e.f 16 1 = 3 ∨ e.f 16 1 = 5 →
     exec (.errInject e) s =
       .next (s.commit ((d.corrupt (e.f 24 6) true).finish x c .DONE 0))) ∧
  (∀ (r : ReportIn),
     let d := s.view
     exec (.errorReport r) s =
       .next (s.commit (d.report r.source r.type r.sev r.info))) ∧
  (∀ (log : Nat),
     let d := s.view
     log < 5 →
     exec (.logIntake log) s =
       .next (s.commit (d.logIntake log))) ∧
  (∀ (t : Ns),
     let d := s.view
     d.err.vec0Deferred = true →
     d.err.lastVec0 = some t →
     t + 100000 ≤ d.now →
     exec .vector0Deferred s =
       .next (s.commit (({ d with err := { d.err with vec0Deferred := false, lastVec0 := some d.now } } : Dev).raise 0))) ∧
  (∀ (log : Nat),
     let x := s.ctx
     let d := s.view
     d.bar0Cpl x Reg.errlogCtl = .success →
     log < 5 →
     exec (.logClear log) s =
       .next (s.commit ((d.clearLog log).setFld Reg.errlogCtl (16 + log) 1 0))) ∧
  (∀ (stack : Nat) (found : List (Nat × Bool)),
     let x := s.ctx
     let d := s.view
     x.fuses.part.fittedStacks.contains stack = true →
     d.err.deadStacks.contains stack = false →
     d.operational = true →
     d.baseHot stack = false →
     let d1 := d.findBad (found.filter fun f => stackOf f.1 == stack)
     exec (.hbmScrubPass stack found) s =
       .next (s.commit ((d1.err.bad.filter fun b => b.addr < 0x12000000000 && stackOf b.addr == stack).foldl (fun (d : Dev) b => let d := (match d.cachedAt b.addr with | some i => (d.eccRead b.addr 1 false).putDesc x i (d.desc i) | none => d.eccRead b.addr 1 (d.holdsData x b.addr)); if d.slotFails (d.slotOf b.addr) then d.retire x (d.slotOf b.addr) else d) d1))) ∧
  (∀ (q : Nat) (found : List (Nat × Bool)),
     let x := s.ctx
     let d := s.view
     q < 4 →
     d.operational = true →
     d.quadUp q = true →
     let rs := sramRanges q
     let d1 := d.findBad (found.filter fun f => inRanges f.1 rs)
     let d2 := (d1.err.bad.filter fun b => inRanges b.addr rs).foldl (fun (d : Dev) b => let off := (b.addr - 0x400000000000) % 0x18000000; let stg := inStaging b.addr; let d := d.eccRead b.addr 1 (stg || d.sramRegion x q off == 1); if !b.uncorrectable then d else if stg then d.stagingLoses x q else d.sramLoses x q off 16) d1
     exec (.sramScrubPass q found) s =
       .next (s.commit ({ d2 with err := { d2.err with lineCe := d2.err.lineCe.filter fun l => !(inRanges (l.1 * 4096) rs && l.2 < d2.fld Reg.errlogSramCtl 0 8) } }))) ∧
  (∀ (found : List (Nat × Bool)),
     let x := s.ctx
     let d := s.view
     2 ≤ d.stage →
     d.held = false →
     d.eclipse = false →
     exec (.sramScrubPass 4 found) s =
       .next (s.commit (found.foldl (fun (d : Dev) f => if f.2 then (d.report chipSource 0x04 3 f.1).controlLoses x else d.report chipSource 0x03 0 f.1) d))) ∧
  (∀ (q line : Nat),
     let x := s.ctx
     let d := s.view
     let a := 0x400000000000 + q * 0x18000000 + line * 4096
     q < 4 →
     line < 98304 →
     (d.err.bad.any fun b => b.uncorrectable && !b.held && b.addr / 4096 == a / 4096) = true ∨ d.fld Reg.errlogSramCtl 0 8 ≤ (tblGet (a / 4096) d.err.lineCe).getD 0 →
     d.err.retiredLines.contains (a / 4096) = false →
     let d1 := (d.report (eccSource a) 0x33 2 a).bump Reg.errlogSramRetired 1
     let keep := d1.sramRegion x q (line * 4096) == 1
     exec (.sramLineRetire q line) s =
       .next (s.commit (({ d1 with err := { d1.err with retiredLines := d1.err.retiredLines ++ [a / 4096], lineCe := tblDel (a / 4096) d1.err.lineCe, bad := if keep then d1.err.bad else d1.err.bad.filter fun b => b.addr / 4096 != a / 4096 } } : Dev).sramLoses x q (line * 4096) 4096)))

/-- Calibration, alignment, the pace window, the PTM commands, and the reads that latch their high half. Each clause names the state and operands on which the command completes, and the next state. -/
def Obligations.TimeCommandsComplete : Prop :=
  ∀ s : State,
  (∀ (tk counted refTicks : Nat),
     let d := s.view
     tk ≤ 4 →
     d.held = false →
     d.eclipse = false →
     tk = 0 ∨ (d.keeper tk).aligned = true →
     refGood refTicks = false →
     exec (.tkCalibrate tk counted refTicks) s =
       .next (s.commit (d.holdover tk))) ∧
  (∀ (tk counted refTicks : Nat),
     let x := s.ctx
     let d := s.view
     tk ≤ 4 →
     d.held = false →
     d.eclipse = false →
     tk = 0 ∨ (d.keeper tk).aligned = true →
     refGood refTicks = true →
     let d1 := d.calibrate tk counted
     exec (.tkCalibrate tk counted refTicks) s =
       .next (s.commit (if tk ≠ 0 ∧ 16 < d1.skewOf (tk - 1) then d1.quadReset x (tk - 1) 2 else d1))) ∧
  (∀ (q : Nat),
     let d := s.view
     q < 4 →
     d.stage ≠ 1 →
     bit (d.reg Reg.pmcGate) q = false ∨ (d.pmc.waking.any fun w => w.domain == q) = true →
     (d.boot.quadResets.any fun r => r.quad == q && r.stage == 2) = false →
     d.boot.quadOffline.contains q = false →
     exec (.qdTkAlign q) s =
       .next (s.commit (d.alignQuad q))) ∧
  (∀ (block ops busyNs : Nat),
     let x := s.ctx
     let d := s.view
     isPace block = true →
     absentBlock x.fuses.part block = false →
     exec (.paceWindowEnd block ops busyNs) s =
       .next (s.commit (d.paceWindow x block ops busyNs))) ∧
  (
     let x := s.ctx
     let d := s.view
     d.bar0Cpl x Reg.chipTimeLo = .success →
     exec .timeLoRead s =
       .next (s.commit ((d.setReg Reg.chipTimeHi (d.now / 2 ^ 32)).send (.cpl .success (u32 d.now) false)))) ∧
  (
     let x := s.ctx
     let d := s.view
     d.bar0Cpl x Reg.chipPtmCtl = .success →
     exec .ptmTrigger s =
       .next (s.commit ((d.setFld Reg.chipPtmCtl 1 1 1).ptmStart))) ∧
  (
     let d := s.view
     d.fld Reg.chipPtmCtl 8 8 ≠ 0 →
     exec .ptmPeriod s =
       .next (s.commit (d.ptmStart))) ∧
  (∀ (dev host linkDly : Nat),
     let d := s.view
     d.time.ptmRunning = true →
     let d1 : Dev := { d with time := { d.time with ptmRunning := false, ptmLast := ⟨u64 dev, u64 host, linkDly % 65536⟩, ptmLastAt := some d.now } }
     exec (.ptmDialogDone dev host linkDly) s =
       .next (s.commit ((d1.setReg Reg.chipPtmSeq (u32 (d1.reg Reg.chipPtmSeq + 1))).setFld Reg.chipPtmCtl 1 1 0))) ∧
  (
     let d := s.view
     d.time.ptmRunning = true →
     exec .ptmDialogFail s =
       .next (s.commit (({ d with time := { d.time with ptmRunning := false } } : Dev).setFld Reg.chipPtmCtl 1 1 0))) ∧
  (
     let x := s.ctx
     let d := s.view
     d.bar0Cpl x Reg.chipPtmSeq = .success →
     exec .ptmSeqRead s =
       .next (s.commit (d.ptmLatch.send (.cpl .success (d.reg Reg.chipPtmSeq) false)))) ∧
  (
     let x := s.ctx
     let d := s.view
     d.bar0Cpl x Reg.ckptEpochLo = .success →
     exec .ckptEpochLoRead s =
       .next (s.commit ((d.setReg Reg.ckptEpochHi (u64 d.ckpt.epoch / 2 ^ 32)).send (.cpl .success (u32 d.ckpt.epoch) false)))) ∧
  (
     let x := s.ctx
     let d := s.view
     d.bar0Cpl x Reg.ckptFullLo = .success →
     exec .ckptFullLoRead s =
       .next (s.commit ((d.setReg Reg.ckptFullHi (u64 d.ckpt.full / 2 ^ 32)).send (.cpl .success (u32 d.ckpt.full) false)))) ∧
  (
     let x := s.ctx
     let d := s.view
     d.bar0Cpl x Reg.secEpochLo = .success →
     exec .secEpochLoRead s =
       .next (s.commit ((d.setReg Reg.secEpochHi (u64 d.sec.epoch / 2 ^ 32)).send (.cpl .success (u32 d.sec.epoch) false)))) ∧
  (
     let x := s.ctx
     let d := s.view
     d.bar0Cpl x Reg.secTenantLo = .success →
     exec .tenantLoRead s =
       .next (s.commit ((d.setReg Reg.secTenantHi (u64 d.sec.tenant / 2 ^ 32)).send (.cpl .success (u32 d.sec.tenant) false)))) ∧
  (
     let x := s.ctx
     let d := s.view
     d.bar0Cpl x Reg.secZeroDoneLo = .success →
     exec .zeroDoneLoRead s =
       .next (s.commit ((d.setReg Reg.secZeroDoneHi (u64 d.sec.zeroDone / 2 ^ 32)).send (.cpl .success (u32 d.sec.zeroDone) false)))) ∧
  (∀ (port : Nat),
     let x := s.ctx
     let d := s.view
     d.bar0Cpl x (Reg.cvfTofsLo port) = .success →
     let v := ofSigned (getAt Port.reset port d.cvf.ports).ofs 64
     exec (.tofsLoRead port) s =
       .next (s.commit ((d.setReg (Reg.cvfTofsHi port) (u64 v / 2 ^ 32)).send (.cpl .success (u32 v) false))))

/-- A write of a BAR0 register without W1S bits set, a mailbox register, a read with its read effect, CHIP.LOCK, and configuration requests once the device answers. Each clause names the state and operands on which the command completes, and the next state. -/
def Obligations.RegisterCommandsComplete : Prop :=
  ∀ s : State,
  (∀ (off val : Nat),
     let x := s.ctx
     let d := s.view
     d.bar0Cpl x off = .success →
     w1sRows off val = [] →
     off < 0x1C00000 ∨ 0x1C00800 ≤ off →
     exec (.registerWrite off val) s =
       .next (s.commit (d.barWrite x off val))) ∧
  (∀ (off val : Nat),
     let x := s.ctx
     let d := s.view
     d.bar0Cpl x off = .success →
     w1sRows off val = [] →
     0x1C00000 ≤ off →
     off < 0x1C00800 →
     exec (.registerWrite off val) s =
       .next (s.commit (d.writeMbox ((off - 0x1C00000) / 0x100) off val))) ∧
  (∀ (off : Nat),
     let x := s.ctx
     let d := s.view
     d.bar0Cpl x off = .success →
     exec (.rcRead off) s =
       .next (s.commit ((d.readEffect off).send (.cpl .success (d.barRead x off) false)))) ∧
  (
     let x := s.ctx
     let d := s.view
     d.bar0Cpl x Reg.chipLock = .success →
     exec .chipLockSet s =
       .next (s.commit (d.setFld Reg.chipLock 0 1 1))) ∧
  (∀ (field : CfgField) (val : Nat),
     let d := s.view
     d.held = false →
     d.stage ≠ 1 ∨ d.boot.started + 100000000 ≤ d.now →
     exec (.configurationRequest true field val) s =
       .next (s.commit ((d.cfgWrite field val).send (.cpl .success 0 false)))) ∧
  (∀ (field : CfgField) (val : Nat),
     let x := s.ctx
     let d := s.view
     d.held = false →
     d.stage ≠ 1 ∨ d.boot.started + 100000000 ≤ d.now →
     exec (.configurationRequest false field val) s =
       .next (s.commit ((d.cfgReadEffect field).send (.cpl .success (d.cfgRead x field) false))))

/-- What the timeouts of a block, a quadrant's drain and a start do, a segment with a good or a bad check, the watchdogs and a block's hardware error. QRST, the stages of a quadrant's reset, and the ends of a block's reset. Each clause names the state and operands on which the command completes, and the next state. -/
def Obligations.SelfRepairAndUnitEventsComplete : Prop :=
  ∀ s : State,
  (∀ (block cell : Nat) (t : Ns),
     let x := s.ctx
     let d := s.view
     blockOk x.fuses.part block = true →
     cell < 4095 →
     (match (d.cellOf block cell).granted with | some r => s.pending.any (endsWork (Reg.qdAePace (r / 64) (r % 64))) | none => false) = false →
     d.blockAbsorbed block = false →
     let g := d.cellOf block cell
     let d1 := d.report (blockSource block + (cell + 1) * 0x100000) 0x20 1 0
     let who := g.granted.getD otherRequester
     tblGet who g.again = some t →
     g.granted.isSome = true ∨ d1.now ≤ t + d1.cellNs block + 256 →
     exec (.cellTimeout ⟨block, cell⟩) s =
       .next (s.commit ((d1.setCell { g with again := tblDel who g.again }).blockExpires x block))) ∧
  (∀ (block cell : Nat),
     let x := s.ctx
     let d := s.view
     blockOk x.fuses.part block = true →
     cell < 4095 →
     (match (d.cellOf block cell).granted with | some r => s.pending.any (endsWork (Reg.qdAePace (r / 64) (r % 64))) | none => false) = false →
     d.blockAbsorbed block = false →
     let g := d.cellOf block cell
     let d1 := d.report (blockSource block + (cell + 1) * 0x100000) 0x20 1 0
     let who := g.granted.getD otherRequester
     tblGet who g.again = none →
     exec (.cellTimeout ⟨block, cell⟩) s =
       .next (s.commit (d1.setCell (g.retry d1.now)))) ∧
  (∀ (block : Nat),
     let x := s.ctx
     let d := s.view
     blockOk x.fuses.part block = true →
     d.blockState block ≠ 2 →
     trackedBlock block = false ∨ d.blockWorks block = true →
     (s.pending.any (endsWork block)) = false →
     exec (.blockTimeout block) s =
       .next (s.commit (d.blockExpires x block))) ∧
  (∀ (q : Nat),
     let x := s.ctx
     let d := s.view
     q < 4 →
     (d.boot.quadResets.any fun r => r.quad == q && r.stage == 1 && decide (r.since + d.fld (Reg.qdQctlToDrain q) 0 16 * 1000 ≤ d.now)) = true →
     (s.pending.any (endsDrain q)) = false →
     exec (.drainTimeout q) s =
       .next (s.commit ((d.report (sourceOf (quadBase q) 0 0) 0x22 2 q).drained x q))) ∧
  (
     let x := s.ctx
     let d := s.view
     d.starting = true →
     d.boot.stageAt + d.fld Reg.chipToStage 0 16 * 1000000 ≤ d.now →
     let d1 := d.report chipSource 0x23 3 d.stage
     d.stage ≠ 7 ∨ d1.boot.chainMode = false ∨ d1.boot.posAssigned = true →
     exec .stageTimeout s =
       .next (s.commit (d1.failStart x 0x21 d.stage))) ∧
  (
     let x := s.ctx
     let d := s.view
     d.starting = true →
     d.boot.started + 10000000000 ≤ d.now →
     exec .startLimit s =
       .next (s.commit (d.failStart x 0x22 0))) ∧
  (∀ (src dst : Nat) (t : EclXfer),
     let d := s.view
     src < eclPorts →
     dst < eclPorts →
     src ≠ dst →
     (d.arb.xfers.any fun t => t.src == src && t.dst == dst) = true →
     d.eclNext dst = some t →
     t.src = src →
     t.dst = dst →
     4 ≤ dst ∨ d.quadPowered dst = true →
     exec (.segmentArrive src dst true) s =
       .next (s.commit (d.eclArrive t))) ∧
  (∀ (src dst : Nat) (t : EclXfer),
     let d := s.view
     src < eclPorts →
     dst < eclPorts →
     src ≠ dst →
     (d.arb.xfers.any fun t => t.src == src && t.dst == dst) = true →
     d.eclNext dst = some t →
     t.src = src →
     t.dst = dst →
     4 ≤ dst ∨ d.quadPowered dst = true →
     t.again = false →
     exec (.segmentArrive src dst false) s =
       .next (s.commit ((d.eclResend t).report chipSource 0x10 1 dst))) ∧
  (∀ (src dst : Nat) (crcOk : Bool),
     let x := s.ctx
     let d := s.view
     src < eclPorts →
     dst < eclPorts →
     src ≠ dst →
     (d.arb.xfers.any fun t => t.src == src && t.dst == dst) = false →
     exec (.segmentArrive src dst crcOk) s =
       .next (s.commit (d.controlSegment x src dst crcOk))) ∧
  (∀ (core : Nat),
     let x := s.ctx
     let d := s.view
     core ≠ 0 →
     core ≤ 6 →
     d.held = false →
     d.eclipse = false →
     d.stage ≠ 1 →
     let d1 := d.report chipSource 0x24 3 core
     exec (.watchdogMiss core) s =
       .next (s.commit (if core < 3 || !d1.operational then d1.chipLevel x core else d1.quadReset x (core - 3) 2))) ∧
  (
     let x := s.ctx
     let d := s.view
     d.held = false →
     d.eclipse = false →
     exec .hardwareWatchdog s =
       .next (s.commit ((d.report chipSource 0x24 3 0).chipLevel x 0))) ∧
  (∀ (block typ : Nat),
     let x := s.ctx
     let d := s.view
     blockOk x.fuses.part block = true →
     exec (.blockHardwareError block typ false) s =
       .next (s.commit ((if typ == 6 || typ == 7 then d.report (blockSource block) typ 2 0 else d).blockReset block 2))) ∧
  (∀ (block typ : Nat),
     let x := s.ctx
     let d := s.view
     blockOk x.fuses.part block = true →
     let d1 := d.report (blockSource block) 0x05 0 0
     exec (.blockHardwareError block typ true) s =
       .next (s.commit (if (blockIndex block).1 == Reg.qdAePace 0 0 then d1.bump (Reg.qdAeEccCnt ((blockIndex block).2 / 64) ((blockIndex block).2 % 64)) 1 else d1))) ∧
  (∀ (mask : Nat),
     let x := s.ctx
     let d := s.view
     d.bar0Cpl x Reg.chipRstCtl = .success →
     exec (.qrst mask) s =
       .next (s.commit (((List.range 4).filter fun q => bit mask q).foldl (fun (d : Dev) q => if d.quadResettable q then (d.setFld Reg.chipRstCtl (4 + q) 1 1).quadReset x q 3 else d) d))) ∧
  (∀ (q : Nat),
     let x := s.ctx
     let d := s.view
     q < 4 →
     exec (.quadDrainDone q) s =
       .next (s.commit (d.drained x q))) ∧
  (∀ (q : Nat),
     let d := s.view
     q < 4 →
     (d.boot.quadResets.any fun r => r.quad == q && r.stage == 2) = true →
     exec (.quadPowerGood q) s =
       .next (s.commit (d.quadStage q 2 3))) ∧
  (∀ (q : Nat),
     let x := s.ctx
     let d := s.view
     q < 4 →
     (d.keeper (q + 1)).aligned = true →
     (d.boot.quadResets.any fun r => r.quad == q && r.stage == 3) = true →
     let d1 : Dev := { d with boot := { d.boot with quadResets := d.boot.quadResets.filter fun r => r.quad != q } }
     exec (.quadRefillDone q) s =
       .next (s.commit ((d1.setFld Reg.chipRstCtl (4 + q) 1 0).quadBack x q))) ∧
  (∀ (q : Nat),
     let x := s.ctx
     let d := s.view
     q < 4 →
     (d.boot.quadResets.any fun r => r.quad == q && r.stage != 1 && decide (r.since + 50000000 ≤ d.now)) = true →
     exec (.quadRejoinTimeout q) s =
       .next (s.commit (d.quadOff x q))) ∧
  (∀ (block : Nat) (b : BlockReset),
     let x := s.ctx
     let d := s.view
     d.blockPending block = some b →
     exec (.blockIdleAck block) s =
       .next (s.commit (d.blockDone x b 0))) ∧
  (∀ (block : Nat) (b : BlockReset),
     let x := s.ctx
     let d := s.view
     d.blockPending block = some b →
     (s.pending.any (acksIdle block)) = false →
     exec (.blockForcedReset block) s =
       .next (s.commit (d.blockDone x b 1))) ∧
  (∀ (block q : Nat) (b : BlockReset),
     let x := s.ctx
     let d := s.view
     d.blockPending block = some b →
     let d1 : Dev := { d with boot := { d.boot with blockResets := d.boot.blockResets.filter fun b => b.block != block } }
     quadOf block = some q →
     exec (.failedBlockReset block) s =
       .next (s.commit (d1.quadReset x q 5))) ∧
  (∀ (block : Nat) (b : BlockReset),
     let x := s.ctx
     let d := s.view
     d.blockPending block = some b →
     let d1 : Dev := { d with boot := { d.boot with blockResets := d.boot.blockResets.filter fun b => b.block != block } }
     quadOf block = none →
     exec (.failedBlockReset block) s =
       .next (s.commit (d1.warmReset x 5)))

/-- A compression pass starts and swaps, frames are released, fades sweep, end and swap, and staged rows reach a coma page. Each clause names the state and operands on which the command completes, and the next state. -/
def Obligations.KvEventsComplete : Prop :=
  ∀ s : State,
  (∀ (page : PKey),
     let x := s.ctx
     let d := s.view
     d.nextPass x (homeOf x.fuses.part page).1 = some page →
     exec (.compressionPassStart page) s =
       .next (s.commit (match d.workSlot x page with | some (d1, a) => { d1 with kv := { d1.kv with passes := replaceFirst (fun (p : CompPass) => p.key == page && p.running.isNone) (fun p => { p with running := some a }) d1.kv.passes } } | none => { d with kv := { d.kv with passes := d.kv.passes.eraseP (fun p => p.key == page && p.running.isNone), deferred := d.kv.deferred ++ [page] } }))) ∧
  (∀ (page : PKey) (p : CompPass) (h : Page) (slot : Nat),
     let x := s.ctx
     let d := s.view
     (d.kv.passes.find? fun p => p.key == page && p.running.isSome) = some p →
     d.page page = some h →
     p.running = some slot →
     d.baseHot (stackOf slot) = false →
     exec (.compressionHeaderSwap page) s =
       .next (s.commit ((d.passDone x page h slot).captureAll x))) ∧
  (∀ (owner : POwner),
     let x := s.ctx
     let d := s.view
     exec (.fp8FrameRelease owner) s =
       .next (s.commit (d.releaseFrames x fun r => r.owner == owner && r.areas.isEmpty && r.targets.isEmpty && !(d.frameRead r) && !(d.capturing owner)))) ∧
  (
     let x := s.ctx
     let d := s.view
     exec .fadeSweep s =
       .next (s.commit (d.kv.pages.foldl (fun (d : Dev) p => match d.fadeTo p.1 p.2 with | some f => d.startFade x p.1 f | none => d) d))) ∧
  (∀ (page : PKey) (t : FadeTrial) (p : Page),
     let x := s.ctx
     let d := s.view
     (d.kv.fades.find? fun f => f.key == page && f.done.isNone) = some t →
     d.baseHot (stackOf t.slot) = false →
     d.page page = some p →
     d.pageBad x page p 256 = false →
     let d1 := d.readFrames p 256
     let f := d1.faded x page p t.target t.slot
     fle f.1.vErr (d1.reg Reg.sessKvFadeBud) = true →
     exec (.fadeTrialDone page) s =
       .next (s.commit ({ d1 with kv := { d1.kv with fades := replaceFirst (fun (f : FadeTrial) => f.key == page) (fun _ => { t with done := some f.1, metaVal := f.2.1, payVal := f.2.2 }) d1.kv.fades } }))) ∧
  (∀ (page : PKey) (t : FadeTrial) (p : Page),
     let x := s.ctx
     let d := s.view
     (d.kv.fades.find? fun f => f.key == page && f.done.isNone) = some t →
     d.baseHot (stackOf t.slot) = false →
     d.page page = some p →
     d.pageBad x page p 256 = false →
     let d1 := d.readFrames p 256
     let f := d1.faded x page p t.target t.slot
     fle f.1.vErr (d1.reg Reg.sessKvFadeBud) = false →
     exec (.fadeTrialDone page) s =
       .next (s.commit ((((d1.dropFade page).freeSlots [t.slot]).putPage x page { p with fadeStop := true }).bump Reg.sessKvFadeRej 1))) ∧
  (∀ (page : PKey) (t : FadeTrial) (h : Page) (i : Nat),
     let x := s.ctx
     let d := s.view
     (d.kv.fades.find? fun f => f.key == page) = some t →
     t.done = some h →
     page.owner = .sess i →
     (d.desc i).state = .idle →
     let d1 := d.dropFade page
     (d1.page page).isSome = true →
     let d2 := (d1.st x t.slot (256 * d1.shape.d) t.payVal).st x h.meta1 (64 * d1.shape.d) t.metaVal
     exec (.fadeSwap page) s =
       .next (s.commit ((((d2.swapFrames page t.slot).putPage x page h).bump (if t.target == .k3s then Reg.sessKvFade3Cnt else Reg.sessKvFade2Cnt) 1).journal page))) ∧
  (∀ (idx layer head : Nat) (r : StagedRow),
     let x := s.ctx
     let d := s.view
     (d.kv.staged.find? fun r => r.idx == idx && r.layer == layer && r.head == head) = some r →
     let w := d.writeStaged x idx layer head
     w.2 = true →
     exec (.comaRowWrite idx layer head false) s =
       .next (s.commit (w.1)))

/-- TILE_DISPATCH, TILE_COMPLETE, PARTIAL_ARRIVE, SCORE_PAGE_DONE and attention engines going offline and online. Each clause names the state and operands on which the command completes, and the next state. -/
def Obligations.AttentionEventsComplete : Prop :=
  ∀ s : State,
  (∀ (q ae : Nat),
     let x := s.ctx
     let d := s.view
     q < 4 →
     ae < 16 →
     d.aeOnline q ae = true →
     d.aeBusy q ae = false →
     d.attn.aePendingOffline.contains (q, ae) = false →
     exec (.tileDispatch q ae) s =
       .next (s.commit (d.dispatchTile x q ae))) ∧
  (∀ (q ae busyNs n : Nat) (r : LayerReq) (t : WorkTile) (e : AttnEntry),
     let x := s.ctx
     let d := s.view
     (d.attn.reqs.findSome? fun r => (findPos (fun (t : WorkTile) => t.ae == some (q, ae) && !t.done) r.tiles).map fun n => (r, n)) = some (r, n) →
     r.tiles[n]? = some t →
     r.entries[t.entry]? = some e →
     (t.offload.all fun p => t.scored.contains p) = true →
     exec (.tileComplete q ae busyNs) s =
       .next (s.commit (d.completeTile x q ae busyNs r n t e))) ∧
  (∀ (req entry head tile n : Nat) (r : LayerReq) (t : WorkTile),
     let x := s.ctx
     let d := s.view
     (d.attn.reqs.find? fun r => r.id == req) = some r →
     (r.tiles.zipIdx.filter fun t => t.1.entry == entry && t.1.head == head)[tile]? = some (t, n) →
     t.done = true →
     t.delivered = false →
     let d1 := (d.updReq req fun r => { r with tiles := updAt (fun t => { t with delivered := true }) n r.tiles }).crossed fun o => o == .partials req t.key
     exec (.partialArrive req entry head tile) s =
       .next (s.commit ((d1.bump (Reg.qdMergeCount (d1.mergeQuad t.idx)) t.partials.length).settleEntry x req entry))) ∧
  (∀ (req entry head tile page n : Nat) (r : LayerReq) (t : WorkTile),
     let x := s.ctx
     let d := s.view
     (d.attn.reqs.find? fun r => r.id == req) = some r →
     findPos (fun (t : WorkTile) => t.entry == entry && t.head == head && t.order == tile && t.offload.contains page && !(t.scored.contains page)) r.tiles = some n →
     r.tiles[n]? = some t →
     let st := match tblGet page t.snap with | some p => stackOf p.payload | none => 0
     let d1 := d.updReq req fun r => { r with tiles := updAt (fun t => { t with scored := page :: t.scored }) n r.tiles }
     exec (.scorePageDone req entry head tile page) s =
       .next (s.commit ((d1.bump (Reg.qdScorePages (st / 3)) 1).chargeSome x (d1.desc t.idx).composition 1))) ∧
  (∀ (q ae : Nat),
     let x := s.ctx
     let d := s.view
     q < 4 →
     ae < 16 →
     d.bar0Cpl x (Reg.qdAeCtl q ae) = .success →
     exec (.aeOfflineReq q ae) s =
       .next (s.commit ((d.setFld (Reg.qdAeCtl q ae) 0 1 1).aeOfflineReq x q ae))) ∧
  (∀ (q ae : Nat),
     let x := s.ctx
     let d := s.view
     q < 4 →
     ae < 16 →
     d.bar0Cpl x (Reg.qdAeCtl q ae) = .success →
     exec (.aeOnlineReq q ae) s =
       .next (s.commit ((d.setFld (Reg.qdAeCtl q ae) 1 1 1).aeOnlineReq x q ae)))

/-- What follows the acknowledged writes of a park, the reservation and tiles of a revive, the releases, eviction under pressure and slot retirement. Each clause names the state and operands on which the command completes, and the next state. -/
def Obligations.TierEventsComplete : Prop :=
  ∀ s : State,
  (∀ (idx : Nat) (p : ParkOp),
     let x := s.ctx
     let d := s.view
     (d.tier.parks.find? fun p => p.idx == idx && p.waiting == 0) = some p →
     (d.tier.movesIn.find? fun (m : MoveIn) => m.idx == idx) = none →
     exec (.parkWritesDone idx) s =
       .next (s.commit ((d.parkDone x p).settleRings x))) ∧
  (∀ (idx : Nat) (p : ParkOp) (m : MoveIn),
     let x := s.ctx
     let d := s.view
     (d.tier.parks.find? fun p => p.idx == idx && p.waiting == 0) = some p →
     (d.tier.movesIn.find? fun (m : MoveIn) => m.idx == idx) = some m →
     exec (.parkWritesDone idx) s =
       .next (s.commit ((d.moveWritten x m p).settleRings x))) ∧
  (∀ (idx : Nat),
     let x := s.ctx
     let d := s.view
     exec (.parkRelease idx) s =
       .next (s.commit (d.releaseFrames x fun r => !(d.capturing (.sess idx)) && r.owner == POwner.sess idx && !r.areas.isEmpty))) ∧
  (∀ (idx : Nat),
     let x := s.ctx
     let d := s.view
     exec (.moveSourceRelease idx) s =
       .next (s.commit (d.releaseFrames x fun r => !(d.capturing (.sess idx)) && r.owner == POwner.sess idx && (!r.areas.isEmpty || !r.targets.isEmpty)))) ∧
  (∀ (idx : Nat) (r : ReviveOp) (m : Manifest) (c : ParkedImage) (d1 : Dev),
     let x := s.ctx
     let d := s.view
     (d.tier.revives.find? fun r => r.idx == idx && !r.reserved) = some r →
     tblGet idx d.tier.manifests = some m →
     tblGet idx d.tier.images = some c →
     d.reserveT1 x r.idx c = some d1 →
     let r1 := { r with reserved := true }
     let d2 : Dev := { d1 with tier := { d1.tier with revives := replaceFirst (fun (q : ReviveOp) => q.idx == r.idx) (fun _ => r1) d1.tier.revives, reviveWaiters := d1.tier.reviveWaiters.filter fun j => j != r.idx } }
     exec (.reviveReserved idx) s =
       .next (s.commit ((d2.startTargetReads x r1 m).settleRings x))) ∧
  (∀ (idx n : Nat) (ok : Bool) (r : ReviveOp) (m : Manifest) (c : ParkedImage),
     let x := s.ctx
     let d := s.view
     (d.tier.revives.find? fun r => r.idx == idx) = some r →
     tblGet idx d.tier.manifests = some m →
     tblGet idx d.tier.images = some c →
     r.reserved = true →
     r.landed.contains n = false →
     n < partsOf m.image m.tiles m.bytes →
     exec (.reviveTile idx n ok) s =
       .next (s.commit (((d.reviveTile x r m c n ok).settleRings x).settleLoans))) ∧
  (
     let x := s.ctx
     let d := s.view
     d.freeBelow x (d.fld Reg.sessPoolWater 0 8) = true →
     exec .pressureEviction s =
       .next (s.commit ((d.evictAll x).settleRings x))) ∧
  (∀ (prefixId : Nat),
     let x := s.ctx
     let d := s.view
     let reads := fun (k : PinCopy) => d.attn.reqs.any fun q => q.tiles.any fun t => t.ae.isSome && !t.done && t.snap.any fun s => k.addr ≤ s.2.payload && s.2.payload < k.addr + k.bytes
     let d1 : Dev := { d with tier := { d.tier with pins := d.tier.pins.filter fun k => !(k.key.owner == POwner.pfx prefixId && k.gone.isSome && !(reads k)) } }
     exec (.pinSpaceRelease prefixId) s =
       .next (s.commit (if d1.tier.pins.any fun k => k.key.owner == POwner.pfx prefixId then d1 else (d1.attn.reqs.filter fun q => q.pinned.contains prefixId).foldl (fun (d : Dev) q => d.replan x prefixId q) d1))) ∧
  (∀ (slot : Nat),
     let x := s.ctx
     let d := s.view
     d.slotFails slot = true →
     exec (.slotRetire slot) s =
       .next (s.commit (d.retire x slot))) ∧
  (∀ (slot : Nat) (u : SlotUse) (p : Page),
     let x := s.ctx
     let d := s.view
     d.kv.pool.retiring.contains slot = true →
     d.bulkHeld (stackOf slot) = false →
     (d.kv.pool.used.find? fun u => u.addr == slot) = some u →
     d.page u.key = some p →
     d.copyable u.key.owner = true →
     d.capturing u.key.owner = false →
     d.tileBad x u.key p (d.lenBefore u.key.owner.index) = false →
     exec (.retirementCopy slot) s =
       .next (s.commit (d.copyPage x u.key p))) ∧
  (∀ (idx : Nat) (o : ImpExp),
     let x := s.ctx
     let d := s.view
     (d.kv.impexp.find? fun o => o.idx == idx) = some o →
     exec (.kvImportExportEnd idx) s =
       .next (s.commit (d.endMx x o)))

/-- Offers, acceptance, rejection, tiles, the end of a move, its abort, its status and its timeouts. Offers, requests, grants, revocation, release, loss and deadlines of lent memory. Each clause names the state and operands on which the command completes, and the next state. -/
def Obligations.MoveAndLendingEventsComplete : Prop :=
  ∀ s : State,
  (∀ (offer : MoveOffer) (m : MoveIn),
     let x := s.ctx
     let d := s.view
     (d.tier.movesIn.find? fun m => m.meets offer) = some m →
     exec (.moveOffer offer) s =
       .next (s.commit (d.matchOffer x m offer))) ∧
  (∀ (offer : MoveOffer),
     let d := s.view
     (d.tier.movesIn.find? fun m => m.meets offer) = none →
     exec (.moveOffer offer) s =
       .next (s.commit ({ d with tier := { d.tier with offersWaiting := d.tier.offersWaiting ++ [(offer, d.now)] } }))) ∧
  (∀ (tag src ringB : Nat) (addrs : List Nat) (m : MoveOut),
     let x := s.ctx
     let d := s.view
     (d.moveOut fun m => m.tag == tag && m.dest == src && !m.accepted) = some m →
     tblGet m.idx d.tier.manifests = none →
     let f := d.moveContent x m.idx m.flat
     f.2 = false →
     let sent := d.sendContent m f.1
     sent.2 = true →
     m.ring = none →
     exec (.moveAccept tag ⟨src, ringB, addrs⟩) s =
       .next (s.commit (sent.1.updMoveOut m.idx fun m => { m with accepted := true, sentAll := true, sentAt := sent.1.now }))) ∧
  (∀ (tag : Nat) (status : Status) (m : MoveOut),
     let x := s.ctx
     let d := s.view
     (d.moveOut fun m => m.tag == tag && !m.accepted) = some m →
     m.ring = none →
     exec (.moveReject tag status) s =
       .next (s.commit (d.endMoveOut x m status))) ∧
  (∀ (tag src : Nat) (item : MoveItem) (m : MoveIn) (o : MoveOffer),
     let x := s.ctx
     let d := s.view
     (match item with | .again _ => false | _ => true) = true →
     (d.tier.movesIn.find? fun m => m.tag == tag && m.src == src && !m.held && !(d.tier.parks.any fun p => p.idx == m.idx)) = some m →
     m.offer = some o →
     exec (.moveTile tag src item) s =
       .next (s.commit (d.moveTile x m o item))) ∧
  (∀ (tag src n : Nat) (m : MoveOut),
     let x := s.ctx
     let d := s.view
     (d.moveOut fun m => m.tag == tag && m.dest == src && m.sentAll) = some m →
     exec (.moveTile tag src (.again n)) s =
       .next (s.commit (d.tileAgain x m n))) ∧
  (∀ (tag src gen : Nat) (m : MoveOut),
     let x := s.ctx
     let d := s.view
     (d.moveOut fun m => m.tag == tag && (m.dest == src || m.ring.isSome)) = some m →
     m.accepted = true →
     m.ring = none →
     exec (.moveDone tag src gen) s =
       .next (s.commit (d.finishMove x m))) ∧
  (∀ (tag peer : Nat) (status : Status) (m : MoveIn),
     let x := s.ctx
     let d := s.view
     (d.tier.movesIn.find? fun m => m.tag == tag && (m.src == peer || m.ring.isSome)) = some m →
     m.src = peer →
     m.ring = none →
     exec (.moveAbort tag peer status) s =
       .next (s.commit ((d.endMoveIn x m status).sendNote peer 0x10 2 "ABORTED" 64 [tag] 0))) ∧
  (∀ (tag peer : Nat) (status : Status),
     let d := s.view
     (d.tier.movesIn.find? fun m => m.tag == tag && (m.src == peer || m.ring.isSome)) = none →
     (d.moveOut fun m => m.tag == tag && (m.dest == peer || m.ring.isSome)) = none →
     (d.tier.outcomes.any fun o => o.1 == tag && o.2) = false →
     let d1 : Dev := { d with tier := { d.tier with offersWaiting := d.tier.offersWaiting.filter fun o => !(o.1.tag == tag && o.1.src == peer) } }
     exec (.moveAbort tag peer status) s =
       .next (s.commit ((d1.keepOutcome tag false).sendNote peer 0x10 2 "ABORTED" 64 [tag] 0))) ∧
  (∀ (tag peer : Nat) (status : Status) (m : MoveOut),
     let x := s.ctx
     let d := s.view
     (d.tier.movesIn.find? fun m => m.tag == tag && (m.src == peer || m.ring.isSome)) = none →
     (d.moveOut fun m => m.tag == tag && (m.dest == peer || m.ring.isSome)) = some m →
     m.ring = none →
     exec (.moveAbort tag peer status) s =
       .next (s.commit (d.endMoveOut x m (if m.cancel.isSome then .CANCELLED else status)))) ∧
  (
     let d := s.view
     exec .moveStatusTick s =
       .next (s.commit ((d.tier.movesOut.filter fun m => m.sentAll && !m.unresolved).foldl (fun (d : Dev) m => d.sendNote m.dest 0x10 2 "MOVE_STATUS" 64 [m.tag] 0) d))) ∧
  (∀ (tag src k : Nat),
     let d := s.view
     (d.tier.movesIn.any fun m => m.tag == tag && m.src == src) = false →
     (d.tier.outcomes.find? fun o => o.1 == tag) = some (k, true) →
     exec (.moveStatus tag src) s =
       .next (s.commit (d.sendNote src 0x10 2 "COMMITTED" 64 [tag] 0))) ∧
  (∀ (tag src : Nat),
     let d := s.view
     (d.tier.movesIn.any fun m => m.tag == tag && m.src == src) = false →
     (d.tier.outcomes.find? fun o => o.1 == tag) = none →
     exec (.moveStatus tag src) s =
       .next (s.commit (d.sendNote src 0x10 2 "ABORTED" 64 [tag] 0))) ∧
  (∀ (tag : Nat) (m : MoveOut),
     let x := s.ctx
     let d := s.view
     (d.moveOut fun m => m.tag == tag && (m.sentAll || m.cancel.isSome)) = some m →
     m.unresolved = false →
     exec (.moveStatusAnswer tag true) s =
       .next (s.commit (d.finishMove x m))) ∧
  (∀ (tag : Nat) (m : MoveOut),
     let x := s.ctx
     let d := s.view
     (d.moveOut fun m => m.tag == tag && (m.sentAll || m.cancel.isSome)) = some m →
     m.unresolved = false →
     exec (.moveStatusAnswer tag false) s =
       .next (s.commit (d.endMoveOut x m (if m.cancel.isSome then .CANCELLED else .FAULT_LINK)))) ∧
  (∀ (tag : Nat) (m : MoveOut),
     let x := s.ctx
     let d := s.view
     (d.moveOut fun m => m.tag == tag && (m.sentAll || m.cancel.isSome) && !m.unresolved && (match m.cancel with | some (_, t) => t | none => m.sentAt) + d.fld Reg.sessMoveTo 16 16 * 1000000 ≤ d.now) = some m →
     m.cancel = none →
     let d1 := (d.bump Reg.sessMoveUnres 1).report sessSource 0x63 3 (d.handleOf m.idx)
     let d2 := d1.event x 9 (d1.handleOf m.idx) tag 0
     exec (.moveResolveTimeout tag) s =
       .next (s.commit ((d2.updMoveOut m.idx fun m => { m with unresolved := true }).finish? x m.cmd .FAULT_LINK 1))) ∧
  (∀ (tag : Nat) (m : MoveIn),
     let x := s.ctx
     let d := s.view
     (d.tier.movesIn.find? fun m => m.tag == tag && m.offer.isNone && m.since + d.fld Reg.sessMoveTo 0 16 * 1000000 ≤ d.now) = some m →
     exec (.moveInTimeout tag) s =
       .next (s.commit ((d.tellRing m .FAULT_TIMEOUT).endMoveIn x m .FAULT_TIMEOUT))) ∧
  (∀ (tag : Nat) (o : MoveOffer × Ns),
     let d := s.view
     let late := fun (o : MoveOffer × Ns) => o.1.tag == tag && o.2 + d.fld Reg.sessMoveTo 0 16 * 1000000 ≤ d.now
     (d.tier.offersWaiting.find? late) = some o →
     exec (.moveOfferTimeout tag) s =
       .next (s.commit (({ d with tier := { d.tier with offersWaiting := d.tier.offersWaiting.eraseP late } } : Dev).sendNote o.1.src 0x10 2 "MOVE_REJECT" 64 [tag, Status.REFUSED_STATE.code] 0))) ∧
  (
     let x := s.ctx
     let d := s.view
     d.tier.offeredAt + 10000000 ≤ d.now →
     bit (d.reg Reg.sessLendCtl) 31 = true →
     d.fld Reg.sessPoolWater 24 8 * d.poolSlots x < d.poolFree x * 100 →
     exec .lendOfferTick s =
       .next (s.commit (d.tier.lendList.foldl (fun (d : Dev) n => d.sendNote n 0x30 5 "OFFER" 64 [d.lendable x, d.slotsLent / 16384] 0) ({ d with tier := { d.tier with offeredAt := d.now } } : Dev)))) ∧
  (∀ (lender units recallable : Nat),
     let d := s.view
     bit (d.reg Reg.sessLendCtl) 30 = true →
     0 < units →
     let d1 : Dev := { d with tier := { d.tier with offers := d.tier.offers.filter (fun o => o.1 != lender) ++ [(lender, units)] } }
     exec (.offer lender units recallable) s =
       .next (s.commit (if d1.draw.1 % (units + 1) == 0 then d1.draw.2 else d1.draw.2.sendNote lender 0x30 5 "LOAN_REQ" 64 [d1.draw.1 % (units + 1), recallable] 0))) ∧
  (∀ (borrower units : Nat),
     let x := s.ctx
     let d := s.view
     let d1 := d.contact borrower
     let n := min units (d1.lendable x)
     n ≠ 0 →
     d1.tier.lent.length < 256 →
     let number := unusedNumber (d1.tier.lent.map (·.number)) 256
     let us := unusedNumbers ((d1.tier.lent.filter fun l => l.peer == borrower).flatMap (·.units)) n
     let per := us.zipIdx.map fun u => (u.1, ((d1.freeSlotList x).drop (16384 * u.2)).take 16384)
     exec (.loanReq borrower units) s =
       .next (s.commit (({ d1 with tier := { d1.tier with lent := d1.tier.lent ++ [(⟨borrower, number, us, per, none, true⟩ : Loan)] } } : Dev).sendNote borrower 0x30 5 "LOAN_GRANT" 64 ([number, n] ++ us) 0))) ∧
  (∀ (lender number w : Nat) (units : List Nat),
     let d := s.view
     (d.windowOf lender).or ((List.range 64).find? fun w => !(bit (d.reg (Reg.fabWin w)) 31)) = some w →
     let d1 := (d.setFld (Reg.fabWin w) 0 16 lender).setFld (Reg.fabWin w) 31 1 1
     exec (.loanGrant lender number units) s =
       .next (s.commit ({ d1 with tier := { d1.tier with borrowed := d1.tier.borrowed ++ [(⟨lender, number, units, [], none, true⟩ : Loan)] } }))) ∧
  (∀ (lender number unit : Nat),
     let x := s.ctx
     let d := s.view
     (d.tier.borrowed.any fun l => l.peer == lender && l.number == number && l.units.contains unit) = true →
     let upd := fun (l : Loan) => if l.peer == lender && l.number == number then { l with revoking := some (unit, d.now) } else l
     let d1 := ({ d with tier := { d.tier with borrowed := d.tier.borrowed.map upd } } : Dev).bump Reg.sessRevokeCnt 1
     let parks := d1.tier.parks.flatMap fun p => (p.targets.zipIdx.filter fun t => t.1.tier == 2 && d1.unitAt t.1.location == (lender, unit)).map fun t => (p.idx, t.2)
     let d2 := parks.foldl (fun (d : Dev) p => d.parkFailed x p.1 p.2 2) d1
     let d3 := d2.tier.movesIn.foldl (fun (d : Dev) m => d.placeAgain x m lender unit) d2
     exec (.revoke lender number unit) s =
       .next (s.commit (((d3.areasIn lender unit).foldl (fun (d : Dev) a => d.evacuate x a.1 a.2) d3).settleLoans))) ∧
  (∀ (borrower number unit : Nat),
     let d := s.view
     let d1 := d.contact borrower
     d1.isLent borrower number unit = true →
     exec (.release borrower number unit) s =
       .next (s.commit (d1.reclaim borrower number unit))) ∧
  (∀ (peer number : Nat) (l : Loan),
     let x := s.ctx
     let d := s.view
     (d.tier.borrowed.find? fun l => l.peer == peer && l.number == number) = some l →
     exec (.loanVoid peer number) s =
       .next (s.commit (l.units.foldl (fun (d : Dev) u => d.loseUnit x peer number u) d))) ∧
  (∀ (lender number unit : Nat),
     let x := s.ctx
     let d := s.view
     (d.tier.borrowed.any fun l => l.peer == lender && l.number == number && (match l.revoking with | some (u, t) => u == unit && decide (t + 20000000 ≤ d.now) | none => false)) = true →
     exec (.evacuationDeadline lender number unit) s =
       .next (s.commit (d.loseUnit x lender number unit))) ∧
  (∀ (borrower number unit : Nat),
     let d := s.view
     (d.tier.lent.any fun l => l.peer == borrower && l.number == number && (match l.revoking with | some (u, t) => u == unit && decide (t + 21000000 ≤ d.now) | none => false)) = true →
     exec (.revokeReclaim borrower number unit) s =
       .next (s.commit (d.reclaim borrower number unit))) ∧
  (
     let x := s.ctx
     let d := s.view
     d.freeBelow x (d.fld Reg.sessPoolWater 16 8) = true →
     exec .loanRevokeTrigger s =
       .next (s.commit ((d.tier.lent.filter fun l => l.revoking.isNone).foldl (fun (d : Dev) l => match l.units.getLast? with | none => d | some u => ({ d with tier := { d.tier with lent := d.tier.lent.map fun k => if k.peer == l.peer && k.number == l.number then { k with revoking := some (u, d.now) } else k } } : Dev).sendNote l.peer 0x30 5 "REVOKE" 64 [l.number, u] 0) d)))

/-- MASK_PREFETCH, DELTA_TILE_COMPLETE, TAIL_ENTRY_RUN of an entry that is ready, hook replies and deadlines, and tail pipes going offline and online. A channel's backlog, text engines and query engines going offline and online, scans and timeouts of queries, folding, compaction and its publication. Each clause names the state and operands on which the command completes, and the next state. -/
def Obligations.TailTextAndRecallEventsComplete : Prop :=
  ∀ s : State,
  (∀ (k : MaskKey) (rest : List MaskKey),
     let d := s.view
     d.tail.prefetch = k :: rest →
     d.tail.pipes.any (·.up) = true →
     exec .maskPrefetch s =
       .next (s.commit ((({ d with tail := { d.tail with prefetch := rest } } : Dev).insertMask k).bump Reg.tailMaskPrefetch 1))) ∧
  (∀ (req n k a : Nat) (q : TailReq) (t : DeltaTile),
     let x := s.ctx
     let d := s.view
     (d.tail.reqs.find? fun q => q.id == req) = some q →
     q.deltas[n]? = some t →
     t.ae = some (k, a) →
     t.done = false →
     let sums := d.deltaSums x q t
     let d1 := d.updTail req fun q => { q with deltas := updAt (fun t => { t with done := true, sums := sums }) n q.deltas }
     let d2 := (d1.releaseDemand q.booking (deltaKey t.variant) t.demand).bump (Reg.qdAeTiles k a) 1
     let d3 := t.entries.foldl (fun (d : Dev) m => match q.entries[m]? with | some e => d.chargeSome x (d.desc e.idx).composition 0 | none => d) d2
     exec (.deltaTileComplete req n) s =
       .next (s.commit (d3.aeFreed x k a))) ∧
  (∀ (req entry pipe : Nat) (q : TailReq) (e : TailEntry),
     let x := s.ctx
     let d := s.view
     (d.tail.reqs.find? fun q => q.id == req) = some q →
     q.entries[entry]? = some e →
     pipe < 4 →
     (d.pipe pipe).up = true →
     (d.pipe pipe).pendingOff = false →
     d.pipeBusy pipe = false →
     d.pipeResets pipe = false →
     d.tailReady q entry e = true →
     (d.tail.reqs.any fun r => (decide (r.deadline < q.deadline) || (r.deadline == q.deadline && decide (r.booking < q.booking))) && r.entries.zipIdx.any fun a => d.tailReady r a.2 a.1) = false →
     exec (.tailEntryRun req entry pipe) s =
       .next (s.commit ((d.runEntry x q entry e pipe).settleTails x))) ∧
  (∀ (req entry token rngAdv : Nat) (q : TailReq) (e : TailEntry),
     let x := s.ctx
     let d := s.view
     d.hooked req entry = some (q, e) →
     let posted := match e.stage with | .hook _ t _ _ => t | _ => d.now
     d.now ≤ posted + d.fld Reg.tailHookCtl 0 16 →
     exec (.hookReply req entry token rngAdv) s =
       .next (s.commit ((d.hookReply x q entry e token rngAdv).settleTails x))) ∧
  (∀ (req entry p builtin : Nat) (posted : Ns) (dead : Bool) (q : TailReq) (e : TailEntry),
     let x := s.ctx
     let d := s.view
     d.hooked req entry = some (q, e) →
     e.stage = .hook p posted dead builtin →
     posted + d.fld Reg.tailHookCtl 0 16 ≤ d.now →
     exec (.hookDeadline req entry) s =
       .next (s.commit ((((d.dropHook x req entry).bump Reg.tailHookLate 1).hookMissed x q entry e (d.pick x q entry e) 0x40).settleTails x))) ∧
  (∀ (p : Nat),
     let x := s.ctx
     let d := s.view
     p < 4 →
     d.bar0Cpl x Reg.tailPipeCtl = .success →
     let d1 := d.setFld Reg.tailPipeCtl p 1 1
     (d1.pipe p).offline = false →
     exec (.pipeOfflineReq p) s =
       .next (s.commit (({ d1 with tail := { d1.tail with pipes := setAt .reset { d1.pipe p with pendingOff := true } p d1.tail.pipes } } : Dev).sweepPipes))) ∧
  (∀ (p : Nat),
     let x := s.ctx
     let d := s.view
     p < 4 →
     d.bar0Cpl x Reg.tailPipeCtl = .success →
     let d1 := (d.setFld Reg.tailPipeCtl (4 + p) 1 1).setFld Reg.tailPipeCtl (4 + p) 1 0
     (d1.pipe p).offline = true →
     (d1.pipe p).cause = 1 →
     exec (.pipeOnlineReq p) s =
       .next (s.commit (({ d1 with tail := { d1.tail with pipes := setAt .reset .reset p d1.tail.pipes } } : Dev).pipeState p 1))) ∧
  (∀ (channel : Nat),
     let x := s.ctx
     let d := s.view
     exec (.channelBacklogSend channel) s =
       .next (s.commit (((d.drainChannel x channel ((d.channel channel).backlog.length)).putLoss channel).drainChannel x channel ((d.channel channel).backlog.length + 1)))) ∧
  (∀ (q : Nat),
     let x := s.ctx
     let d := s.view
     q < 8 →
     d.bar0Cpl x Reg.textEngCtl = .success →
     let d1 := (d.setFld Reg.textEngCtl q 1 1).setFld Reg.textEngCtl q 1 0
     (getAt Pipe.reset q d1.text.engines).offline = false →
     exec (.textOfflineReq q) s =
       .next (s.commit (d1.setEngine q ⟨1, true, false⟩ 2))) ∧
  (∀ (q : Nat),
     let x := s.ctx
     let d := s.view
     q < 8 →
     d.bar0Cpl x Reg.textEngCtl = .success →
     let d1 := (d.setFld Reg.textEngCtl (8 + q) 1 1).setFld Reg.textEngCtl (8 + q) 1 0
     (getAt Pipe.reset q d1.text.engines).offline = true →
     (getAt Pipe.reset q d1.text.engines).cause = 1 →
     exec (.textOnlineReq q) s =
       .next (s.commit (d1.setEngine q .reset 1))) ∧
  (∀ (query n list engine : Nat) (k : QueryCmd) (ix : Index) (q : Query),
     let x := s.ctx
     let d := s.view
     (d.rcl.queries.find? fun c => c.id == query) = some k →
     d.index k.index = some ix →
     k.queries[n]? = some q →
     d.domainUp .rcl = true →
     q.status = none →
     q.todo.contains (list, engine) = true →
     d.scanHeld engine = false →
     exec (.recallScanDone query n list engine) s =
       .next (s.commit (d.scanPart x k ix n q list engine))) ∧
  (∀ (query : Nat) (k : QueryCmd),
     let x := s.ctx
     let d := s.view
     (d.rcl.queries.find? fun c => c.id == query) = some k →
     k.since + d.fld Reg.recallCtl 16 16 * 1000000 ≤ d.now →
     exec (.recallQueryTimeout query) s =
       .next (s.commit (d.timeoutQuery x k))) ∧
  (∀ (index row : Nat),
     let x := s.ctx
     let d := s.view
     d.rclWorks = true →
     exec (.recallFold index row) s =
       .next (s.commit (d.fold x index row))) ∧
  (∀ (index : Nat) (ix : Index),
     let d := s.view
     d.index index = some ix →
     d.rclWorks = true →
     exec (.compactionStart index) s =
       .next (s.commit (d.startCompaction index ix))) ∧
  (∀ (index : Nat) (ix : Index) (p : Compaction),
     let x := s.ctx
     let d := s.view
     d.index index = some ix →
     (d.rcl.compactions.find? fun p => p.index == index && p.started) = some p →
     d.rclWorks = true →
     exec (.compactionPublish index) s =
       .next (s.commit (d.publishPass x p ix))) ∧
  (∀ (e : Nat),
     let x := s.ctx
     let d := s.view
     e < 4 →
     d.bar0Cpl x Reg.recallEngCtl = .success →
     let d1 := d.setFld Reg.recallEngCtl e 1 1
     (getAt Pipe.reset e d1.rcl.engines).offline = false →
     exec (.qeOfflineReq e) s =
       .next (s.commit (({ d1 with rcl := { d1.rcl with engines := setAt .reset { getAt Pipe.reset e d1.rcl.engines with pendingOff := true } e d1.rcl.engines } } : Dev).settleQes))) ∧
  (∀ (e : Nat),
     let x := s.ctx
     let d := s.view
     e < 4 →
     d.bar0Cpl x Reg.recallEngCtl = .success →
     let d1 := (d.setFld Reg.recallEngCtl (4 + e) 1 1).setFld Reg.recallEngCtl (4 + e) 1 0
     (getAt Pipe.reset e d1.rcl.engines).offline = true →
     (getAt Pipe.reset e d1.rcl.engines).cause = 1 →
     exec (.qeOnlineReq e) s =
       .next (s.commit (d1.setQe e .reset 1)))

/-- The schedule, a failure warning outside its hold time, the acknowledgements of shards and catalogues, and a run's timeout. Each clause names the state and operands on which the command completes, and the next state. -/
def Obligations.CheckpointEventsComplete : Prop :=
  ∀ s : State,
  (
     let x := s.ctx
     let d := s.view
     let period := d.fld Reg.ckptCtl 16 16 * 1000000000
     period ≠ 0 →
     d.ckpt.schedAt / period < d.now / period →
     let d1 : Dev := { d with ckpt := { d.ckpt with schedAt := d.now } }
     d1.ckpt.run = none →
     exec .ckptSchedule s =
       .next (s.commit ((d1.autoRun x 2).settleRun x))) ∧
  (
     let d := s.view
     let period := d.fld Reg.ckptCtl 16 16 * 1000000000
     period ≠ 0 →
     d.ckpt.schedAt / period < d.now / period →
     let d1 : Dev := { d with ckpt := { d.ckpt with schedAt := d.now } }
     d1.ckpt.run.isSome = true →
     exec .ckptSchedule s =
       .next (s.commit (d1.bump Reg.ckptSchedSkip 1))) ∧
  (
     let x := s.ctx
     let d := s.view
     d.fld Reg.ckptWarnCtl 0 16 ≠ 0 →
     d.fld Reg.ckptWarnCtl 0 16 ≤ d.err.warnCount →
     d.ckpt.warnedWin ≠ some d.err.warnWin →
     let d1 : Dev := { d with ckpt := { d.ckpt with warnedWin := some d.err.warnWin } }
     let d2 := (d1.bump Reg.ckptWarnCnt 1).event x 2 d1.err.warnCount (d1.fld Reg.ckptWarnCtl 16 16) (d.err.warnWin * d1.warnWindow)
     d2.ckpt.warnStart = none →
     d2.ckpt.run = none →
     exec .failureWarning s =
       .next (s.commit (d2.warnRun x))) ∧
  (∀ (part : Nat) (ok : Bool),
     let x := s.ctx
     let d := s.view
     exec (.shardAck part ok) s =
       .next (s.commit ((d.shardAck x part ok).settleRun x))) ∧
  (∀ (target : Nat) (ok : Bool),
     let x := s.ctx
     let d := s.view
     exec (.catalogueAck target ok) s =
       .next (s.commit ((d.catalogueAck x target ok).settleRun x))) ∧
  (∀ (r : CkRun),
     let x := s.ctx
     let d := s.view
     d.ckpt.run = some r →
     r.since + d.fld Reg.ckptRunTo 0 16 * 1000000000 ≤ d.now →
     exec .ckptRunTimeout s =
       .next (s.commit ((d.abandonRun x .FAULT_TIMEOUT).settleRun x)))

/-- PORT_TRAINED, INIT with values the port accepts, retries, lane and width changes, and the ways a port goes down. Each clause names the state and operands on which the command completes, and the next state. -/
def Obligations.FabricLinkEventsComplete : Prop :=
  ∀ s : State,
  (∀ (port lanes nonce : Nat),
     let d := s.view
     d.portOn port = true →
     d.portState port = 1 →
     lanes &&& d.ownLanes port = d.ownLanes port →
     let d1 := d.setPort port fun P => { P with fecLock := true, keys := some (nonce, 0), txSeq := 0, rxExpect := 0, retry := [] }
     exec (.portTrained port lanes nonce) s =
       .next (s.commit ((d1.setPortState port 2).ctrlFlit port "INIT" ([d1.fabricAddr, 1, d1.ownLanes port] ++ rxBuffers ++ [d1.fld (Reg.cvfCtl port) 28 2, d1.fld (Reg.cvfCtl port) 20 4, nonce])))) ∧
  (∀ (port : Nat) (init : InitFlit),
     let x := s.ctx
     let d := s.view
     d.portOn port = true →
     d.portState port = 2 →
     (d.port port).initDone = false →
     d.initRefused port init = false →
     let own := match (d.port port).keys with | some k => k.1 | none => 0
     let keys := if init.enc == 1 then some (d.portKeys x own init) else none
     let d1 := d.setPort port fun P => { P with initDone := true, peerEnc := init.enc, peerMask := init.mask % 256, credits := init.credits.take 6, keys := keys, bringUps := P.bringUps + 1, txCount := 0, rxCount := 0, rxExpect := 1 }
     let d2 := (d1.setReg (Reg.cvfPeer port) (init.kind % 256 * 2 ^ 24 + init.addr % 65536)).setWidth x port
     d2.portWidth port ≠ 0 →
     exec (.init port init) s =
       .next (s.commit (d2.timeStart port))) ∧
  (∀ (port : Nat),
     let d := s.view
     d.portOn port = true →
     d.portState port = 0 →
     (d.port port).retryAt.getD 0 ≤ d.now →
     d.operational = true →
     exec (.portRetry port) s =
       .next (s.commit (d.setPortState port 1))) ∧
  (∀ (port : Nat),
     let x := s.ctx
     let d := s.view
     port < 8 →
     d.portState port = 1 ∨ d.portState port = 2 →
     exec (.portTrainingFailed port) s =
       .next (s.commit (d.portDown x port 2))) ∧
  (∀ (port mask : Nat),
     let x := s.ctx
     let d := s.view
     d.portUp port = true →
     let d1 := (d.ctrlSeen port).setPort port fun P => { P with peerMask := mask % 256 }
     exec (.degrade port mask) s =
       .next (s.commit ((d1.ctrlFlit port "DEGRADE_ACK" [d1.ownLanes port, (d1.port port).txSeq]).newWidth x port))) ∧
  (∀ (port mask seq : Nat),
     let x := s.ctx
     let d := s.view
     d.portUp port = true →
     (d.port port).change.isSome = true →
     exec (.degradeAck port mask seq) s =
       .next (s.commit (((d.ctrlSeen port).setPort port fun P => { P with peerMask := mask % 256 }).newWidth x port))) ∧
  (∀ (port : Nat) (w : WidthChange),
     let x := s.ctx
     let d := s.view
     d.portUp port = true →
     (d.port port).change = some w →
     w.since + 50000 ≤ d.now →
     exec (.widthChangeTimeout port) s =
       .next (s.commit (d.portDown x port 6))) ∧
  (∀ (port lane : Nat) (lockLost : Bool),
     let d := s.view
     d.portUp port = true →
     lane < 8 →
     bit (d.ownLanes port) lane = true →
     lockLost = true ∨ d.fld (Reg.cvfRetryCtl port) 16 8 ≤ d.laneUnc port lane →
     let d1 := d.setPort port fun P => { P with retired := P.retired + 2 ^ lane }
     let d2 := (d1.bump (Reg.cvfLaneDrop port) 1).report (portSource port) 0x40 2 lane
     d2.ownLanes port ≠ 0 →
     let d3 := (d2.setPortState port 4).ctrlFlit port "DEGRADE" [d2.ownLanes port]
     exec (.laneRetire port ⟨lane, lockLost⟩) s =
       .next (s.commit (d3.setPort port fun P => { P with change := some ⟨d3.now, d3.ownLanes port⟩ }))) ∧
  (∀ (port : Nat),
     let x := s.ctx
     let d := s.view
     port < 8 →
     d.portState port ≠ 0 →
     exec (.down port) s =
       .next (s.commit (d.portDown x port 7))) ∧
  (∀ (port : Nat),
     let x := s.ctx
     let d := s.view
     d.portUp port = true →
     exec (.laneLockLost port) s =
       .next (s.commit (d.portDown x port 8))) ∧
  (∀ (port : Nat),
     let x := s.ctx
     let d := s.view
     port < 8 →
     d.bar0Cpl x (Reg.cvfCtl port) = .success →
     let d1 := d.setFld (Reg.cvfCtl port) 30 1 1
     d1.portOn port = true →
     exec (.cvfRetrain port) s =
       .next (s.commit (((d1.portDown x port 9).setPort port fun P => { P with retired := 0 }).setPortState port 1))) ∧
  (∀ (port : Nat),
     let d := s.view
     d.portUp port = true →
     (d.port port).timeAt + 1000000 ≤ d.now →
     exec (.timeExchange port) s =
       .next (s.commit (d.timeStart port))) ∧
  (∀ (port : Nat),
     let d := s.view
     d.portOn port = true →
     (d.port port).initDone = true →
     exec (.timeFlit port none) s =
       .next (s.commit (d.send (.cvfFlit port "TIME_ANSWER" [d.now, d.now])))) ∧
  (∀ (port t1 t2 t3 : Nat),
     let d := s.view
     d.portOn port = true →
     (d.port port).initDone = true →
     (d.port port).timeT1 = some t1 →
     let peer : Int := (((t2 : Int) - t1) + ((t3 : Int) - d.now)) / 2
     let dly : Int := (((d.now : Int) - t1) - ((t3 : Int) - t2)) / 2
     let d1 := d.setPort port fun P => { P with ofs := -peer, prevOfs := P.ofs, prevAt := P.exchangeAt, exchangeAt := d.now, linkDly := dly.toNat, timeT1 := none }
     let d2 := d1.setFld (Reg.cvfTsync port) 0 16 (min dly.toNat 0xFFFF)
     exec (.timeFlit port (some (t2, t3))) s =
       .next (s.commit (if d2.portState port == 2 then ((d2.setPortState port 3).setFld (Reg.cvfCtl port) 30 1 0).settleReach else d2)))

/-- What a port that is up does with flits and frames, the four window messages, the shaper's refill, a sample, and the start of a frame. Each clause names the state and operands on which the command completes, and the next state. -/
def Obligations.FabricTrafficEventsComplete : Prop :=
  ∀ s : State,
  (∀ (port ack credCls credN : Nat),
     let d := s.view
     d.portUp port = true →
     credCls < 6 →
     let d1 := d.ackUpTo port ack
     exec (.idleFlit port ack credCls credN) s =
       .next (s.commit (d1.setPort port fun P => { P with credits := setAt 0 (getAt 0 credCls P.credits + credN) credCls P.credits }))) ∧
  (∀ (port : Nat) (frame : FrameIn) (d3 : Dev),
     let x := s.ctx
     let d := s.view
     d.portUp port = true →
     frame.cls < 6 →
     frame.flitsOk = true →
     let d0 := ((frame.fec.filter fun w => w.1 < 8).foldl (fun (d : Dev) w => d.codewords port w) d).refillDue x port
     frame.seq = (d0.port port).rxExpect →
     let d1 := d0.setPort port fun P => { P with rxExpect := (P.rxExpect + frame.flits) % 65536, rxHold := false }
     let d2 := (d1.send (.cvfFlit port "CREDIT" [frame.cls, frame.flits, (d1.port port).rxExpect])).countRx port frame
     frame.tagOk = true →
     d2.police port frame = some d3 →
     ((d3.port port).reasm.any fun r => r.has frame && r.discarded) = false →
     exec (.frameReceive port frame) s =
       .next (s.commit (if frame.dst == d3.fabricAddr then d3.reassemble x port frame else d3.forward port frame))) ∧
  (∀ (port seq : Nat),
     let x := s.ctx
     let d := s.view
     d.portUp port = true →
     ((d.port port).retry.any fun f => f.seq == seq) = true →
     let k := (d.port port).retry.findIdx fun f => f.seq == seq
     exec (.nak port seq) s =
       .next (s.commit (((d.setPort port fun P => { P with retry := P.retry.drop k }).settleSent port).replayFrom x port seq))) ∧
  (∀ (port : Nat) (f : SentFlit) (rest : List SentFlit),
     let x := s.ctx
     let d := s.view
     (d.port port).retry = f :: rest →
     d.portUp port = true →
     (d.port port).lastAdvance + 2000 ≤ d.now →
     exec (.replayTimeout port) s =
       .next (s.commit (d.replayFrom x port f.seq))) ∧
  (∀ (cls msgId reason : Nat) (p : Nat × Msg),
     let x := s.ctx
     let d := s.view
     d.sentMsg msgId = some p →
     p.2.cls = cls →
     exec (.dropNotice cls msgId reason) s =
       .next (s.commit ((d.failMsg x p true).settleTransfers x))) ∧
  (∀ (port src cls off len val : Nat) (ps : List (Nat × Nat)),
     let x := s.ctx
     let d := s.view
     d.portUp port = true →
     len ≤ 0x100000 →
     cls = 2 ∨ cls = 3 →
     let d1 := d.contact src
     d1.windowParts src (len / max 1 d1.slotBytes + 2) off len = some ps →
     let d2 := (ps.foldl (fun (a : Dev × Nat) r => (a.1.st x r.1 r.2 (a.2 % 2 ^ (8 * r.2)), a.2 / 2 ^ (8 * r.2))) (d1, val)).1
     exec (.memWr port ⟨src, cls⟩ off len val) s =
       .next (s.commit (d2.sendNote src 0x12 cls "MEM_WR_ACK" 16 [off, len] (d2.loanAt src off)))) ∧
  (∀ (port src cls off len : Nat) (ps : List (Nat × Nat)),
     let x := s.ctx
     let d := s.view
     d.portUp port = true →
     len ≤ 0x100000 →
     cls = 2 ∨ cls = 3 →
     let d1 := d.contact src
     d1.windowParts src (len / max 1 d1.slotBytes + 2) off len = some ps →
     (ps.any fun r => d1.mediaBad r.1 r.2) = false →
     let d2 := ps.foldl (fun (d : Dev) r => d.eccRead r.1 r.2 true) d1
     exec (.memRd port ⟨src, cls⟩ off len) s =
       .next (s.commit (d2.sendNote src 0x14 cls "MEM_RD_DATA" (16 + len) ([off, len] ++ ps.flatMap fun r => d2.ldBytes x r.1 r.2) (d2.loanAt src off)))) ∧
  (∀ (msgId : Nat) (p : Nat × Msg),
     let x := s.ctx
     let d := s.view
     d.sentMsg msgId = some p →
     p.2.kind = 0x11 →
     exec (.memWrAck msgId) s =
       .next (s.commit (((d.dropSent msgId).msgDone x p.2.owner).settleTransfers x))) ∧
  (∀ (msgId : Nat) (p : Nat × Msg),
     let x := s.ctx
     let d := s.view
     d.sentMsg msgId = some p →
     p.2.kind = 0x13 →
     exec (.memRdData msgId) s =
       .next (s.commit (((d.dropSent msgId).msgDone x p.2.owner).settleTransfers x))) ∧
  (∀ (msgId : Nat) (p : Nat × Msg),
     let x := s.ctx
     let d := s.view
     d.sentMsg msgId = some p →
     p.2.kind = 0x11 ∨ p.2.kind = 0x13 →
     exec (.memErr msgId) s =
       .next (s.commit ((d.failMsg x p false).settleTransfers x))) ∧
  (∀ (port : Nat),
     let x := s.ctx
     let d := s.view
     port ≤ 8 →
     d.shaperOn port = true →
     exec (.shaperRefill port) s =
       .next (s.commit (d.refillDue x port))) ∧
  (∀ (port : Nat),
     let x := s.ctx
     let d := s.view
     port ≤ 8 →
     d.shaperOn port = true →
     exec (.queueSample port) s =
       .next (s.commit ((d.refillDue x port).sampleDue port))) ∧
  (∀ (port c : Nat) (f : EgFrame) (q : ClassQ),
     let x := s.ctx
     let d := s.view
     d.portUp port = true →
     d.portState port ≠ 4 →
     let d1 := (d.refillDue x port).sampleDue port
     d1.pickFrame port = some (c, f, q) →
     exec (.frameStart port) s =
       .next (s.commit (d1.startFrame x port c f q)))

/-- POWER_ON_RESET, rails out of range, the two reset pins, RST_CTL.WARM and a restart of the start-up. Each clause names the state and operands on which the command completes, and the next state. -/
def Obligations.ResetPinsComplete : Prop :=
  ∀ s : State,
  (∀ (straps rnd : Nat) (testMode : Bool),
     let x := s.ctx
     let d := s.view
     let n := d.powerOn x rnd
     exec (.powerOnReset straps testMode rnd) s =
       .next (s.commit ((({ n with boot := { n.boot with heldPerst := d.boot.heldPerst, heldWarm := d.boot.heldWarm, testMode := testMode } } : Dev).sampleStraps straps).beginStart))) ∧
  (
     let x := s.ctx
     let d := s.view
     let n := d.powerOn x 0
     exec .railOutOfRange s =
       .next (s.commit ({ n with boot := { n.boot with heldPerst := d.boot.heldPerst, heldWarm := d.boot.heldWarm, railsOut := true } }))) ∧
  (
     let x := s.ctx
     let d := s.view
     d.boot.railsOut = false →
     let n := d.coldReset x 1 0
     let n1 : Dev := { n with boot := { n.boot with heldPerst := true, heldWarm := d.boot.heldWarm } }
     exec .perstNAssert s =
       .next (s.commit (if d.eclipse then n1.enterEclipse else n1))) ∧
  (∀ (straps rnd : Nat),
     let d := s.view
     d.boot.heldPerst = true →
     d.boot.railsOut = false →
     let d1 : Dev := { d with boot := { d.boot with heldPerst := false } }
     let d2 := ({ d1 with sec := d1.sec.fresh rnd } : Dev).sampleStraps straps
     exec (.perstNDeassert straps rnd) s =
       .next (s.commit (if d2.eclipse then d2 else d2.beginStart))) ∧
  (
     let x := s.ctx
     let d := s.view
     d.boot.railsOut = false →
     d.boot.heldPerst = false →
     d.eclipse = false →
     exec .warmRstN s =
       .next (s.commit (({ d with boot := { d.boot with heldWarm := true } } : Dev).warmReset x 2))) ∧
  (
     let d := s.view
     d.boot.heldWarm = true →
     let d1 : Dev := { d with boot := { d.boot with heldWarm := false } }
     d1.held = false →
     d1.eclipse = false →
     exec .warmRstNRelease s =
       .next (s.commit (d1.beginStart))) ∧
  (
     let x := s.ctx
     let d := s.view
     d.bar0Cpl x Reg.chipRstCtl = .success →
     d.boot.railsOut = false →
     d.boot.heldPerst = false →
     d.eclipse = false →
     exec .rstCtlWarm s =
       .next (s.commit (d.warmReset x 3)))

/-- The seven stages, each in its own stage and with nothing found wrong, and neighbour push. Each clause names the state and operands on which the command completes, and the next state. -/
def Obligations.StartupStagesComplete : Prop :=
  ∀ s : State,
  (∀ (copy dir : Nat),
     let x := s.ctx
     let d := s.view
     d.at_ 1 = true →
     d.bootSrc = 0 →
     d.boot.testMode = false →
     d.directory = some (copy, dir) →
     exec (.romStage false) s =
       .next (s.commit (match Dev.firstSlot 0 (fun s => let p := (dirSlot dir s).1; let v := d.flashLd p.1 (min p.2 0x2000001); (d.bundleOk p.2 v).map fun ver => (p.2, v, ver)) (dirOrder dir) d with | (d1, some (slot, b, v, ver)) => d1.romDone slot b v ver | (d1, none) => d1.failStart x 0x02 0))) ∧
  (∀ (flashFault : Bool),
     let x := s.ctx
     let d := s.view
     d.at_ 1 = true →
     d.bootSrc = 1 →
     d.boot.testMode = false →
     d.boot.pushBundle = true →
     exec (.romStage flashFault) s =
       .next (s.commit (match d.bundleOk 0x2000000 d.bootRamVal with | some ver => d.romDone 0 0x2000000 d.bootRamVal ver | none => d.failStart x 0x02 0))) ∧
  (∀ (flashFault : Bool) (b v : Nat),
     let x := s.ctx
     let d := s.view
     d.at_ 1 = true →
     d.bootSrc = 2 →
     d.boot.testMode = false →
     d.boot.bundle = some (b, v) →
     exec (.romStage flashFault) s =
       .next (s.commit (match d.bundleOk b v with | some ver => d.romDone 0 b v ver | none => d.failStart x 0x02 0))) ∧
  (∀ (flashFault : Bool),
     let d := s.view
     d.at_ 1 = true →
     d.bootSrc = 3 →
     exec (.romStage flashFault) s =
       .next (s.commit (((d.setFld Reg.chipBootStat 8 8 0).setReg Reg.chipBootDetail 0).enterEclipse))) ∧
  (
     let d := s.view
     d.at_ 2 = true →
     exec .coresStage s =
       .next (s.commit (d.enterStage 3))) ∧
  (
     let d := s.view
     d.at_ 3 = true →
     exec (.powerStage none) s =
       .next (s.commit (((List.range 4).foldl (fun (d : Dev) q => d.alignQuad q) ({ d with pmc := { d.pmc with railMv := List.replicate 4 750 } } : Dev)).enterStage 4))) ∧
  (
     let d := s.view
     d.at_ 4 = true →
     exec (.memoryStage none) s =
       .next (s.commit (d.enterStage 5))) ∧
  (∀ (flashFault : Bool) (b v : Nat),
     let x := s.ctx
     let d := s.view
     d.at_ 5 = true →
     d.bootSrc = 2 →
     d.boot.image = some (b, v) →
     exec (.imageStage flashFault) s =
       .next (s.commit (if d.imageOk b v then d.imageDone x 0 b v else d.failStart x 0x03 0))) ∧
  (∀ (flashFault : Bool),
     let x := s.ctx
     let d := s.view
     d.at_ 5 = true →
     d.bootSrc = 1 →
     d.boot.pushImage = true →
     let n := min (d.ld x 16 8) 0x20000000
     exec (.imageStage flashFault) s =
       .next (s.commit (if d.imageOk n (d.ld x 0 n) then d.imageDone x 0 n (d.ld x 0 n) else d.failStart x 0x03 0))) ∧
  (∀ (copy dir : Nat),
     let x := s.ctx
     let d := s.view
     d.at_ 5 = true →
     d.bootSrc = 0 →
     d.directory = some (copy, dir) →
     exec (.imageStage false) s =
       .next (s.commit (match Dev.firstSlot 1 (fun s => let p := (dirSlot dir s).2; let v := d.flashLd p.1 (min p.2 0x20000001); if d.imageOk p.2 v then some (p.2, v) else none) (dirOrder dir) d with | (d1, some (slot, b, v)) => d1.imageDone x slot b v | (d1, none) => d1.failStart x 0x03 0))) ∧
  (
     let x := s.ctx
     let d := s.view
     d.at_ 6 = true →
     exec .configStage s =
       .next (s.commit (d.configure x (match d.boot.image with | some i => i.2 | none => 0)))) ∧
  (∀ (ppSerials : List Nat),
     let x := s.ctx
     let d := s.view
     d.at_ 7 = true →
     d.boot.chainMode = false ∨ d.boot.posAssigned = true →
     let d1 := if d.boot.posAssigned then d else d.takePos 0
     let d2 := ((d1.setFld Reg.fabFabId 0 5 (d1.fld Reg.chipMchStat 0 5)).gateGroups).startPorts x
     exec (.fabricStage ppSerials) s =
       .next (s.commit ((if ppSerials.isEmpty then d2 else d2.ppEnumerate x ppSerials).goOperational))) ∧
  (
     let d := s.view
     d.starting = true →
     d.bootSrc = 2 →
     d.boot.bundle = none →
     exec .bootReqTick s =
       .next (s.commit (((List.range 8).filter fun p => d.portUp p).foldl (fun (d : Dev) p => (d.sendOn p 0 0x3F 5 "BOOT_REQ" 64 [] none 1 .none).1) d))) ∧
  (∀ (port : Nat) (b i : Nat × Nat),
     let d := s.view
     d.operational = true →
     d.boot.bootServe = true →
     d.portUp port = true →
     d.boot.bundle = some b →
     d.boot.image = some i →
     exec (.bootReq port) s =
       .next (s.commit ((d.sendOn port 0 0x3F 5 "BOOT_ANSWER" (b.1 + i.1) [b.1, b.2, i.1, i.2] none 1 .none).1))) ∧
  (∀ (port : Nat) (bundle image : Nat × Nat),
     let d := s.view
     d.at_ 1 = true →
     d.bootSrc = 2 →
     d.boot.bundle = none →
     d.portUp port = true →
     exec (.bootAnswer port bundle image) s =
       .next (s.commit ({ d with boot := { d.boot with bundle := some bundle, image := some image } })))

/-- The commands of the recovery mailbox, the words of a WRITE, and the frames of the management chain. Each clause names the state and operands on which the command completes, and the next state. -/
def Obligations.RecoveryCommandsComplete : Prop :=
  ∀ s : State,
  (
     let d := s.view
     d.boot.railsOut = false →
     d.boot.flashWrite = none →
     let d1 := d.recTake
     exec .recoveryStatus s =
       .next (s.commit (d1.recAnswer 1 .DONE (d1.fld Reg.chipBootStat 16 16)))) ∧
  (∀ (sector : Nat),
     let d := s.view
     d.boot.railsOut = false →
     d.boot.flashWrite = none →
     let d1 := d.recTake
     d1.flashAllowed = true →
     sector < flashSectors →
     exec (.erase sector false) s =
       .next (s.commit (({ d1 with boot := { d1.boot with flash := d1.boot.flash.filter fun p => p.1 / 65536 != sector } } : Dev).recAnswer 2 .DONE 0))) ∧
  (∀ (sector : Nat),
     let d := s.view
     d.boot.railsOut = false →
     d.boot.flashWrite = none →
     let d1 := d.recTake
     d1.flashAllowed = true →
     sector < flashSectors →
     exec (.write sector) s =
       .next (s.commit ({ d1 with boot := { d1.boot with flashWrite := some ⟨sector, []⟩ } }))) ∧
  (∀ (word : Nat) (w : FlashWrite),
     let d := s.view
     d.boot.railsOut = false →
     d.boot.flashWrite = some w →
     (d.mbox .recovery).h2d.collide = false →
     w.words.length + 1 ≠ 16384 →
     let d1 := d.recTake
     let d2 : Dev := { d1 with boot := { d1.boot with flashWrite := some { w with words := w.words ++ [u32 word] } } }
     let a := w.sector * 65536 + 4 * w.words.length
     exec (.recoveryDataWord word false) s =
       .next (s.commit (d2.flashSt a ((List.range 4).map fun k => (byteOf (u32 word) k &&& d1.flashByte (a + k)))))) ∧
  (∀ (sector : Nat),
     let d := s.view
     d.boot.railsOut = false →
     d.boot.flashWrite = none →
     let d1 := d.recTake
     sector < flashSectors →
     exec (.crc sector false) s =
       .next (s.commit (({ d1 with boot := { d1.boot with recoveryOut := [crcOf (d1.flashLd (sector * 65536) 65536) 65536] } } : Dev).recAnswer 4 .DONE 0))) ∧
  (
     let x := s.ctx
     let d := s.view
     d.boot.railsOut = false →
     d.boot.flashWrite = none →
     let d1 := d.recTake
     d1.eclipse = false →
     exec .restart s =
       .next (s.commit ((d1.warmAsked x 3).recAnswer 5 .DONE 0))) ∧
  (
     let x := s.ctx
     let d := s.view
     d.boot.railsOut = false →
     d.boot.flashWrite = none →
     let d1 := d.recTake
     d1.eclipse = true →
     let d2 : Dev := { d1 with free := d1.free + 1 }
     let n := (d2.setFld Reg.chipBootStat 26 2 0).coldReset x 7 (Config.random d1.free)
     let n1 : Dev := { n with boot := { n.boot with heldPerst := d2.boot.heldPerst, heldWarm := d2.boot.heldWarm } }
     exec .restart s =
       .next (s.commit ((if n1.held then n1 else n1.beginStart).recAnswer 5 .DONE 0))) ∧
  (
     let d := s.view
     d.boot.railsOut = false →
     d.boot.flashWrite = none →
     let d1 := d.recTake
     d1.bootSrc = 1 →
     d1.at_ 1 = true →
     exec (.pushDone 0) s =
       .next (s.commit (({ d1 with boot := { d1.boot with pushBundle := true } } : Dev).recAnswer 6 .DONE 0))) ∧
  (
     let d := s.view
     d.boot.railsOut = false →
     d.boot.flashWrite = none →
     let d1 := d.recTake
     d1.bootSrc = 1 →
     d1.at_ 5 = true →
     exec (.pushDone 1) s =
       .next (s.commit (({ d1 with boot := { d1.boot with pushImage := true } } : Dev).recAnswer 6 .DONE 0))) ∧
  (∀ (second : Bool) (bytes : List Nat),
     let d := s.view
     d.boot.railsOut = false →
     second = false ∨ d.boot.chain2 = true →
     frameOk bytes = true →
     let d1 := d.send (.chain second (forwarded bytes))
     let recent := d1.boot.chain.filter fun c => d1.now ≤ c.2.2 + 100000
     (d1.boot.chain2 && recent.any fun c => c.1 != second && c.2.1 == bytes) = false →
     let d2 : Dev := { d1 with boot := { d1.boot with chain := recent ++ [(second, bytes, d1.now)] } }
     d2.dstMatches (getAt 0 2 bytes) = true →
     getAt 0 1 bytes = 1 →
     exec (.enum second bytes) s =
       .next (s.commit (d2.enumAct (frameArg bytes)))) ∧
  (∀ (second : Bool) (bytes : List Nat),
     let d := s.view
     d.boot.railsOut = false →
     second = false ∨ d.boot.chain2 = true →
     frameOk bytes = true →
     let d1 := d.send (.chain second (forwarded bytes))
     let recent := d1.boot.chain.filter fun c => d1.now ≤ c.2.2 + 100000
     (d1.boot.chain2 && recent.any fun c => c.1 != second && c.2.1 == bytes) = false →
     let d2 : Dev := { d1 with boot := { d1.boot with chain := recent ++ [(second, bytes, d1.now)] } }
     d2.dstMatches (getAt 0 2 bytes) = true →
     getAt 0 1 bytes = 2 →
     exec (.ping second bytes) s =
       .next (s.commit (d2.statusFrame second))) ∧
  (∀ (second : Bool) (bytes : List Nat),
     let x := s.ctx
     let d := s.view
     d.boot.railsOut = false →
     second = false ∨ d.boot.chain2 = true →
     frameOk bytes = true →
     let d1 := d.send (.chain second (forwarded bytes))
     let recent := d1.boot.chain.filter fun c => d1.now ≤ c.2.2 + 100000
     (d1.boot.chain2 && recent.any fun c => c.1 != second && c.2.1 == bytes) = false →
     let d2 : Dev := { d1 with boot := { d1.boot with chain := recent ++ [(second, bytes, d1.now)] } }
     d2.dstMatches (getAt 0 2 bytes) = true →
     getAt 0 1 bytes = 4 →
     exec (.warmReset second bytes) s =
       .next (s.commit (d2.warmAsked x 4))) ∧
  (∀ (second : Bool) (bytes : List Nat),
     let x := s.ctx
     let d := s.view
     d.boot.railsOut = false →
     second = false ∨ d.boot.chain2 = true →
     frameOk bytes = true →
     let d1 := d.send (.chain second (forwarded bytes))
     let recent := d1.boot.chain.filter fun c => d1.now ≤ c.2.2 + 100000
     (d1.boot.chain2 && recent.any fun c => c.1 != second && c.2.1 == bytes) = false →
     let d2 : Dev := { d1 with boot := { d1.boot with chain := recent ++ [(second, bytes, d1.now)] } }
     d2.dstMatches (getAt 0 2 bytes) = true →
     getAt 0 1 bytes = 5 →
     exec (.quadReset second bytes) s =
       .next (s.commit (((List.range 4).filter fun q => bit (frameArg bytes) q).foldl (fun (d : Dev) q => d.quadReset x q 4) d2))) ∧
  (∀ (second : Bool) (bytes : List Nat),
     let d := s.view
     d.boot.railsOut = false →
     second = false ∨ d.boot.chain2 = true →
     frameOk bytes = true →
     let d1 := d.send (.chain second (forwarded bytes))
     let recent := d1.boot.chain.filter fun c => d1.now ≤ c.2.2 + 100000
     (d1.boot.chain2 && recent.any fun c => c.1 != second && c.2.1 == bytes) = false →
     let d2 : Dev := { d1 with boot := { d1.boot with chain := recent ++ [(second, bytes, d1.now)] } }
     d2.dstMatches (getAt 0 2 bytes) = true →
     exec (.chainForward second bytes) s =
       .next (s.commit (d2))) ∧
  (∀ (stack : Nat),
     let x := s.ctx
     let d := s.view
     d.sec.zeroing.contains stack = true →
     d.baseHot stack = false →
     let old := x.mem.stale.filterMap fun r => let lo := max r.1 (stack * stackBytes); let hi := min r.2 ((stack + 1) * stackBytes); if lo < hi then some (lo, hi) else none
     let d1 := d.zeroRanges (cutAll d.unzeroed old)
     let left := d1.sec.zeroing.filter fun k => k != stack
     exec (.zeroStackDone stack) s =
       .next (s.commit ({ d1 with sec := { d1.sec with zeroing := left, zeroDone := if left.isEmpty then d1.now else d1.sec.zeroDone } })))

/-- The custom instructions that a running hart retires with their result in rd, waits, exceptions, dispatch and time limits. The program that ran up to the instruction is a free value (log 9). Each clause names the state and operands on which the command completes, and the next state. -/
def Obligations.HartEventsComplete : Prop :=
  ∀ s : State,
  (∀ (h rs1 rs2 : Nat) (t : Task) (w0 w : HartWork),
     let x := s.ctx
     let d := s.view
     tblGet h d.belt.harts = some w0 →
     w0.wait = none →
     let d1 := d.runHart x h
     tblGet h d1.belt.harts = some w →
     w.task = some t →
     let res := u32 (w.regs.get rs1)
     let d2 := d1.leaveHart x h w
     exec (.btTdone h rs1 rs2) s =
       .next (s.commit (match t.owner with | .hook r n _ => d2.onHookReply x r n res (w.regs.get rs2 % 256) | _ => d2.taskOver x t .DONE res))) ∧
  (∀ (h rs1 : Nat) (w0 w : HartWork),
     let x := s.ctx
     let d := s.view
     tblGet h d.belt.harts = some w0 →
     w0.wait = none →
     let d1 := d.runHart x h
     tblGet h d1.belt.harts = some w →
     w.task = none →
     exec (.btExit h rs1) s =
       .next (s.commit (d1.exitHart x h w (u32 (w.regs.get rs1))))) ∧
  (∀ (h rd : Nat) (w0 w : HartWork),
     let x := s.ctx
     let d := s.view
     tblGet h d.belt.harts = some w0 →
     w0.wait = none →
     let d1 := d.runHart x h
     tblGet h d1.belt.harts = some w →
     exec (.btTime h rd) s =
       .next (s.commit (d1.btDone h w rd d1.now))) ∧
  (∀ (h rd : Nat) (w0 w : HartWork),
     let x := s.ctx
     let d := s.view
     tblGet h d.belt.harts = some w0 →
     w0.wait = none →
     let d1 := d.runHart x h
     tblGet h d1.belt.harts = some w →
     exec (.btSelf h rd) s =
       .next (s.commit (d1.btDone h w rd (h % 8192 + d1.partOf h * 2 ^ 13 + (match w.task with | some t => t.queue % 16 | none => 15) * 2 ^ 16 + (if w.task.isSome then 0 else w.jobIndex % 65536) * 2 ^ 32)))) ∧
  (∀ (h rd rs1 : Nat) (w0 w : HartWork),
     let x := s.ctx
     let d := s.view
     tblGet h d.belt.harts = some w0 →
     w0.wait = none →
     let d1 := d.runHart x h
     tblGet h d1.belt.harts = some w →
     exec (.btMix h rd rs1) s =
       .next (s.commit (d1.btDone h w rd (mix64 (w.regs.get rs1))))) ∧
  (∀ (h rd rs1 : Nat) (w0 w : HartWork),
     let x := s.ctx
     let d := s.view
     tblGet h d.belt.harts = some w0 →
     w0.wait = none →
     let d1 := d.runHart x h
     tblGet h d1.belt.harts = some w →
     exec (.btRkey h rd rs1) s =
       .next (s.commit (d1.btDone h w rd (rankKey (u32 (w.regs.get rs1)))))) ∧
  (∀ (h : Nat) (w0 w : HartWork),
     let x := s.ctx
     let d := s.view
     tblGet h d.belt.harts = some w0 →
     w0.wait = none →
     let d1 := d.runHart x h
     tblGet h d1.belt.harts = some w →
     exec (.btFlush h) s =
       .next (s.commit (d1.btDone h w 0 0))) ∧
  (∀ (h rd rs1 rs2 : Nat) (q : BeltQueue) (w0 w : HartWork),
     let x := s.ctx
     let d := s.view
     tblGet h d.belt.harts = some w0 →
     w0.wait = none →
     let d1 := d.runHart x h
     tblGet h d1.belt.harts = some w →
     let p := d1.partOf h
     let a := w.regs.get rs1
     let n := w.regs.get rs2 % 16
     d1.mayRead p a 64 = true →
     d1.taskMode p = true →
     d1.beltQueue p n = some q →
     let d2 := d1.holeCheck x a 64
     let r := d2.placeTask p n (d2.ld x a 64) (.thread (d2.workComp h w))
     exec (.btSubmit h rd rs1 rs2) s =
       .next (s.commit (r.1.btDone h w rd (if r.2 then 0 else 1)))) ∧
  (∀ (h rd rs1 rs2 : Nat) (w0 w : HartWork),
     let x := s.ctx
     let d := s.view
     tblGet h d.belt.harts = some w0 →
     w0.wait = none →
     let d1 := d.runHart x h
     tblGet h d1.belt.harts = some w →
     let a := w.regs.get rs1 / 8 * 8
     d1.mayRead (d1.partOf h) a 8 = true →
     let d2 := d1.holeCheck x a 8
     exec (.btWait h rd rs1 rs2) s =
       .next (s.commit (if d2.ld x a 8 ≠ w.regs.get rs2 then d2.btDone h w rd (d2.ld x a 8) else d2.setHart h { w with wait := some (rd, a, w.regs.get rs2, d2.now) }))) ∧
  (∀ (h rd a old t : Nat) (w : HartWork),
     let x := s.ctx
     let d := s.view
     tblGet h d.belt.harts = some w →
     w.wait = some (rd, a, old, t) →
     d.ld x a 8 ≠ old →
     exec (.btWaitResume h) s =
       .next (s.commit (d.btDone h w rd (d.ld x a 8)))) ∧
  (∀ (h rd a old t : Nat) (w : HartWork),
     let x := s.ctx
     let d := s.view
     tblGet h d.belt.harts = some w →
     w.wait = some (rd, a, old, t) →
     t + d.fld Reg.beltWaitCtl 0 16 * 1000 ≤ d.now →
     exec (.btWaitTimeout h) s =
       .next (s.commit (d.btDone h w rd (d.ld x a 8)))) ∧
  (∀ (h rs1 : Nat) (w0 w : HartWork),
     let x := s.ctx
     let d := s.view
     tblGet h d.belt.harts = some w0 →
     w0.wait = none →
     let d1 := d.runHart x h
     tblGet h d1.belt.harts = some w →
     exec (.btMbox h rs1) s =
       .next (s.commit ((d1.ownerWrite (.m 7) (u32 (w.regs.get rs1))).btDone h w 0 0))) ∧
  (∀ (h rd : Nat) (w0 w : HartWork),
     let x := s.ctx
     let d := s.view
     tblGet h d.belt.harts = some w0 →
     w0.wait = none →
     let d1 := d.runHart x h
     tblGet h d1.belt.harts = some w →
     let m := d1.mbox (.m 7)
     exec (.btMboxr h rd) s =
       .next (s.commit ((d1.setMbox (.m 7) { m with h2d := m.h2d.take }).btDone h w rd (m.h2d.data + ofB m.h2d.full * 2 ^ 32)))) ∧
  (∀ (h cause : Nat) (w : HartWork),
     let x := s.ctx
     let d := s.view
     tblGet h d.belt.harts = some w →
     w.wait = none →
     exec (.hartException h cause) s =
       .next (s.commit ((d.runHart x h).hartFault x h w cause))) ∧
  (∀ (p : Nat),
     let x := s.ctx
     let d := s.view
     p < 2 →
     d.taskMode p = true →
     x.fuses.part.hasBelt = true →
     d.domainUp .belt = true →
     exec (.taskDispatch p) s =
       .next (s.commit (d.dispatch x p))) ∧
  (∀ (h : Nat) (w : HartWork) (t : Task) (q : BeltQueue),
     let x := s.ctx
     let d := s.view
     tblGet h d.belt.harts = some w →
     w.task = some t →
     d.beltQueue (d.partOf h) t.queue = some q →
     q.taskUs ≠ 0 →
     t.deadline = none →
     q.taskUs * 1000 ≤ d.ranFor w →
     exec (.taskTimeout h) s =
       .next (s.commit ((d.runHart x h).endTask x h w t .FAULT_TIMEOUT 0))) ∧
  (∀ (p : Nat) (j : Job),
     let x := s.ctx
     let d := s.view
     (d.beltPart p).job = some j →
     j.limitMs ≠ 0 →
     j.suspended = false →
     j.since + (j.limitMs * 1000000 - j.ranNs) ≤ d.now →
     exec (.jobLimit p) s =
       .next (s.commit (((d.jobHarts p d.belt.harts).foldl (fun (d : Dev) h => d.runHart x h) d).endJob x p .FAULT_TIMEOUT 0)))
end

