-- ==== Sys2Proof/Laws/State.lean ====
section
/-! SUPPORT. Laws/State.lean: for each basic update, one lemma for each field that it leaves alone. -/

namespace Sys2Proof.Machine

/-! ### Commands and the queue -/

@[simp] theorem State.commit_fuses (s : State) (d : Dev) : (s.commit d).fuses = s.fuses := rfl
@[simp] theorem State.commit_pending (s : State) (d : Dev) : (s.commit d).pending = s.pending := rfl
@[simp] theorem State.commit_mem (s : State) (d : Dev) : (s.commit d).mem = s.mem.applyAll d.writes := rfl
@[simp] theorem State.commit_dev (s : State) (d : Dev) : (s.commit d).dev = { d with writes := [] } := rfl
@[simp] theorem State.withFront_pending (s : State) (c : Instr) : (s.withFront c).pending = c :: s.pending := rfl
@[simp] theorem State.withFront_dev (s : State) (c : Instr) : (s.withFront c).dev = s.dev := rfl
@[simp] theorem State.withFront_mem (s : State) (c : Instr) : (s.withFront c).mem = s.mem := rfl
@[simp] theorem State.withFront_fuses (s : State) (c : Instr) : (s.withFront c).fuses = s.fuses := rfl
@[simp] theorem State.idle_mem (s : State) : s.idle.mem = s.mem := rfl
@[simp] theorem State.idle_pending (s : State) : s.idle.pending = s.pending := rfl
@[simp] theorem State.idle_fuses (s : State) : s.idle.fuses = s.fuses := rfl
@[simp] theorem State.view_writes (s : State) : s.view.writes = [] := rfl
@[simp] theorem State.view_reg (s : State) (off : Nat) : s.view.reg off = s.dev.reg off := rfl
@[simp] theorem State.view_units (s : State) : s.view.units = s.dev.units := rfl
@[simp] theorem State.ctx_fuses (s : State) : s.ctx.fuses = s.fuses := rfl
@[simp] theorem State.ctx_mem (s : State) : s.ctx.mem = s.mem := rfl

@[simp] theorem State.view_now (s : State) : s.view.now = s.dev.now := rfl
@[simp] theorem State.view_free (s : State) : s.view.free = s.dev.free := rfl
@[simp] theorem State.view_regs (s : State) : s.view.regs = s.dev.regs := rfl
@[simp] theorem State.view_wire (s : State) : s.view.wire = s.dev.wire := rfl
@[simp] theorem State.view_hif (s : State) : s.view.hif = s.dev.hif := rfl
@[simp] theorem State.view_err (s : State) : s.view.err = s.dev.err := rfl
@[simp] theorem State.view_time (s : State) : s.view.time = s.dev.time := rfl
@[simp] theorem State.view_arb (s : State) : s.view.arb = s.dev.arb := rfl
@[simp] theorem State.view_sess (s : State) : s.view.sess = s.dev.sess := rfl
@[simp] theorem State.view_kv (s : State) : s.view.kv = s.dev.kv := rfl
@[simp] theorem State.view_tier (s : State) : s.view.tier = s.dev.tier := rfl
@[simp] theorem State.view_attn (s : State) : s.view.attn = s.dev.attn := rfl
@[simp] theorem State.view_tail (s : State) : s.view.tail = s.dev.tail := rfl
@[simp] theorem State.view_text (s : State) : s.view.text = s.dev.text := rfl
@[simp] theorem State.view_rcl (s : State) : s.view.rcl = s.dev.rcl := rfl
@[simp] theorem State.view_ckpt (s : State) : s.view.ckpt = s.dev.ckpt := rfl
@[simp] theorem State.view_belt (s : State) : s.view.belt = s.dev.belt := rfl
@[simp] theorem State.view_cvf (s : State) : s.view.cvf = s.dev.cvf := rfl
@[simp] theorem State.view_sec (s : State) : s.view.sec = s.dev.sec := rfl
@[simp] theorem State.view_pmc (s : State) : s.view.pmc = s.dev.pmc := rfl
@[simp] theorem State.view_boot (s : State) : s.view.boot = s.dev.boot := rfl

/-! ### Registers -/

@[simp] theorem Dev.setReg_now (d : Dev) (off v : Nat) : (d.setReg off v).now = d.now := by simp only [Dev.setReg]; split <;> rfl
@[simp] theorem Dev.setReg_free (d : Dev) (off v : Nat) : (d.setReg off v).free = d.free := by simp only [Dev.setReg]; split <;> rfl
@[simp] theorem Dev.setReg_writes (d : Dev) (off v : Nat) : (d.setReg off v).writes = d.writes := by simp only [Dev.setReg]; split <;> rfl
@[simp] theorem Dev.setReg_wire (d : Dev) (off v : Nat) : (d.setReg off v).wire = d.wire := by simp only [Dev.setReg]; split <;> rfl
@[simp] theorem Dev.setReg_hif (d : Dev) (off v : Nat) : (d.setReg off v).hif = d.hif := by simp only [Dev.setReg]; split <;> rfl
@[simp] theorem Dev.setReg_err (d : Dev) (off v : Nat) : (d.setReg off v).err = d.err := by simp only [Dev.setReg]; split <;> rfl
@[simp] theorem Dev.setReg_time (d : Dev) (off v : Nat) : (d.setReg off v).time = d.time := by simp only [Dev.setReg]; split <;> rfl
@[simp] theorem Dev.setReg_arb (d : Dev) (off v : Nat) : (d.setReg off v).arb = d.arb := by simp only [Dev.setReg]; split <;> rfl
@[simp] theorem Dev.setReg_sess (d : Dev) (off v : Nat) : (d.setReg off v).sess = d.sess := by simp only [Dev.setReg]; split <;> rfl
@[simp] theorem Dev.setReg_kv (d : Dev) (off v : Nat) : (d.setReg off v).kv = d.kv := by simp only [Dev.setReg]; split <;> rfl
@[simp] theorem Dev.setReg_tier (d : Dev) (off v : Nat) : (d.setReg off v).tier = d.tier := by simp only [Dev.setReg]; split <;> rfl
@[simp] theorem Dev.setReg_attn (d : Dev) (off v : Nat) : (d.setReg off v).attn = d.attn := by simp only [Dev.setReg]; split <;> rfl
@[simp] theorem Dev.setReg_tail (d : Dev) (off v : Nat) : (d.setReg off v).tail = d.tail := by simp only [Dev.setReg]; split <;> rfl
@[simp] theorem Dev.setReg_text (d : Dev) (off v : Nat) : (d.setReg off v).text = d.text := by simp only [Dev.setReg]; split <;> rfl
@[simp] theorem Dev.setReg_rcl (d : Dev) (off v : Nat) : (d.setReg off v).rcl = d.rcl := by simp only [Dev.setReg]; split <;> rfl
@[simp] theorem Dev.setReg_ckpt (d : Dev) (off v : Nat) : (d.setReg off v).ckpt = d.ckpt := by simp only [Dev.setReg]; split <;> rfl
@[simp] theorem Dev.setReg_belt (d : Dev) (off v : Nat) : (d.setReg off v).belt = d.belt := by simp only [Dev.setReg]; split <;> rfl
@[simp] theorem Dev.setReg_cvf (d : Dev) (off v : Nat) : (d.setReg off v).cvf = d.cvf := by simp only [Dev.setReg]; split <;> rfl
@[simp] theorem Dev.setReg_sec (d : Dev) (off v : Nat) : (d.setReg off v).sec = d.sec := by simp only [Dev.setReg]; split <;> rfl
@[simp] theorem Dev.setReg_pmc (d : Dev) (off v : Nat) : (d.setReg off v).pmc = d.pmc := by simp only [Dev.setReg]; split <;> rfl
@[simp] theorem Dev.setReg_boot (d : Dev) (off v : Nat) : (d.setReg off v).boot = d.boot := by simp only [Dev.setReg]; split <;> rfl
@[simp] theorem Dev.setReg_units (d : Dev) (off v : Nat) : (d.setReg off v).units = d.units := by simp only [Dev.setReg]; split <;> rfl

@[simp] theorem Dev.setFld_now (d : Dev) (off lo len v : Nat) : (d.setFld off lo len v).now = d.now := Dev.setReg_now ..
@[simp] theorem Dev.setFld_free (d : Dev) (off lo len v : Nat) : (d.setFld off lo len v).free = d.free := Dev.setReg_free ..
@[simp] theorem Dev.setFld_writes (d : Dev) (off lo len v : Nat) : (d.setFld off lo len v).writes = d.writes := Dev.setReg_writes ..
@[simp] theorem Dev.setFld_wire (d : Dev) (off lo len v : Nat) : (d.setFld off lo len v).wire = d.wire := Dev.setReg_wire ..
@[simp] theorem Dev.setFld_hif (d : Dev) (off lo len v : Nat) : (d.setFld off lo len v).hif = d.hif := Dev.setReg_hif ..
@[simp] theorem Dev.setFld_err (d : Dev) (off lo len v : Nat) : (d.setFld off lo len v).err = d.err := Dev.setReg_err ..
@[simp] theorem Dev.setFld_time (d : Dev) (off lo len v : Nat) : (d.setFld off lo len v).time = d.time := Dev.setReg_time ..
@[simp] theorem Dev.setFld_arb (d : Dev) (off lo len v : Nat) : (d.setFld off lo len v).arb = d.arb := Dev.setReg_arb ..
@[simp] theorem Dev.setFld_sess (d : Dev) (off lo len v : Nat) : (d.setFld off lo len v).sess = d.sess := Dev.setReg_sess ..
@[simp] theorem Dev.setFld_kv (d : Dev) (off lo len v : Nat) : (d.setFld off lo len v).kv = d.kv := Dev.setReg_kv ..
@[simp] theorem Dev.setFld_tier (d : Dev) (off lo len v : Nat) : (d.setFld off lo len v).tier = d.tier := Dev.setReg_tier ..
@[simp] theorem Dev.setFld_attn (d : Dev) (off lo len v : Nat) : (d.setFld off lo len v).attn = d.attn := Dev.setReg_attn ..
@[simp] theorem Dev.setFld_tail (d : Dev) (off lo len v : Nat) : (d.setFld off lo len v).tail = d.tail := Dev.setReg_tail ..
@[simp] theorem Dev.setFld_text (d : Dev) (off lo len v : Nat) : (d.setFld off lo len v).text = d.text := Dev.setReg_text ..
@[simp] theorem Dev.setFld_rcl (d : Dev) (off lo len v : Nat) : (d.setFld off lo len v).rcl = d.rcl := Dev.setReg_rcl ..
@[simp] theorem Dev.setFld_ckpt (d : Dev) (off lo len v : Nat) : (d.setFld off lo len v).ckpt = d.ckpt := Dev.setReg_ckpt ..
@[simp] theorem Dev.setFld_belt (d : Dev) (off lo len v : Nat) : (d.setFld off lo len v).belt = d.belt := Dev.setReg_belt ..
@[simp] theorem Dev.setFld_cvf (d : Dev) (off lo len v : Nat) : (d.setFld off lo len v).cvf = d.cvf := Dev.setReg_cvf ..
@[simp] theorem Dev.setFld_sec (d : Dev) (off lo len v : Nat) : (d.setFld off lo len v).sec = d.sec := Dev.setReg_sec ..
@[simp] theorem Dev.setFld_pmc (d : Dev) (off lo len v : Nat) : (d.setFld off lo len v).pmc = d.pmc := Dev.setReg_pmc ..
@[simp] theorem Dev.setFld_boot (d : Dev) (off lo len v : Nat) : (d.setFld off lo len v).boot = d.boot := Dev.setReg_boot ..
@[simp] theorem Dev.setFld_units (d : Dev) (off lo len v : Nat) : (d.setFld off lo len v).units = d.units := Dev.setReg_units ..

@[simp] theorem Dev.bump_now (d : Dev) (off n : Nat) : (d.bump off n).now = d.now := Dev.setReg_now ..
@[simp] theorem Dev.bump_free (d : Dev) (off n : Nat) : (d.bump off n).free = d.free := Dev.setReg_free ..
@[simp] theorem Dev.bump_writes (d : Dev) (off n : Nat) : (d.bump off n).writes = d.writes := Dev.setReg_writes ..
@[simp] theorem Dev.bump_wire (d : Dev) (off n : Nat) : (d.bump off n).wire = d.wire := Dev.setReg_wire ..
@[simp] theorem Dev.bump_hif (d : Dev) (off n : Nat) : (d.bump off n).hif = d.hif := Dev.setReg_hif ..
@[simp] theorem Dev.bump_err (d : Dev) (off n : Nat) : (d.bump off n).err = d.err := Dev.setReg_err ..
@[simp] theorem Dev.bump_time (d : Dev) (off n : Nat) : (d.bump off n).time = d.time := Dev.setReg_time ..
@[simp] theorem Dev.bump_arb (d : Dev) (off n : Nat) : (d.bump off n).arb = d.arb := Dev.setReg_arb ..
@[simp] theorem Dev.bump_sess (d : Dev) (off n : Nat) : (d.bump off n).sess = d.sess := Dev.setReg_sess ..
@[simp] theorem Dev.bump_kv (d : Dev) (off n : Nat) : (d.bump off n).kv = d.kv := Dev.setReg_kv ..
@[simp] theorem Dev.bump_tier (d : Dev) (off n : Nat) : (d.bump off n).tier = d.tier := Dev.setReg_tier ..
@[simp] theorem Dev.bump_attn (d : Dev) (off n : Nat) : (d.bump off n).attn = d.attn := Dev.setReg_attn ..
@[simp] theorem Dev.bump_tail (d : Dev) (off n : Nat) : (d.bump off n).tail = d.tail := Dev.setReg_tail ..
@[simp] theorem Dev.bump_text (d : Dev) (off n : Nat) : (d.bump off n).text = d.text := Dev.setReg_text ..
@[simp] theorem Dev.bump_rcl (d : Dev) (off n : Nat) : (d.bump off n).rcl = d.rcl := Dev.setReg_rcl ..
@[simp] theorem Dev.bump_ckpt (d : Dev) (off n : Nat) : (d.bump off n).ckpt = d.ckpt := Dev.setReg_ckpt ..
@[simp] theorem Dev.bump_belt (d : Dev) (off n : Nat) : (d.bump off n).belt = d.belt := Dev.setReg_belt ..
@[simp] theorem Dev.bump_cvf (d : Dev) (off n : Nat) : (d.bump off n).cvf = d.cvf := Dev.setReg_cvf ..
@[simp] theorem Dev.bump_sec (d : Dev) (off n : Nat) : (d.bump off n).sec = d.sec := Dev.setReg_sec ..
@[simp] theorem Dev.bump_pmc (d : Dev) (off n : Nat) : (d.bump off n).pmc = d.pmc := Dev.setReg_pmc ..
@[simp] theorem Dev.bump_boot (d : Dev) (off n : Nat) : (d.bump off n).boot = d.boot := Dev.setReg_boot ..
@[simp] theorem Dev.bump_units (d : Dev) (off n : Nat) : (d.bump off n).units = d.units := Dev.setReg_units ..

/-! ### Output and memory effects -/

@[simp] theorem Dev.send_now (d : Dev) (o : Out) : (d.send o).now = d.now := rfl
@[simp] theorem Dev.send_free (d : Dev) (o : Out) : (d.send o).free = d.free := rfl
@[simp] theorem Dev.send_regs (d : Dev) (o : Out) : (d.send o).regs = d.regs := rfl
@[simp] theorem Dev.send_writes (d : Dev) (o : Out) : (d.send o).writes = d.writes := rfl
@[simp] theorem Dev.send_wire (d : Dev) (o : Out) : (d.send o).wire = d.wire ++ [o] := rfl
@[simp] theorem Dev.send_hif (d : Dev) (o : Out) : (d.send o).hif = d.hif := rfl
@[simp] theorem Dev.send_err (d : Dev) (o : Out) : (d.send o).err = d.err := rfl
@[simp] theorem Dev.send_time (d : Dev) (o : Out) : (d.send o).time = d.time := rfl
@[simp] theorem Dev.send_arb (d : Dev) (o : Out) : (d.send o).arb = d.arb := rfl
@[simp] theorem Dev.send_sess (d : Dev) (o : Out) : (d.send o).sess = d.sess := rfl
@[simp] theorem Dev.send_kv (d : Dev) (o : Out) : (d.send o).kv = d.kv := rfl
@[simp] theorem Dev.send_tier (d : Dev) (o : Out) : (d.send o).tier = d.tier := rfl
@[simp] theorem Dev.send_attn (d : Dev) (o : Out) : (d.send o).attn = d.attn := rfl
@[simp] theorem Dev.send_tail (d : Dev) (o : Out) : (d.send o).tail = d.tail := rfl
@[simp] theorem Dev.send_text (d : Dev) (o : Out) : (d.send o).text = d.text := rfl
@[simp] theorem Dev.send_rcl (d : Dev) (o : Out) : (d.send o).rcl = d.rcl := rfl
@[simp] theorem Dev.send_ckpt (d : Dev) (o : Out) : (d.send o).ckpt = d.ckpt := rfl
@[simp] theorem Dev.send_belt (d : Dev) (o : Out) : (d.send o).belt = d.belt := rfl
@[simp] theorem Dev.send_cvf (d : Dev) (o : Out) : (d.send o).cvf = d.cvf := rfl
@[simp] theorem Dev.send_sec (d : Dev) (o : Out) : (d.send o).sec = d.sec := rfl
@[simp] theorem Dev.send_pmc (d : Dev) (o : Out) : (d.send o).pmc = d.pmc := rfl
@[simp] theorem Dev.send_boot (d : Dev) (o : Out) : (d.send o).boot = d.boot := rfl
@[simp] theorem Dev.send_units (d : Dev) (o : Out) : (d.send o).units = d.units := rfl

@[simp] theorem Dev.zeroMem_now (d : Dev) (lo hi : Nat) : (d.zeroMem lo hi).now = d.now := rfl
@[simp] theorem Dev.zeroMem_free (d : Dev) (lo hi : Nat) : (d.zeroMem lo hi).free = d.free := rfl
@[simp] theorem Dev.zeroMem_regs (d : Dev) (lo hi : Nat) : (d.zeroMem lo hi).regs = d.regs := rfl
@[simp] theorem Dev.zeroMem_writes (d : Dev) (lo hi : Nat) : (d.zeroMem lo hi).writes = .zero lo hi :: d.writes := rfl
@[simp] theorem Dev.zeroMem_wire (d : Dev) (lo hi : Nat) : (d.zeroMem lo hi).wire = d.wire := rfl
@[simp] theorem Dev.zeroMem_hif (d : Dev) (lo hi : Nat) : (d.zeroMem lo hi).hif = d.hif := rfl
@[simp] theorem Dev.zeroMem_err (d : Dev) (lo hi : Nat) : (d.zeroMem lo hi).err = d.err := rfl
@[simp] theorem Dev.zeroMem_time (d : Dev) (lo hi : Nat) : (d.zeroMem lo hi).time = d.time := rfl
@[simp] theorem Dev.zeroMem_arb (d : Dev) (lo hi : Nat) : (d.zeroMem lo hi).arb = d.arb := rfl
@[simp] theorem Dev.zeroMem_sess (d : Dev) (lo hi : Nat) : (d.zeroMem lo hi).sess = d.sess := rfl
@[simp] theorem Dev.zeroMem_kv (d : Dev) (lo hi : Nat) : (d.zeroMem lo hi).kv = d.kv := rfl
@[simp] theorem Dev.zeroMem_tier (d : Dev) (lo hi : Nat) : (d.zeroMem lo hi).tier = d.tier := rfl
@[simp] theorem Dev.zeroMem_attn (d : Dev) (lo hi : Nat) : (d.zeroMem lo hi).attn = d.attn := rfl
@[simp] theorem Dev.zeroMem_tail (d : Dev) (lo hi : Nat) : (d.zeroMem lo hi).tail = d.tail := rfl
@[simp] theorem Dev.zeroMem_text (d : Dev) (lo hi : Nat) : (d.zeroMem lo hi).text = d.text := rfl
@[simp] theorem Dev.zeroMem_rcl (d : Dev) (lo hi : Nat) : (d.zeroMem lo hi).rcl = d.rcl := rfl
@[simp] theorem Dev.zeroMem_ckpt (d : Dev) (lo hi : Nat) : (d.zeroMem lo hi).ckpt = d.ckpt := rfl
@[simp] theorem Dev.zeroMem_belt (d : Dev) (lo hi : Nat) : (d.zeroMem lo hi).belt = d.belt := rfl
@[simp] theorem Dev.zeroMem_cvf (d : Dev) (lo hi : Nat) : (d.zeroMem lo hi).cvf = d.cvf := rfl
@[simp] theorem Dev.zeroMem_sec (d : Dev) (lo hi : Nat) : (d.zeroMem lo hi).sec = d.sec := rfl
@[simp] theorem Dev.zeroMem_pmc (d : Dev) (lo hi : Nat) : (d.zeroMem lo hi).pmc = d.pmc := rfl
@[simp] theorem Dev.zeroMem_boot (d : Dev) (lo hi : Nat) : (d.zeroMem lo hi).boot = d.boot := rfl
@[simp] theorem Dev.zeroMem_units (d : Dev) (lo hi : Nat) : (d.zeroMem lo hi).units = d.units := rfl

@[simp] theorem Dev.st_now (x : Ctx) (d : Dev) (a n v : Nat) : (d.st x a n v).now = d.now := by simp only [Dev.st]; split; rfl; split <;> rfl
@[simp] theorem Dev.st_free (x : Ctx) (d : Dev) (a n v : Nat) : (d.st x a n v).free = d.free := by simp only [Dev.st]; split; rfl; split <;> rfl
@[simp] theorem Dev.st_regs (x : Ctx) (d : Dev) (a n v : Nat) : (d.st x a n v).regs = d.regs := by simp only [Dev.st]; split; rfl; split <;> rfl
@[simp] theorem Dev.st_wire (x : Ctx) (d : Dev) (a n v : Nat) : (d.st x a n v).wire = d.wire := by simp only [Dev.st]; split; rfl; split <;> rfl
@[simp] theorem Dev.st_hif (x : Ctx) (d : Dev) (a n v : Nat) : (d.st x a n v).hif = d.hif := by simp only [Dev.st]; split; rfl; split <;> rfl
@[simp] theorem Dev.st_time (x : Ctx) (d : Dev) (a n v : Nat) : (d.st x a n v).time = d.time := by simp only [Dev.st]; split; rfl; split <;> rfl
@[simp] theorem Dev.st_arb (x : Ctx) (d : Dev) (a n v : Nat) : (d.st x a n v).arb = d.arb := by simp only [Dev.st]; split; rfl; split <;> rfl
@[simp] theorem Dev.st_sess (x : Ctx) (d : Dev) (a n v : Nat) : (d.st x a n v).sess = d.sess := by simp only [Dev.st]; split; rfl; split <;> rfl
@[simp] theorem Dev.st_kv (x : Ctx) (d : Dev) (a n v : Nat) : (d.st x a n v).kv = d.kv := by simp only [Dev.st]; split; rfl; split <;> rfl
@[simp] theorem Dev.st_tier (x : Ctx) (d : Dev) (a n v : Nat) : (d.st x a n v).tier = d.tier := by simp only [Dev.st]; split; rfl; split <;> rfl
@[simp] theorem Dev.st_attn (x : Ctx) (d : Dev) (a n v : Nat) : (d.st x a n v).attn = d.attn := by simp only [Dev.st]; split; rfl; split <;> rfl
@[simp] theorem Dev.st_tail (x : Ctx) (d : Dev) (a n v : Nat) : (d.st x a n v).tail = d.tail := by simp only [Dev.st]; split; rfl; split <;> rfl
@[simp] theorem Dev.st_text (x : Ctx) (d : Dev) (a n v : Nat) : (d.st x a n v).text = d.text := by simp only [Dev.st]; split; rfl; split <;> rfl
@[simp] theorem Dev.st_rcl (x : Ctx) (d : Dev) (a n v : Nat) : (d.st x a n v).rcl = d.rcl := by simp only [Dev.st]; split; rfl; split <;> rfl
@[simp] theorem Dev.st_ckpt (x : Ctx) (d : Dev) (a n v : Nat) : (d.st x a n v).ckpt = d.ckpt := by simp only [Dev.st]; split; rfl; split <;> rfl
@[simp] theorem Dev.st_belt (x : Ctx) (d : Dev) (a n v : Nat) : (d.st x a n v).belt = d.belt := by simp only [Dev.st]; split; rfl; split <;> rfl
@[simp] theorem Dev.st_cvf (x : Ctx) (d : Dev) (a n v : Nat) : (d.st x a n v).cvf = d.cvf := by simp only [Dev.st]; split; rfl; split <;> rfl
@[simp] theorem Dev.st_sec (x : Ctx) (d : Dev) (a n v : Nat) : (d.st x a n v).sec = d.sec := by simp only [Dev.st]; split; rfl; split <;> rfl
@[simp] theorem Dev.st_pmc (x : Ctx) (d : Dev) (a n v : Nat) : (d.st x a n v).pmc = d.pmc := by simp only [Dev.st]; split; rfl; split <;> rfl
@[simp] theorem Dev.st_boot (x : Ctx) (d : Dev) (a n v : Nat) : (d.st x a n v).boot = d.boot := by simp only [Dev.st]; split; rfl; split <;> rfl
@[simp] theorem Dev.st_units (x : Ctx) (d : Dev) (a n v : Nat) : (d.st x a n v).units = d.units := by simp only [Dev.st]; split; rfl; split <;> rfl

@[simp] theorem Dev.land_now (d : Dev) (c : Cmd) : (d.land c).now = d.now := rfl
@[simp] theorem Dev.land_free (d : Dev) (c : Cmd) : (d.land c).free = d.free := rfl
@[simp] theorem Dev.land_regs (d : Dev) (c : Cmd) : (d.land c).regs = d.regs := rfl
@[simp] theorem Dev.land_writes (d : Dev) (c : Cmd) : (d.land c).writes = d.writes := rfl
@[simp] theorem Dev.land_wire (d : Dev) (c : Cmd) : (d.land c).wire = d.wire := rfl
@[simp] theorem Dev.land_err (d : Dev) (c : Cmd) : (d.land c).err = d.err := rfl
@[simp] theorem Dev.land_time (d : Dev) (c : Cmd) : (d.land c).time = d.time := rfl
@[simp] theorem Dev.land_arb (d : Dev) (c : Cmd) : (d.land c).arb = d.arb := rfl
@[simp] theorem Dev.land_sess (d : Dev) (c : Cmd) : (d.land c).sess = d.sess := rfl
@[simp] theorem Dev.land_kv (d : Dev) (c : Cmd) : (d.land c).kv = d.kv := rfl
@[simp] theorem Dev.land_tier (d : Dev) (c : Cmd) : (d.land c).tier = d.tier := rfl
@[simp] theorem Dev.land_attn (d : Dev) (c : Cmd) : (d.land c).attn = d.attn := rfl
@[simp] theorem Dev.land_tail (d : Dev) (c : Cmd) : (d.land c).tail = d.tail := rfl
@[simp] theorem Dev.land_text (d : Dev) (c : Cmd) : (d.land c).text = d.text := rfl
@[simp] theorem Dev.land_rcl (d : Dev) (c : Cmd) : (d.land c).rcl = d.rcl := rfl
@[simp] theorem Dev.land_ckpt (d : Dev) (c : Cmd) : (d.land c).ckpt = d.ckpt := rfl
@[simp] theorem Dev.land_belt (d : Dev) (c : Cmd) : (d.land c).belt = d.belt := rfl
@[simp] theorem Dev.land_cvf (d : Dev) (c : Cmd) : (d.land c).cvf = d.cvf := rfl
@[simp] theorem Dev.land_sec (d : Dev) (c : Cmd) : (d.land c).sec = d.sec := rfl
@[simp] theorem Dev.land_pmc (d : Dev) (c : Cmd) : (d.land c).pmc = d.pmc := rfl
@[simp] theorem Dev.land_boot (d : Dev) (c : Cmd) : (d.land c).boot = d.boot := rfl
@[simp] theorem Dev.land_units (d : Dev) (c : Cmd) : (d.land c).units = d.units := rfl

@[simp] theorem Dev.draw_now (d : Dev) : d.draw.2.now = d.now := rfl
@[simp] theorem Dev.draw_regs (d : Dev) : d.draw.2.regs = d.regs := rfl
@[simp] theorem Dev.draw_writes (d : Dev) : d.draw.2.writes = d.writes := rfl
@[simp] theorem Dev.draw_wire (d : Dev) : d.draw.2.wire = d.wire := rfl
@[simp] theorem Dev.draw_hif (d : Dev) : d.draw.2.hif = d.hif := rfl
@[simp] theorem Dev.draw_err (d : Dev) : d.draw.2.err = d.err := rfl
@[simp] theorem Dev.draw_time (d : Dev) : d.draw.2.time = d.time := rfl
@[simp] theorem Dev.draw_arb (d : Dev) : d.draw.2.arb = d.arb := rfl
@[simp] theorem Dev.draw_sess (d : Dev) : d.draw.2.sess = d.sess := rfl
@[simp] theorem Dev.draw_kv (d : Dev) : d.draw.2.kv = d.kv := rfl
@[simp] theorem Dev.draw_tier (d : Dev) : d.draw.2.tier = d.tier := rfl
@[simp] theorem Dev.draw_attn (d : Dev) : d.draw.2.attn = d.attn := rfl
@[simp] theorem Dev.draw_tail (d : Dev) : d.draw.2.tail = d.tail := rfl
@[simp] theorem Dev.draw_text (d : Dev) : d.draw.2.text = d.text := rfl
@[simp] theorem Dev.draw_rcl (d : Dev) : d.draw.2.rcl = d.rcl := rfl
@[simp] theorem Dev.draw_ckpt (d : Dev) : d.draw.2.ckpt = d.ckpt := rfl
@[simp] theorem Dev.draw_belt (d : Dev) : d.draw.2.belt = d.belt := rfl
@[simp] theorem Dev.draw_cvf (d : Dev) : d.draw.2.cvf = d.cvf := rfl
@[simp] theorem Dev.draw_sec (d : Dev) : d.draw.2.sec = d.sec := rfl
@[simp] theorem Dev.draw_pmc (d : Dev) : d.draw.2.pmc = d.pmc := rfl
@[simp] theorem Dev.draw_boot (d : Dev) : d.draw.2.boot = d.boot := rfl
@[simp] theorem Dev.draw_free (d : Dev) : d.draw.2.free = d.free + 1 := rfl

/-! ### What a register reads after a write -/

theorem tblGet_tblSet {α : Type} (k : Nat) (v : α) (j : Nat) (l : List (Nat × α)) :
    tblGet j (tblSet k v l) = if j = k then some v else tblGet j l := by
  have hs : ∀ m : List (Nat × α), tblGet j ((k, v) :: m) = if j = k then some v else tblGet j m := by
    intro m
    by_cases h : j = k
    · subst h; simp [tblGet]
    · have h' : ¬ k = j := fun e => h e.symm
      simp [tblGet, h, h']
  induction l with
  | nil => exact hs []
  | cons p t ih =>
    obtain ⟨i, w⟩ := p
    unfold tblSet
    split
    · exact hs _
    · split
      · rename_i _ h
        have h : i = k := by simpa using h
        subst h
        rw [hs]
        by_cases hj : j = i
        · simp [hj]
        · have : ¬ i = j := fun e => hj e.symm
          simp [tblGet, hj, this]
      · by_cases h : j = i
        · subst h; simp_all [tblGet]
        · have : ¬ i = j := fun e => h e.symm
          simp [tblGet, this, ih]

@[simp] theorem tblGet_tblSet_self {α : Type} (k : Nat) (v : α) (l : List (Nat × α)) : tblGet k (tblSet k v l) = some v := by
  simp [tblGet_tblSet]

theorem tblGet_tblDel {α : Type} (k j : Nat) (l : List (Nat × α)) : tblGet j (tblDel k l) = if j = k then none else tblGet j l := by
  induction l with
  | nil => simp [tblDel, tblGet]
  | cons p t ih =>
    obtain ⟨i, w⟩ := p
    unfold tblDel at ih ⊢
    by_cases h : i = k
    · subst h
      rw [List.filter_cons_of_neg (by simp)]
      by_cases hj : j = i
      · subst hj; simpa using ih
      · have : ¬ i = j := fun e => hj e.symm
        simp [ih, hj, tblGet, this]
    · rw [List.filter_cons_of_pos (by simpa using h)]
      by_cases hj : j = i
      · subst hj; simp [tblGet, h]
      · have : ¬ i = j := fun e => hj e.symm
        simp [tblGet, this, ih]

theorem Dev.setReg_reg (d : Dev) (off v o : Nat) : (d.setReg off v).reg o = if o = off then v % 2 ^ 32 else d.reg o := by
  simp only [Dev.setReg]
  split
  · rename_i h
    by_cases ho : o = off
    · subst ho
      have h' : BitVec.ofNat 32 v = regReset o := by simpa using h
      simp [Dev.reg, tblGet_tblDel, ← h']
    · simp [Dev.reg, tblGet_tblDel, ho]
  · by_cases ho : o = off
    · subst ho; simp [Dev.reg]
    · simp [Dev.reg, tblGet_tblSet, ho]

@[simp] theorem Dev.setReg_reg_self (d : Dev) (off v : Nat) : (d.setReg off v).reg off = v % 2 ^ 32 := by simp [Dev.setReg_reg]

end Sys2Proof.Machine
end

