-- ==== Sys2Proof/Laws/Frames.lean ====
section
/-! SUPPORT. Laws/Frames.lean: what the queue operations and the error reports leave alone. -/

namespace Sys2Proof.Machine

/-! ### One unit out of all -/

theorem Dev.now_of_units {a b : Dev} (h : a.units = b.units) : a.now = b.now := congrArg (·.1) h
theorem Dev.free_of_units {a b : Dev} (h : a.units = b.units) : a.free = b.free := congrArg (·.2.1) h
theorem Dev.time_of_units {a b : Dev} (h : a.units = b.units) : a.time = b.time := congrArg (·.2.2.1) h
theorem Dev.arb_of_units {a b : Dev} (h : a.units = b.units) : a.arb = b.arb := congrArg (·.2.2.2.1) h
theorem Dev.sess_of_units {a b : Dev} (h : a.units = b.units) : a.sess = b.sess := congrArg (·.2.2.2.2.1) h
theorem Dev.tier_of_units {a b : Dev} (h : a.units = b.units) : a.tier = b.tier := congrArg (·.2.2.2.2.2.1) h
theorem Dev.attn_of_units {a b : Dev} (h : a.units = b.units) : a.attn = b.attn := congrArg (·.2.2.2.2.2.2.1) h
theorem Dev.tail_of_units {a b : Dev} (h : a.units = b.units) : a.tail = b.tail := congrArg (·.2.2.2.2.2.2.2.1) h
theorem Dev.text_of_units {a b : Dev} (h : a.units = b.units) : a.text = b.text := congrArg (·.2.2.2.2.2.2.2.2.1) h
theorem Dev.rcl_of_units {a b : Dev} (h : a.units = b.units) : a.rcl = b.rcl := congrArg (·.2.2.2.2.2.2.2.2.2.1) h
theorem Dev.ckpt_of_units {a b : Dev} (h : a.units = b.units) : a.ckpt = b.ckpt := congrArg (·.2.2.2.2.2.2.2.2.2.2.1) h
theorem Dev.belt_of_units {a b : Dev} (h : a.units = b.units) : a.belt = b.belt := congrArg (·.2.2.2.2.2.2.2.2.2.2.2.1) h
theorem Dev.cvf_of_units {a b : Dev} (h : a.units = b.units) : a.cvf = b.cvf := congrArg (·.2.2.2.2.2.2.2.2.2.2.2.2.1) h
theorem Dev.sec_of_units {a b : Dev} (h : a.units = b.units) : a.sec = b.sec := congrArg (·.2.2.2.2.2.2.2.2.2.2.2.2.2.1) h
theorem Dev.pmc_of_units {a b : Dev} (h : a.units = b.units) : a.pmc = b.pmc := congrArg (·.2.2.2.2.2.2.2.2.2.2.2.2.2.2.1) h
theorem Dev.boot_of_units {a b : Dev} (h : a.units = b.units) : a.boot = b.boot := congrArg (·.2.2.2.2.2.2.2.2.2.2.2.2.2.2.2) h

/-! ### Interrupts -/

@[simp] theorem Dev.raise_units (d : Dev) (v : Nat) : (d.raise v).units = d.units := by
  unfold Dev.raise; split
  · rfl
  · split <;> simp

@[simp] theorem Dev.raise_kv (d : Dev) (v : Nat) : (d.raise v).kv = d.kv := by
  unfold Dev.raise; split
  · rfl
  · split <;> simp

@[simp] theorem Dev.raise_err (d : Dev) (v : Nat) : (d.raise v).err = d.err := by
  unfold Dev.raise; split
  · rfl
  · split <;> simp

@[simp] theorem Dev.raise_hif (d : Dev) (v : Nat) : (d.raise v).hif = d.hif := by
  unfold Dev.raise; split
  · rfl
  · split <;> simp

@[simp] theorem Dev.raise_writes (d : Dev) (v : Nat) : (d.raise v).writes = d.writes := by
  unfold Dev.raise; split
  · rfl
  · split <;> simp

@[simp] theorem Dev.raiseVec_units (d : Dev) (v : Nat) : (d.raiseVec v).units = d.units := by
  unfold Dev.raiseVec; rw [Dev.raise_units]; rfl
@[simp] theorem Dev.raiseVec_kv (d : Dev) (v : Nat) : (d.raiseVec v).kv = d.kv := by simp [Dev.raiseVec]
@[simp] theorem Dev.raiseVec_err (d : Dev) (v : Nat) : (d.raiseVec v).err = d.err := by simp [Dev.raiseVec]
@[simp] theorem Dev.raiseVec_writes (d : Dev) (v : Nat) : (d.raiseVec v).writes = d.writes := by simp [Dev.raiseVec]

@[simp] theorem Dev.signal_units (d : Dev) (v : Nat) (now : Bool) : (d.signal v now).units = d.units := by
  simp only [Dev.signal]; split
  · simp
  · rfl
@[simp] theorem Dev.signal_kv (d : Dev) (v : Nat) (now : Bool) : (d.signal v now).kv = d.kv := by
  simp only [Dev.signal]; split <;> simp
@[simp] theorem Dev.signal_err (d : Dev) (v : Nat) (now : Bool) : (d.signal v now).err = d.err := by
  simp only [Dev.signal]; split <;> simp
@[simp] theorem Dev.signal_writes (d : Dev) (v : Nat) (now : Bool) : (d.signal v now).writes = d.writes := by
  simp only [Dev.signal]; split <;> simp

/-! ### Completion queues -/

/-- An entry that is posted, as an update of the device before its vector is signalled. -/
theorem Dev.post_eq {x : Ctx} {d : Dev} {cq form val : Nat} {now : Bool} {q : Cq} (h : tblGet cq d.hif.cqs = some q) :
    let d1 := d.st x (d.ringBase + q.offset + 32 * q.tail) 32 (setBits val 40 8 (form + ofB q.phase * 128))
    let t := (q.tail + 1) % 2 ^ q.sizeLog2
    let q' := { q with tail := t, phase := if t == 0 then !q.phase else q.phase, live := q.live + 1 }
    let d2 := { d1 with hif := { d1.hif with cqs := tblSet cq q' d1.hif.cqs } }
    d.post x cq form val now = match q.vector with | some vec => d2.signal vec now | none => d2 := by
  cases hv : q.vector <;> simp only [Dev.post, h, hv]

theorem Dev.units_hif (d : Dev) (h : Hif) : { d with hif := h }.units = d.units := rfl
theorem Dev.kv_hif (d : Dev) (h : Hif) : { d with hif := h }.kv = d.kv := rfl

@[simp] theorem Dev.post_units (x : Ctx) (d : Dev) (cq form val : Nat) (now : Bool) : (d.post x cq form val now).units = d.units := by
  cases h : tblGet cq d.hif.cqs with
  | none => simp [Dev.post, h]
  | some q =>
    rw [Dev.post_eq h]
    cases q.vector with
    | none => exact (Dev.units_hif ..).trans (Dev.st_units ..)
    | some v => exact (Dev.signal_units ..).trans ((Dev.units_hif ..).trans (Dev.st_units ..))

@[simp] theorem Dev.post_kv (x : Ctx) (d : Dev) (cq form val : Nat) (now : Bool) : (d.post x cq form val now).kv = d.kv := by
  cases h : tblGet cq d.hif.cqs with
  | none => simp [Dev.post, h]
  | some q =>
    rw [Dev.post_eq h]
    cases q.vector with
    | none => exact (Dev.kv_hif ..).trans (Dev.st_kv ..)
    | some v => exact (Dev.signal_kv ..).trans ((Dev.kv_hif ..).trans (Dev.st_kv ..))

@[simp] theorem Dev.postFinal_units (x : Ctx) (d : Dev) (c : Cmd) (s : Status) (r t : Nat) : (d.postFinal x c s r t).units = d.units := by
  simp only [Dev.postFinal]; split <;> simp
@[simp] theorem Dev.postFinal_kv (x : Ctx) (d : Dev) (c : Cmd) (s : Status) (r t : Nat) : (d.postFinal x c s r t).kv = d.kv := by
  simp only [Dev.postFinal]; split <;> simp

@[simp] theorem Dev.settleDelete_units (x : Ctx) (d : Dev) (sq : Nat) : (d.settleDelete x sq).units = d.units := by
  simp only [Dev.settleDelete]; split
  · split
    · split
      · rfl
      · rw [Dev.postFinal_units]; rfl
    · rfl
  · rfl
@[simp] theorem Dev.settleDelete_kv (x : Ctx) (d : Dev) (sq : Nat) : (d.settleDelete x sq).kv = d.kv := by
  simp only [Dev.settleDelete]; split
  · split
    · split <;> simp
    · rfl
  · rfl

@[simp] theorem Dev.finishAt_units (x : Ctx) (d : Dev) (c : Cmd) (s : Status) (r t : Nat) : (d.finishAt x c s r t).units = d.units := by
  simp [Dev.finishAt]
@[simp] theorem Dev.finishAt_kv (x : Ctx) (d : Dev) (c : Cmd) (s : Status) (r t : Nat) : (d.finishAt x c s r t).kv = d.kv := by
  simp [Dev.finishAt]
@[simp] theorem Dev.finish_units (x : Ctx) (d : Dev) (c : Cmd) (s : Status) (r : Nat) : (d.finish x c s r).units = d.units := by
  simp [Dev.finish]
@[simp] theorem Dev.finish_kv (x : Ctx) (d : Dev) (c : Cmd) (s : Status) (r : Nat) : (d.finish x c s r).kv = d.kv := by
  simp [Dev.finish]
@[simp] theorem Dev.finishO_units (x : Ctx) (d : Dev) (c : Option Cmd) (s : Status) (r : Nat) : (d.finish? x c s r).units = d.units := by
  cases c <;> simp [Dev.finish?]

theorem Dev.st_logs (x : Ctx) (d : Dev) (a n v : Nat) : (d.st x a n v).err.logs = d.err.logs := by
  unfold Dev.st; split
  · rfl
  · split <;> rfl

@[simp] theorem Dev.signal_requests (d : Dev) (v : Nat) (now : Bool) : (d.signal v now).hif.requests = d.hif.requests := by
  simp only [Dev.signal]; split
  · simp [Dev.raiseVec]
  · rfl
theorem Dev.logs_hif (d : Dev) (h : Hif) : { d with hif := h }.err.logs = d.err.logs := rfl
theorem Dev.requests_cqs (d : Dev) (c : List (Nat × Cq)) : { d with hif := { d.hif with cqs := c } }.hif.requests = d.hif.requests := rfl

/-- Posting an entry writes no log and answers no request. -/
@[simp] theorem Dev.post_logs (x : Ctx) (d : Dev) (cq form val : Nat) (now : Bool) : (d.post x cq form val now).err.logs = d.err.logs := by
  cases h : tblGet cq d.hif.cqs with
  | none => simp [Dev.post, h]
  | some q =>
    rw [Dev.post_eq h]
    cases q.vector with
    | none => exact (Dev.logs_hif ..).trans (Dev.st_logs ..)
    | some v => exact (congrArg Err.logs (Dev.signal_err ..)).trans ((Dev.logs_hif ..).trans (Dev.st_logs ..))

@[simp] theorem Dev.post_requests (x : Ctx) (d : Dev) (cq form val : Nat) (now : Bool) :
    (d.post x cq form val now).hif.requests = d.hif.requests := by
  cases h : tblGet cq d.hif.cqs with
  | none => simp [Dev.post, h]
  | some q =>
    rw [Dev.post_eq h]
    cases q.vector with
    | none => exact (Dev.requests_cqs ..).trans (congrArg Hif.requests (Dev.st_hif ..))
    | some v => exact (Dev.signal_requests ..).trans ((Dev.requests_cqs ..).trans (congrArg Hif.requests (Dev.st_hif ..)))

@[simp] theorem Dev.postFinal_logs (x : Ctx) (d : Dev) (c : Cmd) (s : Status) (r t : Nat) : (d.postFinal x c s r t).err.logs = d.err.logs := by
  unfold Dev.postFinal; split <;> simp
@[simp] theorem Dev.postFinal_requests (x : Ctx) (d : Dev) (c : Cmd) (s : Status) (r t : Nat) :
    (d.postFinal x c s r t).hif.requests = d.hif.requests := by
  unfold Dev.postFinal; split <;> simp

theorem Dev.settleDelete_logs (x : Ctx) (d : Dev) (sq : Nat) :
    (d.settleDelete x sq).err.logs = d.err.logs ∧ (d.settleDelete x sq).hif.requests = d.hif.requests := by
  simp only [Dev.settleDelete]
  split
  · split
    · split
      · exact ⟨rfl, rfl⟩
      · exact ⟨Dev.postFinal_logs .., Dev.postFinal_requests ..⟩
    · exact ⟨rfl, rfl⟩
  · exact ⟨rfl, rfl⟩

@[simp] theorem Dev.finish_logs (x : Ctx) (d : Dev) (c : Cmd) (s : Status) (r : Nat) : (d.finish x c s r).err.logs = d.err.logs :=
  (Dev.settleDelete_logs ..).1.trans (Dev.postFinal_logs ..)
@[simp] theorem Dev.finish_requests (x : Ctx) (d : Dev) (c : Cmd) (s : Status) (r : Nat) :
    (d.finish x c s r).hif.requests = d.hif.requests := (Dev.settleDelete_logs ..).2.trans (Dev.postFinal_requests ..)

@[simp] theorem Dev.event_units (x : Ctx) (d : Dev) (code a b c : Nat) : (d.event x code a b c).units = d.units := by
  simp only [Dev.event]; split <;> simp
@[simp] theorem Dev.event_kv (x : Ctx) (d : Dev) (code a b c : Nat) : (d.event x code a b c).kv = d.kv := by
  simp only [Dev.event]; split <;> simp

/-! ### Error reports -/

@[simp] theorem Dev.enqueueReport_units (d : Dev) (r : Report) : (d.enqueueReport r).units = d.units := by
  simp only [Dev.enqueueReport]; split
  · rfl
  · split
    · rfl
    · simp
@[simp] theorem Dev.enqueueReport_kv (d : Dev) (r : Report) : (d.enqueueReport r).kv = d.kv := by
  simp only [Dev.enqueueReport]; split
  · rfl
  · split <;> simp
@[simp] theorem Dev.enqueueReport_hif (d : Dev) (r : Report) : (d.enqueueReport r).hif = d.hif := by
  simp only [Dev.enqueueReport]; split
  · rfl
  · split <;> simp
@[simp] theorem Dev.enqueueReport_writes (d : Dev) (r : Report) : (d.enqueueReport r).writes = d.writes := by
  simp only [Dev.enqueueReport]; split
  · rfl
  · split <;> simp

theorem Dev.setReg_form (d : Dev) (off v : Nat) : ∃ r, d.setReg off v = { d with regs := r } := by
  simp only [Dev.setReg]; split <;> exact ⟨_, rfl⟩

/-- A warning counts in registers and in the error unit alone. -/
theorem Dev.countWarning_form (d : Dev) (type : Nat) : ∃ r e, d.countWarning type = { d with regs := r, err := e } := by
  have h2 : ∀ (p : Bool) (r : List (Nat × Word)) (e e' : Err),
      ∃ f, (if p then ({ d with regs := r, err := e } : Dev) else { d with regs := r, err := e' }) = { d with regs := r, err := f } :=
    fun p r e e' => by cases p <;> exact ⟨_, rfl⟩
  unfold Dev.countWarning
  cases warnClass type with
  | none => exact ⟨_, _, rfl⟩
  | some c =>
    obtain ⟨r, hr⟩ : ∃ r, d.bump (Reg.errlogCeClass c) 1 = { d with regs := r } := Dev.setReg_form ..
    simp only [hr]
    obtain ⟨f, hf⟩ := h2 (d.err.secWin == d.now / 1000000000) r { d.err with secCount := d.err.secCount + 1 }
      { d.err with secPrev := if d.err.secWin + 1 == d.now / 1000000000 then d.err.secCount else 0, secWin := d.now / 1000000000, secCount := 1 }
    rw [hf]
    split
    · exact ⟨_, _, rfl⟩
    · split <;> exact ⟨_, _, rfl⟩

@[simp] theorem Dev.countWarning_units (d : Dev) (type : Nat) : (d.countWarning type).units = d.units := by
  obtain ⟨r, e, h⟩ := d.countWarning_form type
  rw [h]; rfl
@[simp] theorem Dev.countWarning_hif (d : Dev) (type : Nat) : (d.countWarning type).hif = d.hif := by
  obtain ⟨r, e, h⟩ := d.countWarning_form type
  rw [h]
@[simp] theorem Dev.countWarning_writes (d : Dev) (type : Nat) : (d.countWarning type).writes = d.writes := by
  obtain ⟨r, e, h⟩ := d.countWarning_form type
  rw [h]

@[simp] theorem Dev.reportAs_units (d : Dev) (j : Bool) (s t v i : Nat) : (d.reportAs j s t v i).units = d.units := by
  simp only [Dev.reportAs, Dev.enqueueReport_units, Dev.countWarning_units]
  split <;> split <;> first | rfl | (split <;> rfl)
@[simp] theorem Dev.reportAs_hif (d : Dev) (j : Bool) (s t v i : Nat) : (d.reportAs j s t v i).hif = d.hif := by
  simp only [Dev.reportAs, Dev.enqueueReport_hif, Dev.countWarning_hif]
  split <;> split <;> first | rfl | (split <;> rfl)
@[simp] theorem Dev.reportAs_writes (d : Dev) (j : Bool) (s t v i : Nat) : (d.reportAs j s t v i).writes = d.writes := by
  simp only [Dev.reportAs, Dev.enqueueReport_writes, Dev.countWarning_writes]
  split <;> split <;> first | rfl | (split <;> rfl)

@[simp] theorem Dev.report_units (d : Dev) (s t v i : Nat) : (d.report s t v i).units = d.units := Dev.reportAs_units ..
@[simp] theorem Dev.report_hif (d : Dev) (s t v i : Nat) : (d.report s t v i).hif = d.hif := Dev.reportAs_hif ..
@[simp] theorem Dev.report_writes (d : Dev) (s t v i : Nat) : (d.report s t v i).writes = d.writes := Dev.reportAs_writes ..

@[simp] theorem Dev.holeCheck_units (x : Ctx) (d : Dev) (a n : Nat) : (d.holeCheck x a n).units = d.units := by
  unfold Dev.holeCheck; split <;> simp
@[simp] theorem Dev.holeCheck_hif (x : Ctx) (d : Dev) (a n : Nat) : (d.holeCheck x a n).hif = d.hif := by
  unfold Dev.holeCheck; split <;> simp
@[simp] theorem Dev.holeCheck_writes (x : Ctx) (d : Dev) (a n : Nat) : (d.holeCheck x a n).writes = d.writes := by
  unfold Dev.holeCheck; split <;> simp

theorem foldl_keeps {α β γ : Type} (f : β → α → β) (g : β → γ) (h : ∀ b a, g (f b a) = g b) (l : List α) (b : β) :
    g (l.foldl f b) = g b := by
  induction l generalizing b with
  | nil => rfl
  | cons a t ih => rw [List.foldl_cons, ih, h]

@[simp] theorem Dev.eccRead_units (d : Dev) (a n : Nat) (l : Bool) : (d.eccRead a n l).units = d.units := by
  simp only [Dev.eccRead]
  rw [foldl_keeps (g := Dev.units)]
  · rfl
  · intro b w; split <;> simp
@[simp] theorem Dev.eccRead_hif (d : Dev) (a n : Nat) (l : Bool) : (d.eccRead a n l).hif = d.hif := by
  simp only [Dev.eccRead]
  rw [foldl_keeps (g := Dev.hif)]
  intro b w; split <;> simp
@[simp] theorem Dev.eccRead_writes (d : Dev) (a n : Nat) (l : Bool) : (d.eccRead a n l).writes = d.writes := by
  simp only [Dev.eccRead]
  rw [foldl_keeps (g := Dev.writes)]
  intro b w; split <;> simp

end Sys2Proof.Machine
end

