-- ==== Sys2Proof/Laws/Memory.lean ====
section
/-! SUPPORT. Laws/Memory.lean: every memory effect keeps the canonical form, and what a byte reads after it. -/

namespace Sys2Proof.Machine

/-! ### The canonical form -/

/-- Every address of a list of cells lies above a bound. -/
def cellsAbove (n : Nat) (l : List Host.Cell) : Prop := ∀ c ∈ l, n < c.1

theorem cellsWf_cons (a : Nat) (v : Byte) (t : List Host.Cell) :
    cellsWf ((a, v) :: t) = true ↔ v ≠ 0 ∧ cellsAbove a t ∧ cellsWf t = true := by
  induction t generalizing a v with
  | nil => simp [cellsWf, cellsAbove]
  | cons p t ih =>
    obtain ⟨b, w⟩ := p
    have h : cellsWf ((a, v) :: (b, w) :: t) = (v != 0 && decide (a < b) && cellsWf ((b, w) :: t)) := rfl
    simp only [h, Bool.and_eq_true, bne_iff_ne, decide_eq_true_eq, ih]
    constructor
    · rintro ⟨⟨hv, hab⟩, hw, hb, ht⟩
      refine ⟨hv, ?_, hw, hb, ht⟩
      intro c hc
      rcases List.mem_cons.1 hc with rfl | hc
      · exact hab
      · exact Nat.lt_trans hab (hb c hc)
    · rintro ⟨hv, ha, hw, hb, ht⟩
      exact ⟨⟨hv, ha (b, w) (List.mem_cons_self ..)⟩, hw, hb, ht⟩

theorem putCell_above {n a : Nat} {v : Byte} {l : List Host.Cell} (hn : n < a) (hl : cellsAbove n l) : cellsAbove n (putCell a v l) := by
  induction l with
  | nil => intro c hc; unfold putCell at hc; split at hc <;> simp_all
  | cons p t ih =>
    obtain ⟨b, w⟩ := p
    have hb : n < b := hl (b, w) (List.mem_cons_self ..)
    have ht : cellsAbove n t := fun c hc => hl c (by simp [hc])
    intro c hc
    unfold putCell at hc
    split at hc
    · split at hc
      · exact hl c hc
      · rcases List.mem_cons.1 hc with rfl | hc
        · exact hn
        · exact hl c hc
    · split at hc
      · split at hc
        · exact ht c hc
        · rcases List.mem_cons.1 hc with rfl | hc
          · exact hn
          · exact ht c hc
      · rcases List.mem_cons.1 hc with rfl | hc
        · exact hb
        · exact ih ht c hc

theorem putCell_wf (a : Nat) (v : Byte) (l : List Host.Cell) (h : cellsWf l = true) : cellsWf (putCell a v l) = true := by
  induction l with
  | nil => unfold putCell; split <;> simp_all [cellsWf]
  | cons p t ih =>
    obtain ⟨b, w⟩ := p
    obtain ⟨hw, hb, ht⟩ := (cellsWf_cons b w t).1 h
    unfold putCell
    split
    · rename_i hab
      split
      · exact h
      · rename_i hv
        refine (cellsWf_cons ..).2 ⟨by simpa using hv, ?_, h⟩
        intro c hc
        rcases List.mem_cons.1 hc with rfl | hc
        · exact hab
        · exact Nat.lt_trans hab (hb c hc)
    · split
      · rename_i hba
        have hba : b = a := by simpa using hba
        split
        · exact ht
        · rename_i hv
          exact (cellsWf_cons ..).2 ⟨by simpa using hv, hba ▸ hb, ht⟩
      · rename_i h1 h2
        have h2 : ¬ b = a := by simpa using h2
        exact (cellsWf_cons ..).2 ⟨hw, putCell_above (by omega) hb, ih ht⟩

theorem dropCells_wf (lo hi : Nat) (l : List Host.Cell) (h : cellsWf l = true) : cellsWf (dropCells lo hi l) = true := by
  induction l with
  | nil => rfl
  | cons p t ih =>
    obtain ⟨b, w⟩ := p
    obtain ⟨hw, hb, ht⟩ := (cellsWf_cons b w t).1 h
    unfold dropCells at ih ⊢
    rw [List.filter_cons]
    split
    · exact (cellsWf_cons ..).2 ⟨hw, fun c hc => hb c (List.mem_filter.1 hc).1, ih ht⟩
    · exact ih ht

theorem putBytes_wf (n a v : Nat) (l : List Host.Cell) (h : cellsWf l = true) : cellsWf (putBytes a v n l) = true := by
  induction n generalizing a v l with
  | zero => exact h
  | succ n ih => exact ih _ _ _ (putCell_wf _ _ _ h)

theorem Memory.apply_wf (m : Memory) (op : MemOp) (h : m.wf = true) : (m.apply op).wf = true := by
  cases op
  · exact putBytes_wf _ _ _ _ h
  · exact dropCells_wf _ _ _ h
  · exact dropCells_wf _ _ _ h

theorem Memory.applyAll_wf (m : Memory) (ops : List MemOp) (h : m.wf = true) : (m.applyAll ops).wf = true := by
  induction ops with
  | nil => exact h
  | cons op t ih => exact Memory.apply_wf _ _ ih

theorem Memory.reset_wf : Memory.reset.wf = true := rfl

/-! ### Reading back -/

theorem cellAt_none_of_above {n a : Nat} {l : List Host.Cell} (h : cellsAbove n l) (ha : a ≤ n) : cellAt a l = none := by
  induction l with
  | nil => rfl
  | cons p t ih =>
    obtain ⟨b, w⟩ := p
    have hb : n < b := h (b, w) (List.mem_cons_self ..)
    have : ¬ b = a := by omega
    simpa [cellAt, this] using ih fun c hc => h c (by simp [hc])

/-- What an address holds after one byte is put. -/
theorem cellAt_putCell (a : Nat) (v : Byte) (l : List Host.Cell) (h : cellsWf l = true) (b : Nat) :
    cellAt b (putCell a v l) = if b = a then (if v == 0 then none else some v) else cellAt b l := by
  have hs : ∀ m : List Host.Cell, cellAt b ((a, v) :: m) = if b = a then some v else cellAt b m := by
    intro m
    by_cases hb : b = a
    · subst hb; simp [cellAt]
    · have : ¬ a = b := fun e => hb e.symm
      simp [cellAt, hb, this]
  induction l with
  | nil =>
    unfold putCell
    by_cases hb : b = a
    · rw [if_pos hb]; split
      · rfl
      · rw [hs, if_pos hb]
    · rw [if_neg hb]; split
      · rfl
      · rw [hs, if_neg hb]
  | cons p t ih =>
    obtain ⟨c, w⟩ := p
    obtain ⟨hw, hc, ht⟩ := (cellsWf_cons c w t).1 h
    unfold putCell
    split
    · rename_i hac
      have hab : cellsAbove a ((c, w) :: t) := by
        intro q hq
        rcases List.mem_cons.1 hq with rfl | hq
        · exact hac
        · exact Nat.lt_trans hac (hc q hq)
      by_cases hb : b = a
      · rw [if_pos hb]; split
        · exact hb ▸ cellAt_none_of_above hab (Nat.le_refl a)
        · rw [hs, if_pos hb]
      · rw [if_neg hb]; split
        · rfl
        · rw [hs, if_neg hb]
    · split
      · rename_i _ hca
        have hca : c = a := by simpa using hca
        subst hca
        by_cases hb : b = c
        · rw [if_pos hb]; split
          · exact hb ▸ cellAt_none_of_above hc (Nat.le_refl c)
          · rw [hs, if_pos hb]
        · have : ¬ c = b := fun e => hb e.symm
          rw [if_neg hb]; split
          · simp [cellAt, this]
          · rw [hs, if_neg hb]; simp [cellAt, this]
      · rename_i h1 h2
        have h2 : ¬ c = a := by simpa using h2
        by_cases hb : c = b
        · subst hb; rw [if_neg h2]; simp [cellAt]
        · simp only [cellAt, show (c == b) = false by simpa using hb, Bool.false_eq_true, if_false]
          exact ih ht

/-- What a store of some bytes leaves at an address of the list of cells. -/
theorem cellAt_putBytes (n : Nat) : ∀ (a v : Nat) (l : List Host.Cell), cellsWf l = true → ∀ b,
    cellAt b (putBytes a v n l) = if a ≤ b ∧ b < a + n then
      (if BitVec.ofNat 8 (v / 256 ^ (b - a) % 256) == 0 then none else some (BitVec.ofNat 8 (v / 256 ^ (b - a) % 256))) else cellAt b l := by
  induction n with
  | zero => intro a v l h b; rw [if_neg (by omega)]; rfl
  | succ n ih =>
    intro a v l h b
    unfold putBytes
    rw [ih _ _ _ (putCell_wf _ _ _ h), cellAt_putCell _ _ _ h]
    by_cases hb : b = a
    · subst hb; simp
    · by_cases hr : a ≤ b ∧ b < a + (n + 1)
      · rw [if_pos hr, if_pos (by omega)]
        have e : b - a = (b - (a + 1)) + 1 := by omega
        rw [e, Nat.pow_succ, Nat.mul_comm, Nat.div_div_eq_div_mul]
      · rw [if_neg hr, if_neg (by omega), if_neg hb]

theorem cellAt_dropCells (lo hi : Nat) (l : List Host.Cell) (a : Nat) :
    cellAt a (dropCells lo hi l) = if lo ≤ a ∧ a < hi then none else cellAt a l := by
  induction l with
  | nil => simp [dropCells, cellAt]
  | cons p t ih =>
    obtain ⟨b, w⟩ := p
    unfold dropCells at ih ⊢
    rw [List.filter_cons]
    by_cases hb : b = a
    · subst hb
      by_cases hin : lo ≤ b ∧ b < hi
      · rw [if_neg (by simp; omega), ih]; simp [hin]
      · rw [if_pos (by simp; omega)]; simp [cellAt, hin]
    · split <;> simp [cellAt, hb, ih]

theorem inRanges_cutRange (lo hi : Nat) (rs : List (Nat × Nat)) (a : Nat) :
    inRanges a (cutRange lo hi rs) = (inRanges a rs && !(decide (lo ≤ a) && decide (a < hi))) := by
  induction rs with
  | nil => rfl
  | cons r t ih =>
    have e : inRanges a (cutRange lo hi (r :: t)) = (inRanges a (cutRange lo hi [r]) || inRanges a (cutRange lo hi t)) := by
      simp [inRanges, cutRange, List.flatMap_cons, List.any_append, Bool.or_assoc]
    have f : inRanges a (r :: t) = (inRanges a [r] || inRanges a t) := by simp [inRanges]
    rw [e, f, ih]
    have g : inRanges a (cutRange lo hi [r]) = (inRanges a [r] && !(decide (lo ≤ a) && decide (a < hi))) := by
      obtain ⟨p, q⟩ := r
      simp only [inRanges, cutRange, List.flatMap_cons, List.flatMap_nil, List.append_nil, List.any_append, List.any_cons, List.any_nil,
        Bool.or_false]
      rw [Bool.eq_iff_iff]
      by_cases h1 : p < min q lo <;> by_cases h2 : max p hi < q <;> simp [h1, h2] <;> omega
    rw [g]
    cases inRanges a [r] <;> cases inRanges a t <;> simp

end Sys2Proof.Machine
end

