-- ==== Sys2Proof/Laws/Ops.lean ====
section
/-! SUPPORT. Laws/Ops.lean: one lemma for each shared operand form: what it does where its checks pass, and where they do
not. -/

namespace Sys2Proof.Machine

/-! ### Running a command -/

theorem State.run_next (s : State) (f : Ctx → Dev → Dev) : s.run f = .next (s.commit (f s.ctx s.view)) := rfl

theorem State.ring_next {s : State} {e : Entry} {used res : List (Nat × Nat)} (f : Ctx → Dev → Cmd → Dev)
    (h : e.reservedSet used res = false) : s.ring e used res f = .next (s.commit (f s.ctx s.view e.cmd)) := by
  simp [State.ring, State.run, State.after, h]

theorem State.ring_reserved {s : State} {e : Entry} {used res : List (Nat × Nat)} (f : Ctx → Dev → Cmd → Dev)
    (h : e.reservedSet used res = true) : s.ring e used res f = .next (s.commit (s.view.unpredictable s.ctx e.cmd)) := by
  simp [State.ring, State.run, State.after, h]

/-! ### Checks -/

@[simp] theorem firstFail_nil : firstFail [] = none := rfl
@[simp] theorem firstFail_cons (b : Bool) (s : Status) (t : List (Bool × Status)) :
    firstFail ((b, s) :: t) = if b then some s else firstFail t := by cases b <;> rfl

@[simp] theorem firstFail_append (l m : List (Bool × Status)) : firstFail (l ++ m) = (firstFail l).or (firstFail m) := by
  induction l with
  | nil => rfl
  | cons p t ih => obtain ⟨b, s⟩ := p; cases b <;> simp [ih]

theorem Dev.checked_pass {x : Ctx} {d : Dev} {c : Cmd} {cs : List (Bool × Status)} (f : Dev → Dev) (h : firstFail cs = none) :
    d.checked x c cs f = f d := by simp [Dev.checked, h]

theorem Dev.checked_stop {x : Ctx} {d : Dev} {c : Cmd} {cs : List (Bool × Status)} {st : Status} (f : Dev → Dev)
    (h : firstFail cs = some st) : d.checked x c cs f = d.finish x c st 0 := by simp [Dev.checked, h]

theorem Dev.buffers_pass {x : Ctx} {d : Dev} {c : Cmd} {bs : List (Nat × Nat)} (f : Dev → Dev)
    (h : (bs.find? fun b => !(mappedRange x.fuses.part d b.1 b.2)) = none) : d.buffers x c bs f = f d := by
  simp only [Dev.buffers, h]

theorem Dev.buffers_hole {x : Ctx} {d : Dev} {c : Cmd} {bs : List (Nat × Nat)} {b : Nat × Nat} (f : Dev → Dev)
    (h : (bs.find? fun b => !(mappedRange x.fuses.part d b.1 b.2)) = some b) :
    d.buffers x c bs f = (d.holeCheck x b.1 b.2).unpredictable x c := by
  simp only [Dev.buffers, h]

theorem Dev.source_pass {x : Ctx} {d : Dev} {c : Cmd} {a len : Nat} (f : Dev → Dev) (h : d.mediaBad a len = false) :
    d.source x c a len f = f (d.eccRead a len true) := by simp [Dev.source, h]

theorem Dev.source_bad {x : Ctx} {d : Dev} {c : Cmd} {a len : Nat} (f : Dev → Dev) (h : d.mediaBad a len = true) :
    d.source x c a len f = (d.eccRead a len true).finish x c .FAULT_MEDIA 0 := by simp [Dev.source, h]

theorem Dev.withSession_pass {x : Ctx} {d : Dev} {c : Cmd} {h : Nat} {ds : Desc} (f : Dev → Nat → Desc → Dev)
    (hd : (d.readDesc x (handleIdx h)).2 = some ds) (hg : ds.gen % 1024 = handleGen h) :
    d.withSession x c h f = f (d.readDesc x (handleIdx h)).1 (handleIdx h) ds := by
  unfold Dev.withSession
  rcases hr : d.readDesc x (handleIdx h) with ⟨d', o⟩
  rw [hr] at hd
  subst hd
  simp [hg]

theorem Dev.withSession_stale {x : Ctx} {d : Dev} {c : Cmd} {h : Nat} {ds : Desc} (f : Dev → Nat → Desc → Dev)
    (hd : (d.readDesc x (handleIdx h)).2 = some ds) (hg : ds.gen % 1024 ≠ handleGen h) :
    d.withSession x c h f = (d.readDesc x (handleIdx h)).1.finish x c .REFUSED_STATE 0 := by
  unfold Dev.withSession
  rcases hr : d.readDesc x (handleIdx h) with ⟨d', o⟩
  rw [hr] at hd
  subst hd
  simp [hg]

theorem Dev.withSession_bad {x : Ctx} {d : Dev} {c : Cmd} {h : Nat} (f : Dev → Nat → Desc → Dev)
    (hd : (d.readDesc x (handleIdx h)).2 = none) :
    d.withSession x c h f = (d.readDesc x (handleIdx h)).1.finish x c .FAULT_MEDIA 0 := by
  unfold Dev.withSession
  rcases hr : d.readDesc x (handleIdx h) with ⟨d', o⟩
  rw [hr] at hd
  subst hd
  rfl

/-! ### Register accesses -/

theorem Dev.bar0_served {x : Ctx} {d : Dev} {off : Nat} (f : Dev → Dev) (h : d.bar0Cpl x off = .success) :
    d.bar0 x off f = f d := by simp [Dev.bar0, h]

theorem Dev.bar0_refused {x : Ctx} {d : Dev} {off : Nat} (f : Dev → Dev) (h : d.bar0Cpl x off ≠ .success) :
    d.bar0 x off f = d.send (.cpl (d.bar0Cpl x off) 0 false) := by
  cases hc : d.bar0Cpl x off <;> simp_all [Dev.bar0]

theorem Dev.doorbell_served {d : Dev} {off width : Nat} (f : Dev → Dev) (hb : d.barsDecoded = true) (ho : d.operational = true)
    (h0 : off = 0) (h4 : width = 4) : d.doorbell off width f = f d := by
  subst h0 h4; simp [Dev.doorbell, hb, ho]

theorem Dev.mctp_answers {d : Dev} (a : McAnswer) (h : d.eclipse = false) : d.mctp a = d.send (.mctp a) := by
  simp [Dev.mctp, h]

theorem Dev.mctp_silent {d : Dev} (a : McAnswer) (h : d.eclipse = true) : d.mctp a = d := by simp [Dev.mctp, h]

/-! ### Chain frames -/

theorem Dev.chainFrame_acts {d : Dev} {second : Bool} {f : List Nat} (act : Dev → Dev) (hr : d.boot.railsOut = false)
    (hs : second = false ∨ d.boot.chain2 = true) (hf : frameOk f = true) :
    let d1 := d.send (.chain second (forwarded f))
    let recent := d1.boot.chain.filter fun c => d1.now ≤ c.2.2 + 100000
    let d2 : Dev := { d1 with boot := { d1.boot with chain := recent ++ [(second, f, d1.now)] } }
    (d1.boot.chain2 && recent.any fun c => c.1 != second && c.2.1 == f) = false → d2.dstMatches (getAt 0 2 f) = true →
    d.chainFrame second f act = act d2 := by
  intro d1 recent d2 ht hd
  have h0 : (d.boot.railsOut || (second && !d.boot.chain2)) = false := by
    rcases hs with rfl | hs
    · simp [hr]
    · simp [hr, hs]
  have h1 : ((d1.boot.chain2 && recent.any fun c => c.1 != second && c.2.1 == f) || !(d2.dstMatches (getAt 0 2 f))) = false := by
    simp only [ht, hd, Bool.not_true, Bool.or_self]
  unfold Dev.chainFrame
  rw [if_neg (by simp [h0]), if_neg (by simp [hf])]
  exact if_neg (by rw [h1]; exact Bool.false_ne_true)

theorem Dev.chainFrame_bad {d : Dev} {second : Bool} {f : List Nat} (act : Dev → Dev) (hr : d.boot.railsOut = false)
    (hs : second = false ∨ d.boot.chain2 = true) (hf : frameOk f = false) :
    d.chainFrame second f act = d.bump Reg.chipMchErr 1 := by
  have h0 : (d.boot.railsOut || (second && !d.boot.chain2)) = false := by
    rcases hs with rfl | hs
    · simp [hr]
    · simp [hr, hs]
  unfold Dev.chainFrame
  rw [if_neg (by simp [h0]), if_pos (by simp [hf])]

/-! ### Mapped ranges (R84) -/

theorem fitted_lt (p : Part) (s : Nat) (h : p.fittedStacks.contains s = true) : s < 12 := by
  have : ∀ p : Part, p.fittedStacks.all (fun s => decide (s < 12)) = true := by intro p; cases p <;> decide
  have := List.all_eq_true.1 (this p) s (by simpa using h)
  simpa using this

/-- A mapped address lies before the end of its span, and all of the span from it on is mapped. -/
theorem mapped_span {p : Part} {d : Dev} {a : Nat} (h : mapped p d a = true) :
    a < spanEnd d a ∧ ∀ b, a ≤ b → b < spanEnd d a → mapped p d b = true := by
  simp only [mapped, Bool.or_eq_true] at h
  rcases h with (((h | h) | h) | h) | h
  · have hs := fitted_lt _ _ h
    have e : spanEnd d a = (a / stackBytes + 1) * stackBytes := by
      unfold spanEnd; rw [if_pos (by unfold stackBytes at hs; omega)]
    rw [e]
    refine ⟨by unfold stackBytes; omega, fun b hb hb' => ?_⟩
    have : b / stackBytes = a / stackBytes := by unfold stackBytes at *; omega
    unfold inHbm at h; simp only [mapped, inHbm, this]; rw [h]; rfl
  · simp only [inSram, Bool.and_eq_true, decide_eq_true_eq] at h
    have e : spanEnd d a = 0x400060000000 := by unfold spanEnd; rw [if_neg (by omega), if_pos (by omega)]
    rw [e]
    refine ⟨h.2, fun b hb hb' => ?_⟩
    have : inSram b = true := by simp [inSram]; omega
    simp [mapped, this]
  · simp only [inStaging, Bool.and_eq_true, decide_eq_true_eq] at h
    have e : spanEnd d a = 0x400106000000 := by unfold spanEnd; rw [if_neg (by omega), if_neg (by omega), if_pos (by omega)]
    rw [e]
    refine ⟨h.2, fun b hb hb' => ?_⟩
    have : inStaging b = true := by simp [inStaging]; omega
    simp [mapped, this]
  · simp only [inPool, Bool.and_eq_true, decide_eq_true_eq] at h
    generalize hn : ((tblGet Reg.hifPpStat d.regs).getD 0).toNat = n at h
    have hm : n % 0x2000 < 0x2000 := Nat.mod_lt _ (by omega)
    have e : spanEnd d a = 0x800000000000 + n % 0x2000 * 0x40000000 := by
      unfold spanEnd; rw [hn, if_neg (by omega), if_neg (by omega), if_neg (by omega), if_pos (by omega)]
    rw [e]
    refine ⟨h.2, fun b hb hb' => ?_⟩
    have : inPool d b = true := by simp only [inPool, Bool.and_eq_true, decide_eq_true_eq, hn]; exact ⟨⟨h.1.1, by omega⟩, hb'⟩
    simp [mapped, this]
  · have h' := h
    simp only [inWindow, Bool.and_eq_true, decide_eq_true_eq] at h
    have e : spanEnd d a = (a / 0x10000000000 + 1) * 0x10000000000 := by
      unfold spanEnd; rw [if_neg (by omega), if_neg (by omega), if_neg (by omega), if_neg (by omega)]
    rw [e]
    refine ⟨by omega, fun b hb hb' => ?_⟩
    have hw : (b - 0xC00000000000) / 0x10000000000 = (a - 0xC00000000000) / 0x10000000000 := by omega
    have : inWindow d b = true := by
      simp only [inWindow, Bool.and_eq_true, decide_eq_true_eq, hw]; exact ⟨⟨by omega, by omega⟩, h.2⟩
    simp [mapped, this]

/-- The hole that a range has is the first of its addresses that nothing is mapped at. -/
theorem firstHole_some {p : Part} {d : Dev} {b h : Nat} : ∀ {fuel a}, firstHole p d b fuel a = some h →
    a ≤ h ∧ h < b ∧ mapped p d h = false ∧ ∀ c, a ≤ c → c < h → mapped p d c = true := by
  intro fuel
  induction fuel with
  | zero => intro a e; cases e
  | succ n ih =>
    intro a e
    unfold firstHole at e
    split at e
    · cases e
    · split at e
      · rename_i hm
        obtain ⟨h1, h2, h3, h4⟩ := ih e
        have hs := mapped_span hm
        refine ⟨by omega, h2, h3, fun c hc hc' => ?_⟩
        by_cases hce : c < spanEnd d a
        · exact hs.2 c hc hce
        · exact h4 c (by omega) hc'
      · rename_i hb hm
        cases e
        exact ⟨Nat.le_refl _, by omega, by simpa using hm, fun c hc hc' => by omega⟩

theorem holeIn_some {p : Part} {d : Dev} {a len h : Nat} (e : holeIn p d a len = some h) :
    a ≤ h ∧ h < a + len ∧ mapped p d h = false ∧ ∀ c, a ≤ c → c < h → mapped p d c = true := firstHole_some e

/-- A range whose bytes are all mapped has no hole. -/
theorem mappedRange_of_all {p : Part} {d : Dev} {a len : Nat} (hm : ∀ k, k < len → mapped p d (a + k) = true) :
    mappedRange p d a len = true := by
  unfold mappedRange
  cases e : holeIn p d a len with
  | none => rfl
  | some h =>
    obtain ⟨h1, h2, h3, -⟩ := holeIn_some e
    have := hm (h - a) (by omega)
    rw [show a + (h - a) = h by omega, h3] at this
    cases this

end Sys2Proof.Machine
end

