-- ==== Sys2Proof/WellFormed.lean ====
section
/-! DEFINITION. WellFormed.lean: which commands are well formed: a ring command carries its own opcode (R533) on a queue
that can exist (R521), and an event names a unit that a part can have (R32, R38, R450, R554). -/

namespace Sys2Proof

open Machine

/-- A submission entry whose OPCODE is the command's, on one of the 2,047 SQs. -/
def entryOk (op : Nat) (e : Entry) : Bool := e.sq < 2047 && e.bytes.toNat % 256 == op

/-- A request source: an entry as above, or a port of the fabric and a message that fits its length. -/
def srcOk (op : Nat) : ReqSrc → Bool
  | .hp e => entryOk op e
  | .cvf port _ len val => port < 8 && val < 2 ^ (8 * len)

/-- A fabric port. -/
def portOk (n : Nat) : Bool := n < 8

/-- A quadrant. -/
def quadOk (n : Nat) : Bool := n < 4

/-- An attention engine of a quadrant. -/
def aeOk (n : Nat) : Bool := n < 16

/-- A hart of the Belt. -/
def hartOk (n : Nat) : Bool := n < 8192

/-- A Belt partition. -/
def partOk (n : Nat) : Bool := n < 2

/-- An integer register of a hart. -/
def xregOk (n : Nat) : Bool := n < 32

/-- A submission or completion queue. -/
def queueOk (n : Nat) : Bool := n < 2047

/-- An MSI-X vector. -/
def vectorOk (n : Nat) : Bool := n < 2048

/-- A tail pipe. -/
def pipeOk (n : Nat) : Bool := n < 4

/-- Whether a command is well formed. -/
def Instr.wf : Instr → Bool
  | .nop e => entryOk 0x00 e
  | .qCreateCq e => entryOk 0x01 e
  | .qCreateSq e => entryOk 0x02 e
  | .qDeleteSq e => entryOk 0x03 e
  | .qDeleteCq e => entryOk 0x04 e
  | .hrqCreate e => entryOk 0x05 e
  | .storeDone e => entryOk 0x06 e
  | .meterRead e => entryOk 0x07 e
  | .sessOpen e => entryOk 0x10 e
  | .sessStepOpen e => entryOk 0x11 e
  | .sessStepClose e => entryOk 0x12 e
  | .sessCancel e => entryOk 0x13 e
  | .sessClose e => entryOk 0x14 e
  | .sessQuery e => entryOk 0x15 e
  | .sessPark e => entryOk 0x16 e
  | .sessRevive e => entryOk 0x17 e
  | .sessMoveOut e => entryOk 0x18 e
  | .sessMoveIn e => entryOk 0x19 e
  | .sessSetTail e => entryOk 0x1A e
  | .sessSetLists e => entryOk 0x1B e
  | .prefixCapture e => entryOk 0x20 e
  | .prefixRelease e => entryOk 0x21 e
  | .prefixPin e => entryOk 0x22 e
  | .prefixUnpin e => entryOk 0x23 e
  | .kvImport e => entryOk 0x24 e
  | .kvExport e => entryOk 0x25 e
  | .layerReq src => srcOk 0x30 src
  | .decisionTimeout tail src => srcOk (if tail then 0x40 else 0x30) src
  | .batchTimeout _ => true
  | .ringOpen e => entryOk 0x31 e
  | .ringBind e => entryOk 0x32 e
  | .ringClose e => entryOk 0x33 e
  | .tailReq src => srcOk 0x40 src
  | .variantLoad e => entryOk 0x41 e
  | .variantUnload e => entryOk 0x42 e
  | .grammarLoad e => entryOk 0x43 e
  | .grammarUnload e => entryOk 0x44 e
  | .topkRow e => entryOk 0x45 e
  | .tokenizerLoad e => entryOk 0x50 e
  | .textInOpen e => entryOk 0x51 e
  | .textInClose e => entryOk 0x52 e
  | .textTokenise e => entryOk 0x53 e
  | .textCtrlInsert e => entryOk 0x54 e
  | .textChanSet e => entryOk 0x55 e
  | .textOutBind e => entryOk 0x56 e
  | .recallCreate e => entryOk 0x60 e
  | .recallCentroids e => entryOk 0x61 e
  | .recallDrop e => entryOk 0x62 e
  | .recallStat e => entryOk 0x63 e
  | .recallInsert e => entryOk 0x64 e
  | .recallDelete e => entryOk 0x65 e
  | .recallCompact e => entryOk 0x66 e
  | .recallQuery src => srcOk 0x67 src
  | .ckptRun e => entryOk 0x70 e
  | .ckptStore e => entryOk 0x71 e
  | .ckptScan e _ => entryOk 0x72 e
  | .ckptRestore e _ => entryOk 0x73 e
  | .shapeSet e => entryOk 0x80 e
  | .policeSet e => entryOk 0x81 e
  | .routeSet e => entryOk 0x82 e
  | .beltJobStart e => entryOk 0x90 e
  | .beltJobKill e => entryOk 0x91 e
  | .beltJobSuspend e => entryOk 0x92 e
  | .beltJobResume e => entryOk 0x93 e
  | .beltQueueSet e => entryOk 0x94 e
  | .beltTaskSubmit e => entryOk 0x95 e
  | .beltHookReg e => entryOk 0x96 e
  | .beltHookUnreg e => entryOk 0x97 e
  | .beltLifeReg e => entryOk 0x98 e
  | .tenantSwitch e => entryOk 0xA0 e
  | .attest e => entryOk 0xA1 e
  | .mlogRead e => entryOk 0xA2 e
  | .certRead e => entryOk 0xA3 e
  | .debugUnlock e => entryOk 0xA4 e
  | .fwUpdate e _ => entryOk 0xA5 e
  | .svnCommit e => entryOk 0xA6 e
  | .pwrGate e => entryOk 0xB0 e
  | .pwrWake e => entryOk 0xB1 e
  | .pwrLimit e => entryOk 0xB2 e
  | .pwrVmode e => entryOk 0xB3 e
  | .elogRead e => entryOk 0xB8 e
  | .errInject e => entryOk 0xB9 e
  | .sqDoorbell sq _ _ _ => queueOk sq
  | .cqDoorbell cq _ _ _ => queueOk cq
  | .hrqDoorbell _ _ _ => true
  | .sqFetch => true
  | .bar2Access _ _ _ _ => true
  | .adminCtlEn _ => true
  | .vectorCoalTimeout v => vectorOk v
  | .vectorUnmask v => vectorOk v
  | .hrqTimeout _ => true
  | .mboxH2dWrite _ _ => true
  | .mboxD2hRead _ => true
  | .mboxOwnerWrite _ _ => true
  | .mboxOwnerRead _ => true
  | .ppLinkDown => true
  | .ppLinkUp _ => true
  | .meterAdvance => true
  | .sensorRefresh => true
  | .setEndpointId _ => true
  | .getEndpointId => true
  | .getEndpointUuid => true
  | .getMctpVersionSupport _ => true
  | .getMessageTypeSupport => true
  | .mctpOtherMessage _ _ => true
  | .settid _ => true
  | .gettid => true
  | .getpldmversion _ => true
  | .getpldmtypes => true
  | .getpldmcommands _ => true
  | .seteventreceiver _ => true
  | .getpdrrepositoryinfo => true
  | .getpdr _ => true
  | .getsensorreading _ => true
  | .getstatesensorreadings _ => true
  | .pldmUnsupportedCmd _ _ => true
  | .tkCalibrate _ _ _ => true
  | .qdTkAlign q => quadOk q
  | .paceWindowEnd _ _ _ => true
  | .timeLoRead => true
  | .ptmTrigger => true
  | .ptmPeriod => true
  | .ptmDialogDone _ _ _ => true
  | .ptmDialogFail => true
  | .ptmSeqRead => true
  | .ckptEpochLoRead => true
  | .ckptFullLoRead => true
  | .tofsLoRead port => portOk port
  | .secEpochLoRead => true
  | .tenantLoRead => true
  | .zeroDoneLoRead => true
  | .cellTimeout _ => true
  | .blockTimeout _ => true
  | .drainTimeout q => quadOk q
  | .stageTimeout => true
  | .startLimit => true
  | .registerWrite _ _ => true
  | .rcRead _ => true
  | .chipLockSet => true
  | .segmentArrive _ _ _ => true
  | .compressionPassStart _ => true
  | .compressionHeaderSwap _ => true
  | .fp8FrameRelease _ => true
  | .fadeSweep => true
  | .fadeTrialDone _ => true
  | .fadeSwap _ => true
  | .comaRowWrite _ _ _ _ => true
  | .tileDispatch q ae => quadOk q && aeOk ae
  | .tileComplete q ae _ => quadOk q && aeOk ae
  | .partialArrive _ _ _ _ => true
  | .scorePageDone _ _ _ _ _ => true
  | .aeOfflineReq q ae => quadOk q && aeOk ae
  | .aeOnlineReq q ae => quadOk q && aeOk ae
  | .hello _ _ => true
  | .helloAck _ => true
  | .ringFormTimeout _ => true
  | .ringRates _ _ _ => true
  | .ringLeg _ _ => true
  | .runningPartial _ _ _ => true
  | .kvTile _ _ _ => true
  | .memberOutputs _ _ _ _ => true
  | .stepRecord _ _ _ _ _ => true
  | .cancelRecord _ _ => true
  | .cancelAckTimeout _ _ => true
  | .ringPartialTimeout _ _ => true
  | .ringBreak _ _ => true
  | .ringParkRecord _ _ _ => true
  | .ringMemberReport _ _ _ _ => true
  | .ckptRecord _ _ _ _ => true
  | .moveRecord _ _ _ _ _ => true
  | .parkWritesDone _ => true
  | .parkRelease _ => true
  | .reviveReserved _ => true
  | .reviveTile _ _ _ => true
  | .pressureEviction => true
  | .moveOffer _ => true
  | .moveAccept _ _ => true
  | .moveReject _ _ => true
  | .moveTile _ _ _ => true
  | .moveDone _ _ _ => true
  | .moveAbort _ _ _ => true
  | .moveStatusTick => true
  | .moveStatus _ _ => true
  | .moveStatusAnswer _ _ => true
  | .moveResolveTimeout _ => true
  | .moveInTimeout _ => true
  | .moveOfferTimeout _ => true
  | .moveReady _ _ _ => true
  | .moveCommit _ _ => true
  | .lendOfferTick => true
  | .offer _ _ _ => true
  | .loanReq _ _ => true
  | .loanGrant _ _ _ => true
  | .revoke _ _ _ => true
  | .release _ _ _ => true
  | .loanVoid _ _ => true
  | .evacuationDeadline _ _ _ => true
  | .revokeReclaim _ _ _ => true
  | .loanRevokeTrigger => true
  | .pinSpaceRelease _ => true
  | .slotRetire _ => true
  | .retirementCopy _ => true
  | .maskPrefetch => true
  | .deltaTileComplete _ _ => true
  | .tailEntryRun _ _ pipe => pipeOk pipe
  | .hookReply _ _ _ _ => true
  | .hookDeadline _ _ => true
  | .pipeOfflineReq p => pipeOk p
  | .pipeOnlineReq p => pipeOk p
  | .channelBacklogSend _ => true
  | .textOfflineReq q => quadOk q
  | .textOnlineReq q => quadOk q
  | .recallScanDone _ _ _ _ => true
  | .recallQueryTimeout _ => true
  | .recallFold _ _ => true
  | .compactionStart _ => true
  | .compactionPublish _ => true
  | .qeOfflineReq _ => true
  | .qeOnlineReq _ => true
  | .ckptSchedule => true
  | .failureWarning => true
  | .shardAck part _ => partOk part
  | .catalogueAck _ _ => true
  | .ckptRunTimeout => true
  | .portTrained port _ _ => portOk port
  | .init port _ => portOk port
  | .portRetry port => portOk port
  | .idleFlit port _ _ _ => portOk port
  | .frameReceive port _ => portOk port
  | .nak port _ => portOk port
  | .replayTimeout port => portOk port
  | .degrade port _ => portOk port
  | .degradeAck port _ _ => portOk port
  | .widthChangeTimeout port => portOk port
  | .laneRetire port _ => portOk port
  | .down port => portOk port
  | .laneLockLost port => portOk port
  | .timeExchange port => portOk port
  | .timeFlit port _ => portOk port
  | .dropNotice _ _ _ => true
  | .memWr port src _ _ _ => portOk port && (src.cls == 2 || src.cls == 3)
  | .memWrAck _ => true
  | .memRd port src _ _ => portOk port && (src.cls == 2 || src.cls == 3)
  | .memRdData _ => true
  | .memErr _ => true
  | .shaperRefill port => portOk port
  | .queueSample port => portOk port
  | .frameStart port => portOk port
  | .cvfRetrain port => portOk port
  | .bootReqTick => true
  | .bootReq port => portOk port
  | .bootAnswer port _ _ => portOk port
  | .powerOnReset _ _ _ => true
  | .railOutOfRange => true
  | .perstNAssert => true
  | .perstNDeassert _ _ => true
  | .warmRstN => true
  | .rstCtlWarm => true
  | .qrst _ => true
  | .quadDrainDone q => quadOk q
  | .quadPowerGood q => quadOk q
  | .quadRefillDone q => quadOk q
  | .blockIdleAck _ => true
  | .blockForcedReset _ => true
  | .romStage _ => true
  | .coresStage => true
  | .powerStage _ => true
  | .memoryStage _ => true
  | .imageStage _ => true
  | .configStage => true
  | .fabricStage _ => true
  | .watchdogMiss _ => true
  | .hardwareWatchdog => true
  | .recoveryStatus => true
  | .erase _ _ => true
  | .write _ => true
  | .recoveryDataWord _ _ => true
  | .crc _ _ => true
  | .restart => true
  | .pushDone _ => true
  | .enum _ _ => true
  | .ping _ _ => true
  | .warmReset _ _ => true
  | .quadReset _ _ => true
  | .chainForward _ _ => true
  | .zeroStackDone _ => true
  | .pmcEvaluation _ => true
  | .thermalSample _ _ _ _ => true
  | .thermtrip _ => true
  | .gateBatchesClosed _ => true
  | .pwrGateTimeout _ => true
  | .wakeReady _ => true
  | .errorReport _ => true
  | .logIntake _ => true
  | .vector0Deferred => true
  | .logClear _ => true
  | .hbmScrubPass _ _ => true
  | .sramScrubPass q _ => decide (q < 5)
  | .sramLineRetire q _ => quadOk q
  | .btTdone hart rs1 rs2 => hartOk hart && xregOk rs1 && xregOk rs2
  | .btExit hart rs1 => hartOk hart && xregOk rs1
  | .btTime hart rd => hartOk hart && xregOk rd
  | .btSelf hart rd => hartOk hart && xregOk rd
  | .btMix hart rd rs1 => hartOk hart && xregOk rd && xregOk rs1
  | .btRkey hart rd rs1 => hartOk hart && xregOk rd && xregOk rs1
  | .btFlush hart => hartOk hart
  | .btSubmit hart rd rs1 rs2 => hartOk hart && xregOk rd && xregOk rs1 && xregOk rs2
  | .btWait hart rd rs1 rs2 => hartOk hart && xregOk rd && xregOk rs1 && xregOk rs2
  | .btWaitResume hart => hartOk hart
  | .btWaitTimeout hart => hartOk hart
  | .btMbox hart rs1 => hartOk hart && xregOk rs1
  | .btMboxr hart rd => hartOk hart && xregOk rd
  | .hartException hart _ => hartOk hart
  | .taskDispatch part => partOk part
  | .taskTimeout hart => hartOk hart
  | .jobLimit part => partOk part
  | .configurationRequest _ _ _ => true
  | .warmRstNRelease => true
  | .portTrainingFailed port => portOk port
  | .quadRejoinTimeout q => quadOk q
  | .failedBlockReset _ => true
  | .blockHardwareError _ _ _ => true
  | .ringResponseDeadline _ _ => true
  | .moveSourceRelease _ => true
  | .kvImportExportEnd _ => true

end Sys2Proof
end

