-- ==== Sys2Proof/Tests/Slice0.lean ====
section
/-! SUPPORT. Tests/Slice0.lean: ill-formed commands that WellFormed refuses, small tests with results from the spec, and for
every statement with hypotheses a state and operands that meet them together. -/

namespace Sys2Proof.Tests

open Machine

set_option maxRecDepth 20000
set_option Elab.async false
set_option linter.unusedVariables false

/-! ### Small states and operands for the witnesses -/

/-- A device that is OPERATIONAL. -/
def up : Dev := Dev.reset.setReg Reg.chipBootStat 0x80000000

/-- A device in another stage. -/
def inStage (n : Nat) : Dev := Dev.reset.setReg Reg.chipBootStat (n * 2 ^ 28)

/-- A device at a time long after reset. -/
def late (d : Dev := up) : Dev := { d with now := 10 ^ 18 }

/-- The state that holds a device. -/
def st (d : Dev) : State := { State.reset with dev := d }

/-- A submission entry with some of its fields, as (byte, value). -/
def ent (fs : List (Nat × Nat)) : Entry := ⟨0, BitVec.ofNat 512 (sumOf (fs.map fun f => f.2 * 2 ^ (8 * f.1)))⟩

def onHif (f : Hif → Hif) (d : Dev := up) : Dev := { d with hif := f d.hif }
def onSess (f : Sess → Sess) (d : Dev := up) : Dev := { d with sess := f d.sess }
def onKv (f : Kv → Kv) (d : Dev := up) : Dev := { d with kv := f d.kv }
def onTier (f : Tier → Tier) (d : Dev := up) : Dev := { d with tier := f d.tier }
def onAttn (f : Attn → Attn) (d : Dev := up) : Dev := { d with attn := f d.attn }
def onTail (f : TailSt → TailSt) (d : Dev := up) : Dev := { d with tail := f d.tail }
def onText (f : TextSt → TextSt) (d : Dev := up) : Dev := { d with text := f d.text }
def onRcl (f : RecallSt → RecallSt) (d : Dev := up) : Dev := { d with rcl := f d.rcl }
def onCkpt (f : CkptSt → CkptSt) (d : Dev := up) : Dev := { d with ckpt := f d.ckpt }
def onBelt (f : BeltSt → BeltSt) (d : Dev := up) : Dev := { d with belt := f d.belt }
def onSec (f : SecSt → SecSt) (d : Dev := up) : Dev := { d with sec := f d.sec }
def onPmc (f : PmcSt → PmcSt) (d : Dev := up) : Dev := { d with pmc := f d.pmc }
def onBoot (f : BootSt → BootSt) (d : Dev := up) : Dev := { d with boot := f d.boot }
def onErr (f : Err → Err) (d : Dev := up) : Dev := { d with err := f d.err }

def sq1 : Sq := ⟨0, 4, true, 0, 0, 0, 0, 0, none⟩
def cq1 : Cq := ⟨0, 4, none, 0, true, 0, 1⟩
def hrq1 : Hrq := ⟨0, 4, 0, 0, true, 0, 1⟩
def cmd1 : Cmd := ⟨0, 7, 0, 0, false, false⟩
def req1 : HostReq := ⟨1, 3, 0, 0, 0, 0, 64, .areaRelease, 0, 0, false⟩
def shape1 : Shape := ⟨2, 2, 1, 64, 1000, 1, 0, 0⟩
def fig1 : Figures := ⟨[], [], [], [], [], 0, 0, 0, 0, [], []⟩
def batch1 : Batch := ⟨3, 0, 1000, 1, [1], fig1⟩

/-- A descriptor of session 1 in a state. -/
def dsc (s : SState) : Desc := { Desc.void 0 0 with state := s }

/-- A device whose session 1 is in a state, its descriptor cached. -/
def one (s : SState) (d : Dev := up) : Dev := onSess (fun e => { e with table := [(1, dsc s)], cache := [1] }) d

def ring1 (pos : Nat) (s : RingState := .up) : Ring :=
  ⟨2, 3, pos, 0, 1, 7, 9, 5, s, [⟨4, 1, 0, 0⟩], [], [], 0, false, none, 0, []⟩

/-- A device with ring 2, of three devices, at a position. -/
def ringAt (pos : Nat) (s : RingState := .up) (d : Dev := up) : Dev := onAttn (fun a => { a with rings := [ring1 pos s] }) d

/-- The state that holds a device and some bytes of memory. -/
def stm (cells : List (Nat × Nat)) (d : Dev := up) : State :=
  { st d with mem := ⟨cells.map fun c => (c.1, BitVec.ofNat 8 c.2), []⟩ }

def lreq1 : LayerReq :=
  { id := 6, path := .ring 2, tag := 8, batch := 3, layer := 0, qfmt := 0, kvfmt := 0, ofmt := 0, scale := 0, deadline := 900,
    respAddr := 0, img := 0, imgBytes := 256, share := [], entries := [], tiles := [], booking := 1, prefill := false,
    ring := some 2, running := none, kvTop := none, memberOuts := [], pinned := [] }

def lhead1 : LayerReq := { lreq1 with path := .hp cmd1 }

/-- A device with ring 2 at a position and a leg on it. -/
def legAt (pos : Nat) (q : LayerReq) : Dev := onAttn (fun a => { a with reqs := [q] }) (ringAt pos)

def pkey1 : PKey := ⟨.sess 1, 0, 0, 0⟩
def page1 : Page :=
  { kind := .full, kfmt := .fp8, vfmt := .fp8, fadeStop := false, mediaBad := false, nonfinite := false, rows := 256, srSeed := 0,
    payload := 0x20000000, payload2 := 0x20010000, meta1 := 0x20020000, kPscale := 0, vPscale := 0, kSscale := 0, vSscale := 0,
    kOutCh := 0, vOutCh := 0, kOutN := 0, vOutN := 0, kErr := 0, vErr := 0, kEn := 0, vEn := 0, vNmax := 0, closeStamp := 0,
    prefixId := 0xFFFFFFFF }
def image1 : ParkedImage := ⟨dsc .parked, [], none, []⟩
def man1 (inPlace : Bool) : Manifest := ⟨true, inPlace, false, false, 0, 0, 256, 0, 0, [], 0⟩
def park1 : ParkOp := ⟨1, none, false, true, 1, 4, 1, 0, [], image1, [], none⟩
def revive1 (reserved : Bool) : ReviveOp := ⟨1, none, reserved, [], [], [], [], none⟩
def mout1 : MoveOut := ⟨1, none, 5, 33, true, false, .idle, false, false, 0, none, false, none⟩
def min1 : MoveIn := ⟨1, cmd1, 5, 33, 0, 1, 0, 0, none, 0, none, [], [], none, [], false, [], (0, 0)⟩
def offer1 : MoveOffer := ⟨5, 33, dsc .idle, 0, 0, 256, true, false, 0, false, none⟩
def loan1 : Loan := ⟨33, 2, [0, 1], [], none, true⟩
def prefix1 (pinned : Bool) : Prefix := ⟨9, 256, 1, true, pinned, 0, 0⟩
def index1 (s : IndexState) : Index :=
  { state := s, efmt := 0, metric := 0, assign2 := false, cache := false, dim := 64, lists := 1, capacity := 16, sideMax := 1024,
    commitSeq := 0, floorSeq := 0, sideStart := 0, sideEnd := 0, rowsUsed := 0, publish := 0, commitStamp := 0, rowBytes := 144,
    headerAddr := 0x30000000, dirAddr := 0x30000100, centAddr := 0x30001000, nextRow := 0, rows := [], main := [], side := [],
    pending := [], extents := [], idAddr := 0x30002000 }
def rclAt (s : IndexState) : Dev := onRcl fun r => { r with indexes := [(0, index1 s)] }
def query1 : Query := ⟨1, 4, 1, 1, 0, [], 0, 0x40000000, 0, [0], [(0, 0)], 0, [], 0, 0, 0, false, false, false, none⟩
def qcmd1 : QueryCmd := ⟨1, .hp cmd1, 0, [(0, [])], [], 0, [query1], 0⟩
def ckrun1 : CkRun := ⟨5, 4, false, 1, 0, 0, none, [], none, [], 0, 0, 0, []⟩
def store1 : CkStore := ⟨1, [⟨3, 0, 0⟩]⟩
def hart1 : HartWork := ⟨none, 0, default, 0, 0, 0, none⟩
def task1 : Task := ⟨0, 0, 0, .thread 0, 0⟩
def bq1 : BeltQueue := ⟨16, 5, 0, []⟩
def job1 : Job := ⟨cmd1, false, 0, 1, 5, 0, 0, [], []⟩
def part1 (j : Option Job) : BeltPart := ⟨j, [(0, bq1)], 0⟩

/-- A device whose Belt gives partition 0 all cores, in TASK or JOB mode, with one window over low memory and queue 0 or a job. -/
def beltUp (task : Bool) (j : Option Job := none) : Dev :=
  onBelt (fun b => { b with parts := [part1 j, ⟨none, [], 0⟩], harts := [(0, hart1)] })
    (((up.setReg Reg.beltPartCtl (128 + if task then 65536 else 0)).setReg (Reg.beltWinPerm 0 0) 7).setReg (Reg.beltWinSize 0 0) 16)

def msg1 (kind : Nat) : Msg := ⟨1, 33, kind, 2, "M", 64, [], none, 0, .none⟩

/-- A device with port 0 in a state, its retry buffer holding one flit. -/
def portAt (s : Nat) : Dev :=
  (((up.setFld (Reg.cvfCtl 0) 31 1 1).setFld (Reg.cvfStat 0) 29 3 s).setPort 0 fun p => { p with retry := [⟨3, none⟩], initDone := s != 2 })

/-- A device in one start-up stage with a boot source. -/
def booting (n src : Nat) (f : BootSt → BootSt := id) : Dev := onBoot f ((inStage n).setFld Reg.chipStraps 0 2 src)

/-- A management chain frame with its check byte. -/
def frame (op dst : Nat) : List Nat := let f := [0xC5, op, dst, 0, 0, 0, 0]; f ++ [crc8 f 0]


/-! ### Tests, and the witnesses of the machine's statements -/

/-- A queue with a command at its front. -/
theorem witness_step_front : ∃ (c : Instr) (s : State) (rest : List Instr), s.pending = c :: rest :=
  ⟨.sqFetch, { State.reset with pending := [.sqFetch, .adminCtlEn 1] }, [.adminCtlEn 1], rfl⟩

/-- An empty queue. -/
theorem witness_idle : ∃ s : State, s.pending = [] :=
  ⟨State.reset, rfl⟩

/-- A state that meets the invariant, and a step from it. -/
theorem witness_invariant : ∃ s t : State, s.Inv ∧ step s = .next t :=
  ⟨State.reset.withFront .sqFetch, _, by unfold State.Inv; decide +kernel, rfl⟩

/-- A memory in canonical form that lists bytes. -/
theorem witness_canonical_memory : ∃ m : Memory, m.wf = true ∧ m.cells ≠ [] :=
  ⟨⟨[(5, 1), (6, 255)], []⟩, by decide +kernel⟩

/-- A mapped range of two bytes. -/
theorem witness_store_mapped : ∃ (x : Ctx) (d : Dev) (a len : Nat), (∀ k, k < len → mapped x.fuses.part d (a + k) = true) ∧ 0 < len :=
  ⟨State.reset.ctx, up, 0x20000000, 2, by decide +kernel⟩

/-- A range that runs off the end of stacked SRAM: its hole is its second byte. -/
theorem witness_unmapped : ∃ (x : Ctx) (d : Dev) (a len h : Nat), mapped x.fuses.part d (2 ^ 63) = false ∧ holeIn x.fuses.part d a len = some h ∧ h ≠ a :=
  ⟨State.reset.ctx, up, 0x40005FFFFFFF, 2, 0x400060000000, by decide +kernel⟩

/-- A range of one unmapped byte. -/
theorem witness_unmapped_first : ∃ (x : Ctx) (d : Dev) (a len : Nat), holeIn x.fuses.part d a len = some a :=
  ⟨State.reset.ctx, up, 0x400060000000, 1, by decide +kernel⟩

/-- A completion queue with room, and the largest FORM. -/
theorem witness_entry_posted : ∃ (x : Ctx) (d : Dev) (cq form : Nat) (q : Cq), tblGet cq d.hif.cqs = some q ∧
    mappedRange x.fuses.part d (d.ringBase + q.offset + 32 * q.tail) 32 = true ∧ form < 128 :=
  ⟨State.reset.ctx, onHif (fun h => { h with cqs := [(1, cq1)] }), 1, 127, cq1, by decide +kernel⟩

/-- The first check that fails gives the status. -/
theorem witness_refused : ∃ (cs : List (Bool × Status)) (st : Status), firstFail cs = some st :=
  ⟨[(false, .REFUSED_STATE), (true, .NOT_PRESENT), (true, .REFUSED_CAPACITY)], .NOT_PRESENT, rfl⟩

/-- A request of positive demand that the test accepts. -/
theorem witness_accepted : ∃ (rate : Res → Rate) (pct t : Nat) (new : Booking) (open_ : List Booking),
    (∀ r ∈ new.uses, 0 < new.on r ∧ 0 < (rate r).2) ∧ new.uses ≠ [] ∧ passes rate pct t new open_ = true :=
  ⟨fun _ => (100, 1), 80, 0, ⟨1, 1000, 0, false, [(1, [(.mask, 10)])]⟩, [], by decide +kernel⟩

/-- The last mailbox, present and served from both sides. -/
theorem witness_mailbox : ∃ (s : State) (n : Nat), n < 8 ∧ s.view.bar0Cpl s.ctx (Reg.mboxH2dData n) = .success ∧ s.view.ownerUp s.ctx (.m n) = true ∧
    ∃ w : MboxWord, w.full = false :=
  ⟨st up, 7, by decide +kernel, by decide +kernel, by decide +kernel, ⟨0, false, false⟩, rfl⟩

/-- Register numbers of both clauses. -/
theorem witness_hart_register : (0 % 32 = 0 ∧ 32 % 32 = 0) ∧ (31 % 32 ≠ 0 ∧ 33 % 32 ≠ 31 % 32) :=
  by decide

/-- An access to the block of a unit that the part lacks. -/
theorem witness_absent_unit : ∃ (x : Ctx) (d : Dev) (off : Nat), d.eclipse = false ∧ d.hif.hp.d3hot = false ∧ off < 0x4000000 ∧ absentBlock x.fuses.part off = true :=
  ⟨{ State.reset.ctx with fuses := { State.reset.fuses with part := .yvs576 } }, inStage 3, 0x1400000, by decide +kernel⟩

/-- An early access at a boundary of the refused ranges. -/
theorem witness_early_first : ∃ (x : Ctx) (d : Dev) (off : Nat), d.eclipse = false ∧ d.hif.hp.d3hot = false ∧ off < 0x4000000 ∧ absentBlock x.fuses.part off = false ∧ d.operational = false ∧ 0x100000 ≤ off ∧ (off < 0x1C00000 ∨ 0x1D00000 ≤ off) :=
  ⟨State.reset.ctx, inStage 3, 0x100000, by decide +kernel⟩

/-- An early access at a boundary of the refused ranges. -/
theorem witness_early_below_mailboxes : ∃ (x : Ctx) (d : Dev) (off : Nat), d.eclipse = false ∧ d.hif.hp.d3hot = false ∧ off < 0x4000000 ∧ absentBlock x.fuses.part off = false ∧ d.operational = false ∧ 0x100000 ≤ off ∧ (off < 0x1C00000 ∨ 0x1D00000 ≤ off) :=
  ⟨State.reset.ctx, inStage 3, 0x1bfffff, by decide +kernel⟩

/-- An early access at a boundary of the refused ranges. -/
theorem witness_early_above_mailboxes : ∃ (x : Ctx) (d : Dev) (off : Nat), d.eclipse = false ∧ d.hif.hp.d3hot = false ∧ off < 0x4000000 ∧ absentBlock x.fuses.part off = false ∧ d.operational = false ∧ 0x100000 ≤ off ∧ (off < 0x1C00000 ∨ 0x1D00000 ≤ off) :=
  ⟨State.reset.ctx, inStage 3, 0x1d00000, by decide +kernel⟩

/-- An early access at a boundary of the refused ranges. -/
theorem witness_early_last : ∃ (x : Ctx) (d : Dev) (off : Nat), d.eclipse = false ∧ d.hif.hp.d3hot = false ∧ off < 0x4000000 ∧ absentBlock x.fuses.part off = false ∧ d.operational = false ∧ 0x100000 ≤ off ∧ (off < 0x1C00000 ∨ 0x1D00000 ≤ off) :=
  ⟨State.reset.ctx, inStage 3, 0x3ffffff, by decide +kernel⟩

/-- An access to a quadrant that is off. -/
theorem witness_domain_off : ∃ (x : Ctx) (d : Dev) (off : Nat), d.eclipse = false ∧ d.hif.hp.d3hot = false ∧ off < 0x4000000 ∧ absentBlock x.fuses.part off = false ∧ d.operational = true ∧ domainOf off = some (.quad 0) ∧ d.domainUp (.quad 0) = false :=
  ⟨State.reset.ctx, up.setReg Reg.pmcGate 1, 0x100000, by decide +kernel⟩

/-- An access that is served. -/
theorem witness_served : ∃ (x : Ctx) (d : Dev) (off : Nat), d.eclipse = false ∧ d.hif.hp.d3hot = false ∧ off < 0x4000000 ∧ absentBlock x.fuses.part off = false ∧ d.operational = true ∧ ∀ dom, domainOf off = some dom → d.domainUp dom = true :=
  ⟨State.reset.ctx, up, 0, rfl, rfl, by decide, by decide +kernel, by decide +kernel, fun dom h => by cases h; rfl⟩

/-- A log with room. -/
theorem witness_log_room : ∃ l : ErrLog, l.fixed.length < 2048 ∧ l.ring.length ≤ 2048 :=
  ⟨ErrLog.reset, by decide +kernel⟩

/-- A log whose first half is full. -/
theorem witness_log_ring : ∃ l : ErrLog, l.fixed.length = 2048 ∧ l.ring.length < 2048 :=
  ⟨⟨List.replicate 2048 ⟨0, 0, 1, 1, 2, 0, 0, false, 0, 0⟩, [], 0, 0, []⟩, by simp⟩

/-- A full log. -/
theorem witness_log_full : ∃ l : ErrLog, l.fixed.length = 2048 ∧ l.ring.length = 2048 :=
  ⟨⟨List.replicate 2048 ⟨0, 0, 1, 1, 2, 0, 0, false, 0, 0⟩, List.replicate 2048 ⟨0, 0, 1, 1, 2, 0, 0, false, 0, 0⟩, 0, 0, []⟩, by simp⟩

/-- A report in the last nanosecond of a window. -/
theorem witness_log_open : ∃ (l : ErrLog) (r : Report) (e : LogEntry), l.openFor r = some e :=
  ⟨⟨[⟨0, 0, 1, 1, 2, 0, 0, false, 0, 0⟩], [], 0, 1, []⟩, ⟨1, 2, 0, 0, false, 0, 999999, 999999, 1⟩, ⟨0, 0, 1, 1, 2, 0, 0, false, 0, 0⟩, by decide +kernel⟩

/-- The window of R685 is 1 ms: its first nanosecond outside. -/
theorem test_log_window_closed : ErrLog.openFor ⟨[⟨0, 0, 1, 1, 2, 0, 0, false, 0, 0⟩], [], 0, 1, []⟩ ⟨1, 2, 0, 0, false, 0, 1000000, 1000000, 1⟩ = none :=
  by decide +kernel

/-- A handle of generation 1 where the descriptor has 0. -/
theorem witness_stale_handle : ∃ (s : State) (e : Entry) (ds : Desc), (s.view.readDesc s.ctx (handleIdx (e.f 16 4))).2 = some ds ∧
    ds.gen % 1024 ≠ handleGen (e.f 16 4) ∧
    setTailAbsent s.fuses.part e = false ∧ s.view.memberBound (handleIdx (e.f 16 4)) = false ∧
    e.reservedSet [(16, 5), (24, 4), (32, 8)] [(162, 6), (272, 48)] = false ∧
    e.reservedSet [(16, 8)] [] = false ∧
    e.reservedSet [(16, 10), (32, 8)] [(304, 16)] = false ∧
    e.reservedSet [(16, 10), (28, 4), (32, 8)] [(304, 16)] = false ∧
    e.reservedSet [(16, 5), (24, 4)] [] = false ∧
    e.reservedSet [(16, 42), (60, 4)] [(166, 2), (171, 5)] = false ∧
    e.reservedSet [(16, 5), (24, 8)] [(162, 6)] = false ∧
    e.reservedSet [(16, 6)] [(171, 5)] = false ∧
    e.reservedSet [(16, 7), (24, 8)] [(161, 7), (171, 1), (175, 1)] = false ∧
    e.reservedSet [(16, 4)] [] = false ∧
    e.reservedSet [(16, 4)] [] = false :=
  ⟨st (one .idle), ent [(16, 0x400001)], dsc .idle, by decide +kernel⟩

/-- An index that was used before. -/
theorem witness_free_index : ∃ (d : Dev) (i : Nat) (s : Desc), d.allocIdx = some i ∧ tblGet i d.sess.table = some s :=
  ⟨onSess (fun e => { e with table := [(0, Desc.void 1023 0)] }), 0, Desc.void 1023 0, by decide +kernel⟩

/-- An index that was never used. -/
theorem witness_never_used : ∃ (d : Dev) (i : Nat), d.allocIdx = some i ∧ tblGet i d.sess.table = none ∧ d.sess.voided = none :=
  ⟨up, 0, by decide +kernel⟩

/-- The index after the last is 0. -/
theorem witness_wrapped_index : (onSess fun e => { e with lastAlloc := 4194302, table := [(4194303, dsc .idle)] }).allocIdx = some 0 :=
  by decide +kernel

/-- A queue pair that can take a completion. -/
theorem witness_nop : ∃ (s : State) (e : Entry) (q : Sq) (k : Cq), s.mem.wf = true ∧ e.reservedSet [] [] = false ∧
    tblGet e.sq s.dev.hif.sqs = some q ∧ q.deleting = none ∧ tblGet q.cq s.dev.hif.cqs = some k ∧
    mappedRange s.fuses.part s.dev (s.dev.ringBase + k.offset + 32 * k.tail) 32 = true :=
  ⟨st (onHif fun h => { h with sqs := [(0, { sq1 with cq := 1 })], cqs := [(1, cq1)] }), ent [], { sq1 with cq := 1 }, cq1, by decide +kernel⟩

/-- MSI-X disabled. -/
theorem witness_vector_disabled : ∃ (d : Dev) (v : Nat), v < 2048 ∧ d.hif.hp.msixEnable = false :=
  ⟨onHif fun h => { h with hp := { h.hp with msixEnable := false } }, 2047, by decide +kernel⟩

/-- An unmasked vector. -/
theorem witness_vector_sent : ∃ (d : Dev) (v : Nat), v < 2048 ∧ d.hif.hp.msixEnable = true ∧ (d.hif.hp.functionMask || bit (d.reg (Reg.msixCtrl v)) 0 || !d.hif.hp.bme) = false :=
  ⟨onHif (fun h => { h with hp := { h.hp with msixEnable := true, functionMask := false, bme := true } }) (up.setReg (Reg.msixCtrl 2047) 0), 2047, by decide +kernel⟩

/-- A masked function. -/
theorem witness_vector_masked : ∃ (d : Dev) (v w : Nat), v < 2048 ∧ d.hif.hp.msixEnable = true ∧ (d.hif.hp.functionMask || bit (d.reg (Reg.msixCtrl v)) 0 || !d.hif.hp.bme) = true ∧ w ≠ v % 32 ∧ w < 32 :=
  ⟨onHif (fun h => { h with hp := { h.hp with msixEnable := true, functionMask := true } }), 0, 31, by decide +kernel⟩

/-- A session that a tenant switch voids. -/
theorem witness_tenant : ∃ (d : Dev) (i : Nat) (s : Desc), tblGet i d.sess.table = some s :=
  ⟨one .idle, 1, dsc .idle, rfl⟩

/-- Bits 10 to 15 of every entry are reserved (R533). -/
theorem reserved_bit_ten : ∀ u r, Entry.reservedSet ⟨0, 1024⟩ u r = true :=
  fun u r => by
    unfold Entry.reservedSet
    rw [show (bits (⟨0, 1024⟩ : Entry).bytes.toNat 10 6 != 0) = true by decide]
    rfl

/-- An entry with bit 10, which every ring command reserves (R533). -/
theorem witness_reserved : ∃ e : Entry,
    (e.reservedSet [] [] = true) ∧
    (e.reservedSet [(16, 3), (20, 2), (24, 8)] [(222, 34)] = true) ∧
    (e.reservedSet [(16, 8), (24, 8)] [(222, 34)] = true) ∧
    (e.reservedSet [(16, 2)] [] = true) ∧
    (e.reservedSet [(16, 2)] [] = true) ∧
    (e.reservedSet [(18, 1), (20, 2), (24, 8)] [(222, 34)] = true) ∧
    (e.reservedSet [(16, 5), (24, 8)] [] = true) ∧
    (e.reservedSet [(16, 5), (24, 8)] [(161, 7)] = true) ∧
    (e.reservedSet [(16, 7), (24, 36)] [(179, 5)] = true) ∧
    (e.reservedSet [(16, 4), (24, 34)] [(240, 16), (432, 16)] = true) ∧
    (e.reservedSet [(16, 3), (24, 8)] [(145, 7)] = true) ∧
    (e.reservedSet [(16, 7)] [(177, 7)] = true) ∧
    (e.reservedSet [(16, 4)] [] = true) ∧
    (e.reservedSet [(16, 4), (24, 8)] [] = true) ∧
    (e.reservedSet [(16, 42), (60, 4)] [(166, 2), (171, 5)] = true) ∧
    (e.reservedSet [(16, 5), (24, 8)] [(162, 6)] = true) ∧
    (e.reservedSet [(16, 7), (24, 8)] [(161, 7), (171, 1), (175, 1)] = true) ∧
    (e.reservedSet [(16, 4)] [] = true) ∧
    (e.reservedSet [(16, 5), (24, 4), (32, 8)] [(162, 6), (272, 48)] = true) ∧
    (e.reservedSet [(16, 2), (20, 12), (32, 16)] [(129, 7), (163, 1), (167, 1), (272, 48)] = true) ∧
    (e.reservedSet [(16, 8)] [] = true) ∧
    (e.reservedSet [(20, 4)] [] = true) ∧
    (e.reservedSet [(20, 4)] [] = true) ∧
    (e.reservedSet [(20, 4)] [] = true) ∧
    (e.reservedSet [(16, 10), (32, 8)] [(304, 16)] = true) ∧
    (e.reservedSet [(16, 10), (28, 4), (32, 8)] [(304, 16)] = true) ∧
    (e.reservedSet [(16, 8)] [(176, 16)] = true) ∧
    (e.reservedSet [(16, 8)] [(176, 16)] = true) ∧
    (e.reservedSet [(16, 5), (24, 16)] [(272, 48)] = true) ∧
    (e.reservedSet [(16, 5), (24, 4)] [] = true) ∧
    (e.reservedSet [(16, 2)] [(137, 7)] = true) ∧
    (e.reservedSet [(16, 2), (24, 16)] [(240, 16)] = true) ∧
    (e.reservedSet [(16, 2)] [] = true) ∧
    (e.reservedSet [(16, 2), (24, 16)] [(240, 16)] = true) ∧
    (e.reservedSet [(16, 2)] [] = true) ∧
    (e.reservedSet [(16, 1), (20, 20), (40, 2)] [(240, 16), (304, 16)] = true) ∧
    (e.reservedSet [(24, 16)] [] = true) ∧
    (e.reservedSet [(16, 2)] [] = true) ∧
    (e.reservedSet [(16, 2)] [] = true) ∧
    (e.reservedSet [(16, 3), (20, 24), (48, 8)] [(145, 7), (240, 16), (304, 16), (432, 16)] = true) ∧
    (e.reservedSet [(16, 2), (20, 4), (32, 12)] [(304, 16)] = true) ∧
    (e.reservedSet [(16, 5), (24, 12)] (if e.f 17 1 == 2 then [(208, 48)] else []) = true) ∧
    (e.reservedSet [(16, 6)] [(171, 5)] = true) ∧
    (e.reservedSet [(16, 6), (24, 12)] [(154, 6)] = true) ∧
    (e.reservedSet [(16, 1), (24, 8)] [(240, 16)] = true) ∧
    (e.reservedSet [(16, 1)] [] = true) ∧
    (e.reservedSet [(16, 1), (24, 8)] [(240, 16)] = true) ∧
    (e.reservedSet [(16, 1), (20, 12)] [] = true) ∧
    (e.reservedSet [(16, 1), (20, 12)] [] = true) ∧
    (e.reservedSet [(16, 1)] [] = true) ∧
    (e.reservedSet [(16, 1), (18, 2), (24, 8)] [(240, 16)] = true) ∧
    (e.reservedSet [(16, 1), (24, 8)] [(129, 7)] = true) ∧
    (e.reservedSet [(24, 8)] [] = true) ∧
    (∀ (t4 : T4Store), e.reservedSet [(24, 16)] [] = true) ∧
    (∀ (t4 : T4Store), e.reservedSet [(16, 1), (24, 32)] [(129, 7)] = true) ∧
    (e.reservedSet [(16, 3), (20, 17)] [(148, 4)] = true) ∧
    (e.reservedSet [(16, 6), (24, 8)] [(145, 7)] = true) ∧
    (e.reservedSet [(16, 1), (18, 3)] [(130, 6)] = true) ∧
    (e.reservedSet [(16, 1), (18, 22)] [(240, 16)] = true) ∧
    (e.reservedSet [(16, 1)] [] = true) ∧
    (e.reservedSet [(16, 1)] [] = true) ∧
    (e.reservedSet [(16, 1)] [] = true) ∧
    (e.reservedSet [(16, 8), (24, 8)] [(153, 7), (240, 16)] = true) ∧
    (e.reservedSet [(16, 2), (24, 8)] [(240, 16)] = true) ∧
    (e.reservedSet [(16, 4)] [] = true) ∧
    (e.reservedSet [(16, 2)] [] = true) ∧
    (e.reservedSet [(16, 2), (20, 2)] [] = true) ∧
    (e.reservedSet [(24, 16)] [] = true) ∧
    (e.reservedSet [(24, 16)] [] = true) ∧
    (e.reservedSet [(16, 4), (24, 8)] [] = true) ∧
    (e.reservedSet [(24, 12)] [] = true) ∧
    (e.reservedSet [(24, 16)] [] = true) ∧
    (e.reservedSet [(24, 16)] [] = true) ∧
    (e.reservedSet [(24, 24)] [] = true) ∧
    (e.reservedSet [(16, 1)] [] = true) ∧
    (e.reservedSet [(16, 1)] [] = true) ∧
    (e.reservedSet [(16, 2)] [] = true) ∧
    (e.reservedSet [(16, 1)] [] = true) ∧
    (e.reservedSet [(16, 2), (24, 12)] [(137, 7)] = true) ∧
    (e.reservedSet [(16, 2), (20, 4), (24, 16)] [(240, 16)] = true) :=
  ⟨⟨0, 1024⟩, by simp only [reserved_bit_ten, implies_true, and_self]⟩

/-- A step runs the command in front. -/
theorem test_step_runs_front : step (State.reset.withFront .timeLoRead) = exec .timeLoRead State.reset :=
  rfl

/-- R526, R527: DONE is 0 and PHASE is bit 7 of byte 5. -/
theorem test_nop_done : ((exec (.nop (ent [])) (st (onHif fun h => { h with sqs := [(0, { sq1 with cq := 1 })], cqs := [(1, cq1)] }))) |> fun
    | .next t => ((List.range 6).map fun i => (t.mem.read (t.dev.ringBase + i)).toNat, (tblGet 1 t.dev.hif.cqs).map (·.tail))
    | _ => ([], none)) = ([0, 0, 0, 0, 0, 0x80], some 1) :=
  by decide +kernel

/-- An ill-formed command is refused. -/
theorem test_wf_own_opcode : Instr.wf (.nop ⟨0, 1⟩) = false :=
  by decide +kernel

/-- An ill-formed command is refused. -/
theorem test_wf_queue : Instr.wf (.nop ⟨2047, 0⟩) = false :=
  by decide +kernel

/-- An ill-formed command is refused. -/
theorem test_wf_source_opcode : Instr.wf (.layerReq (.hp ⟨0, 0⟩)) = false :=
  by decide +kernel

/-- An ill-formed command is refused. -/
theorem test_wf_source_port : Instr.wf (.layerReq (.cvf 8 0 1 0)) = false :=
  by decide +kernel

/-- An ill-formed command is refused. -/
theorem test_wf_source_length : Instr.wf (.layerReq (.cvf 0 0 1 256)) = false :=
  by decide +kernel

/-- An ill-formed command is refused. -/
theorem test_wf_port : Instr.wf (.portRetry 8) = false :=
  by decide +kernel

/-- An ill-formed command is refused. -/
theorem test_wf_quadrant : Instr.wf (.qdTkAlign 4) = false :=
  by decide +kernel

/-- An ill-formed command is refused. -/
theorem test_wf_engine : Instr.wf (.tileDispatch 0 16) = false :=
  by decide +kernel

/-- An ill-formed command is refused. -/
theorem test_wf_hart : Instr.wf (.btFlush 8192) = false :=
  by decide +kernel

/-- An ill-formed command is refused. -/
theorem test_wf_partition : Instr.wf (.taskDispatch 2) = false :=
  by decide +kernel

/-- An ill-formed command is refused. -/
theorem test_wf_register : Instr.wf (.btTime 0 32) = false :=
  by decide +kernel

/-- An ill-formed command is refused. -/
theorem test_wf_doorbell_queue : Instr.wf (.sqDoorbell 2047 0 0 0) = false :=
  by decide +kernel

/-- An ill-formed command is refused. -/
theorem test_wf_vector : Instr.wf (.vectorUnmask 2048) = false :=
  by decide +kernel

/-- An ill-formed command is refused. -/
theorem test_wf_pipe : Instr.wf (.pipeOnlineReq 4) = false :=
  by decide +kernel

/-- The largest operands are well formed. -/
theorem test_wf_takes_nop : Instr.wf (.nop ⟨2046, 0⟩) = true :=
  by decide +kernel

/-- The largest operands are well formed. -/
theorem test_wf_takes_port : Instr.wf (.portRetry 7) = true :=
  by decide +kernel

/-- The largest operands are well formed. -/
theorem test_wf_takes_register : Instr.wf (.btTime 8191 31) = true :=
  by decide +kernel

/-! ### Places, which the device chooses -/

theorem pickFree_nil (n hint : Nat) (h : 0 < n) : pickFree [] n hint = some (hint % n) := by
  have h1 : n ≠ 0 := by omega
  have h2 : ¬ n ≤ hint % n := by have := Nat.mod_lt hint h; omega
  simp [pickFree, nextFree, h1, h2]

theorem allocArea_isSome (d : Dev) (k : AreaKind) (o : POwner) (step : Bool) (hu : d.areaUses k = [])
    (hn : 0 < (d.areaOf k).2 / (d.areaSize k).2 + 1 - (d.areaSize k).1 / (d.areaSize k).2) :
    (d.allocArea k o step).isSome = true := by
  simp [Dev.allocArea, Dev.areaPlace, hu, pickFree_nil _ _ hn]

theorem allocAll_two (d : Dev) (o : POwner) (a b : AreaKind) (ha : a.inGsl = false) (hb : b.inGsl = true)
    (hu : d.areaUses a = []) (hv : d.areaUses b = [])
    (hn : 0 < (d.areaOf a).2 / (d.areaSize a).2 + 1 - (d.areaSize a).1 / (d.areaSize a).2)
    (hm : 0 < (d.areaOf b).2 / (d.areaSize b).2 + 1 - (d.areaSize b).1 / (d.areaSize b).2) :
    ∃ d1, d.allocAll o [a, b] = some d1 := by
  have h1 := allocArea_isSome d a o false hu hn
  obtain ⟨r, hr⟩ := Option.isSome_iff_exists.1 h1
  have h2 : (r.1.allocArea b o false).isSome = true := by
    have : r.1.regs = d.regs ∧ r.1.kv.gsl = d.kv.gsl ∧ r.1.shape = d.shape := by
      simp only [Dev.allocArea] at hr
      split at hr
      · cases hr
        simp [ha, Dev.zeroMem, Dev.addArea, Dev.shape]
      · cases hr
    apply allocArea_isSome
    · simpa [Dev.areaUses, hb, this.2.1] using hv
    · cases b <;> simp_all [Dev.areaSize, Dev.areaOf, AreaKind.inGsl, Dev.gibBase, Dev.fld, Dev.reg]
  obtain ⟨q, hq⟩ := Option.isSome_iff_exists.1 h2
  exact ⟨q.1, by simp [Dev.allocAll, hr, hq]⟩

theorem shadowPlace_some (d : Dev) (n : Nat) (hu : d.tail.variants ++ d.tail.grammars = []) (hn : cdiv n 65536 ≤ 16384) :
    ∃ a, d.shadowPlace n = some a := by
  have : 0 < 16384 + 1 - cdiv n 65536 := by omega
  simp [Dev.shadowPlace, hu, pickFree_nil _ _ this]

theorem listBlock_some (d : Dev) (i : Nat) (hu : d.kv.gsl = []) (ha : d.areaUses .lists = [])
    (hn : 0 < (d.areaOf .lists).2 / (d.areaSize .lists).2 + 1 - (d.areaSize .lists).1 / (d.areaSize .lists).2) :
    ∃ r, d.listBlock i = some r := by
  have h := Option.isSome_iff_exists.1 (allocArea_isSome d .lists (.sess i) false ha hn)
  simpa [Dev.listBlock, Dev.area, Dev.areaUses, AreaKind.inGsl, hu] using h

/-- A program that a hart runs leaves its task. -/
theorem runHart_keeps (x : Ctx) (d : Dev) (h : Nat) (w : HartWork) (hw : tblGet h d.belt.harts = some w) :
    ∃ v, tblGet h (d.runHart x h).belt.harts = some v ∧ v.task = w.task := by
  unfold Dev.runHart
  rw [hw]
  simp only
  split
  · exact ⟨w, hw, rfl⟩
  · refine ⟨{ w with regs := w.regs.norm (Config.program d.free w.regs).1 }, ?_, rfl⟩
    simp only [Dev.reserveLr]
    rw [Dev.belt_of_units (foldl_keeps (g := Dev.units) _ (fun b a => by simp) _ _)]
    exact tblGet_tblSet_self ..

/-- Where no window lets a hart store, a program changes the hart and its reservation alone. -/
theorem runHart_quiet (x : Ctx) (d : Dev) (h : Nat) (w : HartWork) (hw : tblGet h d.belt.harts = some w) (hn : w.wait = none)
    (hp : ∀ k ∈ List.range 8, ∀ p ∈ [0, 1], bit (d.reg (Reg.beltWinPerm p k)) 1 = false) :
    ∃ v lr, d.runHart x h = (({ d with free := d.free + 1 } : Dev).setHart h v).reserveLr h lr ∧ v.task = w.task := by
  refine ⟨{ w with regs := w.regs.norm (Config.program d.free w.regs).1, wait := none }, (Config.program d.free w.regs).2.1, ?_, rfl⟩
  have hf : ∀ (d' : Dev), d'.regs = d.regs → ∀ (l : List (Nat × Nat × Nat)), (l.filter fun s => d'.mayStore (d'.partOf h) s.1 s.2.1) = [] := by
    intro d' hr l
    rw [List.filter_eq_nil_iff]
    intro s _
    have : d'.windowed (d'.partOf h) s.1 s.2.1 1 = false := by
      unfold Dev.windowed
      rw [List.any_eq_false]
      intro k hk
      have hq : d'.partOf h ∈ [0, 1] := by unfold Dev.partOf; split <;> simp
      have := hp k hk _ hq
      have e : ∀ o, d'.reg o = d.reg o := fun o => by unfold Dev.reg; rw [hr]
      simp [e, this]
    simp [Dev.mayStore, this]
  unfold Dev.runHart
  rw [hw]
  simp only [hn]
  rw [if_neg (by simp)]
  rw [hf (({ d with free := d.free + 1 } : Dev).setHart h { w with regs := w.regs.norm (Config.program d.free w.regs).1, wait := none }) rfl]
  rfl

/-- A device whose Belt lets its harts read but not store. -/
def beltRead : Dev := ((beltUp true).setReg (Reg.beltWinPerm 0 0) 1)

def sTdone : State := st (onBelt (fun b => { b with harts := [(0, { hart1 with task := some task1 })] }) (beltUp true))
def sHart : State := st (beltUp true)
def sRead : State := st beltRead
def eOpen : Entry := ent [(18, 0xFFFF), (28, 0x3F800000), (38, 0xFFFF), (52, 0xFFFFFFFF)]
def sOpen : State := st (((onKv fun k => { k with shape := some { shape1 with layers := 0 } }).setReg Reg.sessPtaSize 1).setReg Reg.sessGslSize 1)

/-- Bytes of a number at an address, as cells of memory. -/
def bytesAt (a v n : Nat) : List (Nat × Nat) := ((leBytes v n).zipIdx.map fun p => (a + p.2, p.1)).filter fun c => c.2 != 0

/-- A number with some fields, as (byte, value). -/
def num (fs : List (Nat × Nat)) : Nat := sumOf (fs.map fun f => f.2 * 2 ^ (8 * f.1))

def onAreas (d : Dev) : Dev := (d.setReg Reg.sessPtaSize 1).setReg Reg.sessGslSize 1
def sRevive : State := st (onAreas (onTier (fun t => { t with revives := [revive1 false], manifests := [(1, man1 false)], images := [(1, image1)] })))
def sLists : State := st (onAreas (one .idle))
def eLists : Entry := ent [(16, 1), (24, 0x20000000)]
def eVar : Entry := ent [(16, 1), (24, 0x20000000), (32, 512)]
def eVar2 : Entry := ent [(16, 1), (24, 0x20000000), (32, 8960)]
def sVar : State := stm (bytesAt 0x20000000 (num [(0, 0x56524B59), (4, 1), (8, 1), (12, 8192), (16, 1000), (252, 0x54A7267A)]) 256) (onKv fun k => { k with shape := some shape1 })
def sGram : State := stm (bytesAt 0x20000000 (num [(0, 0x4D524750), (4, 1), (8, 1), (32, 256), (252, 0x20BF4A0E)]) 256)
def layerImg : Nat := num [(0, 9), (4, 1), (6, 3), (10, 1), (16, 0x3F800000), (40, 1024), (64, 1), (68, 1), (72, 256)]
def tailImg : Nat := num [(0, 9), (4, 2), (6, 3), (10, 1), (40, 2560), (64, 1), (72, 256)]

/-- A device that serves batch 3, whose session 1 is in an open step. -/
def served : Dev := onSess (fun e => { e with table := [(1, { dsc .hot with batch := 3 })], cache := [1], steps := [⟨1, none, [], [], false, 0, 0, none⟩] })
    (onKv (fun k => { k with shape := some shape1 }) (((portAt 3).setReg (Reg.cvfTbRate 0 0) 100000).setFld (Reg.cvfStat 0) 25 4 8))
def servBatch : Batch := { batch1 with winEnd := 100000, figures := served.figures State.reset.ctx }
def serving : Dev := onSess (fun e => { e with batches := [servBatch] }) served
def sServe : State := st serving
def eReq : Entry := ent [(16, 0x20000000)]
def sServeL : State := stm (bytesAt 0x20000000 layerImg 80) serving
def sServeT : State := stm (bytesAt 0x20000000 tailImg 80) serving

/-- The device that a form leaves. -/
def formDev {E : Type} : ReqForm E → Dev
  | .refuse d _ | .odd d | .good d _ _ _ => d

def sArea : State := st (up.setReg Reg.recallArea 1)
def eCreate : Entry := ent [(20, 64), (24, 1), (28, 1024), (32, 1024)]
def sIndex : State := st (onRcl (fun r => { r with indexes := [(0, index1 .ready)] }) (up.setReg Reg.recallArea 1))
def eInsert : Entry := ent [(20, 1), (24, 0x20000000)]
def sQuery : State :=
  st (onRcl (fun r => { r with indexes := [(0, index1 .ready)], engines := ⟨0, false, false⟩ :: List.replicate 3 ⟨1, true, false⟩ }))
def sPark : State := st (onSec (fun s => { s with storeKey := some 1 }) (onHif (fun h => { h with hrq := some hrq1 }) (one .idle)))
def ePark : Entry := ent [(16, 1), (21, 0x44), (22, 1), (24, 7)]
def egress1 : EgFrame := ⟨msg1 0, 0, 1, 0, 64, true, 0⟩
def class1 : ClassQ := { ClassQ.reset with tokens := 1000, lane := [egress1] }
def sFrame : State := st ((portAt 3).setPort 0 fun p =>
  { p with credits := List.replicate 6 10, shaper := { p.shaper with classes := List.replicate 5 ClassQ.reset ++ [class1] } })

/-- A flash that holds directory copy 0, with the places of slot 1. -/
def updFlash : List (Nat × Nat) := [(0, 75), (1, 68), (2, 73), (3, 82), (4, 1)] ++
  ((leBytes 0x10000 8 ++ leBytes 0 8 ++ leBytes 0x20000 8 ++ leBytes 0 8).zipIdx.map fun p => (48 + p.2, p.1)) ++
  [(4092, 206), (4093, 169), (4094, 210), (4095, 235)]
def sUpdate : State := st (onBoot fun b => { b with flash := updFlash })
def updDir : Nat := 2 ^ 32768 - 1 - num (updFlash.map fun f => (f.1, 255 - f.2))

theorem pinPages_one (x : Ctx) (d : Dev) (k : PKey) (p : Page) (hq : d.quadUp (quadOfStack (stackOf p.payload)) = true)
    (h1 : d.tier.pins = []) (h2 : d.err.retiredLines = [])
    (hn : 0 < d.t0Bytes x (quadOfStack (stackOf p.payload)) / 16 + 1 - cdiv (p.readBytes d.shape.d p.rows) 16) :
    ∃ d1, d.pinPages x [(k, p)] = some d1 := by
  have : (d.pinPage x k p).isSome = true := by
    unfold Dev.pinPage
    simp only [hq, Dev.pinPlace, h1, h2, List.filter_nil, List.map_nil, List.append_nil, pickFree_nil _ _ hn]
    rfl
  obtain ⟨d1, h⟩ := Option.isSome_iff_exists.1 this
  exact ⟨d1, by simp [Dev.pinPages, h]⟩

/-- A device with a page of prefix 9. -/
def sPin : State := st (onKv fun k => { k with prefixes := [prefix1 false], pages := [({ pkey1 with owner := .pfx 9 }, page1)] })

/-! ### A tokenizer image that passes every check -/

/-- Memory that holds a number of some bytes at an address, and zeros elsewhere. -/
def memOf (a n v : Nat) : Memory := (⟨[], []⟩ : Memory).apply (.store a n v)

theorem memOf_read (a n v b : Nat) : (memOf a n v).read b = if a ≤ b && b < a + n then BitVec.ofNat 8 (byteOf v (b - a)) else 0 := by
  have hb : v / 256 ^ (b - a) % 256 = byteOf v (b - a) := by unfold byteOf bits; rw [show (2 : Nat) ^ (8 * (b - a)) = 256 ^ (b - a) by rw [Nat.pow_mul]]; rfl
  have hw : cellsWf [] = true := rfl
  simp only [memOf, Memory.apply, Memory.read, cellAt_putBytes _ _ _ _ hw, inRanges_cutRange, hb]
  by_cases hr : a ≤ b ∧ b < a + n
  · simp only [hr, and_self, if_true, decide_true, Bool.and_self]
    split
    · rename_i c hc; split at hc; cases hc; cases hc; rfl
    · rename_i hc; split at hc
      · rename_i h0; have : BitVec.ofNat 8 (byteOf v (b - a)) = 0 := by simpa using h0
        rw [this]; simp [inRanges]
      · cases hc
  · rw [if_neg hr]
    have : (decide (a ≤ b) && decide (b < a + n)) = false := by simpa using hr
    simp [this, cellAt, inRanges]

/-- A device reads such memory as it reads the store itself. -/
theorem byte_memOf (f : Fuses) (d : Dev) (a n v : Nat) (hd : d.writes = []) (k : Nat) :
    d.byte ⟨f, memOf a n v⟩ k = ({ d with writes := [.store a n v] } : Dev).byte ⟨f, ⟨[], []⟩⟩ k := by
  unfold Dev.byte
  have hm : mapped f.part { d with writes := [.store a n v] } k = mapped f.part d k := rfl
  rw [hm, hd]
  simp only [peekOps, memOf_read]
  rfl

theorem ld_memOf (f : Fuses) (d : Dev) (a n v : Nat) (hd : d.writes = []) (len k : Nat) :
    d.ld ⟨f, memOf a n v⟩ k len = ({ d with writes := [.store a n v] } : Dev).ld ⟨f, ⟨[], []⟩⟩ k len := by
  induction len generalizing k with
  | zero => rfl
  | succ m ih => unfold Dev.ld; rw [ih, byte_memOf f d a n v hd]

/-- A number whose 32-bit words are given. -/
def words (ws : List Nat) : Nat := ws.foldr (fun w n => w % 2 ^ 32 + 2 ^ 32 * n) 0

/-- An image of 256 tokens, one for each byte, without merges (R357): header, byte map, which is the heap too, and token table. -/
def tokImg : Nat := num [(0, 0x4E4B5458), (4, 1), (8, 256), (18, 1), (19, 10), (20, 1), (24, 256), (28, 1280), (32, 256), (36, 3328),
    (44, 19712), (48, 1024), (252, 0x7C743A1C)] +
  2 ^ 2048 * words (List.range 256 ++ (List.range 256).flatMap fun t => [4 * t, 1])

def dTok : Dev := onKv fun k => { k with shape := some { shape1 with vocab := 256 } }
def sTok : State := { st dTok with mem := memOf 0x20000000 20224 tokImg }
def dTokW : Dev := { dTok with writes := [.store 0x20000000 20224 tokImg] }

theorem ld_zero (k len : Nat) (h : 0x20000D00 ≤ k) : dTokW.ld ⟨State.reset.fuses, ⟨[], []⟩⟩ k len = 0 := by
  have hs : tokImg < 2 ^ 26624 := by decide +kernel
  have hb : ∀ b, 0x20000D00 ≤ b → dTokW.byte ⟨State.reset.fuses, ⟨[], []⟩⟩ b = 0 := by
    intro b hb
    have hz : byteOf tokImg (b - 0x20000000) = 0 := by
      unfold byteOf bits
      rw [Nat.div_eq_of_lt (Nat.lt_of_lt_of_le hs (Nat.pow_le_pow_right (by norm_num) (by omega))), Nat.zero_mod]
    show (if _ then (if _ then BitVec.ofNat 8 (byteOf tokImg (b - 0x20000000)) else (0 : Byte)).toNat else 0) = 0
    rw [hz]; split
    · split <;> rfl
    · rfl
  induction len generalizing k with
  | zero => rfl
  | succ n ih => unfold Dev.ld; rw [ih _ (by omega), hb _ h]

theorem tok_header : dTokW.ld ⟨State.reset.fuses, ⟨[], []⟩⟩ 0x20000000 256 = tokImg % 2 ^ 2048 := by decide +kernel

theorem tok_head : dTokW.tokHead ⟨State.reset.fuses, ⟨[], []⟩⟩ 0x20000000 = ⟨256, 0, 0, 1, 10, 1, 256, 1280, 256, 3328, 0, 19712⟩ := by
  unfold Dev.tokHead
  rw [tok_header]
  simp only [TokHead.mk.injEq]
  decide +kernel

/-- The device that lists the store reads the same image. -/
theorem tok_ld (k len : Nat) : dTok.ld sTok.ctx k len = dTokW.ld ⟨State.reset.fuses, ⟨[], []⟩⟩ k len :=
  ld_memOf State.reset.fuses dTok 0x20000000 20224 tokImg rfl len k
theorem tok_byte (k : Nat) : dTok.byte sTok.ctx k = dTokW.byte ⟨State.reset.fuses, ⟨[], []⟩⟩ k :=
  byte_memOf State.reset.fuses dTok 0x20000000 20224 tokImg rfl k
theorem tok_entry (h : TokHead) (t : Nat) :
    dTok.tokEntry sTok.ctx 0x20000000 h t = dTokW.tokEntry ⟨State.reset.fuses, ⟨[], []⟩⟩ 0x20000000 h t := by
  unfold Dev.tokEntry; rw [tok_ld]
theorem tok_headEq : dTok.tokHead sTok.ctx 0x20000000 = ⟨256, 0, 0, 1, 10, 1, 256, 1280, 256, 3328, 0, 19712⟩ := by
  rw [← tok_head]; unfold Dev.tokHead; rw [tok_ld]

theorem tok_ok : dTok.tokenizerOk sTok.ctx 0x20000000 = true := by
  unfold Dev.tokenizerOk
  rw [tok_headEq]
  simp only [Dev.tokBytes, Dev.byteToken, Dev.specials, Dev.ldBytes, tok_ld, tok_byte, tok_entry]
  have hv : dTok.shape.vocab = 256 := rfl
  simp only [hv, Bool.and_eq_true, List.all_eq_true]
  refine ⟨⟨⟨?_, ?_⟩, ?_⟩, ?_⟩
  · decide +kernel
  · decide +kernel
  · intro k _
    rw [ld_zero _ 8 (by omega), ld_zero _ 8 (by omega)]
    decide +kernel
  · intro t ht; cases ht

theorem tok_odd : dTok.tokenizerOdd sTok.ctx 0x20000000 20224 = false := by
  have h1 : dTok.ld sTok.ctx = dTokW.ld ⟨State.reset.fuses, ⟨[], []⟩⟩ := funext fun k => funext fun n => tok_ld k n
  have h2 : dTok.tokEntry sTok.ctx = dTokW.tokEntry ⟨State.reset.fuses, ⟨[], []⟩⟩ := by
    funext a h t; unfold Dev.tokEntry; rw [h1]
  unfold Dev.tokenizerOdd Dev.specials
  rw [tok_headEq, h1, h2]
  refine Bool.or_eq_false_iff.2 ⟨Bool.or_eq_false_iff.2 ⟨Bool.or_eq_false_iff.2 ⟨Bool.or_eq_false_iff.2 ⟨?_, ?_⟩, ?_⟩, rfl⟩, ?_⟩
  · decide +kernel
  · refine List.any_eq_false.2 fun k _ => ?_
    rw [ld_zero _ 8 (by show 0x20000D00 ≤ 0x20000000 + 3328 + 16 * k; omega), ld_zero _ 8 (by show 0x20000D00 ≤ 0x20000000 + 3328 + 16 * k + 8; omega)]
    decide +kernel
  · refine List.any_eq_false.2 fun k _ => ?_
    rw [ld_zero _ 2 (by show 0x20000D00 ≤ 0x20000000 + 19712 + 2 * k; omega)]
    decide +kernel
  · decide +kernel

theorem tok_ecc : dTok.eccRead 0x20000000 20224 true = dTok := rfl

def eTok : Entry := ent [(24, 0x20000000), (32, 20224)]


/-! ### Witnesses of the commands -/

theorem wit_nop : ∃ (s : State) (e : Entry),
    let x := s.ctx
    let d := s.view
    let c := e.cmd
    (e.reservedSet [] [] = false) :=
  ⟨st (up), (ent []), by decide +kernel⟩

theorem wit_qCreateCq : ∃ (s : State) (e : Entry),
    let x := s.ctx
    let d := s.view
    let c := e.cmd
    (e.reservedSet [(16, 3), (20, 2), (24, 8)] [(222, 34)] = false) ∧
    (firstFail (createCqChecks d e) = none) :=
  ⟨st (up), (ent [(16, 1), (18, 4), (20, 65535)]), by decide +kernel⟩

theorem wit_qCreateSq : ∃ (s : State) (e : Entry),
    let x := s.ctx
    let d := s.view
    let c := e.cmd
    (e.reservedSet [(16, 8), (24, 8)] [(222, 34)] = false) ∧
    (firstFail (createSqChecks d e) = none) :=
  ⟨st (onHif fun h => { h with cqs := [(0, cq1)] }), (ent [(16, 1), (18, 4)]), by decide +kernel⟩

theorem wit_qDeleteSq : ∃ (s : State) (e : Entry) (q : Sq),
    let x := s.ctx
    let d := s.view
    let c := e.cmd
    (e.reservedSet [(16, 2)] [] = false) ∧
    (firstFail (deleteSqChecks d e) = none) ∧
    (tblGet (e.f 16 2) d.hif.sqs = some q) :=
  ⟨st (onHif fun h => { h with sqs := [(1, sq1)] }), (ent [(16, 1)]), (sq1), by decide +kernel⟩

theorem wit_qDeleteCq : ∃ (s : State) (e : Entry),
    let x := s.ctx
    let d := s.view
    let c := e.cmd
    (e.reservedSet [(16, 2)] [] = false) ∧
    (firstFail (deleteCqChecks d e) = none) :=
  ⟨st (onHif fun h => { h with cqs := [(1, cq1)] }), (ent [(16, 1)]), by decide +kernel⟩

theorem wit_hrqCreate : ∃ (s : State) (e : Entry),
    let x := s.ctx
    let d := s.view
    let c := e.cmd
    (e.reservedSet [(18, 1), (20, 2), (24, 8)] [(222, 34)] = false) ∧
    (firstFail (hrqCreateChecks d e) = none) :=
  ⟨st (up), (ent [(18, 4), (20, 2)]), by decide +kernel⟩

theorem wit_storeDone : ∃ (s : State) (e : Entry) (r : HostReq) (st : Status),
    let x := s.ctx
    let d := s.view
    let c := e.cmd
    (e.reservedSet [(16, 5), (24, 8)] [] = false) ∧
    ((d.hif.requests.find? fun r => r.reqId == e.f 16 4) = some r) ∧
    (storeStatus (e.f 20 1) (e.f 24 8) r = some st) :=
  ⟨st (onHif fun h => { h with requests := [req1] }), (ent [(16, 1), (24, 64)]), (req1), (.DONE), by decide +kernel⟩

theorem wit_meterRead : ∃ (s : State) (e : Entry),
    let x := s.ctx
    let d := s.view
    let c := e.cmd
    (e.reservedSet [(16, 5), (24, 8)] [(161, 7)] = false) ∧
    (e.f 18 2 ≠ 0) ∧
    (e.f 18 2 ≤ 4096) ∧
    (e.f 16 2 + e.f 18 2 ≤ 65536) ∧
    ((([(e.f 24 8, 64 * e.f 18 2)]).find? fun b => !(mappedRange x.fuses.part d b.1 b.2)) = none) :=
  ⟨st (up), (ent [(18, 1)]), by decide +kernel⟩

theorem wit_sqDoorbell : ∃ (s : State) (sq val : Nat) (q : Sq),
    let d := s.view
    (d.barsDecoded = true) ∧
    (d.operational = true) ∧
    (tblGet sq d.hif.sqs = some q) ∧
    (q.deleting = none) ∧
    (val < 2 ^ q.sizeLog2) ∧
    let k := (val + 2 ^ q.sizeLog2 - q.tail) % 2 ^ q.sizeLog2
    (q.waiting + k < 2 ^ q.sizeLog2) :=
  ⟨st (onHif fun h => { h with sqs := [(0, sq1)] }), (0), (1), (sq1), by decide +kernel⟩

theorem wit_cqDoorbell : ∃ (s : State) (cq val : Nat) (q : Cq),
    let d := s.view
    (d.barsDecoded = true) ∧
    (d.operational = true) ∧
    (tblGet cq d.hif.cqs = some q) ∧
    (val < 2 ^ q.sizeLog2) ∧
    ((val + 2 ^ q.sizeLog2 - q.head) % 2 ^ q.sizeLog2 ≤ q.live) :=
  ⟨st (onHif fun h => { h with cqs := [(0, cq1)] }), (0), (1), (cq1), by decide +kernel⟩

theorem wit_hrqDoorbell : ∃ (s : State) (val : Nat) (h : Hrq),
    let x := s.ctx
    let d := s.view
    (d.barsDecoded = true) ∧
    (d.operational = true) ∧
    (d.hif.hrq = some h) ∧
    (val < 2 ^ h.sizeLog2) ∧
    ((val + 2 ^ h.sizeLog2 - h.head) % 2 ^ h.sizeLog2 ≤ h.live) :=
  ⟨st (onHif fun h => { h with hrq := some hrq1 }), (1), (hrq1), by decide +kernel⟩

theorem wit_sqFetch_high : ∃ (s : State) (n : Nat),
    let x := s.ctx
    let d := s.view
    (nextInTurn d.hif.fetchTurn.1 (d.fetchable x true) = some n) ∧
    ((nextInTurn d.hif.fetchTurn.2 (d.fetchable x false)).isNone ∨ d.hif.highVisits < 4) :=
  ⟨st (onHif fun h => { h with sqs := [(0, { sq1 with waiting := 1, high := true })], cqs := [(0, { cq1 with live := 0 })] }), (0), by decide +kernel⟩

theorem wit_sqFetch_normal : ∃ (s : State) (n : Nat),
    let x := s.ctx
    let d := s.view
    (nextInTurn d.hif.fetchTurn.2 (d.fetchable x false) = some n) ∧
    ((nextInTurn d.hif.fetchTurn.1 (d.fetchable x true)).isNone ∨ 4 ≤ d.hif.highVisits) :=
  ⟨st (onHif fun h => { h with sqs := [(0, { sq1 with waiting := 1, high := false })], cqs := [(0, { cq1 with live := 0 })] }), (0), by decide +kernel⟩

theorem wit_bar2Access_write : ∃ (s : State) (off len val : Nat),
    let x := s.ctx
    let d := s.view
    (d.barsDecoded = true) ∧
    (off < 2 ^ d.hif.hp.bar2SizeLog2) ∧
    (d.operational = true) ∧
    let a := d.bar2Addr off
    (d.bar2Hole x a len = none) ∧
    ((d.err.bad.filter fun b => b.uncorrectable && b.within a len && !(a ≤ b.addr && b.addr + eccWord b.addr ≤ a + len)) = []) ∧
    let d1 := d.st x a len val
    (d1.operational = true) ∧
    ((d1.deviceOnly.any fun r => a < r.1 + r.2 && r.1 < a + len) = false) :=
  ⟨st (up), (0x400000000), (4), (5), by decide +kernel⟩

theorem wit_bar2Access_read : ∃ (s : State) (off len val : Nat),
    let x := s.ctx
    let d := s.view
    (d.barsDecoded = true) ∧
    (off < 2 ^ d.hif.hp.bar2SizeLog2) ∧
    (d.operational = true) ∧
    let a := d.bar2Addr off
    (d.bar2Hole x a len = none) ∧
    ((inHbm x.fuses.part a || inSram a || inStaging a) = true) :=
  ⟨st (up), (0), (4), (0), by decide +kernel⟩

theorem wit_adminCtlEn : ∃ (s : State) (val : Nat),
    let x := s.ctx
    let d := s.view
    (d.bar0Cpl x Reg.hifAdminCtl = .success) ∧
    (bit val 31 ≠ bit (d.reg Reg.hifAdminCtl) 31) :=
  ⟨st (up), (0x80000000), by decide +kernel⟩

theorem wit_vectorCoalTimeout : ∃ (s : State) (v : Nat) (w : VecState),
    let d := s.view
    (tblGet v d.hif.vecs = some w) ∧
    (d.fld (Reg.hifVecCoal v) 16 16 ≠ 0) ∧
    (w.oldest + d.fld (Reg.hifVecCoal v) 16 16 * 1000 ≤ d.now) :=
  ⟨st (late (onHif (fun h => { h with vecs := [(0, ⟨1, 0⟩)] }) (up.setReg (Reg.hifVecCoal 0) 0x10000))), (0), (⟨1, 0⟩), by decide +kernel⟩

theorem wit_vectorUnmask : ∃ (s : State) (v : Nat),
    let x := s.ctx
    let d := s.view
    (d.bar0Cpl x (Reg.msixCtrl v) = .success) ∧
    let d1 := d.setFld (Reg.msixCtrl v) 0 1 0
    (bit (d1.reg (Reg.msixPba (v / 32))) (v % 32) = true) ∧
    (d.hif.hp.msixEnable = true) ∧
    (d.hif.hp.functionMask = false) ∧
    (d.hif.hp.bme = true) :=
  ⟨st (onHif (fun h => { h with hp := { h.hp with bme := true, msixEnable := true } }) (up.setReg (Reg.msixPba 0) 1)), (0), by decide +kernel⟩

theorem wit_hrqTimeout_retry : ∃ (s : State) (n : Nat) (r : HostReq),
    let x := s.ctx
    let d := s.view
    ((d.hif.requests.find? fun r => r.reqId == n) = some r) ∧
    (r.since + d.fld Reg.hifHrqCtl 0 16 * 1000000 ≤ d.now) ∧
    (r.retries % 2 = 1) :=
  ⟨st (late (onHif fun h => { h with requests := [{ req1 with retries := 1 }] })), (1), ({ req1 with retries := 1 }), by decide +kernel⟩

theorem wit_hrqTimeout_waits : ∃ (s : State) (n : Nat) (r : HostReq),
    let x := s.ctx
    let d := s.view
    ((d.hif.requests.find? fun r => r.reqId == n) = some r) ∧
    (r.since + d.fld Reg.hifHrqCtl 0 16 * 1000000 ≤ d.now) ∧
    (r.retries % 2 = 0) ∧
    let d1 := (d.bump Reg.hifHrqTimeout 1).event x 0xA r.reqId r.origin 0
    (r.op = 3) ∧
    (r.retries < 6) :=
  ⟨st (late (onHif fun h => { h with requests := [{ req1 with retries := 2 }] })), (1), ({ req1 with retries := 2 }), by decide +kernel⟩

theorem wit_hrqTimeout_fail : ∃ (s : State) (n : Nat) (r : HostReq),
    let x := s.ctx
    let d := s.view
    ((d.hif.requests.find? fun r => r.reqId == n) = some r) ∧
    (r.since + d.fld Reg.hifHrqCtl 0 16 * 1000000 ≤ d.now) ∧
    (r.retries % 2 = 0) ∧
    let d1 := (d.bump Reg.hifHrqTimeout 1).event x 0xA r.reqId r.origin 0
    (r.op ≠ 3 ∨ 6 ≤ r.retries) :=
  ⟨st (late (onHif fun h => { h with requests := [{ req1 with retries := 6 }] })), (1), ({ req1 with retries := 6 }), by decide +kernel⟩

theorem wit_mboxH2dWrite : ∃ (s : State) (n val : Nat),
    let x := s.ctx
    let d := s.view
    (d.bar0Cpl x (Reg.mboxH2dData n) = .success) ∧
    (n < 8) :=
  ⟨st (up), (0), (1), by decide +kernel⟩

theorem wit_mboxD2hRead : ∃ (s : State) (n : Nat),
    let x := s.ctx
    let d := s.view
    (d.bar0Cpl x (Reg.mboxH2dData n) = .success) ∧
    (n < 8) :=
  ⟨st (up), (7), by decide +kernel⟩

theorem wit_mboxOwnerWrite : ∃ (s : State) (m : MboxId) (val : Nat),
    let x := s.ctx
    let d := s.view
    (d.ownerUp x m = true) :=
  ⟨st (up), (.m 0), (1), by decide +kernel⟩

theorem wit_mboxOwnerRead : ∃ (s : State) (m : MboxId),
    let x := s.ctx
    let d := s.view
    (d.ownerUp x m = true) :=
  ⟨st (up), (.m 3), by decide +kernel⟩

theorem wit_ppLinkDown : ∃ (s : State) ,
    let x := s.ctx
    let d := s.view
    (d.hif.ppUp = true) ∧
    let d1 := ((({ d with hif := { d.hif with ppUp := false } } : Dev).setFld Reg.hifPpStat 24 8 0).report (sourceOf 0x1800000 0 0) 0x41 2 0x10).event x 8 0x10 0 0
    (d1.tier.parks = []) ∧
    (d1.tier.revives = []) ∧
    (d1.tier.evacuating = []) :=
  ⟨st (onHif fun h => { h with ppUp := true }), by decide +kernel⟩

theorem wit_ppLinkUp : ∃ (s : State) (serials : List Nat),
    let x := s.ctx
    let d := s.view
    (d.hif.ppUp = false) ∧
    (d.operational = true) :=
  ⟨st (up), ([1]), by decide +kernel⟩

theorem wit_setEndpointId : ∃ (s : State) (eid : Nat),
    let d := s.view
    (d.eclipse = false) :=
  ⟨st (up), (9), by decide +kernel⟩

theorem wit_getEndpointId : ∃ (s : State) ,
    let d := s.view
    (d.eclipse = false) :=
  ⟨st (up), by decide +kernel⟩

theorem wit_getEndpointUuid : ∃ (s : State) ,
    let x := s.ctx
    let d := s.view
    (d.eclipse = false) :=
  ⟨st (up), by decide +kernel⟩

theorem wit_getMctpVersionSupport : ∃ (s : State) (typ : Nat),
    let d := s.view
    (d.eclipse = false) :=
  ⟨st (up), (0), by decide +kernel⟩

theorem wit_getMessageTypeSupport : ∃ (s : State) ,
    let d := s.view
    (d.eclipse = false) :=
  ⟨st (up), by decide +kernel⟩

theorem wit_mctpOtherMessage : ∃ (s : State) (cmd : Nat),
    let d := s.view
    (d.eclipse = false) :=
  ⟨st (up), (9), by decide +kernel⟩

theorem wit_settid : ∃ (s : State) (tid : Nat),
    let d := s.view
    (d.eclipse = false) :=
  ⟨st (up), (3), by decide +kernel⟩

theorem wit_gettid : ∃ (s : State) ,
    let d := s.view
    (d.eclipse = false) :=
  ⟨st (up), by decide +kernel⟩

theorem wit_getpldmversion : ∃ (s : State) (typ : Nat),
    let d := s.view
    (d.eclipse = false) :=
  ⟨st (up), (2), by decide +kernel⟩

theorem wit_getpldmtypes : ∃ (s : State) ,
    let d := s.view
    (d.eclipse = false) :=
  ⟨st (up), by decide +kernel⟩

theorem wit_getpldmcommands : ∃ (s : State) (typ : Nat),
    let d := s.view
    (d.eclipse = false) :=
  ⟨st (up), (0), by decide +kernel⟩

theorem wit_seteventreceiver : ∃ (s : State) (eid : Nat),
    let d := s.view
    (d.eclipse = false) :=
  ⟨st (up), (1), by decide +kernel⟩

theorem wit_getpdrrepositoryinfo : ∃ (s : State) ,
    let x := s.ctx
    let d := s.view
    (d.eclipse = false) :=
  ⟨st (up), by decide +kernel⟩

theorem wit_getpdr : ∃ (s : State) (record id : Nat),
    let x := s.ctx
    let d := s.view
    (d.eclipse = false) ∧
    let i := if record = 0 then 1 else record
    ((sensorIds x.fuses.part)[i - 1]? = some id) :=
  ⟨st (up), (0), (1), by decide +kernel⟩

theorem wit_getsensorreading : ∃ (s : State) (sensor : Nat),
    let x := s.ctx
    let d := s.view
    (d.eclipse = false) ∧
    ((sensorIds x.fuses.part).contains sensor = true) ∧
    (sensorNumeric sensor = true) :=
  ⟨st (up), (1), by decide +kernel⟩

theorem wit_getstatesensorreadings : ∃ (s : State) (sensor : Nat),
    let x := s.ctx
    let d := s.view
    (d.eclipse = false) ∧
    ((sensorIds x.fuses.part).contains sensor = true) ∧
    (sensorNumeric sensor = false) :=
  ⟨st (up), (0x100), by decide +kernel⟩

theorem wit_pldmUnsupportedCmd : ∃ (s : State) (typ cmd : Nat),
    let d := s.view
    (d.eclipse = false) :=
  ⟨st (up), (1), (1), by decide +kernel⟩

theorem wit_sessOpen : ∃ (s : State) (e : Entry) (i : Nat) (d1 : Dev),
    let x := s.ctx
    let d := s.view
    let c := e.cmd
    (e.reservedSet [(16, 7), (24, 36)] [(179, 5)] = false) ∧
    (firstFail (d.openChecks x e) = none) ∧
    (d.allocIdx = some i) ∧
    (d.allocAll (.sess i) d.openKinds = some d1) := by
  obtain ⟨d1, h⟩ := allocAll_two sOpen.view (.sess 0) .root .gstack rfl rfl (by decide +kernel) (by decide +kernel) (by decide +kernel)
    (by decide +kernel)
  have hk : sOpen.view.openKinds = [.root, .gstack] := by decide +kernel
  exact ⟨sOpen, eOpen, 0, d1, by decide +kernel, by decide +kernel, by decide +kernel, hk ▸ h⟩

theorem wit_sessStepOpen : ∃ (s : State) (e : Entry),
    let x := s.ctx
    let d := s.view
    let c := e.cmd
    (e.reservedSet [(16, 4), (24, 34)] [(240, 16), (432, 16)] = false) ∧
    let d1 := d.raiseRails
    (firstFail (d.stepOpenChecks e) = none) ∧
    ((([(e.f 24 6, 4 * e.f 18 2), (e.f 48 6, e.f 18 2)]).find? fun b => !(mappedRange x.fuses.part d1 b.1 b.2)) = none) ∧
    (d1.mediaBad (e.f 24 6) (4 * e.f 18 2) = false) ∧
    let d2 := d1.eccRead (e.f 24 6) (4 * e.f 18 2) true
    let j := Dev.joinAll x (e.f 16 2) ((List.range (e.f 18 2)).map fun k => d2.ld x (e.f 24 6 + 4 * k) 4) d2
    (j.2.1.isEmpty = false) :=
  ⟨st (onSess (fun s => { s with table := [(0, dsc .idle)], cache := [0] }) (onKv fun k => { k with shape := some shape1 })), (ent [(16, 3), (18, 1), (24, 536870912), (48, 536871168), (56, 1)]), by decide +kernel⟩

theorem wit_sessStepClose : ∃ (s : State) (e : Entry) (b : Batch),
    let x := s.ctx
    let d := s.view
    let c := e.cmd
    (e.reservedSet [(16, 3), (24, 8)] [(145, 7)] = false) ∧
    (d.batch (e.f 16 2) = some b) ∧
    ((([(e.f 24 8, b.members.length)]).find? fun b => !(mappedRange x.fuses.part d b.1 b.2)) = none) :=
  ⟨st (onSess fun s => { s with batches := [batch1] }), (ent [(16, 3)]), (batch1), by decide +kernel⟩

theorem wit_sessCancel_batch : ∃ (s : State) (e : Entry) (b : Batch),
    let x := s.ctx
    let d := s.view
    let c := e.cmd
    (e.reservedSet [(16, 7)] [(177, 7)] = false) ∧
    (e.f 16 4 = 0xFFFFFFFF) ∧
    (d.batch (e.f 20 2) = some b) :=
  ⟨st (onSess fun s => { s with batches := [batch1] }), (ent [(16, 0xFFFFFFFF), (20, 3)]), (batch1), by decide +kernel⟩

theorem wit_sessCancel_hot : ∃ (s : State) (e : Entry) (ds : Desc),
    let x := s.ctx
    let d := s.view
    let c := e.cmd
    (e.reservedSet [(16, 7)] [(177, 7)] = false) ∧
    (e.f 16 4 ≠ 0xFFFFFFFF) ∧
    let i := handleIdx (e.f 16 4)
    ((d.readDesc x i).2 = some ds) ∧
    (ds.gen % 1024 = handleGen (e.f 16 4)) ∧
    let d1 := (d.readDesc x i).1
    (d1.memberBound i = false) ∧
    (ds.state = .hot) :=
  ⟨st (one .hot), (ent [(16, 1)]), (dsc .hot), by decide +kernel⟩

theorem wit_sessClose : ∃ (s : State) (e : Entry) (ds : Desc),
    let x := s.ctx
    let d := s.view
    let c := e.cmd
    (e.reservedSet [(16, 4)] [] = false) ∧
    let i := handleIdx (e.f 16 4)
    ((d.readDesc x i).2 = some ds) ∧
    (ds.gen % 1024 = handleGen (e.f 16 4)) ∧
    let d1 := (d.readDesc x i).1
    (d.memberBound i = false) ∧
    (ds.state = .idle ∨ ds.state = .parked) ∧
    (d1.canPin i = true) :=
  ⟨st (one .idle), (ent [(16, 1)]), (dsc .idle), by decide +kernel⟩

theorem wit_sessQuery : ∃ (s : State) (e : Entry) (ds : Desc),
    let x := s.ctx
    let d := s.view
    let c := e.cmd
    (e.reservedSet [(16, 4), (24, 8)] [] = false) ∧
    ((([(e.f 24 8, 256)]).find? fun b => !(mappedRange x.fuses.part d b.1 b.2)) = none) ∧
    let i := handleIdx (e.f 16 4)
    ((d.readDesc x i).2 = some ds) ∧
    (ds.gen % 1024 = handleGen (e.f 16 4)) :=
  ⟨st (one .idle), (ent [(16, 1)]), (dsc .idle), by decide +kernel⟩

theorem wit_sessSetTail : ∃ (s : State) (e : Entry) (ds : Desc),
    let x := s.ctx
    let d := s.view
    let c := e.cmd
    (e.reservedSet [(16, 42), (60, 4)] [(166, 2), (171, 5)] = false) ∧
    (setTailAbsent x.fuses.part e = false) ∧
    let i := handleIdx (e.f 16 4)
    ((d.readDesc x i).2 = some ds) ∧
    (ds.gen % 1024 = handleGen (e.f 16 4)) ∧
    let d1 := (d.readDesc x i).1
    (ds.state = .idle) ∧
    (d1.memberBound i = false) ∧
    (firstFail (d1.setTailChecks e) = none) :=
  ⟨st (one .idle), (ent [(16, 1)]), (dsc .idle), by decide +kernel⟩

theorem wit_sessSetLists_clear : ∃ (s : State) (e : Entry) (ds : Desc),
    let x := s.ctx
    let d := s.view
    let c := e.cmd
    (e.reservedSet [(16, 5), (24, 8)] [(162, 6)] = false) ∧
    let i := handleIdx (e.f 16 4)
    ((d.readDesc x i).2 = some ds) ∧
    (ds.gen % 1024 = handleGen (e.f 16 4)) ∧
    let d1 := (d.readDesc x i).1
    (ds.state = .idle) ∧
    (d1.memberBound i = false) ∧
    (bit (e.f 20 1) 0 = true) :=
  ⟨st (one .idle), (ent [(16, 1), (20, 1)]), (dsc .idle), by decide +kernel⟩

theorem wit_sessSetLists_install : ∃ (s : State) (e : Entry) (ds : Desc) (d3 : Dev) (addr : Nat),
    let x := s.ctx
    let d := s.view
    let c := e.cmd
    (e.reservedSet [(16, 5), (24, 8)] [(162, 6)] = false) ∧
    let i := handleIdx (e.f 16 4)
    ((d.readDesc x i).2 = some ds) ∧
    (ds.gen % 1024 = handleGen (e.f 16 4)) ∧
    let d1 := (d.readDesc x i).1
    (ds.state = .idle) ∧
    (d1.memberBound i = false) ∧
    (bit (e.f 20 1) 0 = false) ∧
    ((([(e.f 24 8, 36864)]).find? fun b => !(mappedRange x.fuses.part d1 b.1 b.2)) = none) ∧
    (d1.mediaBad (e.f 24 8) (36864) = false) ∧
    let d2 := d1.eccRead (e.f 24 8) (36864) true
    (d2.listBlock i = some (d3, addr)) := by
  obtain ⟨r, h⟩ := listBlock_some ((sLists.view.readDesc sLists.ctx 1).1.eccRead 0x20000000 36864 true) 1 (by decide +kernel)
    (by decide +kernel) (by decide +kernel)
  refine ⟨sLists, eLists, dsc .idle, r.1, r.2, ?_, ?_, ?_, ?_, ?_,
    ?_, ?_, ?_, h⟩ <;> decide +kernel

theorem wit_sessPark_inplace : ∃ (s : State) (e : Entry) (ds : Desc),
    let x := s.ctx
    let d := s.view
    let c := e.cmd
    (e.reservedSet [(16, 7), (24, 8)] [(161, 7), (171, 1), (175, 1)] = false) ∧
    let i := handleIdx (e.f 16 4)
    ((d.readDesc x i).2 = some ds) ∧
    (ds.gen % 1024 = handleGen (e.f 16 4)) ∧
    let d1 := (d.readDesc x i).1
    (ds.state = .idle) ∧
    (d1.memberBound i = false) ∧
    (d1.occupied i = false) ∧
    (parkFieldsOk (e.f 21 1) (e.f 22 1) = true) ∧
    let image := bit (e.f 20 1) 0
    (firstFail (d1.tileMode x image) = none) ∧
    (d1.bindingOf i = none) ∧
    ((d1.chain (e.f 21 1)).1 = 1) ∧
    (d1.inPlaceOk x = true) :=
  ⟨st ((one .idle).setReg Reg.sessMoveCtl 0x41), (ent [(16, 1), (20, 1), (22, 1)]), (dsc .idle), by decide +kernel⟩

theorem wit_sessPark_out : ∃ (s : State) (e : Entry) (ds : Desc) (d2 : Dev) (ts : List Target),
    let x := s.ctx
    let d := s.view
    let c := e.cmd
    (e.reservedSet [(16, 7), (24, 8)] [(161, 7), (171, 1), (175, 1)] = false) ∧
    let i := handleIdx (e.f 16 4)
    ((d.readDesc x i).2 = some ds) ∧
    (ds.gen % 1024 = handleGen (e.f 16 4)) ∧
    let d1 := (d.readDesc x i).1
    (ds.state = .idle) ∧
    (d1.memberBound i = false) ∧
    (d1.occupied i = false) ∧
    (parkFieldsOk (e.f 21 1) (e.f 22 1) = true) ∧
    let image := bit (e.f 20 1) 0
    (firstFail (d1.tileMode x image) = none) ∧
    (d1.bindingOf i = none) ∧
    ((d1.chain (e.f 21 1)).1 ≠ 1 ∨ d1.inPlaceOk x = false) ∧
    (d1.canPin i = true) ∧
    let f := d1.contentOf x i false
    let d0 := d1.askLoan (max 2 (d1.chain (e.f 21 1)).1) (d1.chain (e.f 21 1)).2 (d1.areaSizes f.1 image (e.f 22 1))
    (d0.placeContent f.1 image (max 2 (d1.chain (e.f 21 1)).1) (d1.chain (e.f 21 1)).2 (e.f 22 1) (e.f 24 8) = some (d2, ts)) ∧
    (f.2 = false) := by
  obtain ⟨r, h⟩ := Option.isSome_iff_exists.1 (show ((sPark.view.readDesc sPark.ctx 1).1.placeContent
    ((sPark.view.readDesc sPark.ctx 1).1.contentOf sPark.ctx 1 false).1 false 4 4 1 7).isSome = true by decide +kernel)
  refine ⟨sPark, ePark, dsc .idle, r.1, r.2, ?_, ?_, ?_, ?_, ?_, ?_, ?_, ?_, ?_, ?_, ?_, h, ?_⟩ <;> decide +kernel

theorem wit_sessRevive_inplace : ∃ (s : State) (e : Entry) (ds : Desc) (m : Manifest),
    let x := s.ctx
    let d := s.view
    let c := e.cmd
    (e.reservedSet [(16, 4)] [] = false) ∧
    let i := handleIdx (e.f 16 4)
    ((d.readDesc x i).2 = some ds) ∧
    (ds.gen % 1024 = handleGen (e.f 16 4)) ∧
    let d1 := (d.readDesc x i).1
    (ds.state = .parked) ∧
    (d1.memberBound i = false) ∧
    (d1.bindingOf i = none) ∧
    (tblGet i d1.tier.manifests = some m) ∧
    (firstFail (d1.tileMode x (d1.desc i).image) = none) ∧
    (d1.manifestBad x i = false) ∧
    (m.inPlace = true) :=
  ⟨stm [(508, 33), (509, 83), (510, 230), (511, 103)] (onTier (fun t => { t with manifests := [(1, man1 true)] }) (one .parked)), (ent [(16, 1)]), (dsc .parked), (man1 true), by decide +kernel⟩

theorem wit_sessRevive_out : ∃ (s : State) (e : Entry) (ds : Desc) (m : Manifest),
    let x := s.ctx
    let d := s.view
    let c := e.cmd
    (e.reservedSet [(16, 4)] [] = false) ∧
    let i := handleIdx (e.f 16 4)
    ((d.readDesc x i).2 = some ds) ∧
    (ds.gen % 1024 = handleGen (e.f 16 4)) ∧
    let d1 := (d.readDesc x i).1
    (ds.state = .parked) ∧
    (d1.memberBound i = false) ∧
    (d1.bindingOf i = none) ∧
    (tblGet i d1.tier.manifests = some m) ∧
    (firstFail (d1.tileMode x (d1.desc i).image) = none) ∧
    (d1.manifestBad x i = false) ∧
    (m.inPlace = false) ∧
    (m.lost = false) ∧
    ((m.targets.all fun t => d1.reachable t) = true) ∧
    (d1.canPin i = true) :=
  ⟨stm [(508, 33), (509, 83), (510, 230), (511, 103)] (onTier (fun t => { t with manifests := [(1, man1 false)] }) (one .parked)), (ent [(16, 1)]), (dsc .parked), (man1 false), by decide +kernel⟩

theorem wit_sessMoveOut : ∃ (s : State) (e : Entry) (ds : Desc),
    let x := s.ctx
    let d := s.view
    let c := e.cmd
    (e.reservedSet [(16, 5), (24, 4), (32, 8)] [(162, 6), (272, 48)] = false) ∧
    let i := handleIdx (e.f 16 4)
    ((d.readDesc x i).2 = some ds) ∧
    (ds.gen % 1024 = handleGen (e.f 16 4)) ∧
    let d1 := (d.readDesc x i).1
    let image := bit (e.f 20 1) 0
    let flat := bit (e.f 20 1) 1
    (ds.state = .idle ∨ ds.state = .parked) ∧
    (d1.occupied i = false) ∧
    (firstFail (d1.tileMode x image) = none) ∧
    (d1.memberBound i = false) ∧
    (d1.bindingOf i = none) ∧
    (d1.parkedMoveFault x i = none) ∧
    (d1.canPin i = true) :=
  ⟨st ((one .idle (portAt 3)).setReg (Reg.fabRouteNode 1) 0x80000000), (ent [(16, 1), (20, 1), (24, 5), (32, 33)]), (dsc .idle), by decide +kernel⟩

theorem wit_sessMoveIn : ∃ (s : State) (e : Entry) (i : Nat),
    let x := s.ctx
    let d := s.view
    let c := e.cmd
    (e.reservedSet [(16, 2), (20, 12), (32, 16)] [(129, 7), (163, 1), (167, 1), (272, 48)] = false) ∧
    (bit (e.f 16 1) 0 = false) ∧
    (d.allocIdx = some i) ∧
    (d.canPin i = true) ∧
    let d1 : Dev := { d with sess := { d.sess with lastAlloc := i } }
    let d2 := (d1.putDesc x i { Desc.void (d.nextGen i) d.now with state := .transit, sub := .movingIn, composition := e.f 22 2 }).touch i
    (d2.tier.offersWaiting = []) :=
  ⟨st (up), (ent [(24, 5), (32, 33), (21, 1)]), (0), by decide +kernel⟩

theorem wit_prefixCapture : ∃ (s : State) (e : Entry) (ds : Desc),
    let x := s.ctx
    let d := s.view
    let c := e.cmd
    (e.reservedSet [(16, 8)] [] = false) ∧
    let i := handleIdx (e.f 16 4)
    ((d.readDesc x i).2 = some ds) ∧
    (ds.gen % 1024 = handleGen (e.f 16 4)) ∧
    let d1 := (d.readDesc x i).1
    (ds.state = .idle) ∧
    (d1.memberBound i = false) ∧
    (d1.occupied i = false) ∧
    (ds.prefixId = 0xFFFFFFFF) ∧
    (ds.commitLen ≠ 0) ∧
    let id := e.f 20 4
    (id ≠ 0xFFFFFFFF) ∧
    (d1.kv.prefixes.any (fun p => p.id == id) = false) ∧
    (d1.kv.captures.any (fun o => o.prefixId == id) = false) ∧
    (d1.kv.prefixes.length < 4096) ∧
    let d2 : Dev := { d1 with kv := { d1.kv with captures := d1.kv.captures ++ [(⟨i, id, c⟩ : CaptureOp)] } }
    let mine := d2.kv.pages.filter fun p => p.1.owner == POwner.sess i
    ((mine.filter fun p => p.2.kind == .full) = []) ∧
    ((mine.any fun p => d2.headerBad x p.1) = false) :=
  ⟨st (onSess fun e => { e with table := [(1, { dsc .idle with commitLen := 5 })], cache := [1] }), (ent [(16, 1), (20, 9)]), ({ dsc .idle with commitLen := 5 }), by decide +kernel⟩

theorem wit_prefixRelease : ∃ (s : State) (e : Entry) (p : Prefix),
    let x := s.ctx
    let d := s.view
    let c := e.cmd
    (e.reservedSet [(20, 4)] [] = false) ∧
    (d.loadedPrefix (e.f 20 4) = some p) ∧
    (p.loadRef = true) :=
  ⟨st (onKv fun k => { k with prefixes := [prefix1 false] }), (ent [(20, 9)]), (prefix1 false), by decide +kernel⟩

theorem wit_prefixPin : ∃ (s : State) (e : Entry) (p : Prefix) (d1 : Dev),
    let x := s.ctx
    let d := s.view
    let c := e.cmd
    (e.reservedSet [(20, 4)] [] = false) ∧
    (d.loadedPrefix (e.f 20 4) = some p) ∧
    (p.pinned = false) ∧
    (((d.pagesOf (.pfx (e.f 20 4))).any fun k => d.tileBad x k.1 k.2 0) = false) ∧
    (d.pinPages x (d.pagesOf (.pfx (e.f 20 4))) = some d1) := by
  obtain ⟨d1, h⟩ := pinPages_one sPin.ctx sPin.view { pkey1 with owner := .pfx 9 } page1 (by decide +kernel) (by decide +kernel)
    (by decide +kernel) (by decide +kernel)
  exact ⟨sPin, ent [(20, 9)], prefix1 false, d1, by decide +kernel, by decide +kernel, by decide +kernel, by decide +kernel, h⟩

theorem wit_prefixUnpin : ∃ (s : State) (e : Entry) (p : Prefix),
    let x := s.ctx
    let d := s.view
    let c := e.cmd
    (e.reservedSet [(20, 4)] [] = false) ∧
    (d.loadedPrefix (e.f 20 4) = some p) ∧
    (p.pinned = true) :=
  ⟨st (onKv fun k => { k with prefixes := [prefix1 true] }), (ent [(20, 9)]), (prefix1 true), by decide +kernel⟩

theorem wit_kvImport : ∃ (s : State) (e : Entry) (ds : Desc),
    let x := s.ctx
    let d := s.view
    let c := e.cmd
    (e.reservedSet [(16, 10), (32, 8)] [(304, 16)] = false) ∧
    let i := handleIdx (e.f 16 4)
    ((d.readDesc x i).2 = some ds) ∧
    (ds.gen % 1024 = handleGen (e.f 16 4)) ∧
    let d1 := (d.readDesc x i).1
    (ds.state = .idle) ∧
    (d1.memberBound i = false) ∧
    (d1.occupied i = false) ∧
    (e.f 20 4 ≠ 0) ∧
    (e.f 20 4 ≤ 65536) ∧
    ((mxFmt (e.f 24 1)).isSome = true) ∧
    ((mxFmt (e.f 25 1)).isSome = true) ∧
    (ds.commitLen + e.f 20 4 ≤ 1048576) ∧
    (d1.importSlots i (e.f 20 4) ≤ d1.poolFree x) ∧
    ((([(e.f 32 6, d1.mxBytes (e.f 20 4) (e.f 24 1) (e.f 25 1))]).find? fun b => !(mappedRange x.fuses.part d1 b.1 b.2)) = none) :=
  ⟨st (one .idle (onKv fun k => { k with shape := some shape1 })), (ent [(16, 1), (20, 1), (24, 4), (25, 4), (32, 536870912)]), (dsc .idle), by decide +kernel⟩

theorem wit_kvExport : ∃ (s : State) (e : Entry) (ds : Desc),
    let x := s.ctx
    let d := s.view
    let c := e.cmd
    (e.reservedSet [(16, 10), (28, 4), (32, 8)] [(304, 16)] = false) ∧
    let i := handleIdx (e.f 16 4)
    ((d.readDesc x i).2 = some ds) ∧
    (ds.gen % 1024 = handleGen (e.f 16 4)) ∧
    let d1 := (d.readDesc x i).1
    (ds.state = .idle) ∧
    (d1.memberBound i = false) ∧
    (d1.occupied i = false) ∧
    (e.f 20 4 ≠ 0) ∧
    (e.f 20 4 ≤ 65536) ∧
    ((mxFmt (e.f 24 1)).isSome = true) ∧
    ((mxFmt (e.f 25 1)).isSome = true) ∧
    (e.f 28 4 + e.f 20 4 ≤ ds.commitLen) ∧
    ((([(e.f 32 6, d1.mxBytes (e.f 20 4) (e.f 24 1) (e.f 25 1))]).find? fun b => !(mappedRange x.fuses.part d1 b.1 b.2)) = none) :=
  ⟨st (onSess (fun e => { e with table := [(1, { dsc .idle with commitLen := 5 })], cache := [1] }) (onKv fun k => { k with shape := some shape1 })), (ent [(16, 1), (20, 1), (24, 4), (25, 4), (32, 536870912)]), ({ dsc .idle with commitLen := 5 }), by decide +kernel⟩

theorem wit_layerReq_hp : ∃ (s : State) (e : Entry) (d1 : Dev) (b : Batch) (dl : Ns) (es : List LEnt) (fin : Nat),
    let x := s.ctx
    let d := s.view
    (e.reservedSet [(16, 8)] [(176, 16)] = false) ∧
    let g := d.reqImg x (.hp e)
    (d.layerForm x g = .good d1 b dl es) ∧
    ((d1.layerPlan x g b dl es).room = true) ∧
    ((d1.layerPlan x g b dl es).verdict = .pass fin) := ⟨sServeL, eReq, formDev (sServeL.view.layerForm sServeL.ctx (sServeL.view.reqImg sServeL.ctx (.hp eReq))), servBatch, 100000,
    [⟨1, 1, 256, none⟩], 6003, by decide +kernel⟩

theorem wit_layerReq_cvf : ∃ (s : State) (port from_ len val : Nat) (d1 : Dev) (b : Batch) (dl : Ns) (es : List LEnt) (fin : Nat),
    let x := s.ctx
    let d := s.view
    let g := d.reqImg x (.cvf port from_ len val)
    (d.layerForm x g = .good d1 b dl es) ∧
    ((d1.layerPlan x g b dl es).room = true) ∧
    ((d1.layerPlan x g b dl es).verdict = .pass fin) := ⟨sServe, 0, 33, 1024, layerImg, formDev (sServe.view.layerForm sServe.ctx (sServe.view.reqImg sServe.ctx (.cvf 0 33 1024 layerImg))), servBatch,
    100000, [⟨1, 1, 256, none⟩], 6001, by decide +kernel⟩

theorem wit_tailReq_hp : ∃ (s : State) (e : Entry) (d1 : Dev) (b : Batch) (dl : Ns) (es : List TEnt) (fin : Nat),
    let x := s.ctx
    let d := s.view
    (e.reservedSet [(16, 8)] [(176, 16)] = false) ∧
    let g := d.reqImg x (.hp e)
    (d.tailForm x g = .good d1 b dl es) ∧
    ((d1.tailPlan x g b dl es).room = true) ∧
    ((d1.tailPlan x g b dl es).verdict = .pass fin) := ⟨sServeT, eReq, formDev (sServeT.view.tailForm sServeT.ctx (sServeT.view.reqImg sServeT.ctx (.hp eReq))), servBatch, 100000,
    [⟨1, 0, 0, false, 0, 256, none⟩], 4010, by decide +kernel⟩

theorem wit_tailReq_cvf : ∃ (s : State) (port from_ len val : Nat) (d1 : Dev) (b : Batch) (dl : Ns) (es : List TEnt) (fin : Nat),
    let x := s.ctx
    let d := s.view
    let g := d.reqImg x (.cvf port from_ len val)
    (d.tailForm x g = .good d1 b dl es) ∧
    ((d1.tailPlan x g b dl es).room = true) ∧
    ((d1.tailPlan x g b dl es).verdict = .pass fin) := ⟨sServe, 0, 33, 2560, tailImg, formDev (sServe.view.tailForm sServe.ctx (sServe.view.reqImg sServe.ctx (.cvf 0 33 2560 tailImg))), servBatch,
    100000, [⟨1, 0, 0, false, 0, 256, none⟩], 4004, by decide +kernel⟩

theorem wit_decisionTimeout_hp : ∃ (s : State) (tail : Bool) (e : Entry),
    let x := s.ctx
    let d := s.view
    (e.reservedSet [(16, 8)] [(176, 16)] = false) :=
  ⟨st (up), (false), (ent []), by decide +kernel⟩

theorem wit_batchTimeout : ∃ (s : State) (batch : Nat) (b : Batch),
    let x := s.ctx
    let d := s.view
    (d.batch batch = some b) ∧
    (b.winEnd + d.fld Reg.sessBatchTo 0 16 * 1000000 ≤ d.now) :=
  ⟨st (late (onSess fun s => { s with batches := [batch1] })), (3), (batch1), by decide +kernel⟩

theorem wit_ringOpen : ∃ (s : State) (e : Entry),
    let x := s.ctx
    let d := s.view
    let c := e.cmd
    (e.reservedSet [(16, 5), (24, 16)] [(272, 48)] = false) ∧
    (firstFail (d.ringOpenChecks x e) = none) :=
  ⟨st (up.setReg Reg.sessOrbitCtl 0x10000), (ent [(16, 2), (17, 2), (24, 256)]), by decide +kernel⟩

theorem wit_ringBind : ∃ (s : State) (e : Entry) (ds : Desc) (r : Ring),
    let x := s.ctx
    let d := s.view
    let c := e.cmd
    (e.reservedSet [(16, 5), (24, 4)] [] = false) ∧
    let i := handleIdx (e.f 16 4)
    ((d.readDesc x i).2 = some ds) ∧
    (ds.gen % 1024 = handleGen (e.f 16 4)) ∧
    let d1 := (d.readDesc x i).1
    (ds.state = .idle) ∧
    ((d1.attn.rings.any fun r => r.bindings.any fun b => b.rsn == e.f 24 4 || b.idx == i) = false) ∧
    (d1.ringAt (e.f 20 1) = some r) ∧
    (r.state = .up) ∧
    (r.pos = 0 ∨ ds.prefixId = 0xFFFFFFFF) ∧
    (r.bindings.length < 131071) :=
  ⟨st (one .idle (onAttn fun a => { a with rings := [{ ring1 0 with bindings := [] }] })), (ent [(16, 1), (20, 2), (24, 4)]), (dsc .idle), ({ ring1 0 with bindings := [] }), by decide +kernel⟩

theorem wit_ringClose : ∃ (s : State) (e : Entry) (r : Ring),
    let x := s.ctx
    let d := s.view
    let c := e.cmd
    (e.reservedSet [(16, 2)] [(137, 7)] = false) ∧
    (d.ringAt (e.f 16 1) = some r) ∧
    (r.bindings = [] ∨ bit (e.f 17 1) 0 = true) :=
  ⟨st (ringAt 0), (ent [(16, 2), (17, 1)]), (ring1 0), by decide +kernel⟩

theorem wit_hello_waits : ∃ (s : State) (ring : Nat) (h : Hello) (r : Ring),
    let d := s.view
    (d.ringAt ring = some r) ∧
    (r.pos = 0) ∧
    (r.state = .forming) ∧
    (h.tag = r.tag) ∧
    (h.seg = r.seg) ∧
    (h.pos ≠ 0) ∧
    (h.pos < r.m) ∧
    let hs := r.hellos.filter (fun o => o.pos != h.pos) ++ [h]
    let d1 := d.updRing ring fun r => { r with hellos := hs }
    (hs.length < r.m - 1) :=
  ⟨st (ringAt 0 .forming), (2), (⟨33, 1, (ring1 0).tag, (ring1 0).seg, 0, [], []⟩), (ring1 0 .forming), by decide +kernel⟩

theorem wit_hello_last : ∃ (s : State) (ring : Nat) (h : Hello) (r : Ring),
    let x := s.ctx
    let d := s.view
    (d.ringAt ring = some r) ∧
    (r.pos = 0) ∧
    (r.state = .forming) ∧
    (h.tag = r.tag) ∧
    (h.seg = r.seg) ∧
    (h.pos ≠ 0) ∧
    (h.pos < r.m) ∧
    let hs := r.hellos.filter (fun o => o.pos != h.pos) ++ [h]
    let d1 := d.updRing ring fun r => { r with hellos := hs }
    (r.m - 1 ≤ hs.length) ∧
    (r.reopening = false) :=
  ⟨st (onAttn fun a => { a with rings := [{ ring1 0 .forming with m := 2 }] }), (2), (⟨33, 1, (ring1 0).tag, (ring1 0).seg, 0, [], []⟩), ({ ring1 0 .forming with m := 2 }), by decide +kernel⟩

theorem wit_helloAck : ∃ (s : State) (ring : Nat) (r : Ring),
    let x := s.ctx
    let d := s.view
    (d.ringAt ring = some r) ∧
    (r.pos ≠ 0) ∧
    (r.state = .forming) :=
  ⟨st (ringAt 1 .forming), (2), (ring1 1 .forming), by decide +kernel⟩

theorem wit_ringFormTimeout : ∃ (s : State) (ring : Nat) (r : Ring),
    let x := s.ctx
    let d := s.view
    (d.ringAt ring = some r) ∧
    (r.state = .forming) ∧
    (r.since + d.fld Reg.sessOrbitTo 0 16 * 1000000 ≤ d.now) :=
  ⟨st (late (ringAt 1 .forming)), (2), (ring1 1 .forming), by decide +kernel⟩

theorem wit_ringLeg : ∃ (s : State) (ring : Nat) (leg : RingLeg) (r : Ring),
    let x := s.ctx
    let d := s.view
    (d.ringAt ring = some r) ∧
    (r.pos ≠ 0) ∧
    (r.state = .up) :=
  ⟨st (ringAt 1), (2), (⟨8, 3, 0, 0, 0, 0, 0, 900, none, []⟩), (ring1 1), by decide +kernel⟩

theorem wit_runningPartial_head : ∃ (s : State) (ring leg : Nat) (ps : List RunEntry) (r : Ring) (q : LayerReq),
    let x := s.ctx
    let d := s.view
    (d.ringAt ring = some r) ∧
    (d.legReq r leg = some q) ∧
    (q.running = none) ∧
    (q.kvTop = none) ∧
    let d1 := d.updReq q.id fun q => { q with running := some ps }
    (r.pos = 0) :=
  ⟨st (legAt 0 lhead1), (2), (6), ([]), (ring1 0), (lhead1), by decide +kernel⟩

theorem wit_runningPartial_member : ∃ (s : State) (ring leg : Nat) (ps : List RunEntry) (r : Ring) (q : LayerReq),
    let d := s.view
    (d.ringAt ring = some r) ∧
    (d.legReq r leg = some q) ∧
    (q.running = none) ∧
    (q.kvTop = none) ∧
    let d1 := d.updReq q.id fun q => { q with running := some ps }
    (r.pos ≠ 0) :=
  ⟨st (legAt 1 lreq1), (2), (8), ([]), (ring1 1), (lreq1), by decide +kernel⟩

theorem wit_kvTile : ∃ (s : State) (ring leg top : Nat) (tile : Tile) (r : Ring) (q : LayerReq),
    let x := s.ctx
    let d := s.view
    (d.ringAt ring = some r) ∧
    (r.pos ≠ 0) ∧
    (d.legReq r leg = some q) ∧
    (q.kvTop = some top) :=
  ⟨st (legAt 1 { lreq1 with kvTop := some 2 }), (2), (8), (2), (⟨pkey1, page1, 0, 0, 0, 0⟩), (ring1 1), ({ lreq1 with kvTop := some 2 }), by decide +kernel⟩

theorem wit_memberOutputs : ∃ (s : State) (ring leg pos : Nat) (outs : List MemberOut) (r : Ring) (q : LayerReq),
    let x := s.ctx
    let d := s.view
    (d.ringAt ring = some r) ∧
    (r.pos = 0) ∧
    (d.legReq r leg = some q) ∧
    (q.kvTop.isSome = true) ∧
    (pos ≠ 0) ∧
    (pos < r.m) ∧
    ((q.memberOuts.any fun m => m.1 == pos) = false) :=
  ⟨st (legAt 0 { lhead1 with kvTop := some 2 }), (2), (6), (1), ([]), (ring1 0), ({ lhead1 with kvTop := some 2 }), by decide +kernel⟩

theorem wit_stepRecord_commit : ∃ (s : State) (ring rsn stepSeq rows : Nat) (commit : Bool) (r : Ring) (b : RingBinding),
    let x := s.ctx
    let d := s.view
    (d.ringAt ring = some r) ∧
    (r.pos ≠ 0) ∧
    ((r.bindings.find? fun b => b.rsn == rsn && (d.desc b.idx).state == .hot) = some b) ∧
    let d1 := d.ringBoth r "STEP" [rsn, stepSeq, ofB commit, rows]
    (commit = true) ∧
    (b.stepSeq = stepSeq) :=
  ⟨st (one .hot (ringAt 1)), (2), (4), (0), (1), (true), (ring1 1), (⟨4, 1, 0, 0⟩), by decide +kernel⟩

theorem wit_stepRecord_roll : ∃ (s : State) (ring rsn stepSeq rows : Nat) (commit : Bool) (r : Ring) (b : RingBinding),
    let x := s.ctx
    let d := s.view
    (d.ringAt ring = some r) ∧
    (r.pos ≠ 0) ∧
    ((r.bindings.find? fun b => b.rsn == rsn && (d.desc b.idx).state == .hot) = some b) ∧
    let d1 := d.ringBoth r "STEP" [rsn, stepSeq, ofB commit, rows]
    (commit = false ∨ b.stepSeq ≠ stepSeq) :=
  ⟨st (one .hot (ringAt 1)), (2), (4), (0), (1), (false), (ring1 1), (⟨4, 1, 0, 0⟩), by decide +kernel⟩

theorem wit_cancelRecord_head : ∃ (s : State) (ring rsn : Nat) (r : Ring),
    let x := s.ctx
    let d := s.view
    (d.ringAt ring = some r) ∧
    (r.pos = 0) :=
  ⟨st (ringAt 0), (2), (4), (ring1 0), by decide +kernel⟩

theorem wit_cancelRecord_member : ∃ (s : State) (ring rsn : Nat) (r : Ring) (b : RingBinding),
    let x := s.ctx
    let d := s.view
    (d.ringAt ring = some r) ∧
    (r.pos ≠ 0) ∧
    let d1 := d.ringCancel r rsn
    ((r.bindings.find? fun b => b.rsn == rsn) = some b) ∧
    ((d1.desc b.idx).state = .hot) :=
  ⟨st (one .hot (ringAt 1)), (2), (4), (ring1 1), (⟨4, 1, 0, 0⟩), by decide +kernel⟩

theorem wit_cancelAckTimeout : ∃ (s : State) (ring rsn : Nat),
    let x := s.ctx
    let d := s.view
    ((d.attn.cancels.any fun w => w.waits.contains (ring, rsn) && w.since + d.fld Reg.sessOrbitTo 0 16 * 1000000 ≤ d.now) = true) :=
  ⟨st (late (onAttn fun a => { a with cancels := [⟨cmd1, 0, [(2, 4)], 0⟩] })), (2), (4), by decide +kernel⟩

theorem wit_ringPartialTimeout : ∃ (s : State) (ring leg : Nat) (r : Ring) (q : LayerReq),
    let x := s.ctx
    let d := s.view
    (d.ringAt ring = some r) ∧
    (d.legReq r leg = some q) ∧
    (r.state = .up) ∧
    (q.running = none) ∧
    (q.kvTop = none) ∧
    (r.pos ≠ 1) ∧
    ((if r.pos = 0 then q.deadline - 6000 else q.deadline) ≤ d.now) :=
  ⟨st (legAt 0 lhead1), (2), (6), (ring1 0), (lhead1), by decide +kernel⟩

theorem wit_ringBreak : ∃ (s : State) (ring lost : Nat) (r : Ring),
    let x := s.ctx
    let d := s.view
    (d.ringAt ring = some r) ∧
    (r.state = .up) :=
  ⟨st (ringAt 0), (2), (1), (ring1 0), by decide +kernel⟩

theorem wit_ringResponseDeadline_head : ∃ (s : State) (ring leg : Nat) (r : Ring) (q : LayerReq),
    let x := s.ctx
    let d := s.view
    (d.ringAt ring = some r) ∧
    (d.legReq r leg = some q) ∧
    (q.deadline ≤ d.now) ∧
    (r.pos = 0) :=
  ⟨st (late (legAt 0 lhead1)), (2), (6), (ring1 0), (lhead1), by decide +kernel⟩

theorem wit_ringResponseDeadline_member : ∃ (s : State) (ring leg : Nat) (r : Ring) (q : LayerReq),
    let x := s.ctx
    let d := s.view
    (d.ringAt ring = some r) ∧
    (d.legReq r leg = some q) ∧
    (q.deadline ≤ d.now) ∧
    (r.pos ≠ 0) :=
  ⟨st (late (legAt 1 lreq1)), (2), (8), (ring1 1), (lreq1), by decide +kernel⟩

theorem wit_ringParkRecord_park : ∃ (s : State) (ring rsn n store last : Nat) (image : Bool) (r : Ring) (b : RingBinding),
    let x := s.ctx
    let d := s.view
    (d.ringAt ring = some r) ∧
    (r.pos ≠ 0) ∧
    let d1 := if r.pos + 1 < r.m then d.ringRecord r (RingTask.words (.park image 1 last n store)).1 (rsn :: (RingTask.words (.park image 1 last n store)).2) else d
    ((r.bindings.find? fun b => b.rsn == rsn) = some b) ∧
    ((d1.desc b.idx).state = .idle) ∧
    let d2 := d1.dropUndo x b.idx
    (d2.occupied b.idx = false) ∧
    (firstFail (d2.tileMode x image) = none) ∧
    (d2.inPlaceOk x = true) :=
  ⟨st (one .idle (ringAt 1)), (2), (4), (1), (0), (1), (true), (ring1 1), (⟨4, 1, 0, 0⟩), by decide +kernel⟩

theorem wit_ringParkRecord_revive : ∃ (s : State) (ring rsn : Nat) (r : Ring) (b : RingBinding),
    let x := s.ctx
    let d := s.view
    (d.ringAt ring = some r) ∧
    (r.pos ≠ 0) ∧
    let d1 := if r.pos + 1 < r.m then d.ringRecord r (RingTask.words .revive).1 (rsn :: (RingTask.words .revive).2) else d
    ((r.bindings.find? fun b => b.rsn == rsn) = some b) ∧
    ((d1.desc b.idx).state = .parked) :=
  ⟨st (one .parked (ringAt 1)), (2), (4), (ring1 1), (⟨4, 1, 0, 0⟩), by decide +kernel⟩

theorem wit_ringParkRecord_close : ∃ (s : State) (ring rsn : Nat) (r : Ring) (b : RingBinding),
    let x := s.ctx
    let d := s.view
    (d.ringAt ring = some r) ∧
    (r.pos ≠ 0) ∧
    let d1 := if r.pos + 1 < r.m then d.ringRecord r (RingTask.words .close).1 (rsn :: (RingTask.words .close).2) else d
    ((r.bindings.find? fun b => b.rsn == rsn) = some b) :=
  ⟨st (one .idle (ringAt 1)), (2), (4), (ring1 1), (⟨4, 1, 0, 0⟩), by decide +kernel⟩

theorem wit_ringParkRecord_undo : ∃ (s : State) (ring rsn kind : Nat) (who : List Nat) (r : Ring) (b : RingBinding),
    let x := s.ctx
    let d := s.view
    (d.ringAt ring = some r) ∧
    (r.pos ≠ 0) ∧
    let d1 := if r.pos + 1 < r.m then d.ringRecord r (RingTask.words (.undo kind who)).1 (rsn :: (RingTask.words (.undo kind who)).2) else d
    ((r.bindings.find? fun b => b.rsn == rsn) = some b) ∧
    (who.contains r.pos = true) :=
  ⟨st (one .idle (ringAt 1)), (2), (4), (1), ([1]), (ring1 1), (⟨4, 1, 0, 0⟩), by decide +kernel⟩

theorem wit_ringMemberReport : ∃ (s : State) (ring rsn pos : Nat) (status : Status) (r : Ring),
    let x := s.ctx
    let d := s.view
    (d.ringAt ring = some r) ∧
    (r.pos = 0) ∧
    (pos ≠ 0) ∧
    (pos < r.m) ∧
    ((r.ops.any fun o => o.rsn == rsn && o.kind != 3) = true) :=
  ⟨st (onAttn fun a => { a with rings := [{ ring1 0 with ops := [⟨4, 1, none, [], 0, 0⟩] }] }), (2), (4), (1), (.DONE), ({ ring1 0 with ops := [⟨4, 1, none, [], 0, 0⟩] }), by decide +kernel⟩

theorem wit_ckptRecord_starts : ∃ (s : State) (ring rsn epoch stepSeq : Nat) (r : Ring) (b : RingBinding),
    let x := s.ctx
    let d := s.view
    (d.ringAt ring = some r) ∧
    (r.pos ≠ 0) ∧
    let d1 := if r.pos + 1 < r.m then d.ringRecord r "CKPT" [rsn, epoch, stepSeq] else d
    ((r.bindings.find? fun b => b.rsn == rsn) = some b) ∧
    (d1.ckpt.store.isSome = true) ∧
    ((d1.desc b.idx).stepSeq = stepSeq) ∧
    (d1.ckpt.run = none) :=
  ⟨st (onCkpt (fun c => { c with store := some store1 }) (one .idle (ringAt 1))), (2), (4), (5), (0), (ring1 1), (⟨4, 1, 0, 0⟩), by decide +kernel⟩

theorem wit_ckptRecord_joins : ∃ (s : State) (ring rsn epoch stepSeq : Nat) (r : Ring) (b : RingBinding) (q : CkRun),
    let d := s.view
    (d.ringAt ring = some r) ∧
    (r.pos ≠ 0) ∧
    let d1 := if r.pos + 1 < r.m then d.ringRecord r "CKPT" [rsn, epoch, stepSeq] else d
    ((r.bindings.find? fun b => b.rsn == rsn) = some b) ∧
    (d1.ckpt.store.isSome = true) ∧
    ((d1.desc b.idx).stepSeq = stepSeq) ∧
    (d1.ckpt.run = some q) ∧
    (q.catalogues = []) :=
  ⟨st (onCkpt (fun c => { c with store := some store1, run := some ckrun1 }) (one .idle (ringAt 1))), (2), (4), (5), (0), (ring1 1), (⟨4, 1, 0, 0⟩), (ckrun1), by decide +kernel⟩

theorem wit_moveRecord : ∃ (s : State) (ring rsn ringB tag : Nat) (dests : List Nat) (image : Bool) (r : Ring) (b : RingBinding),
    let x := s.ctx
    let d := s.view
    (d.ringAt ring = some r) ∧
    (r.pos ≠ 0) ∧
    let d1 := if r.pos + 1 < r.m then d.ringRecord r "MOVE" ([rsn, ringB, tag, ofB image] ++ dests) else d
    ((r.bindings.find? fun b => b.rsn == rsn) = some b) ∧
    let whole := image || !x.fuses.part.tileMove
    (d1.moveRecordFault x b.idx whole = none) :=
  ⟨st (one .idle (ringAt 1 .up ((portAt 3).setReg (Reg.fabRouteNode 1) 0x80000000))), (2), (4), (1), (5), ([33, 33, 33]), (true), (ring1 1), (⟨4, 1, 0, 0⟩), by decide +kernel⟩

theorem wit_moveReady : ∃ (s : State) (ring rsn pos : Nat) (r : Ring),
    let x := s.ctx
    let d := s.view
    (d.ringAt ring = some r) ∧
    (r.pos = 0) ∧
    (pos ≠ 0) ∧
    (pos < r.m) :=
  ⟨st (ringAt 0), (2), (4), (1), (ring1 0), by decide +kernel⟩

theorem wit_moveCommit : ∃ (s : State) (ring rsn : Nat) (r : Ring),
    let x := s.ctx
    let d := s.view
    (d.ringAt ring = some r) ∧
    (r.pos ≠ 0) :=
  ⟨st (ringAt 1), (2), (4), (ring1 1), by decide +kernel⟩

theorem wit_variantLoad : ∃ (s : State) (e : Entry) (a : Nat),
    let x := s.ctx
    let d := s.view
    let c := e.cmd
    (e.reservedSet [(16, 2), (24, 16)] [(240, 16)] = false) ∧
    ((([(e.f 24 6, e.f 32 8)]).find? fun b => !(mappedRange x.fuses.part d b.1 b.2)) = none) ∧
    (d.mediaBad (e.f 24 6) (e.f 32 8) = false) ∧
    let d1 := d.eccRead (e.f 24 6) (e.f 32 8) true
    (e.f 16 2 ≠ 0) ∧
    (e.f 16 2 ≠ 0xFFFF) ∧
    (imageOf d1.tail.variants (e.f 16 2) = none) ∧
    (d1.variantOk x (e.f 24 6) (e.f 32 8) = true) ∧
    (d1.variantOdd x (e.f 24 6) = false) ∧
    (d1.shadowPlace (e.f 32 8) = some a) ∧
    (d1.tail.variants.length < 64) ∧
    (cdiv (e.f 32 8) 65536 ≤ d1.storeFree) := by
  obtain ⟨a, h⟩ := shadowPlace_some (sVar.view.eccRead 0x20000000 8960 true) 8960 (by decide +kernel) (by decide +kernel)
  refine ⟨sVar, eVar2, a, ?_, ?_, ?_, ?_, ?_, ?_,
    ?_, ?_, h, ?_, ?_⟩ <;> decide +kernel

theorem wit_variantUnload : ∃ (s : State) (e : Entry),
    let x := s.ctx
    let d := s.view
    let c := e.cmd
    (e.reservedSet [(16, 2)] [] = false) ∧
    ((imageOf d.tail.variants (e.f 16 2)).isSome = true) ∧
    ((d.sess.table.any fun p => p.2.state != .void && p.2.variant == e.f 16 2) = false) :=
  ⟨st (onTail fun t => { t with variants := [⟨1, 0, 0, 1⟩] }), (ent [(16, 1)]), by decide +kernel⟩

theorem wit_grammarLoad : ∃ (s : State) (e : Entry) (a : Nat),
    let x := s.ctx
    let d := s.view
    let c := e.cmd
    (e.reservedSet [(16, 2), (24, 16)] [(240, 16)] = false) ∧
    ((([(e.f 24 6, e.f 32 8)]).find? fun b => !(mappedRange x.fuses.part d b.1 b.2)) = none) ∧
    (d.mediaBad (e.f 24 6) (e.f 32 8) = false) ∧
    let d1 := d.eccRead (e.f 24 6) (e.f 32 8) true
    (e.f 16 2 ≠ 0xFFFF) ∧
    (imageOf d1.tail.grammars (e.f 16 2) = none) ∧
    (d1.grammarOk x (e.f 24 6) = true) ∧
    (d1.grammarOdd x (e.f 24 6) (e.f 32 8) = false) ∧
    (d1.shadowPlace (e.f 32 8) = some a) ∧
    (d1.tail.grammars.length < 1024) ∧
    (cdiv (e.f 32 8) 65536 ≤ d1.storeFree) := by
  obtain ⟨a, h⟩ := shadowPlace_some (sGram.view.eccRead 0x20000000 512 true) 512 (by decide +kernel) (by decide +kernel)
  refine ⟨sGram, eVar, a, ?_, ?_, ?_, ?_, ?_,
    ?_, ?_, h, ?_, ?_⟩ <;> decide +kernel

theorem wit_grammarUnload : ∃ (s : State) (e : Entry),
    let x := s.ctx
    let d := s.view
    let c := e.cmd
    (e.reservedSet [(16, 2)] [] = false) ∧
    ((imageOf d.tail.grammars (e.f 16 2)).isSome = true) ∧
    ((d.sess.table.any fun p => p.2.state != .void && p.2.grammar == e.f 16 2) = false) :=
  ⟨st (onTail fun t => { t with grammars := [⟨1, 0, 0, 1⟩] }), (ent [(16, 1)]), by decide +kernel⟩

theorem wit_topkRow : ∃ (s : State) (e : Entry),
    let x := s.ctx
    let d := s.view
    let c := e.cmd
    (e.reservedSet [(16, 1), (20, 20), (40, 2)] [(240, 16), (304, 16)] = false) ∧
    let f := topkFmt (e.f 16 1)
    let n := e.f 20 4
    let k := e.f 40 2
    (e.f 16 1 ≤ 2) ∧
    (n ≠ 0) ∧
    (n ≤ 1048576) ∧
    (k ≠ 0) ∧
    (k ≤ 4096) ∧
    ((d.tail.pipes.any (·.up)) = true) ∧
    ((([(e.f 24 6, n * f.2), (e.f 32 6, 8 * k)]).find? fun b => !(mappedRange x.fuses.part d b.1 b.2)) = none) ∧
    (d.mediaBad (e.f 24 6) (n * f.2) = false) :=
  ⟨st (up), (ent [(20, 1), (24, 536870912), (32, 536871168), (40, 1)]), by decide +kernel⟩

theorem wit_tokenizerLoad : ∃ (s : State) (e : Entry),
    let x := s.ctx
    let d := s.view
    let c := e.cmd
    (e.reservedSet [(24, 16)] [] = false) ∧
    let src := e.f 24 8
    let n := e.f 32 8
    (d.text.bindings = []) ∧
    (d.text.streams = []) ∧
    ((([(src, n)]).find? fun b => !(mappedRange x.fuses.part d b.1 b.2)) = none) ∧
    (d.mediaBad (src) (n) = false) ∧
    let d1 := d.eccRead (src) (n) true
    (d1.tokenizerOk x src = true) ∧
    let room := (List.range 4).foldl (fun m q => min m (d1.fld (Reg.qdSramPartA q) 16 8)) 255 * 0x100000
    (n ≤ room) ∧
    (n ≤ 0x4000000) ∧
    (d1.tokenizerOdd x src n = false) := by
  have hs : eTok.f 24 8 = 0x20000000 := by decide +kernel
  have hn : eTok.f 32 8 = 20224 := by decide +kernel
  refine ⟨sTok, eTok, ?_⟩
  dsimp only
  rw [hs, hn]
  exact ⟨by decide +kernel, rfl, rfl, by decide +kernel, rfl, tok_ok, by decide +kernel, by decide, tok_odd⟩

theorem wit_textInOpen : ∃ (s : State) (e : Entry),
    let x := s.ctx
    let d := s.view
    let c := e.cmd
    (e.reservedSet [(16, 2)] [] = false) ∧
    (d.text.tokenizer.isSome = true) ∧
    (tblGet (e.f 16 2) d.text.streams = none) :=
  ⟨st (onText fun t => { t with tokenizer := some ⟨0, 256, []⟩ }), (ent []), by decide +kernel⟩

theorem wit_textInClose : ∃ (s : State) (e : Entry) (z : Tokenizer) (st : Stream),
    let x := s.ctx
    let d := s.view
    let c := e.cmd
    (e.reservedSet [(16, 2)] [] = false) ∧
    (d.text.tokenizer = some z) ∧
    (tblGet (e.f 16 2) d.text.streams = some st) :=
  ⟨st (onText fun t => { t with tokenizer := some ⟨0x20000000, 256, []⟩, streams := [(0, ⟨[], 0⟩)] }), (ent []), (⟨0x20000000, 256, []⟩), (⟨[], 0⟩), by decide +kernel⟩

theorem wit_textTokenise : ∃ (s : State) (e : Entry) (z : Tokenizer) (st : Stream),
    let x := s.ctx
    let d := s.view
    let c := e.cmd
    (e.reservedSet [(16, 3), (20, 24), (48, 8)] [(145, 7), (240, 16), (304, 16), (432, 16)] = false) ∧
    (d.text.tokenizer = some z) ∧
    (tblGet (e.f 16 2) d.text.streams = some st) ∧
    (e.f 20 4 ≤ 1048576) ∧
    (1088 ≤ e.f 40 4) ∧
    (d.textOnline = true) ∧
    ((([(e.f 24 6, e.f 20 4)]).find? fun b => !(mappedRange x.fuses.part d b.1 b.2)) = none) ∧
    (d.mediaBad (e.f 24 6) (e.f 20 4) = false) ∧
    let d1 := d.eccRead (e.f 24 6) (e.f 20 4) true
    let n := e.f 20 4
    let bs := st.carry ++ d1.ldBytes x (e.f 24 6) n
    let h := d1.tokHead x z.addr
    let run := (d1.scanOf x z.addr h (bit (e.f 18 1) 0)).run (bs.length + 1) bs ⟨[], [], st.dfa, st.dfa⟩
    let fit := fitPieces (d1.pieceWords x z.addr h) (e.f 40 4) run.1.out.reverse [] []
    let used := sumOf (fit.2.1.map (·.bytes.length))
    let new : Stream := match fit.2.2 with | [] => ⟨run.1.cur.reverse ++ run.2, if run.1.cur.isEmpty then run.1.dfa else run.1.curDfa⟩ | p :: _ => ⟨(bs.take st.carry.length).drop used, p.dfa⟩
    let res := packFields [(0, 4, fit.1.length), (4, 4, match fit.2.2 with | [] => n | _ => used - st.carry.length), (8, 2, new.carry.length), (10, 2, (fit.2.1.filter (·.first)).length), (12, 4, (fit.2.1.filter (·.invalid)).length)]
    ((([(e.f 32 6, 4 * fit.1.length), (e.f 48 6, 16)]).find? fun b => !(mappedRange x.fuses.part d1 b.1 b.2)) = none) :=
  ⟨st (onText fun t => { t with tokenizer := some ⟨0x20000000, 256, []⟩, streams := [(0, ⟨[], 0⟩)] }), (ent [(40, 1088)]), (⟨0x20000000, 256, []⟩), (⟨[], 0⟩), by decide +kernel⟩

theorem wit_textCtrlInsert : ∃ (s : State) (e : Entry) (z : Tokenizer) (st : Stream),
    let x := s.ctx
    let d := s.view
    let c := e.cmd
    (e.reservedSet [(16, 2), (20, 4), (32, 12)] [(304, 16)] = false) ∧
    (d.text.tokenizer = some z) ∧
    (tblGet (e.f 16 2) d.text.streams = some st) ∧
    let h := d.tokHead x z.addr
    (e.f 20 4 < h.vocab) ∧
    ((d.tokEntry x z.addr h (e.f 20 4)).2.2 = true) ∧
    (st.carry.length + 1 ≤ e.f 40 4) ∧
    (d.textOnline = true) ∧
    let run := (d.scanOf x z.addr h true).run (st.carry.length + 1) st.carry ⟨[], [], st.dfa, st.dfa⟩
    let ps := run.1.out.reverse
    let ws := (ps.flatMap fun p => d.pieceWords x z.addr h p) ++ [e.f 20 4 + 2 ^ 31]
    ((([(e.f 32 6, 4 * ws.length)]).find? fun b => !(mappedRange x.fuses.part d b.1 b.2)) = none) := ⟨stm [(0x20000008, 1), (0x2000001D, 1), (0x20000105, 1)] (onText fun t => { t with tokenizer := some ⟨0x20000000, 256, []⟩, streams := [(0, ⟨[], 0⟩)] }), ent [(40, 1)], ⟨0x20000000, 256, []⟩, ⟨[], 0⟩, by decide +kernel⟩

theorem wit_textChanSet : ∃ (s : State) (e : Entry),
    let x := s.ctx
    let d := s.view
    let c := e.cmd
    (e.reservedSet [(16, 5), (24, 12)] (if e.f 17 1 == 2 then [(208, 48)] else []) = false) ∧
    let n := e.f 16 1
    (d.text.bindings.any (fun b => b.channel == n) = false) ∧
    (chanFieldsOk e = true) ∧
    let kind := match e.f 17 1 with | 0 => ChanKind.off | 1 => .hp | _ => .cvf
    (((if kind == .hp then [(e.f 24 8, 2 ^ e.f 20 1)] else []).find? fun b => !(mappedRange x.fuses.part d b.1 b.2)) = none) :=
  ⟨st (up), (ent [(16, 1)]), by decide +kernel⟩

theorem wit_textOutBind_unbind : ∃ (s : State) (e : Entry) (ds : Desc),
    let x := s.ctx
    let d := s.view
    let c := e.cmd
    (e.reservedSet [(16, 6)] [(171, 5)] = false) ∧
    let i := handleIdx (e.f 16 4)
    ((d.readDesc x i).2 = some ds) ∧
    (ds.gen % 1024 = handleGen (e.f 16 4)) ∧
    let d1 := (d.readDesc x i).1
    (ds.state = .idle ∨ ds.state = .parked) ∧
    (d1.memberBound i = false) ∧
    (d1.text.tokenizer.isSome = true) ∧
    let rest := d1.text.bindings.filter fun b => b.idx != i
    (bit (e.f 21 1) 2 = true) :=
  ⟨st (one .idle (onText fun t => { t with tokenizer := some ⟨0, 256, []⟩, channels := [(1, ⟨.hp, 0, 12, 0x20000000, 0, 0, [], none⟩)] })), (ent [(16, 1), (21, 4)]), (dsc .idle), by decide +kernel⟩

theorem wit_textOutBind_bind : ∃ (s : State) (e : Entry) (ds : Desc),
    let x := s.ctx
    let d := s.view
    let c := e.cmd
    (e.reservedSet [(16, 6)] [(171, 5)] = false) ∧
    let i := handleIdx (e.f 16 4)
    ((d.readDesc x i).2 = some ds) ∧
    (ds.gen % 1024 = handleGen (e.f 16 4)) ∧
    let d1 := (d.readDesc x i).1
    (ds.state = .idle ∨ ds.state = .parked) ∧
    (d1.memberBound i = false) ∧
    (d1.text.tokenizer.isSome = true) ∧
    let rest := d1.text.bindings.filter fun b => b.idx != i
    (bit (e.f 21 1) 2 = false) ∧
    ((d1.channel (e.f 20 1)).kind ≠ .off) :=
  ⟨st (one .idle (onText fun t => { t with tokenizer := some ⟨0, 256, []⟩, channels := [(1, ⟨.hp, 0, 12, 0x20000000, 0, 0, [], none⟩)] })), (ent [(16, 1), (20, 1)]), (dsc .idle), by decide +kernel⟩

theorem wit_recallCreate : ∃ (s : State) (e : Entry) (d1 : Dev) (ix : Index),
    let x := s.ctx
    let d := s.view
    let c := e.cmd
    (e.reservedSet [(16, 6), (24, 12)] [(154, 6)] = false) ∧
    (firstFail (d.recallChecks (e.f 16 1)) = none) ∧
    (d.index (e.f 16 1) = none) ∧
    (createOk e = true) ∧
    (d.createIndex x e = some (d1, ix)) := by
  obtain ⟨r, h⟩ := Option.isSome_iff_exists.1 (show (sArea.view.createIndex sArea.ctx eCreate).isSome = true by decide +kernel)
  refine ⟨sArea, eCreate, r.1, r.2, ?_, ?_, ?_, ?_, h⟩ <;> decide +kernel

theorem wit_recallCentroids : ∃ (s : State) (e : Entry) (ix : Index),
    let x := s.ctx
    let d := s.view
    let c := e.cmd
    (e.reservedSet [(16, 1), (24, 8)] [(240, 16)] = false) ∧
    let n := e.f 16 1
    (firstFail (d.recallChecks n) = none) ∧
    (d.index n = some ix) ∧
    (ix.state = .building) ∧
    ((ix.structures.any fun b => d.mediaBad b.1 b.2) = false) ∧
    let len := ix.lists * vecBytes ix.metric ix.dim
    ((([(e.f 24 6, len)]).find? fun b => !(mappedRange x.fuses.part d b.1 b.2)) = none) ∧
    (d.mediaBad (e.f 24 6) (len) = false) :=
  ⟨st (rclAt .building), (ent [(24, 536870912)]), (index1 .building), by decide +kernel⟩

theorem wit_recallDrop : ∃ (s : State) (e : Entry) (ix : Index),
    let x := s.ctx
    let d := s.view
    let c := e.cmd
    (e.reservedSet [(16, 1)] [] = false) ∧
    let n := e.f 16 1
    (firstFail (d.recallChecks n) = none) ∧
    (d.index n = some ix) ∧
    (ix.state ≠ .dropping) :=
  ⟨st (rclAt .ready), (ent []), (index1 .ready), by decide +kernel⟩

theorem wit_recallStat_used : ∃ (s : State) (e : Entry) (ix : Index),
    let x := s.ctx
    let d := s.view
    let c := e.cmd
    (e.reservedSet [(16, 1), (24, 8)] [(240, 16)] = false) ∧
    let n := e.f 16 1
    (firstFail (d.recallChecks n) = none) ∧
    (d.index n = some ix) ∧
    ((([(e.f 24 6, 256)]).find? fun b => !(mappedRange x.fuses.part d b.1 b.2)) = none) ∧
    (d.mediaBad ix.headerAddr 256 = false) :=
  ⟨st (rclAt .ready), (ent [(24, 536870912)]), (index1 .ready), by decide +kernel⟩

theorem wit_recallStat_free : ∃ (s : State) (e : Entry),
    let x := s.ctx
    let d := s.view
    let c := e.cmd
    (e.reservedSet [(16, 1), (24, 8)] [(240, 16)] = false) ∧
    let n := e.f 16 1
    (firstFail (d.recallChecks n) = none) ∧
    (d.index n = none) ∧
    ((([(e.f 24 6, 256)]).find? fun b => !(mappedRange x.fuses.part d b.1 b.2)) = none) :=
  ⟨st (up), (ent [(24, 536870912)]), by decide +kernel⟩

theorem wit_recallInsert : ∃ (s : State) (e : Entry) (ix ix2 : Index) (d2 : Dev),
    let x := s.ctx
    let d := s.view
    let c := e.cmd
    (e.reservedSet [(16, 1), (20, 12)] [] = false) ∧
    let n := e.f 16 1
    (firstFail (d.recallChecks n) = none) ∧
    (d.index n = some ix) ∧
    (ix.state = .ready) ∧
    ((ix.structures.any fun b => d.mediaBad b.1 b.2) = false) ∧
    let k := e.f 20 4
    (k ≠ 0) ∧
    (k ≤ 65536) ∧
    ((([(e.f 24 8, k * ix.rowBytes)]).find? fun b => !(mappedRange x.fuses.part d b.1 b.2)) = none) ∧
    (d.mediaBad (e.f 24 8) (k * ix.rowBytes) = false) ∧
    let d1 := d.eccRead (e.f 24 8) (k * ix.rowBytes) true
    let rows := (List.range k).map fun j => d1.ld x (e.f 24 8 + j * ix.rowBytes) ix.rowBytes
    let charge := (1 + ofB ix.assign2) * k
    ((rows.any fun v => bits v 64 32 == 0xFFFFFFFF) = false) ∧
    (ix.rowsUsed + charge ≤ ix.capacity) ∧
    (ix.side.length + k ≤ ix.sideMax) ∧
    (ix.commitSeq + 1 ≠ 0xFFFFFFFF) ∧
    ((rows.any fun v => isNan (rowScale ix.efmt ix.dim (v / 2 ^ 128)) || (rowElems ix.efmt ix.dim (v / 2 ^ 128)).any isNan) = false) ∧
    (Dev.appendSide x n rows d1 ix = some (d2, ix2)) := by
  obtain ⟨r, h⟩ := Option.isSome_iff_exists.1 (show (Dev.appendSide sIndex.ctx 0
    [(sIndex.view.eccRead 0x20000000 144 true).ld sIndex.ctx 0x20000000 144] (sIndex.view.eccRead 0x20000000 144 true) (index1 .ready)).isSome = true
    by decide +kernel)
  refine ⟨sIndex, eInsert, index1 .ready, r.2, r.1, ?_, ?_, ?_, ?_, ?_, ?_, ?_, ?_, ?_, ?_, ?_, ?_, ?_, ?_, h⟩ <;> decide +kernel

theorem wit_recallDelete : ∃ (s : State) (e : Entry) (ix : Index),
    let x := s.ctx
    let d := s.view
    let c := e.cmd
    (e.reservedSet [(16, 1), (20, 12)] [] = false) ∧
    let n := e.f 16 1
    (firstFail (d.recallChecks n) = none) ∧
    (d.index n = some ix) ∧
    (ix.state = .ready) ∧
    ((ix.structures.any fun b => d.mediaBad b.1 b.2) = false) ∧
    let k := e.f 20 4
    (k ≠ 0) ∧
    (k ≤ 65536) ∧
    ((([(e.f 24 8, 4 * k)]).find? fun b => !(mappedRange x.fuses.part d b.1 b.2)) = none) ∧
    (d.mediaBad (e.f 24 8) (4 * k) = false) ∧
    let d1 := d.eccRead (e.f 24 8) (4 * k) true
    let vids := (List.range k).map fun j => d1.ld x (e.f 24 8 + 4 * j) 4
    let seq := ix.commitSeq + 1
    let hit := (ix.rows.filter fun r => (ix.mainIds ++ ix.side).contains r.id).filter fun r => vids.contains r.vid && decide (r.insSeq < seq)
    (ix.pendingNow.length + hit.length ≤ 1048576) ∧
    (seq ≠ 0xFFFFFFFF) :=
  ⟨st (rclAt .ready), (ent [(20, 1), (24, 536870912)]), (index1 .ready), by decide +kernel⟩

theorem wit_recallCompact : ∃ (s : State) (e : Entry) (ix : Index),
    let d := s.view
    let c := e.cmd
    (e.reservedSet [(16, 1)] [] = false) ∧
    let n := e.f 16 1
    (firstFail (d.recallChecks n) = none) ∧
    (d.index n = some ix) ∧
    (ix.state = .ready) ∧
    ((ix.structures.any fun b => d.mediaBad b.1 b.2) = false) ∧
    (d.rclWorks = true) :=
  ⟨st (rclAt .ready), (ent []), (index1 .ready), by decide +kernel⟩

theorem wit_recallQuery_hp : ∃ (s : State) (e : Entry) (ix : Index) (qe : Nat),
    let x := s.ctx
    let d := s.view
    (e.reservedSet [(16, 1), (18, 2), (24, 8)] [(240, 16)] = false) ∧
    let n := e.f 16 1
    let count := e.f 18 2
    let img := fun o n => d.ld x (e.f 24 6 + o) n
    (d.domainUp .rcl = true) ∧
    (d.index n = some ix) ∧
    (ix.state = .ready) ∧
    (count ≠ 0) ∧
    (count ≤ 64) ∧
    ((ix.structures.any fun b => d.mediaBad b.1 b.2) = false) ∧
    (d.qesUp[Config.placeHint d.free % max 1 d.qesUp.length]? = some qe) ∧
    let qs := (List.range count).map fun k => readQuery img ix k
    let bufs := [(e.f 24 6, count * queryBlock ix)]
    (((bufs ++ qs.map fun (q : Query) => (q.resAddr, 64 + 16 * (if q.refused ix then 0 else q.k))).find? fun b => !(mappedRange x.fuses.part d b.1 b.2)) = none) ∧
    ((bufs.any fun (b : Nat × Nat) => d.mediaBad b.1 b.2) = false) := by
  have hq : sQuery.view.qesUp = [0] := by decide +kernel
  have he : sQuery.view.qesUp[Config.placeHint sQuery.view.free % max 1 sQuery.view.qesUp.length]? = some 0 := by
    rw [hq]; simp [Nat.mod_one]
  refine ⟨sQuery, ent [(18, 1), (24, 0x20000000)], index1 .ready, 0, ?_, ?_, ?_, ?_, ?_, ?_, ?_, he, ?_, ?_⟩ <;> decide +kernel

theorem wit_recallQuery_cvf : ∃ (s : State) (port from_ len val : Nat) (ix : Index) (qe : Nat),
    let x := s.ctx
    let d := s.view
    (x.fuses.part.hasRecall = true) ∧
    let n := bits val 0 8
    let count := bits val 8 16
    let img := fun o n => bits val (8 * (o + 4)) (8 * n)
    (d.domainUp .rcl = true) ∧
    (d.index n = some ix) ∧
    (ix.state = .ready) ∧
    (count ≠ 0) ∧
    (count ≤ 64) ∧
    ((ix.structures.any fun b => d.mediaBad b.1 b.2) = false) ∧
    (d.qesUp[Config.placeHint d.free % max 1 d.qesUp.length]? = some qe) := by
  have hq : sQuery.view.qesUp = [0] := by decide +kernel
  have he : sQuery.view.qesUp[Config.placeHint sQuery.view.free % max 1 sQuery.view.qesUp.length]? = some 0 := by
    rw [hq]; simp [Nat.mod_one]
  refine ⟨sQuery, 0, 33, 0, 256, index1 .ready, 0, ?_, ?_, ?_, ?_, ?_, ?_, ?_, he⟩ <;> decide +kernel

theorem wit_ckptRun : ∃ (s : State) (e : Entry),
    let x := s.ctx
    let d := s.view
    let c := e.cmd
    (e.reservedSet [(16, 1), (24, 8)] [(129, 7)] = false) ∧
    (d.ckpt.run = none) ∧
    (d.ckpt.store.isSome = true) ∧
    (e.f 24 8 = 0 ∨ d.ckpt.lastUsed < e.f 24 8) :=
  ⟨st (onCkpt fun c => { c with store := some store1 }), (ent []), by decide +kernel⟩

theorem wit_ckptStore : ∃ (s : State) (e : Entry) (st : CkStore),
    let x := s.ctx
    let d := s.view
    let c := e.cmd
    (e.reservedSet [(24, 8)] [] = false) ∧
    (d.ckpt.run = none) ∧
    ((([(e.f 24 8, 256)]).find? fun b => !(mappedRange x.fuses.part d b.1 b.2)) = none) ∧
    (d.mediaBad (e.f 24 8) (256) = false) ∧
    let d1 := d.eccRead (e.f 24 8) (256) true
    (d1.storeRecord x (e.f 24 8) = some st) ∧
    ((d1.sec.storeKey.isNone && st.targets.any fun t => t.tier == 4) = false) ∧
    ((st.targets.all fun t => d1.storeHeld t) = true) :=
  ⟨stm [(0x20000000, 1), (0x20000001, 1), (0x20000020, 4)] (onSec (fun s => { s with storeKey := some 1 }) (onHif fun h => { h with hrq := some hrq1 })), (ent [(24, 536870912)]), (⟨1, [⟨4, 0, 0⟩]⟩), by decide +kernel⟩

theorem wit_ckptScan : ∃ (s : State) (e : Entry) (t4 : T4Store) (st : CkStore),
    let x := s.ctx
    let d := s.view
    let c := e.cmd
    (e.reservedSet [(24, 16)] [] = false) ∧
    ((([(e.f 24 8, 256)]).find? fun b => !(mappedRange x.fuses.part d b.1 b.2)) = none) ∧
    (d.mediaBad (e.f 24 8) (256) = false) ∧
    let d1 := d.eccRead (e.f 24 8) (256) true
    (d1.storeRecord x (e.f 24 8) = some st) ∧
    (d1.storeShut st false = false) ∧
    let v := d1.nativeView st t4
    let w := if d1.t4Open then s7View t4 else { s7View t4 with epochs := [] }
    let one := fun (u : StoreView) (n : Nat) (verdict : Nat) => (n, packFields [(0, 8, n), (8, 8, u.base n), (16, 1, ofB (u.full n)), (17, 1, verdict), (20, 4, u.count n)])
    let es := sortBy (fun (a b : Nat × Nat) => decide (a.1 < b.1)) ((v.epochs.map fun n => one v n (v.verdict n)) ++ w.epochs.map fun n => one w n 4)
    ((([(e.f 32 8, 32 * es.length)]).find? fun b => !(mappedRange x.fuses.part d1 b.1 b.2)) = none) :=
  ⟨stm [(0x20000000, 1), (0x20000001, 1), (0x20000020, 4)] (onSec (fun s => { s with storeKey := some 1 }) (onHif fun h => { h with hrq := some hrq1 })), (ent [(24, 536870912), (32, 536875008)]), (⟨[], [], [], [], [], (0, 0, 0)⟩), (⟨1, [⟨4, 0, 0⟩]⟩), by decide +kernel⟩

theorem wit_ckptRestore_native : ∃ (s : State) (e : Entry) (t4 : T4Store) (st : CkStore) (n : Nat),
    let x := s.ctx
    let d := s.view
    let c := e.cmd
    (e.reservedSet [(16, 1), (24, 32)] [(129, 7)] = false) ∧
    (d.ckpt.run = none) ∧
    ((([(e.f 24 8, 256), (e.f 48 8, 1)]).find? fun b => !(mappedRange x.fuses.part d b.1 b.2)) = none) ∧
    (d.mediaBad (e.f 24 8) (256) = false) ∧
    let d1 := d.eccRead (e.f 24 8) (256) true
    (d1.storeRecord x (e.f 24 8) = some st) ∧
    (bit (e.f 16 1) 0 = false) ∧
    (d1.storeShut st false = false) ∧
    let v := d1.nativeView st t4
    ((v.epochs.filter fun n => v.verdict n == 0 && (e.f 32 8 == 0 || n ≤ e.f 32 8)).getLast? = some n) :=
  ⟨stm [(0x20000000, 1), (0x20000001, 1), (0x20000020, 4)] (onSec (fun s => { s with storeKey := some 1 }) (onHif fun h => { h with hrq := some hrq1 })), (ent [(24, 536870912), (48, 536875008)]), (⟨[], [(0, (⟨5, 5, true, 0, 0, 1, [(0, 0)], 0, 0, 0⟩ : Catalogue))], [], [], [], (0, 0, 0)⟩), (⟨1, [⟨4, 0, 0⟩]⟩), (5), by decide +kernel⟩

theorem wit_ckptRestore_s7 : ∃ (s : State) (e : Entry) (t4 : T4Store) (st : CkStore) (n : Nat),
    let x := s.ctx
    let d := s.view
    let c := e.cmd
    (e.reservedSet [(16, 1), (24, 32)] [(129, 7)] = false) ∧
    (d.ckpt.run = none) ∧
    ((([(e.f 24 8, 256), (e.f 48 8, 1)]).find? fun b => !(mappedRange x.fuses.part d b.1 b.2)) = none) ∧
    (d.mediaBad (e.f 24 8) (256) = false) ∧
    let d1 := d.eccRead (e.f 24 8) (256) true
    (d1.storeRecord x (e.f 24 8) = some st) ∧
    (bit (e.f 16 1) 0 = true) ∧
    (d1.storeShut st true = false) ∧
    let v := s7View t4
    ((v.epochs.filter fun n => v.verdict n == 0 && (e.f 32 8 == 0 || n ≤ e.f 32 8)).getLast? = some n) ∧
    (t4.s7Shape = (d1.shape.hkv, d1.shape.d, d1.shape.vocab)) ∧
    (bit (capReg x.fuses 3) 25 = true) :=
  ⟨stm [(0x20000000, 1), (0x20000001, 1), (0x20000020, 4)] (onSec (fun s => { s with storeKey := some 1 }) (onHif fun h => { h with hrq := some hrq1 })), (ent [(16, 1), (24, 536870912), (48, 536875008)]), (⟨[], [], [], [], [(0, (⟨5, 5, true, 0, 0, 1, [(0, 0)], 0, 0, 0⟩ : Catalogue))], (0, 0, 0)⟩), (⟨1, [⟨4, 0, 0⟩]⟩), (5), by decide +kernel⟩

theorem wit_shapeSet : ∃ (s : State) (e : Entry),
    let x := s.ctx
    let d := s.view
    let c := e.cmd
    (e.reservedSet [(16, 3), (20, 17)] [(148, 4)] = false) ∧
    (d.shapeOk e = true) ∧
    (d.shaperOn (e.f 16 1) = true) :=
  ⟨st (up.setReg (Reg.hifVecCoal 0) 0), (ent [(16, 8), (17, 0)]), by decide +kernel⟩

theorem wit_policeSet : ∃ (s : State) (e : Entry),
    let x := s.ctx
    let d := s.view
    let c := e.cmd
    (e.reservedSet [(16, 6), (24, 8)] [(145, 7)] = false) ∧
    (e.f 16 1 ≤ 7) ∧
    (e.f 17 1 ≤ 15) ∧
    (e.f 19 1 ≤ 5) ∧
    (e.f 24 4 < 2 ^ 24) ∧
    (e.f 28 4 < 2 ^ 24) ∧
    (d.burstOk (e.f 16 1) (e.f 24 4) (e.f 28 4) = true) ∧
    (d.shaperOn (e.f 16 1) = true) :=
  ⟨st (up), (ent [(28, 17)]), by decide +kernel⟩

theorem wit_routeSet : ∃ (s : State) (e : Entry),
    let x := s.ctx
    let d := s.view
    let c := e.cmd
    (e.reservedSet [(16, 1), (18, 3)] [(130, 6)] = false) ∧
    let pos := bit (e.f 16 1) 0
    (e.f 20 1 ≤ 7) ∧
    (e.f 18 2 ≤ (if pos then 31 else 2047)) ∧
    (d.domainUp (.cvfGroup 0) = true) :=
  ⟨st (up), (ent []), by decide +kernel⟩

theorem wit_beltJobStart : ∃ (s : State) (e : Entry),
    let x := s.ctx
    let d := s.view
    let c := e.cmd
    (e.reservedSet [(16, 1), (18, 22)] [(240, 16)] = false) ∧
    let p := e.f 16 1
    (firstFail (d.beltChecks x p) = none) ∧
    (d.taskMode p = false) ∧
    ((d.beltPart p).job = none) ∧
    (e.f 18 2 ≠ 0) ∧
    (e.f 18 2 ≤ 64 * (d.onlineCores p).length) ∧
    (d.windowed p (e.f 24 6) 1 2 = true) :=
  ⟨st (beltUp false), (ent [(18, 1)]), by decide +kernel⟩

theorem wit_beltJobKill : ∃ (s : State) (e : Entry),
    let x := s.ctx
    let d := s.view
    let c := e.cmd
    (e.reservedSet [(16, 1)] [] = false) ∧
    let p := e.f 16 1
    (firstFail (d.beltChecks x p) = none) ∧
    ((d.beltPart p).job.isSome = true) :=
  ⟨st (beltUp false (some job1)), (ent []), by decide +kernel⟩

theorem wit_beltJobSuspend : ∃ (s : State) (e : Entry),
    let x := s.ctx
    let d := s.view
    let c := e.cmd
    (e.reservedSet [(16, 1)] [] = false) ∧
    let p := e.f 16 1
    (firstFail (d.beltChecks x p) = none) ∧
    (d.jobIs p false = true) :=
  ⟨st (beltUp false (some job1)), (ent []), by decide +kernel⟩

theorem wit_beltJobResume : ∃ (s : State) (e : Entry),
    let x := s.ctx
    let d := s.view
    let c := e.cmd
    (e.reservedSet [(16, 1)] [] = false) ∧
    let p := e.f 16 1
    (firstFail (d.beltChecks x p) = none) ∧
    (d.jobIs p true = true) :=
  ⟨st (beltUp false (some { job1 with suspended := true })), (ent []), by decide +kernel⟩

theorem wit_beltQueueSet_enable : ∃ (s : State) (e : Entry),
    let x := s.ctx
    let d := s.view
    let c := e.cmd
    (e.reservedSet [(16, 8), (24, 8)] [(153, 7), (240, 16)] = false) ∧
    let p := e.f 16 1
    let q := e.f 17 1
    (firstFail (d.beltChecks x p) = none) ∧
    (d.taskMode p = true) ∧
    (q ≤ 15) ∧
    (d.windowed p (e.f 24 6) 1 2 = true) ∧
    (bit (e.f 19 1) 0 = true) ∧
    (4 ≤ e.f 18 1) ∧
    (e.f 18 1 ≤ 11) ∧
    (d.beltQueue p q = none) ∧
    (sumOf ((d.beltPart p).queues.map fun b => b.2.slots) + 2 ^ e.f 18 1 ≤ 2048) :=
  ⟨st (beltUp true), (ent [(17, 1), (18, 4), (19, 1)]), by decide +kernel⟩

theorem wit_beltQueueSet_disable : ∃ (s : State) (e : Entry),
    let x := s.ctx
    let d := s.view
    let c := e.cmd
    (e.reservedSet [(16, 8), (24, 8)] [(153, 7), (240, 16)] = false) ∧
    let p := e.f 16 1
    let q := e.f 17 1
    (firstFail (d.beltChecks x p) = none) ∧
    (d.taskMode p = true) ∧
    (q ≤ 15) ∧
    (d.windowed p (e.f 24 6) 1 2 = true) ∧
    (bit (e.f 19 1) 0 = false) ∧
    (d.queueBound p q = false) :=
  ⟨st (beltUp true), (ent [(17, 1)]), by decide +kernel⟩

theorem wit_beltTaskSubmit : ∃ (s : State) (e : Entry) (b q : BeltQueue),
    let x := s.ctx
    let d := s.view
    let c := e.cmd
    (e.reservedSet [(16, 2), (24, 8)] [(240, 16)] = false) ∧
    let p := e.f 16 1
    let n := e.f 17 1
    (firstFail (d.beltChecks x p) = none) ∧
    (d.taskMode p = true) ∧
    (d.beltQueue p n = some b) ∧
    (b.waiting.length < b.slots) ∧
    ((([(e.f 24 6, 64)]).find? fun b => !(mappedRange x.fuses.part d b.1 b.2)) = none) ∧
    (d.mediaBad (e.f 24 6) (64) = false) ∧
    let d1 := d.eccRead (e.f 24 6) (64) true
    (d1.beltQueue p n = some q) ∧
    (q.waiting.length < q.slots) ∧
    (d1.domainUp .belt = true) :=
  ⟨st (beltUp true), (ent [(24, 536870912)]), (bq1), (bq1), by decide +kernel⟩

theorem wit_beltHookReg : ∃ (s : State) (e : Entry),
    let x := s.ctx
    let d := s.view
    let c := e.cmd
    (e.reservedSet [(16, 4)] [] = false) ∧
    let p := e.f 18 1
    (firstFail (d.beltChecks x p) = none) ∧
    (e.f 16 2 ≠ 0xFFFF) ∧
    ((d.belt.hooks.any fun h => h.1 == e.f 16 2) = false) ∧
    (d.taskMode p = true) ∧
    ((d.beltQueue p (e.f 19 1)).isSome = true) ∧
    (d.belt.hooks.length < 256) :=
  ⟨st (beltUp true), (ent [(16, 3)]), by decide +kernel⟩

theorem wit_beltHookUnreg : ∃ (s : State) (e : Entry),
    let x := s.ctx
    let d := s.view
    let c := e.cmd
    (e.reservedSet [(16, 2)] [] = false) ∧
    (x.fuses.part.hasBelt = true) ∧
    (d.domainUp .belt = true) ∧
    ((d.belt.hooks.any fun h => h.1 == e.f 16 2) = true) ∧
    ((d.sess.table.any fun p => p.2.state != .void && p.2.hook == e.f 16 2) = false) :=
  ⟨st (onBelt (fun b => { b with hooks := [(3, 0, 0)] })), (ent [(16, 3)]), by decide +kernel⟩

theorem wit_beltLifeReg : ∃ (s : State) (e : Entry),
    let x := s.ctx
    let d := s.view
    let c := e.cmd
    (e.reservedSet [(16, 2), (20, 2)] [] = false) ∧
    let p := e.f 16 1
    (firstFail (d.beltChecks x p) = none) ∧
    (d.taskMode p = true) ∧
    ((d.beltQueue p (e.f 17 1)).isSome = true) :=
  ⟨st (beltUp true), (ent [(20, 1)]), by decide +kernel⟩

theorem wit_tenantSwitch : ∃ (s : State) (e : Entry),
    let x := s.ctx
    let d := s.view
    let c := e.cmd
    (e.reservedSet [(24, 16)] [] = false) ∧
    (d.sec.debugLevel ≠ 2) ∧
    ((([(e.f 24 8, 256), (e.f 32 8, 64)]).find? fun b => !(mappedRange x.fuses.part d b.1 b.2)) = none) ∧
    (d.mediaBad (e.f 24 8) (256) = false) ∧
    let d1 := d.eccRead (e.f 24 8) (256) true
    (d1.mediaBad (e.f 32 8) (64) = false) :=
  ⟨st (up), (ent [(24, 536870912), (32, 536871168)]), by decide +kernel⟩

theorem wit_attest : ∃ (s : State) (e : Entry),
    let x := s.ctx
    let d := s.view
    let c := e.cmd
    (e.reservedSet [(24, 16)] [] = false) ∧
    ((([(e.f 24 8, 32), (e.f 32 8, 448)]).find? fun b => !(mappedRange x.fuses.part d b.1 b.2)) = none) ∧
    (d.mediaBad (e.f 24 8) (32) = false) :=
  ⟨st (up), (ent [(24, 536870912), (32, 536871168)]), by decide +kernel⟩

theorem wit_mlogRead : ∃ (s : State) (e : Entry),
    let x := s.ctx
    let d := s.view
    let c := e.cmd
    (e.reservedSet [(16, 4), (24, 8)] [] = false) ∧
    (e.f 18 2 ≠ 0) ∧
    (e.f 18 2 ≤ 4096) ∧
    let es := (d.sec.mlog.drop (e.f 16 2)).take (e.f 18 2)
    ((([(e.f 24 8, 64 * es.length)]).find? fun b => !(mappedRange x.fuses.part d b.1 b.2)) = none) :=
  ⟨st (up), (ent [(18, 1)]), by decide +kernel⟩

theorem wit_certRead : ∃ (s : State) (e : Entry),
    let x := s.ctx
    let d := s.view
    let c := e.cmd
    (e.reservedSet [(24, 12)] [] = false) :=
  ⟨st (up), (ent []), by decide +kernel⟩

theorem wit_debugUnlock : ∃ (s : State) (e : Entry),
    let x := s.ctx
    let d := s.view
    let c := e.cmd
    (e.reservedSet [(24, 16)] [] = false) ∧
    ((([(e.f 24 8, 256), (e.f 32 8, 64)]).find? fun b => !(mappedRange x.fuses.part d b.1 b.2)) = none) ∧
    (d.mediaBad (e.f 24 8) (256) = false) ∧
    let d1 := d.eccRead (e.f 24 8) (256) true
    (d1.mediaBad (e.f 32 8) (64) = false) ∧
    let d2 := d1.eccRead (e.f 32 8) (64) true
    let r := d2.recordAt x e
    let level := recArg r
    (level = 1 ∨ level = 2) ∧
    (d2.sec.debugLevel ≤ level) :=
  ⟨stm [(0x20000006, 1)], (ent [(24, 536870912), (32, 536871168)]), by decide +kernel⟩

theorem wit_svnCommit : ∃ (s : State) (e : Entry),
    let x := s.ctx
    let d := s.view
    let c := e.cmd
    (e.reservedSet [(24, 16)] [] = false) ∧
    ((([(e.f 24 8, 256), (e.f 32 8, 64)]).find? fun b => !(mappedRange x.fuses.part d b.1 b.2)) = none) ∧
    (d.mediaBad (e.f 24 8) (256) = false) ∧
    let d1 := d.eccRead (e.f 24 8) (256) true
    (d1.mediaBad (e.f 32 8) (64) = false) ∧
    let d2 := d1.eccRead (e.f 32 8) (64) true
    let r := d2.recordAt x e
    let floor := recArg r
    (d2.sec.svnFloor < floor) ∧
    (floor ≤ 63) ∧
    (floor ≤ d2.boot.bundleVer / 2 ^ 24) :=
  ⟨stm [(0x20000006, 1)] (onBoot fun b => { b with bundleVer := 2 ^ 24 }), (ent [(24, 536870912), (32, 536871168)]), by decide +kernel⟩

theorem wit_fwUpdate : ∃ (s : State) (e : Entry) (copy v : Nat),
    let x := s.ctx
    let d := s.view
    let c := e.cmd
    (e.reservedSet [(24, 24)] [] = false) ∧
    let n := if e.f 24 8 != 0 then e.f 40 4 else 0
    ((([(e.f 24 8, n), (e.f 32 8, e.f 44 4)]).find? fun b => !(mappedRange x.fuses.part d b.1 b.2)) = none) ∧
    (d.mediaBad (e.f 24 8) (n) = false) ∧
    let d1 := d.eccRead (e.f 24 8) (n) true
    (d1.mediaBad (e.f 32 8) (e.f 44 4) = false) ∧
    let d2 := d1.eccRead (e.f 32 8) (e.f 44 4) true
    let fw := if e.f 24 8 != 0 then (n, d2.ld x (e.f 24 8) n) else d2.boot.bundle.getD (0, 0)
    let img := (e.f 44 4, d2.ld x (e.f 32 8) (e.f 44 4))
    let slot := 1 - d2.fld Reg.chipBootStat 25 1
    (d2.directory = some (copy, v)) ∧
    (fitsArea v (dirSlot v slot).1.1 fw.1 = true) ∧
    (fitsArea v (dirSlot v slot).2.1 img.1 = true) := ⟨sUpdate, ent [(32, 0x20000000)], 0, updDir, by decide +kernel⟩

theorem wit_pwrGate : ∃ (s : State) (e : Entry),
    let x := s.ctx
    let d := s.view
    let c := e.cmd
    (e.reservedSet [(16, 1)] [] = false) ∧
    (d.gateRefused x (e.f 16 1) = false) :=
  ⟨st (up), (ent [(16, 0)]), by decide +kernel⟩

theorem wit_pwrWake_gating : ∃ (s : State) (e : Entry) (g : GateOp),
    let x := s.ctx
    let d := s.view
    let c := e.cmd
    (e.reservedSet [(16, 1)] [] = false) ∧
    let code := e.f 16 1
    ((gateBit x.fuses.part code).isSome = true) ∧
    (d.gateOf code = some g) :=
  ⟨st (onPmc fun p => { p with gating := [⟨0, cmd1, 0, [], false, []⟩] }), (ent []), (⟨0, cmd1, 0, [], false, []⟩), by decide +kernel⟩

theorem wit_pwrWake_on : ∃ (s : State) (e : Entry),
    let x := s.ctx
    let d := s.view
    let c := e.cmd
    (e.reservedSet [(16, 1)] [] = false) ∧
    let code := e.f 16 1
    ((gateBit x.fuses.part code).isSome = true) ∧
    (d.gateOf code = none) ∧
    (d.gated x code = false) :=
  ⟨st (up), (ent []), by decide +kernel⟩

theorem wit_pwrWake_gated : ∃ (s : State) (e : Entry),
    let x := s.ctx
    let d := s.view
    let c := e.cmd
    (e.reservedSet [(16, 1)] [] = false) ∧
    let code := e.f 16 1
    ((gateBit x.fuses.part code).isSome = true) ∧
    (d.gateOf code = none) ∧
    (d.gated x code = true) ∧
    ((d.pmc.waking.any fun w => w.domain == code) = false) :=
  ⟨st (up.setReg Reg.pmcGate 1), (ent []), by decide +kernel⟩

theorem wit_pwrLimit : ∃ (s : State) (e : Entry),
    let x := s.ctx
    let d := s.view
    let c := e.cmd
    (e.reservedSet [(16, 2)] [] = false) ∧
    let w := e.f 16 2
    (0x4B0 ≤ w) ∧
    (w ≤ 0x5DC) ∧
    (bit (d.reg Reg.sessLedgerCtl) 31 = false ∨ 1400 ≤ w) :=
  ⟨st (up), (ent [(16, 1400)]), by decide +kernel⟩

theorem wit_pwrVmode : ∃ (s : State) (e : Entry),
    let x := s.ctx
    let d := s.view
    let c := e.cmd
    (e.reservedSet [(16, 1)] [] = false) ∧
    (e.f 16 1 ≤ 2) :=
  ⟨st (up), (ent [(16, 1)]), by decide +kernel⟩

theorem wit_gateBatchesClosed_quad : ∃ (s : State) (domain : Nat) (g : GateOp),
    let d := s.view
    (d.gateOf domain = some g) ∧
    (g.drained = false) ∧
    (g.batches = []) ∧
    (domain < 4) :=
  ⟨st (onPmc fun p => { p with gating := [⟨0, cmd1, 0, [], false, []⟩] }), (0), (⟨0, cmd1, 0, [], false, []⟩), by decide +kernel⟩

theorem wit_gateBatchesClosed_unit : ∃ (s : State) (domain : Nat) (g : GateOp),
    let x := s.ctx
    let d := s.view
    (d.gateOf domain = some g) ∧
    (g.drained = false) ∧
    (g.batches = []) ∧
    (4 ≤ domain) :=
  ⟨st (onPmc fun p => { p with gating := [⟨32, cmd1, 0, [], false, []⟩] }), (32), (⟨32, cmd1, 0, [], false, []⟩), by decide +kernel⟩

theorem wit_pwrGateTimeout : ∃ (s : State) (domain : Nat) (g : GateOp),
    let x := s.ctx
    let d := s.view
    (d.gateOf domain = some g) ∧
    (g.drained = false) ∧
    (g.since + 1000000000 ≤ d.now) :=
  ⟨st (late (onPmc fun p => { p with gating := [⟨0, cmd1, 0, [], false, []⟩] })), (0), (⟨0, cmd1, 0, [], false, []⟩), by decide +kernel⟩

theorem wit_wakeReady : ∃ (s : State) (domain b : Nat) (w : GateOp),
    let x := s.ctx
    let d := s.view
    ((d.pmc.waking.find? fun w => w.domain == domain && (3 < domain || (d.keeper (domain + 1)).aligned)) = some w) ∧
    (gateBit x.fuses.part domain = some b) :=
  ⟨st (onPmc (fun p => { p with waking := [⟨0, cmd1, 0, [], false, []⟩] }) { up with time := { up.time with quads := List.replicate 4 { Timekeeper.reset with aligned := true } } }), (0), (0), (⟨0, cmd1, 0, [], false, []⟩), by decide +kernel⟩

theorem wit_pmcEvaluation : ∃ (s : State) (railMv : List Nat),
    let x := s.ctx
    let d := s.view
    (d.held = false) ∧
    (2 < d.stage) ∧
    (d.eclipse = false) ∧
    (d.pmc.tripped = false) :=
  ⟨st (up), ([]), by decide +kernel⟩

theorem wit_thermalSample : ∃ (s : State) (quads : List Int) (stackT : List (Nat × Int)) (pkgW : Nat) (bad : List Nat),
    let x := s.ctx
    let d := s.view
    (d.held = false) ∧
    (2 < d.stage) ∧
    (d.eclipse = false) :=
  ⟨st (up), ([]), ([]), (0), ([]), by decide +kernel⟩

theorem wit_thermtrip : ∃ (s : State) (sensor : Nat),
    let d := s.view
    (d.pmc.tripped = false) ∧
    (d.boot.railsOut = false) :=
  ⟨st (up), (0), by decide +kernel⟩

theorem wit_elogRead : ∃ (s : State) (e : Entry),
    let x := s.ctx
    let d := s.view
    let c := e.cmd
    (e.reservedSet [(16, 2), (24, 12)] [(137, 7)] = false) ∧
    let k := e.f 16 1
    (k ≤ 4) ∧
    let es := (getAt ErrLog.reset k d.err.logs).entries
    let n := min (e.f 32 4) es.length
    ((([(e.f 24 8, 32 * n)]).find? fun b => !(mappedRange x.fuses.part d b.1 b.2)) = none) :=
  ⟨st (up), (ent [(32, 4)]), by decide +kernel⟩

theorem wit_errInject_report : ∃ (s : State) (e : Entry),
    let x := s.ctx
    let d := s.view
    let c := e.cmd
    (e.reservedSet [(16, 2), (20, 4), (24, 16)] [(240, 16)] = false) ∧
    (firstFail (injectChecks x d e) = none) ∧
    (e.f 16 1 = 1) :=
  ⟨st (up), (ent [(16, 1), (17, 1)]), by decide +kernel⟩

theorem wit_errInject_ce : ∃ (s : State) (e : Entry),
    let x := s.ctx
    let d := s.view
    let c := e.cmd
    (e.reservedSet [(16, 2), (20, 4), (24, 16)] [(240, 16)] = false) ∧
    (firstFail (injectChecks x d e) = none) ∧
    (e.f 16 1 = 2 ∨ e.f 16 1 = 4) :=
  ⟨st (up), (ent [(16, 2), (24, 536870912)]), by decide +kernel⟩

theorem wit_errInject_ue : ∃ (s : State) (e : Entry),
    let x := s.ctx
    let d := s.view
    let c := e.cmd
    (e.reservedSet [(16, 2), (20, 4), (24, 16)] [(240, 16)] = false) ∧
    (firstFail (injectChecks x d e) = none) ∧
    (e.f 16 1 = 3 ∨ e.f 16 1 = 5) :=
  ⟨st (up), (ent [(16, 3), (24, 536870912)]), by decide +kernel⟩

theorem wit_logIntake : ∃ (s : State) (log : Nat),
    let d := s.view
    (log < 5) :=
  ⟨st (up), (0), by decide +kernel⟩

theorem wit_vector0Deferred : ∃ (s : State) (t : Ns),
    let d := s.view
    (d.err.vec0Deferred = true) ∧
    (d.err.lastVec0 = some t) ∧
    (t + 100000 ≤ d.now) :=
  ⟨st (late (onErr fun e => { e with vec0Deferred := true, lastVec0 := some 0 })), (0), by decide +kernel⟩

theorem wit_logClear : ∃ (s : State) (log : Nat),
    let x := s.ctx
    let d := s.view
    (d.bar0Cpl x Reg.errlogCtl = .success) ∧
    (log < 5) :=
  ⟨st (up), (4), by decide +kernel⟩

theorem wit_hbmScrubPass : ∃ (s : State) (stack : Nat) (found : List (Nat × Bool)),
    let x := s.ctx
    let d := s.view
    (x.fuses.part.fittedStacks.contains stack = true) ∧
    (d.err.deadStacks.contains stack = false) ∧
    (d.operational = true) ∧
    (d.baseHot stack = false) :=
  ⟨st (up), (0), ([]), by decide +kernel⟩

theorem wit_sramScrubPass_quad : ∃ (s : State) (q : Nat) (found : List (Nat × Bool)),
    let x := s.ctx
    let d := s.view
    (q < 4) ∧
    (d.operational = true) ∧
    (d.quadUp q = true) :=
  ⟨st (up), (0), ([]), by decide +kernel⟩

theorem wit_sramScrubPass_control : ∃ (s : State) (found : List (Nat × Bool)),
    let x := s.ctx
    let d := s.view
    (2 ≤ d.stage) ∧
    (d.held = false) ∧
    (d.eclipse = false) :=
  ⟨st (up), ([]), by decide +kernel⟩

theorem wit_sramLineRetire : ∃ (s : State) (q line : Nat),
    let x := s.ctx
    let d := s.view
    let a := 0x400000000000 + q * 0x18000000 + line * 4096
    (q < 4) ∧
    (line < 98304) ∧
    ((d.err.bad.any fun b => b.uncorrectable && !b.held && b.addr / 4096 == a / 4096) = true ∨ d.fld Reg.errlogSramCtl 0 8 ≤ (tblGet (a / 4096) d.err.lineCe).getD 0) ∧
    (d.err.retiredLines.contains (a / 4096) = false) :=
  ⟨st (onErr fun e => { e with lineCe := [(0x400000000, 255)] }), (0), (0), by decide +kernel⟩

theorem wit_tkCalibrate_holdover : ∃ (s : State) (tk counted refTicks : Nat),
    let d := s.view
    (tk ≤ 4) ∧
    (d.held = false) ∧
    (d.eclipse = false) ∧
    (tk = 0 ∨ (d.keeper tk).aligned = true) ∧
    (refGood refTicks = false) :=
  ⟨st (up), (0), (25000000), (0), by decide +kernel⟩

theorem wit_tkCalibrate_good : ∃ (s : State) (tk counted refTicks : Nat),
    let x := s.ctx
    let d := s.view
    (tk ≤ 4) ∧
    (d.held = false) ∧
    (d.eclipse = false) ∧
    (tk = 0 ∨ (d.keeper tk).aligned = true) ∧
    (refGood refTicks = true) :=
  ⟨st (up), (0), (25000000), (25000), by decide +kernel⟩

theorem wit_qdTkAlign : ∃ (s : State) (q : Nat),
    let d := s.view
    (q < 4) ∧
    (d.stage ≠ 1) ∧
    (bit (d.reg Reg.pmcGate) q = false ∨ (d.pmc.waking.any fun w => w.domain == q) = true) ∧
    ((d.boot.quadResets.any fun r => r.quad == q && r.stage == 2) = false) ∧
    (d.boot.quadOffline.contains q = false) :=
  ⟨st (up), (0), by decide +kernel⟩

theorem wit_paceWindowEnd : ∃ (s : State) (block ops busyNs : Nat),
    let x := s.ctx
    let d := s.view
    (isPace block = true) ∧
    (absentBlock x.fuses.part block = false) :=
  ⟨st (up), (23068672), (0), (0), by decide +kernel⟩

theorem wit_timeLoRead : ∃ (s : State) ,
    let x := s.ctx
    let d := s.view
    (d.bar0Cpl x Reg.chipTimeLo = .success) :=
  ⟨st (up), by decide +kernel⟩

theorem wit_ptmTrigger : ∃ (s : State) ,
    let x := s.ctx
    let d := s.view
    (d.bar0Cpl x Reg.chipPtmCtl = .success) :=
  ⟨st (up), by decide +kernel⟩

theorem wit_ptmPeriod : ∃ (s : State) ,
    let d := s.view
    (d.fld Reg.chipPtmCtl 8 8 ≠ 0) :=
  ⟨st (up.setReg Reg.chipPtmCtl 0x100), by decide +kernel⟩

theorem wit_ptmDialogDone : ∃ (s : State) (dev host linkDly : Nat),
    let d := s.view
    (d.time.ptmRunning = true) :=
  ⟨st ({ up with time := { up.time with ptmRunning := true } }), (1), (1), (1), by decide +kernel⟩

theorem wit_ptmDialogFail : ∃ (s : State) ,
    let d := s.view
    (d.time.ptmRunning = true) :=
  ⟨st ({ up with time := { up.time with ptmRunning := true } }), by decide +kernel⟩

theorem wit_ptmSeqRead : ∃ (s : State) ,
    let x := s.ctx
    let d := s.view
    (d.bar0Cpl x Reg.chipPtmSeq = .success) :=
  ⟨st (up), by decide +kernel⟩

theorem wit_ckptEpochLoRead : ∃ (s : State) ,
    let x := s.ctx
    let d := s.view
    (d.bar0Cpl x Reg.ckptEpochLo = .success) :=
  ⟨st (up), by decide +kernel⟩

theorem wit_ckptFullLoRead : ∃ (s : State) ,
    let x := s.ctx
    let d := s.view
    (d.bar0Cpl x Reg.ckptFullLo = .success) :=
  ⟨st (up), by decide +kernel⟩

theorem wit_secEpochLoRead : ∃ (s : State) ,
    let x := s.ctx
    let d := s.view
    (d.bar0Cpl x Reg.secEpochLo = .success) :=
  ⟨st (up), by decide +kernel⟩

theorem wit_tenantLoRead : ∃ (s : State) ,
    let x := s.ctx
    let d := s.view
    (d.bar0Cpl x Reg.secTenantLo = .success) :=
  ⟨st (up), by decide +kernel⟩

theorem wit_zeroDoneLoRead : ∃ (s : State) ,
    let x := s.ctx
    let d := s.view
    (d.bar0Cpl x Reg.secZeroDoneLo = .success) :=
  ⟨st (up), by decide +kernel⟩

theorem wit_tofsLoRead : ∃ (s : State) (port : Nat),
    let x := s.ctx
    let d := s.view
    (d.bar0Cpl x (Reg.cvfTofsLo port) = .success) :=
  ⟨st (up), (0), by decide +kernel⟩

theorem wit_registerWrite_plain : ∃ (s : State) (off val : Nat),
    let x := s.ctx
    let d := s.view
    (d.bar0Cpl x off = .success) ∧
    (w1sRows off val = []) ∧
    (off < 0x1C00000 ∨ 0x1C00800 ≤ off) :=
  ⟨st (up), (0x0), (0), by decide +kernel⟩

theorem wit_registerWrite_mbox : ∃ (s : State) (off val : Nat),
    let x := s.ctx
    let d := s.view
    (d.bar0Cpl x off = .success) ∧
    (w1sRows off val = []) ∧
    (0x1C00000 ≤ off) ∧
    (off < 0x1C00800) :=
  ⟨st (up), (0x1C00004), (0), by decide +kernel⟩

theorem wit_rcRead : ∃ (s : State) (off : Nat),
    let x := s.ctx
    let d := s.view
    (d.bar0Cpl x off = .success) :=
  ⟨st (up), (0x0), by decide +kernel⟩

theorem wit_chipLockSet : ∃ (s : State) ,
    let x := s.ctx
    let d := s.view
    (d.bar0Cpl x Reg.chipLock = .success) :=
  ⟨st (up), by decide +kernel⟩

theorem wit_configurationRequest_write : ∃ (s : State) (field : CfgField) (val : Nat),
    let d := s.view
    (d.held = false) ∧
    (d.stage ≠ 1 ∨ d.boot.started + 100000000 ≤ d.now) :=
  ⟨st (up), (.command), (4), by decide +kernel⟩

theorem wit_configurationRequest_read : ∃ (s : State) (field : CfgField) (val : Nat),
    let x := s.ctx
    let d := s.view
    (d.held = false) ∧
    (d.stage ≠ 1 ∨ d.boot.started + 100000000 ≤ d.now) :=
  ⟨st (up), (.command), (0), by decide +kernel⟩

theorem wit_cellTimeout_again : ∃ (s : State) (block cell : Nat) (t : Ns),
    let x := s.ctx
    let d := s.view
    (blockOk x.fuses.part block = true) ∧
    (cell < 4095) ∧
    ((match (d.cellOf block cell).granted with | some r => s.pending.any (endsWork (Reg.qdAePace (r / 64) (r % 64))) | none => false) = false) ∧
    (d.blockAbsorbed block = false) ∧
    let g := d.cellOf block cell
    let d1 := d.report (blockSource block + (cell + 1) * 0x100000) 0x20 1 0
    let who := g.granted.getD otherRequester
    (tblGet who g.again = some t) ∧
    (g.granted.isSome = true ∨ d1.now ≤ t + d1.cellNs block + 256) :=
  ⟨st ({ up with arb := { up.arb with cells := [⟨23068672, 0, none, 0, [], [(otherRequester, 0)]⟩] } }), (23068672), (0), (0), by decide +kernel⟩

theorem wit_cellTimeout_first : ∃ (s : State) (block cell : Nat),
    let x := s.ctx
    let d := s.view
    (blockOk x.fuses.part block = true) ∧
    (cell < 4095) ∧
    ((match (d.cellOf block cell).granted with | some r => s.pending.any (endsWork (Reg.qdAePace (r / 64) (r % 64))) | none => false) = false) ∧
    (d.blockAbsorbed block = false) ∧
    let g := d.cellOf block cell
    let d1 := d.report (blockSource block + (cell + 1) * 0x100000) 0x20 1 0
    let who := g.granted.getD otherRequester
    (tblGet who g.again = none) :=
  ⟨st (up), (23068672), (4094), by decide +kernel⟩

theorem wit_blockTimeout : ∃ (s : State) (block : Nat),
    let x := s.ctx
    let d := s.view
    (blockOk x.fuses.part block = true) ∧
    (d.blockState block ≠ 2) ∧
    (trackedBlock block = false ∨ d.blockWorks block = true) ∧
    ((s.pending.any (endsWork block)) = false) :=
  ⟨st (up), (23068672), by decide +kernel⟩

theorem wit_drainTimeout : ∃ (s : State) (q : Nat),
    let x := s.ctx
    let d := s.view
    (q < 4) ∧
    ((d.boot.quadResets.any fun r => r.quad == q && r.stage == 1 && decide (r.since + d.fld (Reg.qdQctlToDrain q) 0 16 * 1000 ≤ d.now)) = true) ∧
    ((s.pending.any (endsDrain q)) = false) :=
  ⟨st (late (onBoot fun b => { b with quadResets := [⟨0, 1, 0⟩] })), (0), by decide +kernel⟩

theorem wit_stageTimeout : ∃ (s : State) ,
    let x := s.ctx
    let d := s.view
    (d.starting = true) ∧
    (d.boot.stageAt + d.fld Reg.chipToStage 0 16 * 1000000 ≤ d.now) ∧
    let d1 := d.report chipSource 0x23 3 d.stage
    (d.stage ≠ 7 ∨ d1.boot.chainMode = false ∨ d1.boot.posAssigned = true) :=
  ⟨st (late (inStage 2)), by decide +kernel⟩

theorem wit_startLimit : ∃ (s : State) ,
    let x := s.ctx
    let d := s.view
    (d.starting = true) ∧
    (d.boot.started + 10000000000 ≤ d.now) :=
  ⟨st (late (inStage 2)), by decide +kernel⟩

theorem wit_segmentArrive_good : ∃ (s : State) (src dst : Nat) (t : EclXfer),
    let d := s.view
    (src < eclPorts) ∧
    (dst < eclPorts) ∧
    (src ≠ dst) ∧
    ((d.arb.xfers.any fun t => t.src == src && t.dst == dst) = true) ∧
    (d.eclNext dst = some t) ∧
    (t.src = src) ∧
    (t.dst = dst) ∧
    (4 ≤ dst ∨ d.quadPowered dst = true) :=
  ⟨st ({ up with arb := { up.arb with xfers := [⟨0, 1, 2, 100, 0, false, .partials 6 0⟩] } }), (0), (1), (⟨0, 1, 2, 100, 0, false, .partials 6 0⟩), by decide +kernel⟩

theorem wit_segmentArrive_bad : ∃ (s : State) (src dst : Nat) (t : EclXfer),
    let d := s.view
    (src < eclPorts) ∧
    (dst < eclPorts) ∧
    (src ≠ dst) ∧
    ((d.arb.xfers.any fun t => t.src == src && t.dst == dst) = true) ∧
    (d.eclNext dst = some t) ∧
    (t.src = src) ∧
    (t.dst = dst) ∧
    (4 ≤ dst ∨ d.quadPowered dst = true) ∧
    (t.again = false) :=
  ⟨st ({ up with arb := { up.arb with xfers := [⟨0, 1, 2, 100, 0, false, .partials 6 0⟩] } }), (0), (1), (⟨0, 1, 2, 100, 0, false, .partials 6 0⟩), by decide +kernel⟩

theorem wit_segmentArrive_control : ∃ (s : State) (src dst : Nat) (crcOk : Bool),
    let x := s.ctx
    let d := s.view
    (src < eclPorts) ∧
    (dst < eclPorts) ∧
    (src ≠ dst) ∧
    ((d.arb.xfers.any fun t => t.src == src && t.dst == dst) = false) :=
  ⟨st (up), (0), (1), (false), by decide +kernel⟩

theorem wit_watchdogMiss : ∃ (s : State) (core : Nat),
    let x := s.ctx
    let d := s.view
    (core ≠ 0) ∧
    (core ≤ 6) ∧
    (d.held = false) ∧
    (d.eclipse = false) ∧
    (d.stage ≠ 1) :=
  ⟨st (up), (1), by decide +kernel⟩

theorem wit_hardwareWatchdog : ∃ (s : State) ,
    let x := s.ctx
    let d := s.view
    (d.held = false) ∧
    (d.eclipse = false) :=
  ⟨st (up), by decide +kernel⟩

theorem wit_blockHardwareError_ue : ∃ (s : State) (block typ : Nat),
    let x := s.ctx
    let d := s.view
    (blockOk x.fuses.part block = true) :=
  ⟨st (up), (23068672), (0x21), by decide +kernel⟩

theorem wit_blockHardwareError_ce : ∃ (s : State) (block typ : Nat),
    let x := s.ctx
    let d := s.view
    (blockOk x.fuses.part block = true) :=
  ⟨st (up), (23068672), (0x21), by decide +kernel⟩

theorem wit_qrst : ∃ (s : State) (mask : Nat),
    let x := s.ctx
    let d := s.view
    (d.bar0Cpl x Reg.chipRstCtl = .success) :=
  ⟨st (up), (1), by decide +kernel⟩

theorem wit_quadDrainDone : ∃ (s : State) (q : Nat),
    let x := s.ctx
    let d := s.view
    (q < 4) :=
  ⟨st (up), (0), by decide +kernel⟩

theorem wit_quadPowerGood : ∃ (s : State) (q : Nat),
    let d := s.view
    (q < 4) ∧
    ((d.boot.quadResets.any fun r => r.quad == q && r.stage == 2) = true) :=
  ⟨st (onBoot fun b => { b with quadResets := [⟨0, 2, 0⟩] }), (0), by decide +kernel⟩

theorem wit_quadRefillDone : ∃ (s : State) (q : Nat),
    let x := s.ctx
    let d := s.view
    (q < 4) ∧
    ((d.keeper (q + 1)).aligned = true) ∧
    ((d.boot.quadResets.any fun r => r.quad == q && r.stage == 3) = true) :=
  ⟨st ({ (onBoot fun b => { b with quadResets := [⟨0, 3, 0⟩] }) with time := { up.time with quads := List.replicate 4 { Timekeeper.reset with aligned := true } } }), (0), by decide +kernel⟩

theorem wit_quadRejoinTimeout : ∃ (s : State) (q : Nat),
    let x := s.ctx
    let d := s.view
    (q < 4) ∧
    ((d.boot.quadResets.any fun r => r.quad == q && r.stage != 1 && decide (r.since + 50000000 ≤ d.now)) = true) :=
  ⟨st (late (onBoot fun b => { b with quadResets := [⟨0, 2, 0⟩] })), (0), by decide +kernel⟩

theorem wit_blockIdleAck : ∃ (s : State) (block : Nat) (b : BlockReset),
    let x := s.ctx
    let d := s.view
    (d.blockPending block = some b) :=
  ⟨st (onBoot fun b => { b with blockResets := [⟨0x1800000, 0, 0⟩] }), (0x1800000), (⟨0x1800000, 0, 0⟩), by decide +kernel⟩

theorem wit_blockForcedReset : ∃ (s : State) (block : Nat) (b : BlockReset),
    let x := s.ctx
    let d := s.view
    (d.blockPending block = some b) ∧
    ((s.pending.any (acksIdle block)) = false) :=
  ⟨st (onBoot fun b => { b with blockResets := [⟨0x1800000, 0, 0⟩] }), (0x1800000), (⟨0x1800000, 0, 0⟩), by decide +kernel⟩

theorem wit_failedBlockReset_quad : ∃ (s : State) (block q : Nat) (b : BlockReset),
    let x := s.ctx
    let d := s.view
    (d.blockPending block = some b) ∧
    let d1 : Dev := { d with boot := { d.boot with blockResets := d.boot.blockResets.filter fun b => b.block != block } }
    (quadOf block = some q) :=
  ⟨st (onBoot fun b => { b with blockResets := [⟨0x130000, 0, 0⟩] }), (0x130000), (0), (⟨0x130000, 0, 0⟩), by decide +kernel⟩

theorem wit_failedBlockReset_chip : ∃ (s : State) (block : Nat) (b : BlockReset),
    let x := s.ctx
    let d := s.view
    (d.blockPending block = some b) ∧
    let d1 : Dev := { d with boot := { d.boot with blockResets := d.boot.blockResets.filter fun b => b.block != block } }
    (quadOf block = none) :=
  ⟨st (onBoot fun b => { b with blockResets := [⟨0x1800000, 0, 0⟩] }), (0x1800000), (⟨0x1800000, 0, 0⟩), by decide +kernel⟩

theorem wit_compressionPassStart : ∃ (s : State) (page : PKey),
    let x := s.ctx
    let d := s.view
    (d.nextPass x (homeOf x.fuses.part page).1 = some page) :=
  ⟨st (onKv fun k => { k with passes := [⟨pkey1, none⟩], pages := [(pkey1, page1)] }), (pkey1), by decide +kernel⟩

theorem wit_compressionHeaderSwap : ∃ (s : State) (page : PKey) (p : CompPass) (h : Page) (slot : Nat),
    let x := s.ctx
    let d := s.view
    ((d.kv.passes.find? fun p => p.key == page && p.running.isSome) = some p) ∧
    (d.page page = some h) ∧
    (p.running = some slot) ∧
    (d.baseHot (stackOf slot) = false) :=
  ⟨st (onKv fun k => { k with passes := [⟨pkey1, some 0x20030000⟩], pages := [(pkey1, page1)] }), (pkey1), (⟨pkey1, some 0x20030000⟩), (page1), (0x20030000), by decide +kernel⟩

theorem wit_fadeTrialDone_within : ∃ (s : State) (page : PKey) (t : FadeTrial) (p : Page),
    let x := s.ctx
    let d := s.view
    ((d.kv.fades.find? fun f => f.key == page && f.done.isNone) = some t) ∧
    (d.baseHot (stackOf t.slot) = false) ∧
    (d.page page = some p) ∧
    (d.pageBad x page p 256 = false) ∧
    let d1 := d.readFrames p 256
    let f := d1.faded x page p t.target t.slot
    (fle f.1.vErr (d1.reg Reg.sessKvFadeBud) = true) :=
  ⟨st (onKv fun k => { k with fades := [⟨pkey1, .k3s, 0x20030000, none, 0, 0⟩], pages := [(pkey1, page1)] }), (pkey1), (⟨pkey1, .k3s, 0x20030000, none, 0, 0⟩), (page1), by decide +kernel⟩

theorem wit_fadeTrialDone_beyond : ∃ (s : State) (page : PKey) (t : FadeTrial) (p : Page),
    let x := s.ctx
    let d := s.view
    ((d.kv.fades.find? fun f => f.key == page && f.done.isNone) = some t) ∧
    (d.baseHot (stackOf t.slot) = false) ∧
    (d.page page = some p) ∧
    (d.pageBad x page p 256 = false) ∧
    let d1 := d.readFrames p 256
    let f := d1.faded x page p t.target t.slot
    (fle f.1.vErr (d1.reg Reg.sessKvFadeBud) = false) :=
  ⟨st (onKv fun k => { k with fades := [⟨pkey1, .k3s, 0x20030000, none, 0, 0⟩], pages := [(pkey1, { page1 with vErr := 0x7F000000 })] }), (pkey1), (⟨pkey1, .k3s, 0x20030000, none, 0, 0⟩), ({ page1 with vErr := 0x7F000000 }), by decide +kernel⟩

theorem wit_fadeSwap : ∃ (s : State) (page : PKey) (t : FadeTrial) (h : Page) (i : Nat),
    let x := s.ctx
    let d := s.view
    ((d.kv.fades.find? fun f => f.key == page) = some t) ∧
    (t.done = some h) ∧
    (page.owner = .sess i) ∧
    ((d.desc i).state = .idle) ∧
    let d1 := d.dropFade page
    ((d1.page page).isSome = true) :=
  ⟨st (one .idle (onKv fun k => { k with shape := some shape1, fades := [⟨pkey1, .k3s, 0x20030000, some page1, 0, 0⟩], pages := [(pkey1, page1)] })), (pkey1), (⟨pkey1, .k3s, 0x20030000, some page1, 0, 0⟩), (page1), (1), by decide +kernel⟩

theorem wit_comaRowWrite : ∃ (s : State) (idx layer head : Nat) (r : StagedRow),
    let x := s.ctx
    let d := s.view
    ((d.kv.staged.find? fun r => r.idx == idx && r.layer == layer && r.head == head) = some r) ∧
    let w := d.writeStaged x idx layer head
    (w.2 = true) :=
  ⟨st (onKv fun k => { k with staged := [⟨1, 0, 0, 0, ⟨0, 0, [], [], 0, 0, 0, 0, false⟩⟩], pages := [(pkey1, { page1 with kind := .coma })] }), (1), (0), (0), (⟨1, 0, 0, 0, ⟨0, 0, [], [], 0, 0, 0, 0, false⟩⟩), by decide +kernel⟩

theorem wit_tileDispatch : ∃ (s : State) (q ae : Nat),
    let x := s.ctx
    let d := s.view
    (q < 4) ∧
    (ae < 16) ∧
    (d.aeOnline q ae = true) ∧
    (d.aeBusy q ae = false) ∧
    (d.attn.aePendingOffline.contains (q, ae) = false) :=
  ⟨st (up), (0), (0), by decide +kernel⟩

theorem wit_tileComplete : ∃ (s : State) (q ae busyNs n : Nat) (r : LayerReq) (t : WorkTile) (e : AttnEntry),
    let x := s.ctx
    let d := s.view
    ((d.attn.reqs.findSome? fun r => (findPos (fun (t : WorkTile) => t.ae == some (q, ae) && !t.done) r.tiles).map fun n => (r, n)) = some (r, n)) ∧
    (r.tiles[n]? = some t) ∧
    (r.entries[t.entry]? = some e) ∧
    ((t.offload.all fun p => t.scored.contains p) = true) :=
  ⟨st (onAttn fun a => { a with reqs := [{ lreq1 with id := 6, tiles := [(⟨0, 0, 0, 0, 0, .decode 0 1 false, [], some (0, 0), [], [], [], [], false, false, [], false⟩ : WorkTile)], entries := [(⟨1, 1, 1, 0, 0, 0, none, 0, 0, []⟩ : AttnEntry)] }] }), (0), (0), (5), (0), ({ lreq1 with id := 6, tiles := [(⟨0, 0, 0, 0, 0, .decode 0 1 false, [], some (0, 0), [], [], [], [], false, false, [], false⟩ : WorkTile)], entries := [(⟨1, 1, 1, 0, 0, 0, none, 0, 0, []⟩ : AttnEntry)] }), ((⟨0, 0, 0, 0, 0, .decode 0 1 false, [], some (0, 0), [], [], [], [], false, false, [], false⟩ : WorkTile)), ((⟨1, 1, 1, 0, 0, 0, none, 0, 0, []⟩ : AttnEntry)), by decide +kernel⟩

theorem wit_partialArrive : ∃ (s : State) (req entry head tile n : Nat) (r : LayerReq) (t : WorkTile),
    let x := s.ctx
    let d := s.view
    ((d.attn.reqs.find? fun r => r.id == req) = some r) ∧
    ((r.tiles.zipIdx.filter fun t => t.1.entry == entry && t.1.head == head)[tile]? = some (t, n)) ∧
    (t.done = true) ∧
    (t.delivered = false) :=
  ⟨st (onAttn fun a => { a with reqs := [{ lreq1 with id := 6, tiles := [(⟨0, 0, 0, 0, 0, .decode 0 1 false, [], none, [], [], [], [], false, true, [], false⟩ : WorkTile)], entries := [(⟨1, 1, 1, 0, 0, 0, none, 0, 0, []⟩ : AttnEntry)] }] }), (6), (0), (0), (0), (0), ({ lreq1 with id := 6, tiles := [(⟨0, 0, 0, 0, 0, .decode 0 1 false, [], none, [], [], [], [], false, true, [], false⟩ : WorkTile)], entries := [(⟨1, 1, 1, 0, 0, 0, none, 0, 0, []⟩ : AttnEntry)] }), ((⟨0, 0, 0, 0, 0, .decode 0 1 false, [], none, [], [], [], [], false, true, [], false⟩ : WorkTile)), by decide +kernel⟩

theorem wit_scorePageDone : ∃ (s : State) (req entry head tile page n : Nat) (r : LayerReq) (t : WorkTile),
    let x := s.ctx
    let d := s.view
    ((d.attn.reqs.find? fun r => r.id == req) = some r) ∧
    (findPos (fun (t : WorkTile) => t.entry == entry && t.head == head && t.order == tile && t.offload.contains page && !(t.scored.contains page)) r.tiles = some n) ∧
    (r.tiles[n]? = some t) :=
  ⟨st (onAttn fun a => { a with reqs := [{ lreq1 with id := 6, tiles := [(⟨0, 0, 0, 0, 0, .decode 0 1 false, [], none, [], [], [0], [], false, false, [], false⟩ : WorkTile)], entries := [(⟨1, 1, 1, 0, 0, 0, none, 0, 0, []⟩ : AttnEntry)] }] }), (6), (0), (0), (0), (0), (0), ({ lreq1 with id := 6, tiles := [(⟨0, 0, 0, 0, 0, .decode 0 1 false, [], none, [], [], [0], [], false, false, [], false⟩ : WorkTile)], entries := [(⟨1, 1, 1, 0, 0, 0, none, 0, 0, []⟩ : AttnEntry)] }), ((⟨0, 0, 0, 0, 0, .decode 0 1 false, [], none, [], [], [0], [], false, false, [], false⟩ : WorkTile)), by decide +kernel⟩

theorem wit_aeOfflineReq : ∃ (s : State) (q ae : Nat),
    let x := s.ctx
    let d := s.view
    (q < 4) ∧
    (ae < 16) ∧
    (d.bar0Cpl x (Reg.qdAeCtl q ae) = .success) :=
  ⟨st (up), (0), (0), by decide +kernel⟩

theorem wit_aeOnlineReq : ∃ (s : State) (q ae : Nat),
    let x := s.ctx
    let d := s.view
    (q < 4) ∧
    (ae < 16) ∧
    (d.bar0Cpl x (Reg.qdAeCtl q ae) = .success) :=
  ⟨st (up), (0), (0), by decide +kernel⟩

theorem wit_parkWritesDone_park : ∃ (s : State) (idx : Nat) (p : ParkOp),
    let x := s.ctx
    let d := s.view
    ((d.tier.parks.find? fun p => p.idx == idx && p.waiting == 0) = some p) ∧
    ((d.tier.movesIn.find? fun (m : MoveIn) => m.idx == idx) = none) :=
  ⟨st (onTier fun t => { t with parks := [park1] }), (1), (park1), by decide +kernel⟩

theorem wit_parkWritesDone_move : ∃ (s : State) (idx : Nat) (p : ParkOp) (m : MoveIn),
    let x := s.ctx
    let d := s.view
    ((d.tier.parks.find? fun p => p.idx == idx && p.waiting == 0) = some p) ∧
    ((d.tier.movesIn.find? fun (m : MoveIn) => m.idx == idx) = some m) :=
  ⟨st (onTier fun t => { t with parks := [park1], movesIn := [min1] }), (1), (park1), (min1), by decide +kernel⟩

theorem wit_reviveReserved : ∃ (s : State) (idx : Nat) (r : ReviveOp) (m : Manifest) (c : ParkedImage) (d1 : Dev),
    let x := s.ctx
    let d := s.view
    ((d.tier.revives.find? fun r => r.idx == idx && !r.reserved) = some r) ∧
    (tblGet idx d.tier.manifests = some m) ∧
    (tblGet idx d.tier.images = some c) ∧
    (d.reserveT1 x r.idx c = some d1) := by
  obtain ⟨d1, h⟩ := allocAll_two sRevive.view (.sess 1) .root .gstack rfl rfl (by decide +kernel) (by decide +kernel) (by decide +kernel)
    (by decide +kernel)
  refine ⟨sRevive, 1, revive1 false, man1 false, image1, d1.linkTables sRevive.ctx 1 none, by decide +kernel, by decide +kernel,
    by decide +kernel, ?_⟩
  have hk : ([AreaKind.root, .gstack] ++ (if image1.lists.isSome then [AreaKind.lists] else []) ++
    (List.range sRevive.view.shape.layers).map AreaKind.dir) = [.root, .gstack] := by decide +kernel
  show sRevive.view.reserveT1 sRevive.ctx 1 image1 = _
  unfold Dev.reserveT1
  simp only [hk, h]
  rfl

theorem wit_reviveTile : ∃ (s : State) (idx n : Nat) (ok : Bool) (r : ReviveOp) (m : Manifest) (c : ParkedImage),
    let x := s.ctx
    let d := s.view
    ((d.tier.revives.find? fun r => r.idx == idx) = some r) ∧
    (tblGet idx d.tier.manifests = some m) ∧
    (tblGet idx d.tier.images = some c) ∧
    (r.reserved = true) ∧
    (r.landed.contains n = false) ∧
    (n < partsOf m.image m.tiles m.bytes) :=
  ⟨st (onTier fun t => { t with revives := [revive1 true], manifests := [(1, man1 false)], images := [(1, image1)] }), (1), (0), (true), (revive1 true), (man1 false), (image1), by decide +kernel⟩

theorem wit_pressureEviction : ∃ (s : State) ,
    let x := s.ctx
    let d := s.view
    (d.freeBelow x (d.fld Reg.sessPoolWater 0 8) = true) :=
  ⟨st (onKv (fun k => { k with shape := some shape1, pool := { k.pool with reserved := (List.range 12).map fun s => (1, s, 1000000000) } }) (up.setReg Reg.sessPoolWater 10)), by decide +kernel⟩

theorem wit_slotRetire : ∃ (s : State) (slot : Nat),
    let x := s.ctx
    let d := s.view
    (d.slotFails slot = true) :=
  ⟨st (onKv (fun k => { k with pool := { k.pool with ce := [(0x20000000, 0, 200)] } }) (up.setReg Reg.sessRetireCtl 100)), (0x20000000), by decide +kernel⟩

theorem wit_retirementCopy : ∃ (s : State) (slot : Nat) (u : SlotUse) (p : Page),
    let x := s.ctx
    let d := s.view
    (d.kv.pool.retiring.contains slot = true) ∧
    (d.bulkHeld (stackOf slot) = false) ∧
    ((d.kv.pool.used.find? fun u => u.addr == slot) = some u) ∧
    (d.page u.key = some p) ∧
    (d.copyable u.key.owner = true) ∧
    (d.capturing u.key.owner = false) ∧
    (d.tileBad x u.key p (d.lenBefore u.key.owner.index) = false) :=
  ⟨st (onKv (fun k => { k with shape := some shape1, pages := [(pkey1, page1)], pool := { k.pool with retiring := [0x20000000], used := [⟨0x20000000, pkey1⟩] } }) (one .idle)), (0x20000000), (⟨0x20000000, pkey1⟩), (page1), by decide +kernel⟩

theorem wit_kvImportExportEnd : ∃ (s : State) (idx : Nat) (o : ImpExp),
    let x := s.ctx
    let d := s.view
    ((d.kv.impexp.find? fun o => o.idx == idx) = some o) :=
  ⟨st (onKv fun k => { k with impexp := [⟨1, true, 1, 4, 4, 0, 0x20000000, cmd1⟩] }), (1), (⟨1, true, 1, 4, 4, 0, 0x20000000, cmd1⟩), by decide +kernel⟩

theorem wit_moveOffer_meets : ∃ (s : State) (offer : MoveOffer) (m : MoveIn),
    let x := s.ctx
    let d := s.view
    ((d.tier.movesIn.find? fun m => m.meets offer) = some m) :=
  ⟨st (onTier fun t => { t with movesIn := [min1] }), (offer1), (min1), by decide +kernel⟩

theorem wit_moveOffer_waits : ∃ (s : State) (offer : MoveOffer),
    let d := s.view
    ((d.tier.movesIn.find? fun m => m.meets offer) = none) :=
  ⟨st (up), (offer1), by decide +kernel⟩

theorem wit_moveAccept : ∃ (s : State) (tag src ringB : Nat) (addrs : List Nat) (m : MoveOut),
    let x := s.ctx
    let d := s.view
    ((d.moveOut fun m => m.tag == tag && m.dest == src && !m.accepted) = some m) ∧
    (tblGet m.idx d.tier.manifests = none) ∧
    let f := d.moveContent x m.idx m.flat
    (f.2 = false) ∧
    let sent := d.sendContent m f.1
    (sent.2 = true) ∧
    (m.ring = none) :=
  ⟨st (onTier (fun t => { t with movesOut := [mout1] }) ((one .transit (portAt 3)).setReg (Reg.fabRouteNode 1) 0x80000000)), (5), (33), (0), ([]), (mout1), by decide +kernel⟩

theorem wit_moveReject : ∃ (s : State) (tag : Nat) (status : Status) (m : MoveOut),
    let x := s.ctx
    let d := s.view
    ((d.moveOut fun m => m.tag == tag && !m.accepted) = some m) ∧
    (m.ring = none) :=
  ⟨st (onTier (fun t => { t with movesOut := [mout1] })), (5), (.REFUSED_STATE), (mout1), by decide +kernel⟩

theorem wit_moveTile_in : ∃ (s : State) (tag src : Nat) (item : MoveItem) (m : MoveIn) (o : MoveOffer),
    let x := s.ctx
    let d := s.view
    ((match item with | .again _ => false | _ => true) = true) ∧
    ((d.tier.movesIn.find? fun m => m.tag == tag && m.src == src && !m.held && !(d.tier.parks.any fun p => p.idx == m.idx)) = some m) ∧
    (m.offer = some o) :=
  ⟨st (onTier fun t => { t with movesIn := [{ min1 with offer := some offer1 }] }), (5), (33), (.extras [] none), ({ min1 with offer := some offer1 }), (offer1), by decide +kernel⟩

theorem wit_moveTile_again : ∃ (s : State) (tag src n : Nat) (m : MoveOut),
    let x := s.ctx
    let d := s.view
    ((d.moveOut fun m => m.tag == tag && m.dest == src && m.sentAll) = some m) :=
  ⟨st (onTier (fun t => { t with movesOut := [{ mout1 with sentAll := true }] })), (5), (33), (0), ({ mout1 with sentAll := true }), by decide +kernel⟩

theorem wit_moveDone : ∃ (s : State) (tag src gen : Nat) (m : MoveOut),
    let x := s.ctx
    let d := s.view
    ((d.moveOut fun m => m.tag == tag && (m.dest == src || m.ring.isSome)) = some m) ∧
    (m.accepted = true) ∧
    (m.ring = none) :=
  ⟨st (onTier (fun t => { t with movesOut := [{ mout1 with accepted := true }] })), (5), (33), (0), ({ mout1 with accepted := true }), by decide +kernel⟩

theorem wit_moveAbort_in : ∃ (s : State) (tag peer : Nat) (status : Status) (m : MoveIn),
    let x := s.ctx
    let d := s.view
    ((d.tier.movesIn.find? fun m => m.tag == tag && (m.src == peer || m.ring.isSome)) = some m) ∧
    (m.src = peer) ∧
    (m.ring = none) :=
  ⟨st (onTier fun t => { t with movesIn := [min1] }), (5), (33), (.CANCELLED), (min1), by decide +kernel⟩

theorem wit_moveAbort_unknown : ∃ (s : State) (tag peer : Nat) (status : Status),
    let d := s.view
    ((d.tier.movesIn.find? fun m => m.tag == tag && (m.src == peer || m.ring.isSome)) = none) ∧
    ((d.moveOut fun m => m.tag == tag && (m.dest == peer || m.ring.isSome)) = none) ∧
    ((d.tier.outcomes.any fun o => o.1 == tag && o.2) = false) :=
  ⟨st (up), (5), (33), (.CANCELLED), by decide +kernel⟩

theorem wit_moveAbort_out : ∃ (s : State) (tag peer : Nat) (status : Status) (m : MoveOut),
    let x := s.ctx
    let d := s.view
    ((d.tier.movesIn.find? fun m => m.tag == tag && (m.src == peer || m.ring.isSome)) = none) ∧
    ((d.moveOut fun m => m.tag == tag && (m.dest == peer || m.ring.isSome)) = some m) ∧
    (m.ring = none) :=
  ⟨st (onTier (fun t => { t with movesOut := [mout1] })), (5), (33), (.CANCELLED), (mout1), by decide +kernel⟩

theorem wit_moveStatus_committed : ∃ (s : State) (tag src k : Nat),
    let d := s.view
    ((d.tier.movesIn.any fun m => m.tag == tag && m.src == src) = false) ∧
    ((d.tier.outcomes.find? fun o => o.1 == tag) = some (k, true)) :=
  ⟨st (onTier fun t => { t with outcomes := [(5, true)] }), (5), (33), (5), by decide +kernel⟩

theorem wit_moveStatus_unknown : ∃ (s : State) (tag src : Nat),
    let d := s.view
    ((d.tier.movesIn.any fun m => m.tag == tag && m.src == src) = false) ∧
    ((d.tier.outcomes.find? fun o => o.1 == tag) = none) :=
  ⟨st (up), (5), (33), by decide +kernel⟩

theorem wit_moveStatusAnswer_committed : ∃ (s : State) (tag : Nat) (m : MoveOut),
    let x := s.ctx
    let d := s.view
    ((d.moveOut fun m => m.tag == tag && (m.sentAll || m.cancel.isSome)) = some m) ∧
    (m.unresolved = false) :=
  ⟨st (onTier (fun t => { t with movesOut := [{ mout1 with sentAll := true }] })), (5), ({ mout1 with sentAll := true }), by decide +kernel⟩

theorem wit_moveStatusAnswer_aborted : ∃ (s : State) (tag : Nat) (m : MoveOut),
    let x := s.ctx
    let d := s.view
    ((d.moveOut fun m => m.tag == tag && (m.sentAll || m.cancel.isSome)) = some m) ∧
    (m.unresolved = false) :=
  ⟨st (onTier (fun t => { t with movesOut := [{ mout1 with sentAll := true }] })), (5), ({ mout1 with sentAll := true }), by decide +kernel⟩

theorem wit_moveResolveTimeout : ∃ (s : State) (tag : Nat) (m : MoveOut),
    let x := s.ctx
    let d := s.view
    ((d.moveOut fun m => m.tag == tag && (m.sentAll || m.cancel.isSome) && !m.unresolved && (match m.cancel with | some (_, t) => t | none => m.sentAt) + d.fld Reg.sessMoveTo 16 16 * 1000000 ≤ d.now) = some m) ∧
    (m.cancel = none) :=
  ⟨st (late (onTier (fun t => { t with movesOut := [{ mout1 with sentAll := true }] }))), (5), ({ mout1 with sentAll := true }), by decide +kernel⟩

theorem wit_moveInTimeout : ∃ (s : State) (tag : Nat) (m : MoveIn),
    let x := s.ctx
    let d := s.view
    ((d.tier.movesIn.find? fun m => m.tag == tag && m.offer.isNone && m.since + d.fld Reg.sessMoveTo 0 16 * 1000000 ≤ d.now) = some m) :=
  ⟨st (late (onTier fun t => { t with movesIn := [min1] })), (5), (min1), by decide +kernel⟩

theorem wit_moveOfferTimeout : ∃ (s : State) (tag : Nat) (o : MoveOffer × Ns),
    let d := s.view
    let late := fun (o : MoveOffer × Ns) => o.1.tag == tag && o.2 + d.fld Reg.sessMoveTo 0 16 * 1000000 ≤ d.now
    ((d.tier.offersWaiting.find? late) = some o) :=
  ⟨st (late (onTier fun t => { t with offersWaiting := [(offer1, 0)] })), (5), ((offer1, 0)), by decide +kernel⟩

theorem wit_lendOfferTick : ∃ (s : State) ,
    let x := s.ctx
    let d := s.view
    (d.tier.offeredAt + 10000000 ≤ d.now) ∧
    (bit (d.reg Reg.sessLendCtl) 31 = true) ∧
    (d.fld Reg.sessPoolWater 24 8 * d.poolSlots x < d.poolFree x * 100) :=
  ⟨st (late (onKv (fun k => { k with shape := some shape1 }) ((up.setReg Reg.sessLendCtl 0xC0000004).setReg Reg.sessPoolWater 0x14000000))), by decide +kernel⟩

theorem wit_offer : ∃ (s : State) (lender units recallable : Nat),
    let d := s.view
    (bit (d.reg Reg.sessLendCtl) 30 = true) ∧
    (0 < units) := ⟨st (up.setReg Reg.sessLendCtl 0x40000000), 33, 1, 0, by decide +kernel, by decide +kernel⟩

theorem wit_loanReq : ∃ (s : State) (borrower units : Nat),
    let x := s.ctx
    let d := s.view
    let d1 := d.contact borrower
    let n := min units (d1.lendable x)
    (n ≠ 0) ∧
    (d1.tier.lent.length < 256) :=
  ⟨st (onKv (fun k => { k with shape := some shape1 }) ((up.setReg Reg.sessLendCtl 0xC0000004).setReg Reg.sessPoolWater 0x14000000)), (33), (1), by decide +kernel⟩

theorem wit_loanGrant : ∃ (s : State) (lender number w : Nat) (units : List Nat),
    let d := s.view
    ((d.windowOf lender).or ((List.range 64).find? fun w => !(bit (d.reg (Reg.fabWin w)) 31)) = some w) :=
  ⟨st (up), (33), (2), (0), ([0]), by decide +kernel⟩

theorem wit_revoke : ∃ (s : State) (lender number unit : Nat),
    let x := s.ctx
    let d := s.view
    ((d.tier.borrowed.any fun l => l.peer == lender && l.number == number && l.units.contains unit) = true) :=
  ⟨st (onTier fun t => { t with borrowed := [loan1] }), (33), (2), (0), by decide +kernel⟩

theorem wit_release : ∃ (s : State) (borrower number unit : Nat),
    let d := s.view
    let d1 := d.contact borrower
    (d1.isLent borrower number unit = true) :=
  ⟨st (onTier fun t => { t with lent := [loan1] }), (33), (2), (0), by decide +kernel⟩

theorem wit_loanVoid : ∃ (s : State) (peer number : Nat) (l : Loan),
    let x := s.ctx
    let d := s.view
    ((d.tier.borrowed.find? fun l => l.peer == peer && l.number == number) = some l) :=
  ⟨st (onTier fun t => { t with borrowed := [loan1] }), (33), (2), (loan1), by decide +kernel⟩

theorem wit_evacuationDeadline : ∃ (s : State) (lender number unit : Nat),
    let x := s.ctx
    let d := s.view
    ((d.tier.borrowed.any fun l => l.peer == lender && l.number == number && (match l.revoking with | some (u, t) => u == unit && decide (t + 20000000 ≤ d.now) | none => false)) = true) :=
  ⟨st (late (onTier fun t => { t with borrowed := [{ loan1 with revoking := some (1, 0) }] })), (33), (2), (1), by decide +kernel⟩

theorem wit_revokeReclaim : ∃ (s : State) (borrower number unit : Nat),
    let d := s.view
    ((d.tier.lent.any fun l => l.peer == borrower && l.number == number && (match l.revoking with | some (u, t) => u == unit && decide (t + 21000000 ≤ d.now) | none => false)) = true) :=
  ⟨st (late (onTier fun t => { t with lent := [{ loan1 with revoking := some (1, 0) }] })), (33), (2), (1), by decide +kernel⟩

theorem wit_loanRevokeTrigger : ∃ (s : State) ,
    let x := s.ctx
    let d := s.view
    (d.freeBelow x (d.fld Reg.sessPoolWater 16 8) = true) :=
  ⟨st (onTier (fun t => { t with lent := [loan1] }) (onKv (fun k => { k with shape := some shape1, pool := { k.pool with reserved := (List.range 12).map fun s => (1, s, 1000000000) } }) (up.setReg Reg.sessPoolWater 0xA0000))), by decide +kernel⟩

theorem wit_maskPrefetch : ∃ (s : State) (k : MaskKey) (rest : List MaskKey),
    let d := s.view
    (d.tail.prefetch = k :: rest) ∧
    (d.tail.pipes.any (·.up) = true) :=
  ⟨st (onTail fun t => { t with prefetch := [⟨0, 0, 0, false⟩], pipes := List.replicate 4 ⟨0, false, false⟩ }), (⟨0, 0, 0, false⟩), ([]), by decide +kernel⟩

theorem wit_deltaTileComplete : ∃ (s : State) (req n k a : Nat) (q : TailReq) (t : DeltaTile),
    let x := s.ctx
    let d := s.view
    ((d.tail.reqs.find? fun q => q.id == req) = some q) ∧
    (q.deltas[n]? = some t) ∧
    (t.ae = some (k, a)) ∧
    (t.done = false) :=
  ⟨st (onTail (fun t => { t with reqs := [(⟨6, .hp cmd1, 0, 3, 900, 0, 0, 256, [], [(⟨1, 1, 0, 0, false, 0, 0, .waiting, none, 0, 0, 0, 0, 0, 0, 0, []⟩ : TailEntry)], [(⟨0, 1, 0, 1, [0], [], some (0, 0), false, false, []⟩ : DeltaTile)], 1⟩ : TailReq)] })), (6), (0), (0), (0), ((⟨6, .hp cmd1, 0, 3, 900, 0, 0, 256, [], [(⟨1, 1, 0, 0, false, 0, 0, .waiting, none, 0, 0, 0, 0, 0, 0, 0, []⟩ : TailEntry)], [(⟨0, 1, 0, 1, [0], [], some (0, 0), false, false, []⟩ : DeltaTile)], 1⟩ : TailReq)), ((⟨0, 1, 0, 1, [0], [], some (0, 0), false, false, []⟩ : DeltaTile)), by decide +kernel⟩

theorem wit_tailEntryRun : ∃ (s : State) (req entry pipe : Nat) (q : TailReq) (e : TailEntry),
    let x := s.ctx
    let d := s.view
    ((d.tail.reqs.find? fun q => q.id == req) = some q) ∧
    (q.entries[entry]? = some e) ∧
    (pipe < 4) ∧
    ((d.pipe pipe).up = true) ∧
    ((d.pipe pipe).pendingOff = false) ∧
    (d.pipeBusy pipe = false) ∧
    (d.pipeResets pipe = false) ∧
    (d.tailReady q entry e = true) ∧
    ((d.tail.reqs.any fun r => (decide (r.deadline < q.deadline) || (r.deadline == q.deadline && decide (r.booking < q.booking))) && r.entries.zipIdx.any fun a => d.tailReady r a.2 a.1) = false) :=
  ⟨st (onTail (fun t => { t with reqs := [(⟨6, .hp cmd1, 0, 3, 900, 0, 0, 256, [], [(⟨1, 1, 0, 0, false, 0, 0, .waiting, none, 0, 0, 0, 0, 0, 0, 0, []⟩ : TailEntry)], [], 1⟩ : TailReq)] }) (onSess fun s => { s with batches := [{ batch1 with layers := 0 }], steps := [⟨1, none, [], [], true, 0, 0, none⟩] })), (6), (0), (0), ((⟨6, .hp cmd1, 0, 3, 900, 0, 0, 256, [], [(⟨1, 1, 0, 0, false, 0, 0, .waiting, none, 0, 0, 0, 0, 0, 0, 0, []⟩ : TailEntry)], [], 1⟩ : TailReq)), ((⟨1, 1, 0, 0, false, 0, 0, .waiting, none, 0, 0, 0, 0, 0, 0, 0, []⟩ : TailEntry)), by decide +kernel⟩

theorem wit_hookReply : ∃ (s : State) (req entry token rngAdv : Nat) (q : TailReq) (e : TailEntry),
    let x := s.ctx
    let d := s.view
    (d.hooked req entry = some (q, e)) ∧
    let posted := match e.stage with | .hook _ t _ _ => t | _ => d.now
    (d.now ≤ posted + d.fld Reg.tailHookCtl 0 16) :=
  ⟨st (onTail (fun t => { t with reqs := [(⟨6, .hp cmd1, 0, 3, 900, 0, 0, 256, [], [(⟨1, 1, 0, 0, false, 0, 0, .hook 0 0 false 0, none, 0, 0, 0, 0, 0, 0, 0, []⟩ : TailEntry)], [], 1⟩ : TailReq)] })), (6), (0), (1), (0), ((⟨6, .hp cmd1, 0, 3, 900, 0, 0, 256, [], [(⟨1, 1, 0, 0, false, 0, 0, .hook 0 0 false 0, none, 0, 0, 0, 0, 0, 0, 0, []⟩ : TailEntry)], [], 1⟩ : TailReq)), ((⟨1, 1, 0, 0, false, 0, 0, .hook 0 0 false 0, none, 0, 0, 0, 0, 0, 0, 0, []⟩ : TailEntry)), by decide +kernel⟩

theorem wit_hookDeadline : ∃ (s : State) (req entry p builtin : Nat) (posted : Ns) (dead : Bool) (q : TailReq) (e : TailEntry),
    let x := s.ctx
    let d := s.view
    (d.hooked req entry = some (q, e)) ∧
    (e.stage = .hook p posted dead builtin) ∧
    (posted + d.fld Reg.tailHookCtl 0 16 ≤ d.now) :=
  ⟨st (late (onTail (fun t => { t with reqs := [(⟨6, .hp cmd1, 0, 3, 900, 0, 0, 256, [], [(⟨1, 1, 0, 0, false, 0, 0, .hook 0 0 false 0, none, 0, 0, 0, 0, 0, 0, 0, []⟩ : TailEntry)], [], 1⟩ : TailReq)] }))), (6), (0), (0), (0), (0), (false), ((⟨6, .hp cmd1, 0, 3, 900, 0, 0, 256, [], [(⟨1, 1, 0, 0, false, 0, 0, .hook 0 0 false 0, none, 0, 0, 0, 0, 0, 0, 0, []⟩ : TailEntry)], [], 1⟩ : TailReq)), ((⟨1, 1, 0, 0, false, 0, 0, .hook 0 0 false 0, none, 0, 0, 0, 0, 0, 0, 0, []⟩ : TailEntry)), by decide +kernel⟩

theorem wit_pipeOfflineReq : ∃ (s : State) (p : Nat),
    let x := s.ctx
    let d := s.view
    (p < 4) ∧
    (d.bar0Cpl x Reg.tailPipeCtl = .success) ∧
    let d1 := d.setFld Reg.tailPipeCtl p 1 1
    ((d1.pipe p).offline = false) :=
  ⟨st (up), (0), by decide +kernel⟩

theorem wit_pipeOnlineReq : ∃ (s : State) (p : Nat),
    let x := s.ctx
    let d := s.view
    (p < 4) ∧
    (d.bar0Cpl x Reg.tailPipeCtl = .success) ∧
    let d1 := (d.setFld Reg.tailPipeCtl (4 + p) 1 1).setFld Reg.tailPipeCtl (4 + p) 1 0
    ((d1.pipe p).offline = true) ∧
    ((d1.pipe p).cause = 1) :=
  ⟨st (onTail fun t => { t with pipes := List.replicate 4 ⟨1, true, false⟩ }), (0), by decide +kernel⟩

theorem wit_textOfflineReq : ∃ (s : State) (q : Nat),
    let x := s.ctx
    let d := s.view
    (q < 8) ∧
    (d.bar0Cpl x Reg.textEngCtl = .success) ∧
    let d1 := (d.setFld Reg.textEngCtl q 1 1).setFld Reg.textEngCtl q 1 0
    ((getAt Pipe.reset q d1.text.engines).offline = false) :=
  ⟨st (up), (0), by decide +kernel⟩

theorem wit_textOnlineReq : ∃ (s : State) (q : Nat),
    let x := s.ctx
    let d := s.view
    (q < 8) ∧
    (d.bar0Cpl x Reg.textEngCtl = .success) ∧
    let d1 := (d.setFld Reg.textEngCtl (8 + q) 1 1).setFld Reg.textEngCtl (8 + q) 1 0
    ((getAt Pipe.reset q d1.text.engines).offline = true) ∧
    ((getAt Pipe.reset q d1.text.engines).cause = 1) :=
  ⟨st (onText fun t => { t with engines := List.replicate 8 ⟨1, true, false⟩ }), (0), by decide +kernel⟩

theorem wit_recallScanDone : ∃ (s : State) (query n list engine : Nat) (k : QueryCmd) (ix : Index) (q : Query),
    let x := s.ctx
    let d := s.view
    ((d.rcl.queries.find? fun c => c.id == query) = some k) ∧
    (d.index k.index = some ix) ∧
    (k.queries[n]? = some q) ∧
    (d.domainUp .rcl = true) ∧
    (q.status = none) ∧
    (q.todo.contains (list, engine) = true) ∧
    (d.scanHeld engine = false) :=
  ⟨st (onRcl fun r => { r with indexes := [(0, index1 .ready)], queries := [qcmd1] }), (1), (0), (0), (0), (qcmd1), (index1 .ready), (query1), by decide +kernel⟩

theorem wit_recallQueryTimeout : ∃ (s : State) (query : Nat) (k : QueryCmd),
    let x := s.ctx
    let d := s.view
    ((d.rcl.queries.find? fun c => c.id == query) = some k) ∧
    (k.since + d.fld Reg.recallCtl 16 16 * 1000000 ≤ d.now) :=
  ⟨st (late (onRcl fun r => { r with queries := [qcmd1] })), (1), (qcmd1), by decide +kernel⟩

theorem wit_recallFold : ∃ (s : State) (index row : Nat),
    let x := s.ctx
    let d := s.view
    (d.rclWorks = true) :=
  ⟨st (up), (0), (0), by decide +kernel⟩

theorem wit_compactionStart : ∃ (s : State) (index : Nat) (ix : Index),
    let d := s.view
    (d.index index = some ix) ∧
    (d.rclWorks = true) :=
  ⟨st (rclAt .ready), (0), (index1 .ready), by decide +kernel⟩

theorem wit_compactionPublish : ∃ (s : State) (index : Nat) (ix : Index) (p : Compaction),
    let x := s.ctx
    let d := s.view
    (d.index index = some ix) ∧
    ((d.rcl.compactions.find? fun p => p.index == index && p.started) = some p) ∧
    (d.rclWorks = true) :=
  ⟨st (onRcl fun r => { r with indexes := [(0, index1 .ready)], compactions := [⟨0, true, [], [], none⟩] }), (0), (index1 .ready), (⟨0, true, [], [], none⟩), by decide +kernel⟩

theorem wit_qeOfflineReq : ∃ (s : State) (e : Nat),
    let x := s.ctx
    let d := s.view
    (e < 4) ∧
    (d.bar0Cpl x Reg.recallEngCtl = .success) ∧
    let d1 := d.setFld Reg.recallEngCtl e 1 1
    ((getAt Pipe.reset e d1.rcl.engines).offline = false) :=
  ⟨st (up), (0), by decide +kernel⟩

theorem wit_qeOnlineReq : ∃ (s : State) (e : Nat),
    let x := s.ctx
    let d := s.view
    (e < 4) ∧
    (d.bar0Cpl x Reg.recallEngCtl = .success) ∧
    let d1 := (d.setFld Reg.recallEngCtl (4 + e) 1 1).setFld Reg.recallEngCtl (4 + e) 1 0
    ((getAt Pipe.reset e d1.rcl.engines).offline = true) ∧
    ((getAt Pipe.reset e d1.rcl.engines).cause = 1) :=
  ⟨st (onRcl fun t => { t with engines := List.replicate 4 ⟨1, true, false⟩ }), (0), by decide +kernel⟩

theorem wit_ckptSchedule_runs : ∃ (s : State) ,
    let x := s.ctx
    let d := s.view
    let period := d.fld Reg.ckptCtl 16 16 * 1000000000
    (period ≠ 0) ∧
    (d.ckpt.schedAt / period < d.now / period) ∧
    let d1 : Dev := { d with ckpt := { d.ckpt with schedAt := d.now } }
    (d1.ckpt.run = none) :=
  ⟨st (late (up.setReg Reg.ckptCtl 0x10000)), by decide +kernel⟩

theorem wit_ckptSchedule_skips : ∃ (s : State) ,
    let d := s.view
    let period := d.fld Reg.ckptCtl 16 16 * 1000000000
    (period ≠ 0) ∧
    (d.ckpt.schedAt / period < d.now / period) ∧
    let d1 : Dev := { d with ckpt := { d.ckpt with schedAt := d.now } }
    (d1.ckpt.run.isSome = true) :=
  ⟨st (late (onCkpt (fun c => { c with run := some ckrun1 }) (up.setReg Reg.ckptCtl 0x10000))), by decide +kernel⟩

theorem wit_failureWarning : ∃ (s : State) ,
    let x := s.ctx
    let d := s.view
    (d.fld Reg.ckptWarnCtl 0 16 ≠ 0) ∧
    (d.fld Reg.ckptWarnCtl 0 16 ≤ d.err.warnCount) ∧
    (d.ckpt.warnedWin ≠ some d.err.warnWin) ∧
    let d1 : Dev := { d with ckpt := { d.ckpt with warnedWin := some d.err.warnWin } }
    let d2 := (d1.bump Reg.ckptWarnCnt 1).event x 2 d1.err.warnCount (d1.fld Reg.ckptWarnCtl 16 16) (d.err.warnWin * d1.warnWindow)
    (d2.ckpt.warnStart = none) ∧
    (d2.ckpt.run = none) :=
  ⟨st (onErr (fun e => { e with warnCount := 5 }) (up.setReg Reg.ckptWarnCtl 0x10005)), by decide +kernel⟩

theorem wit_ckptRunTimeout : ∃ (s : State) (r : CkRun),
    let x := s.ctx
    let d := s.view
    (d.ckpt.run = some r) ∧
    (r.since + d.fld Reg.ckptRunTo 0 16 * 1000000000 ≤ d.now) :=
  ⟨st (late (onCkpt fun c => { c with run := some ckrun1 })), (ckrun1), by decide +kernel⟩

theorem wit_portTrained : ∃ (s : State) (port lanes nonce : Nat),
    let d := s.view
    (d.portOn port = true) ∧
    (d.portState port = 1) ∧
    (lanes &&& d.ownLanes port = d.ownLanes port) :=
  ⟨st (portAt 1), (0), (255), (0), by decide +kernel⟩

theorem wit_init : ∃ (s : State) (port : Nat) (init : InitFlit),
    let x := s.ctx
    let d := s.view
    (d.portOn port = true) ∧
    (d.portState port = 2) ∧
    ((d.port port).initDone = false) ∧
    (d.initRefused port init = false) ∧
    let own := match (d.port port).keys with | some k => k.1 | none => 0
    let keys := if init.enc == 1 then some (d.portKeys x own init) else none
    let d1 := d.setPort port fun P => { P with initDone := true, peerEnc := init.enc, peerMask := init.mask % 256, credits := init.credits.take 6, keys := keys, bringUps := P.bringUps + 1, txCount := 0, rxCount := 0, rxExpect := 1 }
    let d2 := (d1.setReg (Reg.cvfPeer port) (init.kind % 256 * 2 ^ 24 + init.addr % 65536)).setWidth x port
    (d2.portWidth port ≠ 0) :=
  ⟨st (portAt 2), (0), (⟨33, 1, 255, [18, 18, 18, 18, 18, 18], 1, 0, 0⟩), by decide +kernel⟩

theorem wit_portRetry : ∃ (s : State) (port : Nat),
    let d := s.view
    (d.portOn port = true) ∧
    (d.portState port = 0) ∧
    ((d.port port).retryAt.getD 0 ≤ d.now) ∧
    (d.operational = true) :=
  ⟨st (portAt 0), (0), by decide +kernel⟩

theorem wit_portTrainingFailed : ∃ (s : State) (port : Nat),
    let x := s.ctx
    let d := s.view
    (port < 8) ∧
    (d.portState port = 1 ∨ d.portState port = 2) :=
  ⟨st (portAt 1), (0), by decide +kernel⟩

theorem wit_degrade : ∃ (s : State) (port mask : Nat),
    let x := s.ctx
    let d := s.view
    (d.portUp port = true) :=
  ⟨st (portAt 3), (0), (15), by decide +kernel⟩

theorem wit_degradeAck : ∃ (s : State) (port mask seq : Nat),
    let x := s.ctx
    let d := s.view
    (d.portUp port = true) ∧
    ((d.port port).change.isSome = true) :=
  ⟨st ((portAt 3).setPort 0 fun p => { p with change := some ⟨0, 15⟩ }), (0), (15), (0), by decide +kernel⟩

theorem wit_widthChangeTimeout : ∃ (s : State) (port : Nat) (w : WidthChange),
    let x := s.ctx
    let d := s.view
    (d.portUp port = true) ∧
    ((d.port port).change = some w) ∧
    (w.since + 50000 ≤ d.now) :=
  ⟨st (late ((portAt 3).setPort 0 fun p => { p with change := some ⟨0, 15⟩ })), (0), (⟨0, 15⟩), by decide +kernel⟩

theorem wit_laneRetire : ∃ (s : State) (port lane : Nat) (lockLost : Bool),
    let d := s.view
    (d.portUp port = true) ∧
    (lane < 8) ∧
    (bit (d.ownLanes port) lane = true) ∧
    (lockLost = true ∨ d.fld (Reg.cvfRetryCtl port) 16 8 ≤ d.laneUnc port lane) ∧
    let d1 := d.setPort port fun P => { P with retired := P.retired + 2 ^ lane }
    let d2 := (d1.bump (Reg.cvfLaneDrop port) 1).report (portSource port) 0x40 2 lane
    (d2.ownLanes port ≠ 0) :=
  ⟨st (portAt 3), (0), (0), (true), by decide +kernel⟩

theorem wit_down : ∃ (s : State) (port : Nat),
    let x := s.ctx
    let d := s.view
    (port < 8) ∧
    (d.portState port ≠ 0) :=
  ⟨st (portAt 3), (0), by decide +kernel⟩

theorem wit_laneLockLost : ∃ (s : State) (port : Nat),
    let x := s.ctx
    let d := s.view
    (d.portUp port = true) :=
  ⟨st (portAt 3), (0), by decide +kernel⟩

theorem wit_cvfRetrain : ∃ (s : State) (port : Nat),
    let x := s.ctx
    let d := s.view
    (port < 8) ∧
    (d.bar0Cpl x (Reg.cvfCtl port) = .success) ∧
    let d1 := d.setFld (Reg.cvfCtl port) 30 1 1
    (d1.portOn port = true) :=
  ⟨st (portAt 3), (0), by decide +kernel⟩

theorem wit_timeExchange : ∃ (s : State) (port : Nat),
    let d := s.view
    (d.portUp port = true) ∧
    ((d.port port).timeAt + 1000000 ≤ d.now) :=
  ⟨st (late (portAt 3)), (0), by decide +kernel⟩

theorem wit_timeFlit_ask : ∃ (s : State) (port : Nat),
    let d := s.view
    (d.portOn port = true) ∧
    ((d.port port).initDone = true) :=
  ⟨st (portAt 3), (0), by decide +kernel⟩

theorem wit_timeFlit_answer : ∃ (s : State) (port t1 t2 t3 : Nat),
    let d := s.view
    (d.portOn port = true) ∧
    ((d.port port).initDone = true) ∧
    ((d.port port).timeT1 = some t1) :=
  ⟨st ((portAt 3).setPort 0 fun p => { p with timeT1 := some 7 }), (0), (7), (8), (9), by decide +kernel⟩

theorem wit_idleFlit : ∃ (s : State) (port ack credCls credN : Nat),
    let d := s.view
    (d.portUp port = true) ∧
    (credCls < 6) :=
  ⟨st (portAt 3), (0), (0), (0), (0), by decide +kernel⟩

theorem wit_frameReceive : ∃ (s : State) (port : Nat) (frame : FrameIn) (d3 : Dev),
    let x := s.ctx
    let d := s.view
    (d.portUp port = true) ∧
    (frame.cls < 6) ∧
    (frame.flitsOk = true) ∧
    let d0 := ((frame.fec.filter fun w => w.1 < 8).foldl (fun (d : Dev) w => d.codewords port w) d).refillDue x port
    (frame.seq = (d0.port port).rxExpect) ∧
    let d1 := d0.setPort port fun P => { P with rxExpect := (P.rxExpect + frame.flits) % 65536, rxHold := false }
    let d2 := (d1.send (.cvfFlit port "CREDIT" [frame.cls, frame.flits, (d1.port port).rxExpect])).countRx port frame
    (frame.tagOk = true) ∧
    (d2.police port frame = some d3) ∧
    (((d3.port port).reasm.any fun r => r.has frame && r.discarded) = false) :=
  ⟨st (portAt 3), (0), (⟨0, 0, 1, true, 33, 34, 1, 0, 4, 0, 1, 64, 0, 64, 0, 0, 0, 0, true, []⟩), (((((portAt 3).setPort 0 fun P => { P with rxExpect := (P.rxExpect + 1) % 65536, rxHold := false }).send (.cvfFlit 0 "CREDIT" [0, 1, 1])).countRx 0 ⟨0, 0, 1, true, 33, 34, 1, 0, 4, 0, 1, 64, 0, 64, 0, 0, 0, 0, true, []⟩)), by decide +kernel⟩

theorem wit_nak : ∃ (s : State) (port seq : Nat),
    let x := s.ctx
    let d := s.view
    (d.portUp port = true) ∧
    (((d.port port).retry.any fun f => f.seq == seq) = true) :=
  ⟨st (portAt 3), (0), (3), by decide +kernel⟩

theorem wit_replayTimeout : ∃ (s : State) (port : Nat) (f : SentFlit) (rest : List SentFlit),
    let x := s.ctx
    let d := s.view
    ((d.port port).retry = f :: rest) ∧
    (d.portUp port = true) ∧
    ((d.port port).lastAdvance + 2000 ≤ d.now) :=
  ⟨st (late (portAt 3)), (0), (⟨3, none⟩), ([]), by decide +kernel⟩

theorem wit_dropNotice : ∃ (s : State) (cls msgId reason : Nat) (p : Nat × Msg),
    let x := s.ctx
    let d := s.view
    (d.sentMsg msgId = some p) ∧
    (p.2.cls = cls) :=
  ⟨st ({ up with cvf := { up.cvf with sent := [(0, msg1 1)] } }), (2), (1), (0), ((0, msg1 1)), by decide +kernel⟩

theorem wit_memWr : ∃ (s : State) (port src cls off len val : Nat) (ps : List (Nat × Nat)),
    let x := s.ctx
    let d := s.view
    (d.portUp port = true) ∧
    (len ≤ 0x100000) ∧
    (cls = 2 ∨ cls = 3) ∧
    let d1 := d.contact src
    (d1.windowParts src (len / max 1 d1.slotBytes + 2) off len = some ps) :=
  ⟨st (portAt 3), (0), (33), (2), (0), (0), (0), ([]), by decide +kernel⟩

theorem wit_memRd : ∃ (s : State) (port src cls off len : Nat) (ps : List (Nat × Nat)),
    let x := s.ctx
    let d := s.view
    (d.portUp port = true) ∧
    (len ≤ 0x100000) ∧
    (cls = 2 ∨ cls = 3) ∧
    let d1 := d.contact src
    (d1.windowParts src (len / max 1 d1.slotBytes + 2) off len = some ps) ∧
    ((ps.any fun r => d1.mediaBad r.1 r.2) = false) :=
  ⟨st (portAt 3), (0), (33), (3), (0), (0), ([]), by decide +kernel⟩

theorem wit_memWrAck : ∃ (s : State) (msgId : Nat) (p : Nat × Msg),
    let x := s.ctx
    let d := s.view
    (d.sentMsg msgId = some p) ∧
    (p.2.kind = 0x11) :=
  ⟨st ({ up with cvf := { up.cvf with sent := [(0, msg1 0x11)] } }), (1), ((0, msg1 0x11)), by decide +kernel⟩

theorem wit_memRdData : ∃ (s : State) (msgId : Nat) (p : Nat × Msg),
    let x := s.ctx
    let d := s.view
    (d.sentMsg msgId = some p) ∧
    (p.2.kind = 0x13) :=
  ⟨st ({ up with cvf := { up.cvf with sent := [(0, msg1 0x13)] } }), (1), ((0, msg1 0x13)), by decide +kernel⟩

theorem wit_memErr : ∃ (s : State) (msgId : Nat) (p : Nat × Msg),
    let x := s.ctx
    let d := s.view
    (d.sentMsg msgId = some p) ∧
    (p.2.kind = 0x11 ∨ p.2.kind = 0x13) :=
  ⟨st ({ up with cvf := { up.cvf with sent := [(0, msg1 0x13)] } }), (1), ((0, msg1 0x13)), by decide +kernel⟩

theorem wit_shaperRefill : ∃ (s : State) (port : Nat),
    let x := s.ctx
    let d := s.view
    (port ≤ 8) ∧
    (d.shaperOn port = true) :=
  ⟨st (up), (8), by decide +kernel⟩

theorem wit_queueSample : ∃ (s : State) (port : Nat),
    let x := s.ctx
    let d := s.view
    (port ≤ 8) ∧
    (d.shaperOn port = true) :=
  ⟨st (up), (8), by decide +kernel⟩

theorem wit_frameStart : ∃ (s : State) (port c : Nat) (f : EgFrame) (q : ClassQ),
    let x := s.ctx
    let d := s.view
    (d.portUp port = true) ∧
    (d.portState port ≠ 4) ∧
    let d1 := (d.refillDue x port).sampleDue port
    (d1.pickFrame port = some (c, f, q)) := ⟨sFrame, 0, 5, egress1, { class1 with lane := [] }, by decide +kernel, by decide +kernel, by decide +kernel⟩

theorem wit_perstNAssert : ∃ (s : State) ,
    let x := s.ctx
    let d := s.view
    (d.boot.railsOut = false) :=
  ⟨st (up), by decide +kernel⟩

theorem wit_perstNDeassert : ∃ (s : State) (straps rnd : Nat),
    let d := s.view
    (d.boot.heldPerst = true) ∧
    (d.boot.railsOut = false) :=
  ⟨st (onBoot fun b => { b with heldPerst := true }), (0), (0), by decide +kernel⟩

theorem wit_warmRstN : ∃ (s : State) ,
    let x := s.ctx
    let d := s.view
    (d.boot.railsOut = false) ∧
    (d.boot.heldPerst = false) ∧
    (d.eclipse = false) :=
  ⟨st (up), by decide +kernel⟩

theorem wit_warmRstNRelease : ∃ (s : State) ,
    let d := s.view
    (d.boot.heldWarm = true) ∧
    let d1 : Dev := { d with boot := { d.boot with heldWarm := false } }
    (d1.held = false) ∧
    (d1.eclipse = false) :=
  ⟨st (onBoot fun b => { b with heldWarm := true }), by decide +kernel⟩

theorem wit_rstCtlWarm : ∃ (s : State) ,
    let x := s.ctx
    let d := s.view
    (d.bar0Cpl x Reg.chipRstCtl = .success) ∧
    (d.boot.railsOut = false) ∧
    (d.boot.heldPerst = false) ∧
    (d.eclipse = false) :=
  ⟨st (up), by decide +kernel⟩

theorem wit_romStage_flash : ∃ (s : State) (copy dir : Nat),
    let x := s.ctx
    let d := s.view
    (d.at_ 1 = true) ∧
    (d.bootSrc = 0) ∧
    (d.boot.testMode = false) ∧
    (d.directory = some (copy, dir)) :=
  ⟨st (booting 1 0 fun b => { b with flash := updFlash }), (0), (updDir), by decide +kernel⟩

theorem wit_romStage_host : ∃ (s : State) (flashFault : Bool),
    let x := s.ctx
    let d := s.view
    (d.at_ 1 = true) ∧
    (d.bootSrc = 1) ∧
    (d.boot.testMode = false) ∧
    (d.boot.pushBundle = true) :=
  ⟨st (booting 1 1 fun b => { b with pushBundle := true }), (false), by decide +kernel⟩

theorem wit_romStage_neighbour : ∃ (s : State) (flashFault : Bool) (b v : Nat),
    let x := s.ctx
    let d := s.view
    (d.at_ 1 = true) ∧
    (d.bootSrc = 2) ∧
    (d.boot.testMode = false) ∧
    (d.boot.bundle = some (b, v)) :=
  ⟨st (booting 1 2 fun b => { b with bundle := some (8, 1) }), (false), (8), (1), by decide +kernel⟩

theorem wit_romStage_none : ∃ (s : State) (flashFault : Bool),
    let d := s.view
    (d.at_ 1 = true) ∧
    (d.bootSrc = 3) :=
  ⟨st (booting 1 3), (false), by decide +kernel⟩

theorem wit_coresStage : ∃ (s : State) ,
    let d := s.view
    (d.at_ 2 = true) :=
  ⟨st (inStage 2), by decide +kernel⟩

theorem wit_powerStage : ∃ (s : State) ,
    let d := s.view
    (d.at_ 3 = true) :=
  ⟨st (inStage 3), by decide +kernel⟩

theorem wit_memoryStage : ∃ (s : State) ,
    let d := s.view
    (d.at_ 4 = true) :=
  ⟨st (inStage 4), by decide +kernel⟩

theorem wit_imageStage_neighbour : ∃ (s : State) (flashFault : Bool) (b v : Nat),
    let x := s.ctx
    let d := s.view
    (d.at_ 5 = true) ∧
    (d.bootSrc = 2) ∧
    (d.boot.image = some (b, v)) :=
  ⟨st (booting 5 2 fun b => { b with image := some (8, 1) }), (false), (8), (1), by decide +kernel⟩

theorem wit_imageStage_host : ∃ (s : State) (flashFault : Bool),
    let x := s.ctx
    let d := s.view
    (d.at_ 5 = true) ∧
    (d.bootSrc = 1) ∧
    (d.boot.pushImage = true) :=
  ⟨st (booting 5 1 fun b => { b with pushImage := true }), (false), by decide +kernel⟩

theorem wit_imageStage_flash : ∃ (s : State) (copy dir : Nat),
    let x := s.ctx
    let d := s.view
    (d.at_ 5 = true) ∧
    (d.bootSrc = 0) ∧
    (d.directory = some (copy, dir)) :=
  ⟨st (booting 5 0 fun b => { b with flash := updFlash }), (0), (updDir), by decide +kernel⟩

theorem wit_configStage : ∃ (s : State) ,
    let x := s.ctx
    let d := s.view
    (d.at_ 6 = true) :=
  ⟨st (inStage 6), by decide +kernel⟩

theorem wit_fabricStage : ∃ (s : State) (ppSerials : List Nat),
    let x := s.ctx
    let d := s.view
    (d.at_ 7 = true) ∧
    (d.boot.chainMode = false ∨ d.boot.posAssigned = true) :=
  ⟨st (inStage 7), ([]), by decide +kernel⟩

theorem wit_bootReqTick : ∃ (s : State) ,
    let d := s.view
    (d.starting = true) ∧
    (d.bootSrc = 2) ∧
    (d.boot.bundle = none) :=
  ⟨st (booting 1 2), by decide +kernel⟩

theorem wit_bootReq : ∃ (s : State) (port : Nat) (b i : Nat × Nat),
    let d := s.view
    (d.operational = true) ∧
    (d.boot.bootServe = true) ∧
    (d.portUp port = true) ∧
    (d.boot.bundle = some b) ∧
    (d.boot.image = some i) :=
  ⟨st (onBoot (fun b => { b with bootServe := true, bundle := some (8, 1), image := some (8, 2) }) (portAt 3)), (0), ((8, 1)), ((8, 2)), by decide +kernel⟩

theorem wit_bootAnswer : ∃ (s : State) (port : Nat) (bundle image : Nat × Nat),
    let d := s.view
    (d.at_ 1 = true) ∧
    (d.bootSrc = 2) ∧
    (d.boot.bundle = none) ∧
    (d.portUp port = true) :=
  ⟨st ((booting 1 2).setFld (Reg.cvfStat 0) 29 3 3), (0), ((8, 1)), ((8, 2)), by decide +kernel⟩

theorem wit_recoveryStatus : ∃ (s : State) ,
    let d := s.view
    (d.boot.railsOut = false) ∧
    (d.boot.flashWrite = none) :=
  ⟨st (up), by decide +kernel⟩

theorem wit_erase : ∃ (s : State) (sector : Nat),
    let d := s.view
    (d.boot.railsOut = false) ∧
    (d.boot.flashWrite = none) ∧
    let d1 := d.recTake
    (d1.flashAllowed = true) ∧
    (sector < flashSectors) :=
  ⟨st (inStage 15), (1), by decide +kernel⟩

theorem wit_write : ∃ (s : State) (sector : Nat),
    let d := s.view
    (d.boot.railsOut = false) ∧
    (d.boot.flashWrite = none) ∧
    let d1 := d.recTake
    (d1.flashAllowed = true) ∧
    (sector < flashSectors) :=
  ⟨st (inStage 15), (1), by decide +kernel⟩

theorem wit_recoveryDataWord : ∃ (s : State) (word : Nat) (w : FlashWrite),
    let d := s.view
    (d.boot.railsOut = false) ∧
    (d.boot.flashWrite = some w) ∧
    ((d.mbox .recovery).h2d.collide = false) ∧
    (w.words.length + 1 ≠ 16384) :=
  ⟨st (onBoot fun b => { b with flashWrite := some ⟨1, []⟩ }), (5), (⟨1, []⟩), by decide +kernel⟩

theorem wit_crc : ∃ (s : State) (sector : Nat),
    let d := s.view
    (d.boot.railsOut = false) ∧
    (d.boot.flashWrite = none) ∧
    let d1 := d.recTake
    (sector < flashSectors) :=
  ⟨st (up), (1), by decide +kernel⟩

theorem wit_restart_warm : ∃ (s : State) ,
    let x := s.ctx
    let d := s.view
    (d.boot.railsOut = false) ∧
    (d.boot.flashWrite = none) ∧
    let d1 := d.recTake
    (d1.eclipse = false) :=
  ⟨st (up), by decide +kernel⟩

theorem wit_restart_eclipse : ∃ (s : State) ,
    let x := s.ctx
    let d := s.view
    (d.boot.railsOut = false) ∧
    (d.boot.flashWrite = none) ∧
    let d1 := d.recTake
    (d1.eclipse = true) :=
  ⟨st (inStage 15), by decide +kernel⟩

theorem wit_pushDone_bundle : ∃ (s : State) ,
    let d := s.view
    (d.boot.railsOut = false) ∧
    (d.boot.flashWrite = none) ∧
    let d1 := d.recTake
    (d1.bootSrc = 1) ∧
    (d1.at_ 1 = true) :=
  ⟨st (booting 1 1), by decide +kernel⟩

theorem wit_pushDone_image : ∃ (s : State) ,
    let d := s.view
    (d.boot.railsOut = false) ∧
    (d.boot.flashWrite = none) ∧
    let d1 := d.recTake
    (d1.bootSrc = 1) ∧
    (d1.at_ 5 = true) :=
  ⟨st (booting 5 1), by decide +kernel⟩

theorem wit_enum : ∃ (s : State) (second : Bool) (bytes : List Nat),
    let d := s.view
    (d.boot.railsOut = false) ∧
    (second = false ∨ d.boot.chain2 = true) ∧
    (frameOk bytes = true) ∧
    let d1 := d.send (.chain second (forwarded bytes))
    let recent := d1.boot.chain.filter fun c => d1.now ≤ c.2.2 + 100000
    ((d1.boot.chain2 && recent.any fun c => c.1 != second && c.2.1 == bytes) = false) ∧
    let d2 : Dev := { d1 with boot := { d1.boot with chain := recent ++ [(second, bytes, d1.now)] } }
    (d2.dstMatches (getAt 0 2 bytes) = true) ∧
    (getAt 0 1 bytes = 1) :=
  ⟨st (up), (false), (frame 1 0xFF), by decide +kernel⟩

theorem wit_ping : ∃ (s : State) (second : Bool) (bytes : List Nat),
    let d := s.view
    (d.boot.railsOut = false) ∧
    (second = false ∨ d.boot.chain2 = true) ∧
    (frameOk bytes = true) ∧
    let d1 := d.send (.chain second (forwarded bytes))
    let recent := d1.boot.chain.filter fun c => d1.now ≤ c.2.2 + 100000
    ((d1.boot.chain2 && recent.any fun c => c.1 != second && c.2.1 == bytes) = false) ∧
    let d2 : Dev := { d1 with boot := { d1.boot with chain := recent ++ [(second, bytes, d1.now)] } }
    (d2.dstMatches (getAt 0 2 bytes) = true) ∧
    (getAt 0 1 bytes = 2) :=
  ⟨st (up), (false), (frame 2 0xFF), by decide +kernel⟩

theorem wit_warmReset : ∃ (s : State) (second : Bool) (bytes : List Nat),
    let x := s.ctx
    let d := s.view
    (d.boot.railsOut = false) ∧
    (second = false ∨ d.boot.chain2 = true) ∧
    (frameOk bytes = true) ∧
    let d1 := d.send (.chain second (forwarded bytes))
    let recent := d1.boot.chain.filter fun c => d1.now ≤ c.2.2 + 100000
    ((d1.boot.chain2 && recent.any fun c => c.1 != second && c.2.1 == bytes) = false) ∧
    let d2 : Dev := { d1 with boot := { d1.boot with chain := recent ++ [(second, bytes, d1.now)] } }
    (d2.dstMatches (getAt 0 2 bytes) = true) ∧
    (getAt 0 1 bytes = 4) :=
  ⟨st (up), (false), (frame 4 0xFF), by decide +kernel⟩

theorem wit_quadReset : ∃ (s : State) (second : Bool) (bytes : List Nat),
    let x := s.ctx
    let d := s.view
    (d.boot.railsOut = false) ∧
    (second = false ∨ d.boot.chain2 = true) ∧
    (frameOk bytes = true) ∧
    let d1 := d.send (.chain second (forwarded bytes))
    let recent := d1.boot.chain.filter fun c => d1.now ≤ c.2.2 + 100000
    ((d1.boot.chain2 && recent.any fun c => c.1 != second && c.2.1 == bytes) = false) ∧
    let d2 : Dev := { d1 with boot := { d1.boot with chain := recent ++ [(second, bytes, d1.now)] } }
    (d2.dstMatches (getAt 0 2 bytes) = true) ∧
    (getAt 0 1 bytes = 5) :=
  ⟨st (up), (false), (frame 5 0xFF), by decide +kernel⟩

theorem wit_chainForward : ∃ (s : State) (second : Bool) (bytes : List Nat),
    let d := s.view
    (d.boot.railsOut = false) ∧
    (second = false ∨ d.boot.chain2 = true) ∧
    (frameOk bytes = true) ∧
    let d1 := d.send (.chain second (forwarded bytes))
    let recent := d1.boot.chain.filter fun c => d1.now ≤ c.2.2 + 100000
    ((d1.boot.chain2 && recent.any fun c => c.1 != second && c.2.1 == bytes) = false) ∧
    let d2 : Dev := { d1 with boot := { d1.boot with chain := recent ++ [(second, bytes, d1.now)] } }
    (d2.dstMatches (getAt 0 2 bytes) = true) :=
  ⟨st (up), (false), (frame 3 0xFF), by decide +kernel⟩

theorem wit_zeroStackDone : ∃ (s : State) (stack : Nat),
    let x := s.ctx
    let d := s.view
    (d.sec.zeroing.contains stack = true) ∧
    (d.baseHot stack = false) :=
  ⟨st (onSec fun s => { s with zeroing := [3] }), (3), by decide +kernel⟩

theorem wit_btTdone : ∃ (s : State) (h rs1 rs2 : Nat) (t : Task) (w0 w : HartWork),
    let x := s.ctx
    let d := s.view
    (tblGet h d.belt.harts = some w0) ∧
    (w0.wait = none) ∧
    let d1 := d.runHart x h
    (tblGet h d1.belt.harts = some w) ∧
    (w.task = some t) := let ⟨v, hv, ht⟩ := runHart_keeps sTdone.ctx sTdone.view 0 { hart1 with task := some task1 } (by decide +kernel)
  ⟨sTdone, 0, 0, 0, task1, { hart1 with task := some task1 }, v, by decide +kernel, by decide +kernel, hv, ht⟩

theorem wit_btExit : ∃ (s : State) (h rs1 : Nat) (w0 w : HartWork),
    let x := s.ctx
    let d := s.view
    (tblGet h d.belt.harts = some w0) ∧
    (w0.wait = none) ∧
    let d1 := d.runHart x h
    (tblGet h d1.belt.harts = some w) ∧
    (w.task = none) := let ⟨v, hv, ht⟩ := runHart_keeps sHart.ctx sHart.view 0 hart1 (by decide +kernel)
  ⟨sHart, 0, 0, hart1, v, by decide +kernel, by decide +kernel, hv, ht⟩

theorem wit_btTime : ∃ (s : State) (h rd : Nat) (w0 w : HartWork),
    let x := s.ctx
    let d := s.view
    (tblGet h d.belt.harts = some w0) ∧
    (w0.wait = none) ∧
    let d1 := d.runHart x h
    (tblGet h d1.belt.harts = some w) := let ⟨v, hv, ht⟩ := runHart_keeps sHart.ctx sHart.view 0 hart1 (by decide +kernel)
  ⟨sHart, 0, 0, hart1, v, by decide +kernel, by decide +kernel, hv⟩

theorem wit_btSelf : ∃ (s : State) (h rd : Nat) (w0 w : HartWork),
    let x := s.ctx
    let d := s.view
    (tblGet h d.belt.harts = some w0) ∧
    (w0.wait = none) ∧
    let d1 := d.runHart x h
    (tblGet h d1.belt.harts = some w) := let ⟨v, hv, ht⟩ := runHart_keeps sHart.ctx sHart.view 0 hart1 (by decide +kernel)
  ⟨sHart, 0, 0, hart1, v, by decide +kernel, by decide +kernel, hv⟩

theorem wit_btMix : ∃ (s : State) (h rd rs1 : Nat) (w0 w : HartWork),
    let x := s.ctx
    let d := s.view
    (tblGet h d.belt.harts = some w0) ∧
    (w0.wait = none) ∧
    let d1 := d.runHart x h
    (tblGet h d1.belt.harts = some w) := let ⟨v, hv, ht⟩ := runHart_keeps sHart.ctx sHart.view 0 hart1 (by decide +kernel)
  ⟨sHart, 0, 0, 0, hart1, v, by decide +kernel, by decide +kernel, hv⟩

theorem wit_btRkey : ∃ (s : State) (h rd rs1 : Nat) (w0 w : HartWork),
    let x := s.ctx
    let d := s.view
    (tblGet h d.belt.harts = some w0) ∧
    (w0.wait = none) ∧
    let d1 := d.runHart x h
    (tblGet h d1.belt.harts = some w) := let ⟨v, hv, ht⟩ := runHart_keeps sHart.ctx sHart.view 0 hart1 (by decide +kernel)
  ⟨sHart, 0, 0, 0, hart1, v, by decide +kernel, by decide +kernel, hv⟩

theorem wit_btFlush : ∃ (s : State) (h : Nat) (w0 w : HartWork),
    let x := s.ctx
    let d := s.view
    (tblGet h d.belt.harts = some w0) ∧
    (w0.wait = none) ∧
    let d1 := d.runHart x h
    (tblGet h d1.belt.harts = some w) := let ⟨v, hv, ht⟩ := runHart_keeps sHart.ctx sHart.view 0 hart1 (by decide +kernel)
  ⟨sHart, 0, hart1, v, by decide +kernel, by decide +kernel, hv⟩

theorem wit_btSubmit : ∃ (s : State) (h rd rs1 rs2 : Nat) (q : BeltQueue) (w0 w : HartWork),
    let x := s.ctx
    let d := s.view
    (tblGet h d.belt.harts = some w0) ∧
    (w0.wait = none) ∧
    let d1 := d.runHart x h
    (tblGet h d1.belt.harts = some w) ∧
    let p := d1.partOf h
    let a := w.regs.get rs1
    let n := w.regs.get rs2 % 16
    (d1.mayRead p a 64 = true) ∧
    (d1.taskMode p = true) ∧
    (d1.beltQueue p n = some q) := by
  obtain ⟨v, lr, hd, -⟩ := runHart_quiet sRead.ctx sRead.view 0 hart1 (by decide +kernel) (by decide +kernel) (by decide +kernel)
  have hv : tblGet 0 (sRead.view.runHart sRead.ctx 0).belt.harts = some v := by rw [hd]; exact tblGet_tblSet_self ..
  have hp : (sRead.view.runHart sRead.ctx 0).partOf 0 = 0 := by rw [hd]; exact (rfl : _ = sRead.view.partOf 0).trans (by decide +kernel)
  have hm : ∀ n, (sRead.view.runHart sRead.ctx 0).mayRead 0 0 n = sRead.view.mayRead 0 0 n := fun n => by rw [hd]; rfl
  have ht : (sRead.view.runHart sRead.ctx 0).taskMode 0 = true := by rw [hd]; exact (rfl : _ = sRead.view.taskMode 0).trans (by decide +kernel)
  have hq : (sRead.view.runHart sRead.ctx 0).beltQueue 0 0 = some bq1 := by
    rw [hd]; exact (rfl : _ = sRead.view.beltQueue 0 0).trans (by decide +kernel)
  exact ⟨sRead, 0, 0, 0, 0, bq1, hart1, v, by decide +kernel, by decide +kernel, hv, by rw [hp]; exact (hm _).trans (by decide +kernel), by rw [hp]; exact ht, by rw [hp]; exact hq⟩

theorem wit_btWait : ∃ (s : State) (h rd rs1 rs2 : Nat) (w0 w : HartWork),
    let x := s.ctx
    let d := s.view
    (tblGet h d.belt.harts = some w0) ∧
    (w0.wait = none) ∧
    let d1 := d.runHart x h
    (tblGet h d1.belt.harts = some w) ∧
    let a := w.regs.get rs1 / 8 * 8
    (d1.mayRead (d1.partOf h) a 8 = true) := by
  obtain ⟨v, lr, hd, -⟩ := runHart_quiet sRead.ctx sRead.view 0 hart1 (by decide +kernel) (by decide +kernel) (by decide +kernel)
  have hv : tblGet 0 (sRead.view.runHart sRead.ctx 0).belt.harts = some v := by rw [hd]; exact tblGet_tblSet_self ..
  have hp : (sRead.view.runHart sRead.ctx 0).partOf 0 = 0 := by rw [hd]; exact (rfl : _ = sRead.view.partOf 0).trans (by decide +kernel)
  have ha : v.regs.get 0 = 0 := rfl
  have hm : ∀ a n, (sRead.view.runHart sRead.ctx 0).mayRead 0 a n = sRead.view.mayRead 0 a n := fun a n => by rw [hd]; rfl
  exact ⟨sRead, 0, 0, 0, 0, hart1, v, by decide +kernel, by decide +kernel, hv, by dsimp only; rw [hp, hm, ha]; decide +kernel⟩

theorem wit_btWaitResume : ∃ (s : State) (h rd a old t : Nat) (w : HartWork),
    let x := s.ctx
    let d := s.view
    (tblGet h d.belt.harts = some w) ∧
    (w.wait = some (rd, a, old, t)) ∧
    (d.ld x a 8 ≠ old) :=
  ⟨stm [(0, 1)] (onBelt (fun b => { b with harts := [(0, { hart1 with wait := some (1, 0, 0, 0) })] }) (beltUp true)), (0), (1), (0), (0), (0), ({ hart1 with wait := some (1, 0, 0, 0) }), by decide +kernel⟩

theorem wit_btWaitTimeout : ∃ (s : State) (h rd a old t : Nat) (w : HartWork),
    let x := s.ctx
    let d := s.view
    (tblGet h d.belt.harts = some w) ∧
    (w.wait = some (rd, a, old, t)) ∧
    (t + d.fld Reg.beltWaitCtl 0 16 * 1000 ≤ d.now) :=
  ⟨st (late (onBelt (fun b => { b with harts := [(0, { hart1 with wait := some (1, 0, 0, 0) })] }) (beltUp true))), (0), (1), (0), (0), (0), ({ hart1 with wait := some (1, 0, 0, 0) }), by decide +kernel⟩

theorem wit_btMbox : ∃ (s : State) (h rs1 : Nat) (w0 w : HartWork),
    let x := s.ctx
    let d := s.view
    (tblGet h d.belt.harts = some w0) ∧
    (w0.wait = none) ∧
    let d1 := d.runHart x h
    (tblGet h d1.belt.harts = some w) := let ⟨v, hv, ht⟩ := runHart_keeps sHart.ctx sHart.view 0 hart1 (by decide +kernel)
  ⟨sHart, 0, 0, hart1, v, by decide +kernel, by decide +kernel, hv⟩

theorem wit_btMboxr : ∃ (s : State) (h rd : Nat) (w0 w : HartWork),
    let x := s.ctx
    let d := s.view
    (tblGet h d.belt.harts = some w0) ∧
    (w0.wait = none) ∧
    let d1 := d.runHart x h
    (tblGet h d1.belt.harts = some w) := let ⟨v, hv, ht⟩ := runHart_keeps sHart.ctx sHart.view 0 hart1 (by decide +kernel)
  ⟨sHart, 0, 0, hart1, v, by decide +kernel, by decide +kernel, hv⟩

theorem wit_hartException : ∃ (s : State) (h cause : Nat) (w : HartWork),
    let x := s.ctx
    let d := s.view
    (tblGet h d.belt.harts = some w) ∧
    (w.wait = none) :=
  ⟨st (beltUp true), (0), (2), (hart1), by decide +kernel⟩

theorem wit_taskDispatch : ∃ (s : State) (p : Nat),
    let x := s.ctx
    let d := s.view
    (p < 2) ∧
    (d.taskMode p = true) ∧
    (x.fuses.part.hasBelt = true) ∧
    (d.domainUp .belt = true) :=
  ⟨st (beltUp true), (0), by decide +kernel⟩

theorem wit_taskTimeout : ∃ (s : State) (h : Nat) (w : HartWork) (t : Task) (q : BeltQueue),
    let x := s.ctx
    let d := s.view
    (tblGet h d.belt.harts = some w) ∧
    (w.task = some t) ∧
    (d.beltQueue (d.partOf h) t.queue = some q) ∧
    (q.taskUs ≠ 0) ∧
    (t.deadline = none) ∧
    (q.taskUs * 1000 ≤ d.ranFor w) :=
  ⟨st (late (onBelt (fun b => { b with harts := [(0, { hart1 with task := some task1 })] }) (beltUp true))), (0), ({ hart1 with task := some task1 }), (task1), (bq1), by decide +kernel⟩

theorem wit_jobLimit : ∃ (s : State) (p : Nat) (j : Job),
    let x := s.ctx
    let d := s.view
    ((d.beltPart p).job = some j) ∧
    (j.limitMs ≠ 0) ∧
    (j.suspended = false) ∧
    (j.since + (j.limitMs * 1000000 - j.ranNs) ≤ d.now) :=
  ⟨st (late (beltUp false (some job1))), (0), (job1), by decide +kernel⟩

end Sys2Proof.Tests
end

section
/-! PROOFS about the machine as a whole: what every command answers, what memory reads back, refusals and contained outcomes, status codes,
and accesses to registers and to configuration space. -/

namespace Sys2Proof.Machine

/-! ### Outcomes that keep the fuses and the queue (R11) -/

/-- The outcome is a next state, with the fuses and the queue of `s`. -/
def State.Answers (s : State) (o : Host.Outcome State Fault Refusal) : Prop :=
  ∃ t, o = .next t ∧ t.fuses = s.fuses ∧ t.pending = s.pending

theorem State.run_answers (s : State) (f : Ctx → Dev → Dev) : s.Answers (s.run f) :=
  ⟨s.after f, rfl, State.commit_fuses .., State.commit_pending ..⟩

theorem State.request_answers (s : State) (src : ReqSrc) (f : Ctx → Dev → ReqImg → Dev) : s.Answers (s.request src f) := by
  cases src with
  | hp e => exact s.run_answers _
  | cvf => exact s.run_answers _

theorem execDecisionTimeout_answers (tail : Bool) (src : ReqSrc) (s : State) : s.Answers (execDecisionTimeout tail src s) :=
  s.request_answers src _

theorem execRecallQuery_answers (src : ReqSrc) (s : State) : s.Answers (execRecallQuery src s) := by
  cases src with
  | hp e => exact s.run_answers _
  | cvf => exact s.run_answers _

theorem State.Answers.andThen {s : State} {o : Host.Outcome State Fault Refusal} {f : State → Host.Outcome State Fault Refusal}
    (h : s.Answers o) (hf : ∀ t : State, t.Answers (f t)) : s.Answers (State.andThen o f) := by
  obtain ⟨t, rfl, hfuses, hpending⟩ := h
  obtain ⟨u, hu, hfuses', hpending'⟩ := hf t
  exact ⟨u, hu, hfuses'.trans hfuses, hpending'.trans hpending⟩

/-! ### Commands that W1S bits stand for -/

/-- Every command of the list answers a next state, with the fuses and the queue that it finds. -/
def RowsAnswer (l : List (State → Host.Outcome State Fault Refusal)) : Prop := ∀ f ∈ l, ∀ t : State, t.Answers (f t)

theorem RowsAnswer.nil : RowsAnswer [] := fun _ h => absurd h List.not_mem_nil

theorem RowsAnswer.single {f : State → Host.Outcome State Fault Refusal} (h : ∀ t : State, t.Answers (f t)) : RowsAnswer [f] :=
  fun _ hg => List.mem_singleton.1 hg ▸ h

theorem RowsAnswer.append {l m : List (State → Host.Outcome State Fault Refusal)} (hl : RowsAnswer l) (hm : RowsAnswer m) :
    RowsAnswer (l ++ m) := fun f hf => (List.mem_append.1 hf).elim (hl f) (hm f)

theorem RowsAnswer.flatMap {g : Nat → List (State → Host.Outcome State Fault Refusal)} (h : ∀ k, RowsAnswer (g k)) (ks : List Nat) :
    RowsAnswer (ks.flatMap g) := fun f hf => by
  obtain ⟨k, -, hk⟩ := List.mem_flatMap.1 hf
  exact h k f hk

theorem RowsAnswer.ite {p : Prop} [Decidable p] {l m : List (State → Host.Outcome State Fault Refusal)} (hl : RowsAnswer l)
    (hm : RowsAnswer m) : RowsAnswer (if p then l else m) := by
  split
  · exact hl
  · exact hm

theorem RowsAnswer.when {p : Prop} [Decidable p] {l : List (State → Host.Outcome State Fault Refusal)} (hl : RowsAnswer l) :
    RowsAnswer (if p then l else []) := hl.ite .nil

theorem offOn_answers {off on : Nat → State → Host.Outcome State Fault Refusal} (val n : Nat) (hoff : ∀ (k : Nat) (t : State), t.Answers (off k t))
    (hon : ∀ (k : Nat) (t : State), t.Answers (on k t)) : RowsAnswer (offOn val n off on) :=
  .flatMap (fun k => .ite (.single (hoff k)) (.when (.single (hon k)))) _

theorem w1sRows_answer (off val : Nat) : RowsAnswer (w1sRows off val) := by
  have aes : ∀ q a, RowsAnswer (if off == Reg.qdAeCtl q a then
      offOn val 1 (fun _ => execAeOfflineReq q a) (fun _ => execAeOnlineReq q a) else []) :=
    fun q a => .when (offOn_answers val 1 (fun _ t => t.run_answers _) (fun _ t => t.run_answers _))
  have ports : ∀ p, RowsAnswer (if off == Reg.cvfCtl p && bit val 30 then [execCvfRetrain p] else []) :=
    fun p => .when (.single fun t => t.run_answers _)
  have logs : ∀ k, RowsAnswer (if bit val (16 + k) then [execLogClear k] else []) :=
    fun k => .when (.single fun t => t.run_answers _)
  have units : ∀ n (offline online : Nat → Ctx → Dev → Dev),
      RowsAnswer (offOn val n (fun k s => s.run (offline k)) (fun k s => s.run (online k))) :=
    fun n offline online => offOn_answers val n (fun _ t => t.run_answers _) (fun _ t => t.run_answers _)
  unfold w1sRows
  refine .append (.append (.append (.append (.append (.append (.append (.append ?_ ?_) ?_) ?_) ?_) ?_) ?_) ?_) ?_
  · exact .flatMap (fun q => .flatMap (aes q) _) _
  · exact .flatMap ports _
  · exact .when (units 4 _ _)
  · exact .when (units 8 _ _)
  · exact .when (units 4 _ _)
  · exact .when (.flatMap logs _)
  · exact .when (.single fun t => t.run_answers _)
  · exact .when (.single fun t => t.run_answers _)
  · exact .when (.append (.when (.single fun t => t.run_answers _)) (.when (.single fun t => t.run_answers _)))

theorem RowsAnswer.foldl_andThen {s : State} {l : List (State → Host.Outcome State Fault Refusal)} (hl : RowsAnswer l)
    {o : Host.Outcome State Fault Refusal} (ho : s.Answers o) : s.Answers (l.foldl State.andThen o) := by
  induction l generalizing o with
  | nil => exact ho
  | cons f l ih =>
    exact ih (fun g hg => hl g (List.mem_cons_of_mem f hg)) (ho.andThen (hl f List.mem_cons_self))

theorem execRegisterWrite_answers (off val : Nat) (s : State) : s.Answers (execRegisterWrite off val s) :=
  RowsAnswer.foldl_andThen (.when (w1sRows_answer off val)) (s.run_answers _)

/-! ### All commands -/

/-- Every arm of `exec` but those of a request, a Recall query and a register write is one `State.run` (a ring command is one, too). -/
theorem exec_answers (c : Instr) (s : State) : s.Answers (exec c s) := by
  cases c with
  | layerReq src => exact s.request_answers src _
  | tailReq src => exact s.request_answers src _
  | decisionTimeout tail src => exact execDecisionTimeout_answers tail src s
  | recallQuery src => exact execRecallQuery_answers src s
  | registerWrite off val => exact execRegisterWrite_answers off val s
  | _ => exact s.run_answers _

theorem step_cons {s : State} {c : Instr} {rest : List Instr} (h : s.pending = c :: rest) :
    step s = exec c { s with pending := rest } := by
  simp only [step, h]

/-- Settles O6: each arm of `exec` answers, and a step with a command in front is that arm on the rest of the queue. -/
theorem everyCommandAnswersNext : Obligations.EveryCommandAnswersNext := by
  refine ⟨exec_answers, fun s c rest h => ?_⟩
  rw [step_cons h]
  exact exec_answers c { s with pending := rest }

/-! ### What a byte of memory reads after one effect (R20, R636, R638) -/

theorem byteOf_eq (n i : Nat) : byteOf n i = n / 256 ^ i % 256 := by
  simp [byteOf, bits, Nat.pow_mul]

theorem byteOf_lt (n i : Nat) : byteOf n i < 256 := byteOf_eq n i ▸ Nat.mod_lt _ (by omega)

theorem Memory.read_store {m : Memory} (h : m.wf = true) (s l v a : Nat) :
    (m.apply (.store s l v)).read a = if s ≤ a ∧ a < s + l then BitVec.ofNat 8 (byteOf v (a - s)) else m.read a := by
  simp only [Memory.read, Memory.apply, cellAt_putBytes l s v m.cells h, inRanges_cutRange, byteOf_eq]
  by_cases hin : s ≤ a ∧ a < s + l
  · generalize BitVec.ofNat 8 (v / 256 ^ (a - s) % 256) = b
    by_cases hz : b = 0#8 <;> simp [hin, hz]
  · have hout : (decide (s ≤ a) && decide (a < s + l)) = false := by simpa using hin
    simp [hin, hout]

theorem Memory.read_zero (m : Memory) (lo hi a : Nat) :
    (m.apply (.zero lo hi)).read a = if lo ≤ a ∧ a < hi then 0 else m.read a := by
  simp only [Memory.read, Memory.apply, cellAt_dropCells, inRanges_cutRange]
  by_cases hin : lo ≤ a ∧ a < hi
  · simp [hin]
  · have hout : (decide (lo ≤ a) && decide (a < hi)) = false := by simpa using hin
    simp [hin, hout]

theorem inRanges_cons (a : Nat) (r : Nat × Nat) (rs : List (Nat × Nat)) :
    inRanges a (r :: rs) = (decide (r.1 ≤ a) && decide (a < r.2) || inRanges a rs) := rfl

theorem Memory.read_stale (m : Memory) (lo hi a : Nat) :
    (m.apply (.stale lo hi)).read a = if lo ≤ a ∧ a < hi then Config.staleByte a else m.read a := by
  simp only [Memory.read, Memory.apply, cellAt_dropCells, inRanges_cons, inRanges_cutRange]
  by_cases hin : lo ≤ a ∧ a < hi
  · simp [hin]
  · have hout : (decide (lo ≤ a) && decide (a < hi)) = false := by simpa using hin
    simp [hin, hout]

theorem Memory.read_applyAll {m : Memory} (h : m.wf = true) (ops : List MemOp) (a : Nat) :
    (m.applyAll ops).read a = peekOps m a ops := by
  induction ops with
  | nil => rfl
  | cons op earlier ih =>
    cases op with
    | store s l v => simp [Memory.applyAll, Memory.read_store (m.applyAll_wf earlier h), peekOps, ih]
    | zero lo hi => simp [Memory.applyAll, Memory.read_zero, peekOps, ih]
    | stale lo hi => simp [Memory.applyAll, Memory.read_stale, peekOps, ih]

/-- Settles O7, by induction on the list of effects with one read law per effect. -/
theorem memoryReadsBackEffects : Obligations.MemoryReadsBackEffects :=
  fun _ ops a h => Memory.read_applyAll h ops a

/-! ### Loads and stores of a command (R20, R84) -/

/-- The address map looks at the registers and at the pool's link alone. -/
theorem mapped_congr (p : Part) {d e : Dev} (hr : d.regs = e.regs) (hh : d.hif = e.hif) (a : Nat) : mapped p d a = mapped p e a := by
  simp only [mapped, inPool, inWindow, hr, hh]

@[simp] theorem mapped_st (p : Part) (x : Ctx) (d : Dev) (a len v b : Nat) : mapped p (d.st x a len v) b = mapped p d b :=
  mapped_congr p (d.st_regs x a len v) (d.st_hif x a len v) b

theorem Dev.st_writes {x : Ctx} {d : Dev} {a len : Nat} (v : Nat) (hlen : 0 < len) (h : mappedRange x.fuses.part d a len = true) :
    (d.st x a len v).writes = .store a len v :: d.writes := by
  have hne : len ≠ 0 := by omega
  simp [Dev.st, hne, h]

/-- What a byte reads after a store into a mapped range. -/
theorem Dev.st_byte {x : Ctx} {d : Dev} {a len : Nat} (v : Nat) (hlen : 0 < len) (h : ∀ k, k < len → mapped x.fuses.part d (a + k) = true)
    (b : Nat) : (d.st x a len v).byte x b = if a ≤ b ∧ b < a + len then byteOf v (b - a) else d.byte x b := by
  simp only [Dev.byte, mapped_st, Dev.st_writes v hlen (mappedRange_of_all h), peekOps]
  by_cases hin : a ≤ b ∧ b < a + len
  · have hm : mapped x.fuses.part d b = true := by simpa [Nat.add_sub_cancel' hin.1] using h (b - a) (by omega)
    simp [hin, hm, Nat.mod_eq_of_lt (byteOf_lt v (b - a))]
  · simp [hin]

/-- A load gathers its bytes with the least significant first. -/
theorem Dev.ld_of_bytes {x : Ctx} {d : Dev} {n a v : Nat} (h : ∀ k, k < n → d.byte x (a + k) = v / 256 ^ k % 256) :
    d.ld x a n = v % 256 ^ n := by
  induction n generalizing a v with
  | zero => simp [Dev.ld, Nat.mod_one]
  | succ n ih =>
    have hfirst : d.byte x a = v % 256 := by simpa using h 0 (by omega)
    have hrest : d.ld x (a + 1) n = v / 256 % 256 ^ n := ih fun k hk => by
      rw [Nat.add_assoc, Nat.add_comm 1 k, h (k + 1) (by omega), Nat.pow_succ', Nat.div_div_eq_div_mul]
    rw [Dev.ld, hfirst, hrest, Nat.pow_succ', Nat.mod_mul]

/-- Settles O8: the stored bytes are those of `Dev.st_byte`, and a load gathers them again. -/
theorem storeThenLoad : Obligations.StoreThenLoad := by
  intro x d a len v hmapped hlen
  have hbyte := Dev.st_byte v hlen hmapped
  have hstored : ∀ k, k < len → (d.st x a len v).byte x (a + k) = v / 256 ^ k % 256 := fun k hk => by
    rw [hbyte, if_pos (by omega), Nat.add_sub_cancel_left, byteOf_eq]
  exact ⟨Dev.ld_of_bytes hstored, hstored, fun b hb => by rw [hbyte, if_neg (by omega)]⟩

/-! ### Refusals (R26, R527) -/

/-- Settles O11: the command only finishes, and finishing leaves the units, the pages, the logs and the requests alone. -/
theorem refusedCommandChangesNothing : Obligations.RefusedCommandChangesNothing := by
  intro x d c cs f st hfail
  rw [Dev.checked_stop f hfail]
  exact ⟨rfl, Dev.finish_units .., Dev.finish_kv .., Dev.finish_logs .., Dev.finish_requests ..⟩

/-! ### How HP completes an access (R17, R46, R604) -/

section
variable {x : Ctx} {d : Dev} {off : Nat}

/-- HP decodes its BARs, and the offset lies in BAR0. -/
def Dev.decodesBar0 (d : Dev) (off : Nat) : Prop := d.eclipse = false ∧ d.hif.hp.d3hot = false ∧ off < 0x4000000

theorem Dev.bar0Cpl_absent (ha : absentBlock x.fuses.part off = true) : d.bar0Cpl x off = .unsupportedRequest := by
  simp [Dev.bar0Cpl, ha]

theorem Dev.bar0Cpl_early (hdec : d.decodesBar0 off) (ha : absentBlock x.fuses.part off = false) (hop : d.operational = false)
    (hchip : 0x100000 ≤ off) (hmbox : off < 0x1C00000 ∨ 0x1D00000 ≤ off) : d.bar0Cpl x off = .completerAbort := by
  obtain ⟨hec, hd3, hoff⟩ := hdec
  have hearly : (decide (off < 0x100000) || (decide (0x1C00000 ≤ off) && decide (off < 0x1D00000))) = false := by
    simp; omega
  simp [Dev.bar0Cpl, hec, hd3, hoff, ha, hop, hearly]

theorem Dev.stage_of_operational (hop : d.operational = true) : d.stage = 8 := by simpa [Dev.operational] using hop

/-- In OPERATIONAL the power domain of the block alone decides. -/
theorem Dev.bar0Cpl_domain (hdec : d.decodesBar0 off) (ha : absentBlock x.fuses.part off = false) (hop : d.operational = true)
    {dom : Domain} (hdom : domainOf off = some dom) : d.bar0Cpl x off = if d.domainUp dom then .success else .completerAbort := by
  obtain ⟨hec, hd3, hoff⟩ := hdec
  simp [Dev.bar0Cpl, hec, hd3, hoff, ha, hop, Dev.stage_of_operational hop, hdom]

theorem Dev.bar0Cpl_no_domain (hdec : d.decodesBar0 off) (ha : absentBlock x.fuses.part off = false) (hop : d.operational = true)
    (hdom : domainOf off = none) : d.bar0Cpl x off = .success := by
  obtain ⟨hec, hd3, hoff⟩ := hdec
  simp [Dev.bar0Cpl, hec, hd3, hoff, ha, hop, Dev.stage_of_operational hop, hdom]

end

/-- Settles O16, by the cases of `Dev.bar0Cpl`. -/
theorem earlyAccessRefused : Obligations.EarlyAccessRefused := by
  intro x d off hec hd3 hoff
  have hdec : d.decodesBar0 off := ⟨hec, hd3, hoff⟩
  refine ⟨Dev.bar0Cpl_absent, Dev.bar0Cpl_early hdec, ?_, ?_, fun f => Dev.bar0_refused f⟩
  · intro ha hop dom hdom hdown
    simp [Dev.bar0Cpl_domain hdec ha hop hdom, hdown]
  · intro ha hop hup
    cases hdom : domainOf off with
    | none => exact Dev.bar0Cpl_no_domain hdec ha hop hdom
    | some dom => simp [Dev.bar0Cpl_domain hdec ha hop hdom, hup dom hdom]

/-! ### Status codes (R25) -/

/-- The status that a code of R25 names; no meaning for other codes. -/
def Status.ofCode : Nat → Status
  | 0x00 => .DONE | 0x01 => .DONE_DEGRADED | 0x02 => .DONE_PARTIAL
  | 0x10 => .REFUSED_CAPACITY | 0x11 => .REFUSED_STATE | 0x12 => .REFUSED_RESOURCE
  | 0x20 => .CANCELLED | 0x21 => .GRAMMAR_DEAD | 0x22 => .STOPPED
  | 0x30 => .FAULT_MEDIA | 0x31 => .FAULT_UNIT | 0x32 => .FAULT_TIMEOUT | 0x40 => .FAULT_LINK
  | _ => .NOT_PRESENT

theorem Status.ofCode_code : Function.LeftInverse Status.ofCode Status.code := fun s => by cases s <;> rfl

theorem Status.code_lt (s : Status) : s.code < 256 := by cases s <;> decide

/-- Byte 4 of a FINAL entry lies above CMD_ID and below the fields from byte 6 on. -/
theorem byteOf_finalEntry_status (c : Cmd) (head result stamp : Nat) (s : Status) :
    byteOf (finalEntry c head s result stamp) 4 = s.code := by
  have := s.code_lt
  simp only [finalEntry, packFields, byteOf, bits]
  omega

/-- Settles O20: `Status.ofCode` reads each code back. -/
theorem statusCodes : Obligations.StatusCodes :=
  ⟨by decide, fun _ _ h => Status.ofCode_code.injective h, fun c head result stamp s => byteOf_finalEntry_status c head result stamp s⟩

/-! ### Reserved bytes and bits (R21, R29, R31) -/

/-- `State.ring_reserved`, for a ring command as the run that it is. -/
theorem State.run_reserved (s : State) {e : Entry} {used res : List (Nat × Nat)} (f : Ctx → Dev → Dev)
    (h : e.reservedSet used res = true) :
    s.run (fun x d => if e.reservedSet used res then d.unpredictable x e.cmd else f x d) =
      .next (s.commit (s.view.unpredictable s.ctx e.cmd)) :=
  s.ring_reserved (fun x d _ => f x d) h

/-- Settles O25: the arm of each ring command is one `State.ring` with the fields and the reserved bits of its clause. -/
theorem reservedBitsContained : Obligations.ReservedBitsContained := by
  intro s e
  and_intros
  all_goals
    intros
    exact State.run_reserved s _ ‹_›

/-! ### Register accesses and configuration requests (R22, R80, R85, R86, R512) -/

theorem State.run_bar0 {s : State} {off : Nat} (f : Ctx → Dev → Dev) (h : s.view.bar0Cpl s.ctx off = .success) :
    s.run (fun x d => d.bar0 x off (f x)) = .next (s.commit (f s.ctx s.view)) := by
  rw [State.run_next, Dev.bar0_served _ h]

/-- A register write that sets no W1S bit is the write alone. -/
theorem execRegisterWrite_no_w1s {s : State} {off val : Nat} (h : s.view.bar0Cpl s.ctx off = .success) (hw : w1sRows off val = []) :
    execRegisterWrite off val s = .next (s.commit
      (if 0x1C00000 ≤ off && off < 0x1C00800 then s.view.writeMbox ((off - 0x1C00000) / 0x100) off val
       else s.view.barWrite s.ctx off val)) := by
  simp only [execRegisterWrite, hw, ite_self, List.foldl_nil]
  exact State.run_bar0 _ h

/-- Once the start is not held and the ROM stage is over or 100 ms old, a configuration request is not put off (R603). -/
theorem Dev.cfgRetry_ready {d : Dev} (hheld : d.held = false) (hready : d.stage ≠ 1 ∨ d.boot.started + 100000000 ≤ d.now) :
    d.cfgRetry = (false, d) := by
  have hlate : ¬ (d.stage = 1 ∧ d.now < d.boot.started + 100000000) := fun ⟨hrom, hnew⟩ =>
    hready.elim (· hrom) (Nat.not_le.2 hnew)
  simp [Dev.cfgRetry, hheld, hlate]

theorem execConfigurationRequest_ready {s : State} (wr : Bool) (field : CfgField) (val : Nat) (hheld : s.view.held = false)
    (hready : s.view.stage ≠ 1 ∨ s.view.boot.started + 100000000 ≤ s.view.now) :
    execConfigurationRequest wr field val s = .next (s.commit
      (if wr then (s.view.cfgWrite field val).send (.cpl .success 0 false)
       else (s.view.cfgReadEffect field).send (.cpl .success (s.view.cfgRead s.ctx field) false))) := by
  simp [execConfigurationRequest, State.run_next, Dev.cfgRetry_ready hheld hready]

/-- Settles O45: each clause is the rule above for its access, at the branch that the clause names. -/
theorem registerCommandsComplete : Obligations.RegisterCommandsComplete := by
  intro s
  refine ⟨?_, ?_, fun off h => State.run_bar0 _ h, fun h => State.run_bar0 _ h, ?_, ?_⟩
  · intro off val x d hcpl hw hrange
    have hmbox : (decide (0x1C00000 ≤ off) && decide (off < 0x1C00800)) = false := by simp; omega
    exact (execRegisterWrite_no_w1s hcpl hw).trans (by rw [hmbox]; rfl)
  · intro off val x d hcpl hw hlo hhi
    have hmbox : (decide (0x1C00000 ≤ off) && decide (off < 0x1C00800)) = true := by simp [hlo, hhi]
    exact (execRegisterWrite_no_w1s hcpl hw).trans (by rw [hmbox]; rfl)
  · exact fun field val hheld hready => execConfigurationRequest_ready true field val hheld hready
  · exact fun field val hheld hready => execConfigurationRequest_ready false field val hheld hready

end Sys2Proof.Machine
end

section
/-! PROOFS about the organisation of the device (chapter 1): unmapped addresses, what the resets keep, and the commands of time, pace and
self-recovery. -/

namespace Sys2Proof.Machine

/-! ### Unmapped addresses (R84) -/

theorem Dev.byte_unmapped {x : Ctx} {d : Dev} {a : Nat} (h : mapped x.fuses.part d a = false) : d.byte x a = 0 := by
  simp [Dev.byte, h]

theorem mappedRange_of_hole {p : Part} {d : Dev} {a len h : Nat} (hole : holeIn p d a len = some h) : mappedRange p d a len = false := by
  simp [mappedRange, hole]

theorem mappedRange_iff_no_hole {p : Part} {d : Dev} {a len : Nat} : mappedRange p d a len = true ↔ holeIn p d a len = none := by
  simp [mappedRange]

/-- A store to a range with a hole is discarded. -/
theorem Dev.st_of_hole {x : Ctx} {d : Dev} {a len h : Nat} (v : Nat) (hole : holeIn x.fuses.part d a len = some h) : d.st x a len v = d := by
  simp [Dev.st, mappedRange_of_hole hole]

theorem Dev.holeCheck_of_hole {x : Ctx} {d : Dev} {a len h : Nat} (hole : holeIn x.fuses.part d a len = some h) :
    d.holeCheck x a len = d.report chipSource 0x12 3 h := by
  simp [Dev.holeCheck, hole]

theorem Dev.holeCheck_of_no_hole {x : Ctx} {d : Dev} {a len : Nat} (hnone : holeIn x.fuses.part d a len = none) : d.holeCheck x a len = d := by
  simp [Dev.holeCheck, hnone]

/-- A command that names one buffer with a hole only logs the hole and has the contained outcome. -/
theorem Dev.buffers_of_hole {x : Ctx} {d : Dev} {a len h : Nat} (c : Cmd) (f : Dev → Dev) (hole : holeIn x.fuses.part d a len = some h) :
    d.buffers x c [(a, len)] f = (d.report chipSource 0x12 3 h).unpredictable x c := by
  rw [Dev.buffers_hole f (b := (a, len)) (by simp [mappedRange_of_hole hole]), Dev.holeCheck_of_hole hole]

/-- Settles O9: the hole of a range is its first unmapped address (`holeIn_some`), and each access to such a range has its rule. -/
theorem unmappedAccess : Obligations.UnmappedAccess := by
  intro x d a len v
  refine ⟨Dev.byte_unmapped, fun h hole => ?_, fun hall => ?_⟩
  · obtain ⟨hlo, hhi, hunmapped, hbefore⟩ := holeIn_some hole
    exact ⟨hlo, hhi, hunmapped, hbefore, Dev.st_of_hole v hole, Dev.holeCheck_of_hole hole, fun c f => Dev.buffers_of_hole c f hole⟩
  · have hnone := mappedRange_iff_no_hole.1 (mappedRange_of_all hall)
    exact ⟨hnone, Dev.holeCheck_of_no_hole hnone⟩

/-! ### Power-on, cold and warm resets (R60, R614, R616, R632) -/

/-- The parts of a device by which the resets differ: what each keeps of them and what it clears. -/
structure ResetView where
  now : Nat
  logs : List ErrLog
  sess : Sess
  sec : SecSt
  hif : Hif
  flash : List (Nat × Nat)

def Dev.resetView (d : Dev) : ResetView := ⟨d.now, d.err.logs, d.sess, d.sec, d.hif, d.boot.flash⟩

@[simp] theorem Dev.setReg_resetView (d : Dev) (off v : Nat) : (d.setReg off v).resetView = d.resetView := by simp [Dev.resetView]

@[simp] theorem Dev.setFld_resetView (d : Dev) (off lo len v : Nat) : (d.setFld off lo len v).resetView = d.resetView := by simp [Dev.resetView]

@[simp] theorem Dev.send_resetView (d : Dev) (o : Out) : (d.send o).resetView = d.resetView := rfl

@[simp] theorem Dev.loseBytes_resetView (d : Dev) (rs : List (Nat × Nat)) : (d.loseBytes rs).resetView = d.resetView := rfl

@[simp] theorem Dev.alertOff_resetView (d old : Dev) : (d.alertOff old).resetView = d.resetView := by
  unfold Dev.alertOff; split <;> simp

@[simp] theorem Dev.bootStat_resetView (d old : Dev) (cause : Nat) : (d.bootStat old cause).resetView = d.resetView := by
  simp [Dev.bootStat]

@[simp] theorem Dev.keepChain_resetView (d old : Dev) : (d.keepChain old).resetView = d.resetView := by
  simp [Dev.keepChain]

@[simp] theorem Dev.keepTime_resetView (d old : Dev) : (d.keepTime old).resetView = d.resetView := by
  simp only [Dev.keepTime, Dev.setReg_resetView]; rfl

@[simp] theorem Dev.beginStart_resetView (d : Dev) : d.beginStart.resetView = d.resetView := by
  unfold Dev.beginStart
  dsimp only
  split
  · rw [foldl_keeps (g := Dev.resetView) (h := fun d p => d.setFld_resetView ..)]; rfl
  · rfl

/-- SEC after power-on or a cold reset: the SVN floor alone stays (R632, R645). -/
def SecSt.afterLoss (s : SecSt) (rnd : Nat) : SecSt := { Dev.reset.sec with svnFloor := s.svnFloor }.fresh rnd

theorem Dev.powerOn_resetView (x : Ctx) (d : Dev) (rnd : Nat) : (d.powerOn x rnd).resetView =
    ⟨0, List.replicate 5 .reset, Dev.reset.sess, d.sec.afterLoss rnd, .reset, d.boot.flash⟩ := by
  simp only [Dev.powerOn, Dev.loseBytes_resetView, Dev.alertOff_resetView]
  split <;> rfl

theorem Dev.coldReset_resetView (x : Ctx) (d : Dev) (cause rnd : Nat) : (d.coldReset x cause rnd).resetView =
    ⟨d.now, d.err.logs, Dev.reset.sess, d.sec.afterLoss rnd, .reset, d.boot.flash⟩ := by
  simp only [Dev.coldReset, Dev.loseBytes_resetView, Dev.alertOff_resetView, Dev.keepTime_resetView, Dev.bootStat_resetView]
  rfl

/-- The host interface that a warm reset leaves (R616). -/
def Hif.afterWarm (h : Hif) : Hif :=
  { Hif.reset with hp := h.hp, ppSerials := h.ppSerials, eid := h.eid, tid := h.tid, eventReceiver := h.eventReceiver,
                   recovery := h.recovery, meterCarry := h.meterCarry }

/-- What a warm reset leaves of SEC (R632). -/
def SecSt.afterWarm (s : SecSt) : SecSt :=
  { Dev.reset.sec with svnFloor := s.svnFloor, epoch := s.epoch, tenant := s.tenant, storeKey := s.storeKey, zeroing := s.zeroing,
                       zeroDone := s.zeroDone, debugUsed := s.debugUsed }

theorem Dev.warmReset_resetView (x : Ctx) (d : Dev) (cause : Nat) : (d.warmReset x cause).resetView =
    ⟨d.now, d.err.logs, d.sess, d.sec.afterWarm, d.hif.afterWarm, d.boot.flash⟩ := by
  simp only [Dev.warmReset, Dev.loseBytes_resetView, apply_ite Dev.resetView, Dev.beginStart_resetView, ite_self]
  rw [foldl_keeps (g := Dev.resetView) (h := fun d p => d.send_resetView ..)]
  simp only [Dev.keepChain_resetView, Dev.keepTime_resetView, Dev.bootStat_resetView, Dev.setFld_resetView]
  rfl

/-- Settles O19: each part that a clause names is read off the view that its reset leaves. -/
theorem deviceTimeAcrossResets : Obligations.DeviceTimeAcrossResets := by
  intro x d cause rnd
  obtain ⟨pnow, plogs, -, psec, -, pflash⟩ := ResetView.mk.inj (d.powerOn_resetView x rnd)
  obtain ⟨cnow, clogs, csess, csec, -, cflash⟩ := ResetView.mk.inj (d.coldReset_resetView x cause rnd)
  obtain ⟨wnow, wlogs, wsess, wsec, whif, wflash⟩ := ResetView.mk.inj (d.warmReset_resetView x cause)
  refine ⟨⟨pnow, plogs, by rw [psec]; rfl⟩, ⟨cnow, clogs, csess, by rw [csec]; rfl, by rw [csec]; rfl⟩, ?_, ?_⟩
  · rw [wnow, wlogs, wsess, wsec, whif]
    exact ⟨rfl, rfl, rfl, rfl, rfl, rfl, rfl, rfl, rfl, rfl, rfl, rfl⟩
  · simp only [List.forall_mem_cons, List.not_mem_nil, false_implies, implies_true, and_true]
    exact ⟨⟨pflash, by rw [psec]; rfl⟩, ⟨cflash, by rw [csec]; rfl⟩, wflash, by rw [wsec]; rfl⟩

/-! ### State after power-on reset (R60, R541, R602, R604) -/

theorem tblGet_map_const {α : Type} (v : α) (k : Nat) (l : List Nat) : (tblGet k (l.map fun j => (j, v))).getD v = v := by
  induction l with
  | nil => rfl
  | cons j t ih =>
    simp only [List.map_cons, tblGet]
    split
    · rfl
    · exact ih

theorem Dev.reset_mbox (m : Nat) : Dev.reset.mbox (.m m) = .reset := tblGet_map_const ..

theorem Dev.reset_desc (i : Nat) : Dev.reset.desc i = .void 0 0 := rfl

/-- BOOT_STAT resets with STAGE 1. -/
theorem Dev.reset_stage : Dev.reset.stage = 1 := by decide

/-- Settles O3: each table of `Dev.reset` is empty, and an entry that a table does not list reads its reset value. -/
theorem resetLeavesFirstStage : Obligations.ResetLeavesFirstStage :=
  ⟨rfl, Dev.reset_stage, rfl, rfl, rfl, rfl, rfl, rfl,
    fun m _ => by rw [show State.reset.dev.mbox (.m m) = .reset from Dev.reset_mbox m]; exact ⟨rfl, rfl, rfl, rfl⟩,
    fun i => congrArg Desc.state (Dev.reset_desc i)⟩

/-! ### Time, pace and latching reads (R51, R62 to R73, R448, R508, R647) -/

theorem State.run_ite {s : State} {p : Ctx → Dev → Prop} [∀ x d, Decidable (p x d)] (f g : Ctx → Dev → Dev) (h : p s.ctx s.view) :
    s.run (fun x d => if p x d then f x d else g x d) = .next (s.commit (f s.ctx s.view)) := by
  rw [State.run_next, if_pos h]

theorem State.run_ite_not {s : State} {p : Ctx → Dev → Prop} [∀ x d, Decidable (p x d)] (f g : Ctx → Dev → Dev) (h : ¬ p s.ctx s.view) :
    s.run (fun x d => if p x d then f x d else g x d) = .next (s.commit (g s.ctx s.view)) := by
  rw [State.run_next, if_neg h]

/-- The keeper `tk` compares itself with the reference: the device runs, and a quadrant's keeper is aligned (R62, R66). -/
theorem calibrate_ready {d : Dev} {tk : Nat} (htk : tk ≤ 4) (hheld : d.held = false) (hecl : d.eclipse = false)
    (halign : tk = 0 ∨ (d.keeper tk).aligned = true) :
    (decide (4 < tk) || d.held || d.eclipse || (tk != 0 && !(d.keeper tk).aligned)) = false := by
  have hlt : ¬ 4 < tk := by omega
  rcases halign with h | h <;> simp [hlt, hheld, hecl, h]

theorem execTkCalibrate_ready {s : State} {tk : Nat} (counted refTicks : Nat) (htk : tk ≤ 4) (hheld : s.view.held = false)
    (hecl : s.view.eclipse = false) (halign : tk = 0 ∨ (s.view.keeper tk).aligned = true) :
    execTkCalibrate tk counted refTicks s = .next (s.commit
      (if refGood refTicks = false then s.view.holdover tk
       else if tk ≠ 0 ∧ 16 < (s.view.calibrate tk counted).skewOf (tk - 1) then (s.view.calibrate tk counted).quadReset s.ctx (tk - 1) 2
       else s.view.calibrate tk counted)) :=
  (State.run_ite_not _ _ (by rw [calibrate_ready htk hheld hecl halign]; exact Bool.false_ne_true)).trans (by simp)

theorem execQdTkAlign_ready {s : State} {q : Nat} (hq : q < 4) (hstage : s.view.stage ≠ 1)
    (hon : bit (s.view.reg Reg.pmcGate) q = false ∨ (s.view.pmc.waking.any fun w => w.domain == q) = true)
    (hreset : (s.view.boot.quadResets.any fun r => r.quad == q && r.stage == 2) = false) (honline : s.view.boot.quadOffline.contains q = false) :
    execQdTkAlign q s = .next (s.commit (s.view.alignQuad q)) := by
  refine State.run_ite _ _ ?_
  have hpowered : (!(bit (s.view.reg Reg.pmcGate) q) || s.view.pmc.waking.any fun w => w.domain == q) = true := by
    rcases hon with h | h <;> simp only [h, Bool.not_false, Bool.true_or, Bool.or_true]
  simp only [hq, hpowered, hreset, honline, bne_iff_ne.2 hstage, decide_true, Bool.and_self, Bool.not_false]

theorem execPaceWindowEnd_present {s : State} {block : Nat} (ops busyNs : Nat) (hpace : isPace block = true)
    (hpresent : absentBlock s.ctx.fuses.part block = false) :
    execPaceWindowEnd block ops busyNs s = .next (s.commit (s.view.paceWindow s.ctx block ops busyNs)) :=
  State.run_ite _ _ (by rw [hpace, hpresent]; rfl)

theorem State.run_latchRead {s : State} {lo : Nat} (hi : Nat) (v : Dev → Nat) (h : s.view.bar0Cpl s.ctx lo = .success) :
    s.run (fun x d => d.latchRead x lo hi (v d)) =
      .next (s.commit ((s.view.setReg hi (u64 (v s.view) / 2 ^ 32)).send (.cpl .success (u32 (v s.view)) false))) := by
  rw [State.run_next, Dev.latchRead, Dev.bar0_served _ h]

/-- Settles O44: each clause is the rule above for its event, or a register read that HP serves. -/
theorem timeCommandsComplete : Obligations.TimeCommandsComplete := by
  intro s
  refine ⟨?_, ?_, ?_, ?_, ?_, ?_, ?_, ?_, ?_, ?_, ?_, ?_, ?_, ?_, ?_, ?_⟩
  · exact fun tk counted refTicks htk hheld hecl halign href => (execTkCalibrate_ready counted _ htk hheld hecl halign).trans (by simp [href])
  · exact fun tk counted refTicks htk hheld hecl halign href => (execTkCalibrate_ready counted _ htk hheld hecl halign).trans (by simp [href])
  · exact fun _ => execQdTkAlign_ready
  · exact fun _ => execPaceWindowEnd_present
  · exact State.run_bar0 _
  · exact State.run_bar0 _
  · exact fun hperiod => State.run_ite_not _ _ (by simpa using hperiod)
  · exact fun _ _ _ hrun => State.run_ite _ _ hrun
  · exact fun hrun => State.run_ite _ _ hrun
  · exact State.run_bar0 _
  · exact State.run_latchRead _ _
  · exact State.run_latchRead _ _
  · exact State.run_latchRead _ _
  · exact State.run_latchRead _ _
  · exact State.run_latchRead _ _
  · exact fun _ => State.run_latchRead _ _

/-! ### Watchers of cells, blocks and drains (R74, R76, R78, R693, R695) -/

/-- The requester that a cell has granted ends its work with a command that waits: the acknowledge of R76. -/
def State.cellAcked (s : State) (block cell : Nat) : Bool :=
  match (s.view.cellOf block cell).granted with
  | some r => s.pending.any (endsWork (Reg.qdAePace (r / 64) (r % 64)))
  | none => false

theorem execCellTimeout_expires {s : State} {block cell : Nat} (hblock : blockOk s.ctx.fuses.part block = true) (hcell : cell < 4095)
    (hacked : s.cellAcked block cell = false) (hnew : s.view.blockAbsorbed block = false) :
    execCellTimeout ⟨block, cell⟩ s = .next (s.commit (s.view.cellExpires s.ctx block cell)) := by
  refine State.run_ite_not _ _ (ne_true_of_eq_false ?_)
  change (!blockOk s.ctx.fuses.part block || decide (4095 ≤ cell) || s.cellAcked block cell || s.view.blockAbsorbed block) = false
  simp only [hblock, hacked, hnew, decide_eq_false (Nat.not_le.2 hcell), Bool.not_true, Bool.or_self]

section
variable {x : Ctx} {d : Dev} {block cell : Nat}

/-- The device once the expiry of a cell's watcher is reported. -/
def Dev.cellReport (d : Dev) (block cell : Nat) : Dev := d.report (blockSource block + (cell + 1) * 0x100000) 0x20 1 0

/-- The requester whose handshake a cell's watcher watches. -/
def Dev.cellWho (d : Dev) (block cell : Nat) : Nat := (d.cellOf block cell).granted.getD otherRequester

theorem Dev.cellExpires_first (h : tblGet (d.cellWho block cell) (d.cellOf block cell).again = none) :
    d.cellExpires x block cell = (d.cellReport block cell).setCell ((d.cellOf block cell).retry (d.cellReport block cell).now) := by
  unfold Dev.cellWho at h
  simp only [Dev.cellExpires, h, Bool.false_eq_true, if_false]
  rfl

theorem Dev.cellExpires_again {t : Ns} (h : tblGet (d.cellWho block cell) (d.cellOf block cell).again = some t)
    (htime : (d.cellOf block cell).granted.isSome = true ∨ (d.cellReport block cell).now ≤ t + (d.cellReport block cell).cellNs block + 256) :
    d.cellExpires x block cell = ((d.cellReport block cell).setCell
      { d.cellOf block cell with again := tblDel (d.cellWho block cell) (d.cellOf block cell).again }).blockExpires x block := by
  have hagain : ((d.cellOf block cell).granted.isSome ||
      decide ((d.cellReport block cell).now ≤ t + (d.cellReport block cell).cellNs block + 256)) = true := by simpa using htime
  unfold Dev.cellWho at h
  unfold Dev.cellReport at hagain
  simp only [Dev.cellExpires, h, hagain, if_true]
  rfl

end

theorem execBlockTimeout_open {s : State} {block : Nat} (hblock : blockOk s.ctx.fuses.part block = true) (honline : s.view.blockState block ≠ 2)
    (hworks : trackedBlock block = false ∨ s.view.blockWorks block = true) (hends : s.pending.any (endsWork block) = false) :
    execBlockTimeout block s = .next (s.commit (s.view.blockExpires s.ctx block)) := by
  refine State.run_ite_not _ _ (ne_true_of_eq_false ?_)
  have hopen : (trackedBlock block && !(s.view.blockWorks block)) = false := by
    rcases hworks with h | h <;> simp only [h, Bool.false_and, Bool.not_true, Bool.and_false]
  simp only [hblock, hopen, hends, beq_false_of_ne honline, Bool.not_true, Bool.or_self]

theorem execDrainTimeout_late {s : State} {q : Nat} (hq : q < 4)
    (hlate : (s.view.boot.quadResets.any fun r => r.quad == q && r.stage == 1 &&
      decide (r.since + s.view.fld (Reg.qdQctlToDrain q) 0 16 * 1000 ≤ s.view.now)) = true)
    (hends : s.pending.any (endsDrain q) = false) :
    execDrainTimeout q s = .next (s.commit ((s.view.report (sourceOf (quadBase q) 0 0) 0x22 2 q).drained s.ctx q)) := by
  refine State.run_ite _ _ ?_
  simp only [hq, hlate, hends, decide_true, Bool.true_or, Bool.not_false, Bool.and_self]

/-! ### Timeouts of a start and watchdogs (R601, R605) -/

theorem execStageTimeout_late {s : State} (hstarting : s.view.starting = true)
    (hlate : s.view.boot.stageAt + s.view.fld Reg.chipToStage 0 16 * 1000000 ≤ s.view.now)
    (hpos : s.view.stage ≠ 7 ∨ (s.view.report chipSource 0x23 3 s.view.stage).boot.chainMode = false ∨
      (s.view.report chipSource 0x23 3 s.view.stage).boot.posAssigned = true) :
    execStageTimeout s = .next (s.commit ((s.view.report chipSource 0x23 3 s.view.stage).failStart s.ctx 0x21 s.view.stage)) := by
  have hwaits : (s.view.stage == 7 && (s.view.report chipSource 0x23 3 s.view.stage).boot.chainMode &&
      !(s.view.report chipSource 0x23 3 s.view.stage).boot.posAssigned) = false := by
    rcases hpos with h | h | h <;> simp [h]
  have hdue : (!(s.view.starting) || decide (s.view.now < s.view.boot.stageAt + s.view.fld Reg.chipToStage 0 16 * 1000000)) = false := by
    simp only [hstarting, decide_eq_false (Nat.not_lt.2 hlate), Bool.not_true, Bool.or_self]
  refine (State.run_ite_not _ _ (ne_true_of_eq_false hdue)).trans ?_
  simp only [hwaits, Bool.false_eq_true, if_false]

theorem execStartLimit_late {s : State} (hstarting : s.view.starting = true) (hlate : s.view.boot.started + 10000000000 ≤ s.view.now) :
    execStartLimit s = .next (s.commit (s.view.failStart s.ctx 0x22 0)) :=
  State.run_ite_not _ _ (ne_true_of_eq_false (by
    simp only [hstarting, decide_eq_false (Nat.not_lt.2 hlate), Bool.not_true, Bool.or_self]))

theorem execWatchdogMiss_watched {s : State} {core : Nat} (hsec : core ≠ 0) (hcore : core ≤ 6) (hheld : s.view.held = false)
    (hecl : s.view.eclipse = false) (hstage : s.view.stage ≠ 1) :
    execWatchdogMiss core s = .next (s.commit (s.view.coreDown s.ctx core)) := by
  refine State.run_ite_not _ _ (ne_true_of_eq_false ?_)
  simp only [hheld, hecl, beq_false_of_ne hsec, beq_false_of_ne hstage, decide_eq_false (Nat.not_lt.2 hcore), Bool.or_self]

theorem execHardwareWatchdog_watched {s : State} (hheld : s.view.held = false) (hecl : s.view.eclipse = false) :
    execHardwareWatchdog s = .next (s.commit ((s.view.report chipSource 0x24 3 0).chipLevel s.ctx 0)) :=
  State.run_ite_not _ _ (by rw [hheld, hecl]; exact Bool.false_ne_true)

/-! ### Segments of the Ecliptic (R44, R45) -/

section
variable {x : Ctx} {d : Dev} {t : EclXfer} {dst : Nat}

/-- The port of a segment has power: it is no quadrant's, or its quadrant is on. -/
theorem segment_powered (hpower : 4 ≤ dst ∨ d.quadPowered dst = true) : (decide (dst < 4) && !(d.quadPowered dst)) = false := by
  rcases hpower with h | h
  · simp only [decide_eq_false (Nat.not_lt.2 h), Bool.false_and]
  · simp only [h, Bool.not_true, Bool.and_false]

theorem Dev.segment_good (hto : t.dst = dst) (hpower : 4 ≤ dst ∨ d.quadPowered dst = true) : d.segment x t true = d.eclArrive t := by
  simp only [Dev.segment, hto, segment_powered hpower, Bool.false_eq_true, if_false, if_true]

/-- A first bad check: the segment is sent again. -/
theorem Dev.segment_bad (hto : t.dst = dst) (hpower : 4 ≤ dst ∨ d.quadPowered dst = true) (hfirst : t.again = false) :
    d.segment x t false = (d.eclResend t).report chipSource 0x10 1 dst := by
  simp only [Dev.segment, hto, segment_powered hpower, hfirst, Bool.false_eq_true, if_false, Bool.not_false, if_true]

end

section
variable {s : State} {src dst : Nat}

theorem ports_differ (hsrc : src < eclPorts) (hdst : dst < eclPorts) (hne : src ≠ dst) :
    (decide (eclPorts ≤ src) || decide (eclPorts ≤ dst) || src == dst) = false := by
  simp only [decide_eq_false (Nat.not_le.2 hsrc), decide_eq_false (Nat.not_le.2 hdst), beq_false_of_ne hne, Bool.or_self]

theorem execSegmentArrive_turn {t : EclXfer} (crcOk : Bool) (hsrc : src < eclPorts) (hdst : dst < eclPorts) (hne : src ≠ dst)
    (hwaits : (s.view.arb.xfers.any fun t => t.src == src && t.dst == dst) = true) (hnext : s.view.eclNext dst = some t) (hturn : t.src = src) :
    execSegmentArrive src dst crcOk s = .next (s.commit (s.view.segment s.ctx t crcOk)) := by
  rw [execSegmentArrive, State.run_next, ports_differ hsrc hdst hne, hwaits, hnext]
  simp [hturn]

theorem execSegmentArrive_control (crcOk : Bool) (hsrc : src < eclPorts) (hdst : dst < eclPorts) (hne : src ≠ dst)
    (hnone : (s.view.arb.xfers.any fun t => t.src == src && t.dst == dst) = false) :
    execSegmentArrive src dst crcOk s = .next (s.commit (s.view.controlSegment s.ctx src dst crcOk)) := by
  rw [execSegmentArrive, State.run_next, ports_differ hsrc hdst hne, hnone]
  rfl

end

/-! ### Errors and resets of blocks and quadrants (R614, R618, R619, R693) -/

section
variable {s : State} {block q : Nat}

/-- A corrected error is reported, and counted where the block is an AE (R674). -/
theorem execBlockHardwareError_corrected (typ : Nat) (hblock : blockOk s.ctx.fuses.part block = true) :
    execBlockHardwareError block typ true s = .next (s.commit
      (let d1 := s.view.report (blockSource block) 0x05 0 0
       if (blockIndex block).1 == Reg.qdAePace 0 0 then d1.bump (Reg.qdAeEccCnt ((blockIndex block).2 / 64) ((blockIndex block).2 % 64)) 1
       else d1)) := by
  rw [execBlockHardwareError, State.run_next, hblock]
  rfl

theorem execBlockHardwareError_fails (typ : Nat) (hblock : blockOk s.ctx.fuses.part block = true) :
    execBlockHardwareError block typ false s = .next (s.commit
      ((if typ == 6 || typ == 7 then s.view.report (blockSource block) typ 2 0 else s.view).blockReset block 2)) := by
  rw [execBlockHardwareError, State.run_next, hblock]
  rfl

theorem execQuadPowerGood_waiting (hq : q < 4) (hstage : (s.view.boot.quadResets.any fun r => r.quad == q && r.stage == 2) = true) :
    execQuadPowerGood q s = .next (s.commit (s.view.quadStage q 2 3)) :=
  State.run_ite _ _ (by simp only [hq, hstage, decide_true, Bool.and_self])

theorem execQuadRejoinTimeout_late (hq : q < 4)
    (hlate : (s.view.boot.quadResets.any fun r => r.quad == q && r.stage != 1 && decide (r.since + 50000000 ≤ s.view.now)) = true) :
    execQuadRejoinTimeout q s = .next (s.commit (s.view.quadOff s.ctx q)) :=
  State.run_ite _ _ (by simp only [hq, hlate, decide_true, Bool.and_self])

/-- The reset of a quadrant is over. -/
def Dev.quadResetEnds (d : Dev) (q : Nat) : Dev := { d with boot := { d.boot with quadResets := d.boot.quadResets.filter fun r => r.quad != q } }

theorem execQuadRefillDone_aligned (hq : q < 4) (halign : (s.view.keeper (q + 1)).aligned = true)
    (hstage : (s.view.boot.quadResets.any fun r => r.quad == q && r.stage == 3) = true) :
    execQuadRefillDone q s = .next (s.commit (((s.view.quadResetEnds q).setFld Reg.chipRstCtl (4 + q) 1 0).quadBack s.ctx q)) :=
  State.run_ite _ _ (by simp only [hq, halign, hstage, decide_true, Bool.and_self])

variable {b : BlockReset}

theorem execBlockIdleAck_pending (hb : s.view.blockPending block = some b) :
    execBlockIdleAck block s = .next (s.commit (s.view.blockDone s.ctx b 0)) := by
  rw [execBlockIdleAck, State.run_next, hb]

theorem execBlockForcedReset_pending (hb : s.view.blockPending block = some b) (hack : s.pending.any (acksIdle block) = false) :
    execBlockForcedReset block s = .next (s.commit (s.view.blockDone s.ctx b 1)) := by
  simp only [execBlockForcedReset, State.run_next, hb, hack, Bool.false_eq_true, if_false]

/-- The reset of a block is given up. -/
def Dev.blockResetEnds (d : Dev) (block : Nat) : Dev :=
  { d with boot := { d.boot with blockResets := d.boot.blockResets.filter fun b => b.block != block } }

theorem execFailedBlockReset_quad (hb : s.view.blockPending block = some b) (hquad : quadOf block = some q) :
    execFailedBlockReset block s = .next (s.commit ((s.view.blockResetEnds block).quadReset s.ctx q 5)) := by
  rw [execFailedBlockReset, State.run_next, hb, hquad]
  rfl

theorem execFailedBlockReset_chip (hb : s.view.blockPending block = some b) (hquad : quadOf block = none) :
    execFailedBlockReset block s = .next (s.commit ((s.view.blockResetEnds block).warmReset s.ctx 5)) := by
  rw [execFailedBlockReset, State.run_next, hb, hquad]
  rfl

end

/-- Settles O46: each clause is the rule above for its event. -/
theorem selfRepairAndUnitEventsComplete : Obligations.SelfRepairAndUnitEventsComplete := by
  intro s
  refine ⟨?_, ?_, ?_, ?_, ?_, ?_, ?_, ?_, ?_, ?_, ?_, ?_, ?_, ?_, ?_, ?_, ?_, ?_, ?_, ?_, ?_, ?_⟩
  · exact fun block cell t hblock hcell hacked hnew hagain htime =>
      (execCellTimeout_expires hblock hcell hacked hnew).trans (by rw [Dev.cellExpires_again hagain htime]; rfl)
  · exact fun block cell hblock hcell hacked hnew hfirst =>
      (execCellTimeout_expires hblock hcell hacked hnew).trans (by rw [Dev.cellExpires_first hfirst]; rfl)
  · exact fun _ => execBlockTimeout_open
  · exact fun _ => execDrainTimeout_late
  · exact execStageTimeout_late
  · exact execStartLimit_late
  · exact fun src dst t hsrc hdst hne hwaits hnext hturn hto hpower =>
      (execSegmentArrive_turn true hsrc hdst hne hwaits hnext hturn).trans (by rw [Dev.segment_good hto hpower])
  · exact fun src dst t hsrc hdst hne hwaits hnext hturn hto hpower hfirst =>
      (execSegmentArrive_turn false hsrc hdst hne hwaits hnext hturn).trans (by rw [Dev.segment_bad hto hpower hfirst])
  · exact fun _ _ => execSegmentArrive_control
  · exact fun _ => execWatchdogMiss_watched
  · exact execHardwareWatchdog_watched
  · exact fun _ => execBlockHardwareError_fails
  · exact fun _ => execBlockHardwareError_corrected
  · exact fun _ => State.run_bar0 _
  · exact fun _ hq => State.run_ite _ _ hq
  · exact fun _ => execQuadPowerGood_waiting
  · exact fun _ => execQuadRefillDone_aligned
  · exact fun _ => execQuadRejoinTimeout_late
  · exact fun _ _ => execBlockIdleAck_pending
  · exact fun _ _ => execBlockForcedReset_pending
  · exact fun _ _ _ => execFailedBlockReset_quad
  · exact fun _ _ => execFailedBlockReset_chip

end Sys2Proof.Machine
end

section
/-! PROOFS about sessions and the step promise (chapter 2): the ledger's plan, the allocation of an index, handles of another generation, and the
commands and requests of sessions. -/

namespace Sys2Proof.Machine

/-! ### The ledger's plan (R132, R134) -/

theorem sumOf_eq_sum (l : List Nat) : sumOf l = l.sum := List.sum_eq_foldl.symm

/-- Bookings without demand on a resource add nothing to the demand on it. -/
theorem sumOf_on_filter_positive (r : Res) (bs : List Booking) :
    sumOf ((bs.filter fun b => 0 < b.on r).map fun b => b.on r) = sumOf (bs.map fun b => b.on r) := by
  simp only [sumOf_eq_sum]
  induction bs with
  | nil => rfl
  | cons b t ih =>
    rcases Nat.eq_zero_or_pos (b.on r) with hb | hb
    · simp [hb, ih]
    · simp [hb, ih]

/-- The demand on a resource that is due no later than a new booking, the new one's own included (R134). -/
def demandBefore (r : Res) (new : Booking) (open_ : List Booking) : Nat :=
  new.on r + sumOf ((open_.filter fun b => b.due r ≤ new.due r).map fun b => b.on r)

/-- The test at the new booking's own effective deadline. -/
theorem passRes_fits_own {rate : Rate} {pct t : Nat} {new : Booking} {open_ : List Booking} {r : Res}
    (h : passRes rate pct t new open_ r = true) : fits rate (demandBefore r new open_) 100 (new.due r - t) = true := by
  have hown := List.all_eq_true.1 h (new.due r) (by simp)
  have hfit := (Bool.and_eq_true_iff.1 hown).1
  rw [List.filter_cons_of_pos (by simp), List.filter_comm, List.map_cons, sumOf_eq_sum, List.sum_cons, ← sumOf_eq_sum,
    sumOf_on_filter_positive] at hfit
  exact hfit

theorem cdiv_le_of_le_mul {a b c : Nat} (hb : 0 < b) (h : a ≤ b * c) : cdiv a b ≤ c := (ceilDiv_le_iff_le_mul hb).2 h

/-- A positive demand that fits a time needs some of it, and the rate serves the demand within it. -/
theorem timeFor_le_of_fits {rate : Rate} {n T : Nat} (hn : 0 < n) (hunit : 0 < rate.2) (h : fits rate n 100 T = true) :
    0 < T ∧ timeFor rate n ≤ T := by
  have hwork : n * rate.2 ≤ rate.1 * T := by
    have : n * rate.2 * 100 ≤ rate.1 * 100 * T := of_decide_eq_true h
    exact Nat.le_of_mul_le_mul_right (Nat.mul_right_comm rate.1 100 T ▸ this) (by omega : 0 < 100)
  have hpos : 0 < rate.1 * T := Nat.lt_of_lt_of_le (Nat.mul_pos hn hunit) hwork
  have hrate : 0 < rate.1 := Nat.pos_of_mul_pos_right hpos
  refine ⟨Nat.pos_of_mul_pos_left hpos, ?_⟩
  rw [timeFor, if_neg (by simp; omega)]
  exact cdiv_le_of_le_mul hrate hwork

/-- L_r of a booking on a resource (R133). -/
def Booking.latOn (b : Booking) (r : Res) : Nat := match r with | .egress _ _ => 0 | _ => b.latNs

theorem Booking.due_eq (b : Booking) (r : Res) : b.due r = b.deadline - 16 - b.latOn r := rfl

theorem bookedFinish_le {rate : Res → Rate} {t n : Nat} {new : Booking} {open_ : List Booking}
    (h : ∀ r ∈ new.uses, t + new.latOn r + timeFor (rate r) (demandBefore r new open_) ≤ n) : bookedFinish rate t new open_ ≤ n :=
  List.foldlRecOn new.uses _ (motive := (· ≤ n)) (Nat.zero_le n) fun _ hm r hr => Nat.max_le.2 ⟨hm, h r hr⟩

/-- Settles O12: on each resource the demand due by the new effective deadline takes no longer than is left until then. -/
theorem acceptedRequestFinishesInTime : Obligations.AcceptedRequestFinishesInTime := by
  intro rate pct t new open_ hpositive hpass
  refine bookedFinish_le fun r hr => ?_
  obtain ⟨hon, hunit⟩ := hpositive r hr
  have hdemand : 0 < demandBefore r new open_ := Nat.add_pos_left hon _
  obtain ⟨hleft, htime⟩ := timeFor_le_of_fits hdemand hunit (passRes_fits_own (List.all_eq_true.1 hpass r hr))
  have hdue := new.due_eq r
  omega

/-! ### The index of a new session (R90) -/

/-- Index `j` is the first free one at or after a place, in a table that wraps. -/
def Dev.FirstFree (d : Dev) (i j : Nat) : Prop :=
  ∃ n, j = (i + n) % 4194304 ∧ ∀ m, m < n → (d.desc ((i + m) % 4194304)).state ≠ .void

theorem Dev.FirstFree.here {d : Dev} (i : Nat) : d.FirstFree i (i % 4194304) := ⟨0, rfl, fun m hm => absurd hm (Nat.not_lt_zero m)⟩

theorem Dev.FirstFree.next {d : Dev} {i j : Nat} (hused : (d.desc (i % 4194304)).state ≠ .void)
    (h : d.FirstFree (i % 4194304 + 1) j) : d.FirstFree i j := by
  obtain ⟨n, rfl, hbefore⟩ := h
  have hplace : ∀ m, (i % 4194304 + 1 + m) % 4194304 = (i + (m + 1)) % 4194304 := fun m => by omega
  refine ⟨n + 1, hplace n, fun m hm => ?_⟩
  cases m with
  | zero => exact hused
  | succ m => exact hplace m ▸ hbefore m (by omega)

theorem Dev.freeIdx_some {d : Dev} {fuel i j : Nat} (h : d.freeIdx fuel i = some j) :
    j < 4194304 ∧ (d.desc j).state = .void ∧ d.FirstFree i j := by
  induction fuel generalizing i with
  | zero => cases h
  | succ fuel ih =>
    rw [Dev.freeIdx] at h
    split at h
    · next hvoid =>
      cases h
      exact ⟨Nat.mod_lt _ (by omega), by simpa using hvoid, .here i⟩
    · next hused =>
      obtain ⟨hlt, hfree, hfirst⟩ := ih h
      exact ⟨hlt, hfree, hfirst.next (by simpa using hused)⟩

theorem Dev.nextGen_listed {d : Dev} {i : Nat} {s : Desc} (h : tblGet i d.sess.table = some s) : d.nextGen i = (s.gen + 1) % 1024 := by
  simp [Dev.nextGen, h]

theorem Dev.nextGen_never_used {d : Dev} {i : Nat} (h : tblGet i d.sess.table = none) (hv : d.sess.voided = none) : d.nextGen i = 0 := by
  simp [Dev.nextGen, h, hv]

/-- Settles O21, by induction on the fuel of the search. -/
theorem firstFreeIndexAllocated : Obligations.FirstFreeIndexAllocated := by
  intro d i h
  obtain ⟨hlt, hfree, hfirst⟩ := Dev.freeIdx_some h
  exact ⟨hlt, hfree, hfirst, fun s => Dev.nextGen_listed, Dev.nextGen_never_used⟩

/-! ### Handles (R89, R91, R95) -/

theorem Dev.readDesc_good {x : Ctx} {d : Dev} {i : Nat} {ds : Desc} (h : (d.readDesc x i).2 = some ds) :
    d.readDesc x i = ((d.readDesc x i).1, some ds) := Prod.ext rfl h

/-- A ring command whose handle has another generation than the descriptor. -/
theorem State.ring_stale {s : State} {e : Entry} {used res : List (Nat × Nat)} {ds : Desc} (f : Ctx → Cmd → Dev → Nat → Desc → Dev)
    (hres : e.reservedSet used res = false) (hd : (s.view.readDesc s.ctx (handleIdx (e.f 16 4))).2 = some ds)
    (hg : ds.gen % 1024 ≠ handleGen (e.f 16 4)) :
    s.ring e used res (fun x d c => d.withSession x c (e.f 16 4) (f x c)) =
      .next (s.commit ((s.view.readDesc s.ctx (handleIdx (e.f 16 4))).1.finish s.ctx e.cmd .REFUSED_STATE 0)) := by
  rw [State.ring_next _ hres, Dev.withSession_stale _ hd hg]

section
variable {s : State} {e : Entry} {ds : Desc}

theorem execSessSetTail_present (hres : e.reservedSet [(16, 42), (60, 4)] [(166, 2), (171, 5)] = false)
    (habs : setTailAbsent s.fuses.part e = false) : execSessSetTail e s =
      .next (s.commit (s.view.withSession s.ctx e.cmd (e.f 16 4) fun d i ds =>
        d.checked s.ctx e.cmd ([(ds.state != .idle || d.memberBound i, .REFUSED_STATE)] ++ d.setTailChecks e) fun d =>
          (d.putDesc s.ctx i (setTail e (d.startState s.ctx (e.f 56 2)) ds)).finish s.ctx e.cmd .DONE 0)) := by
  rw [execSessSetTail, State.ring_next _ hres, Dev.checked_pass _ (by simp [habs])]

theorem execSessClose_stale (hres : e.reservedSet [(16, 4)] [] = false)
    (hd : (s.view.readDesc s.ctx (handleIdx (e.f 16 4))).2 = some ds) (hg : ds.gen % 1024 ≠ handleGen (e.f 16 4))
    (hfree : s.view.memberBound (handleIdx (e.f 16 4)) = false) : execSessClose e s =
      .next (s.commit ((s.view.readDesc s.ctx (handleIdx (e.f 16 4))).1.finish s.ctx e.cmd .REFUSED_STATE 0)) := by
  rw [execSessClose, State.ring_next _ hres]
  dsimp only
  rw [hfree, Dev.readDesc_good hd]
  simp [hg]

end

/-- Settles O18: every command but two is a `State.ring_stale`; SESS_SET_TAIL looks for absent units and SESS_CLOSE for a binding first. -/
theorem staleHandleRefused : Obligations.StaleHandleRefused := by
  intro s e ds hd hg
  refine ⟨?_, ?_, ?_, ?_, ?_, ?_, ?_, ?_, ?_, ?_, ?_⟩
  · exact fun hres => (State.ring_stale _ hres hd hg : execSessMoveOut e s = _)
  · exact fun hres => (State.ring_stale _ hres hd hg : execPrefixCapture e s = _)
  · exact fun hres => (State.ring_stale _ hres hd hg : execKvImport e s = _)
  · exact fun hres => (State.ring_stale _ hres hd hg : execKvExport e s = _)
  · exact fun hres => (State.ring_stale _ hres hd hg : execRingBind e s = _)
  · exact fun hres habs => (execSessSetTail_present hres habs).trans (by rw [Dev.withSession_stale _ hd hg])
  · exact fun hres => (State.ring_stale _ hres hd hg : execSessSetLists e s = _)
  · exact fun hres => (State.ring_stale _ hres hd hg : execTextOutBind e s = _)
  · exact fun hres => (State.ring_stale _ hres hd hg : execSessPark e s = _)
  · exact fun hres => (State.ring_stale _ hres hd hg : execSessRevive e s = _)
  · exact fun hres hfree => execSessClose_stale hres hd hg hfree

/-! ### Session commands (R103 to R111, R349) -/

section
variable {s : State} {e : Entry} {ds : Desc}

/-- The list of areas stands under a name of its own: on the list itself the kernel would carry out the allocations. -/
theorem execSessOpen_opens {i : Nat} {d1 : Dev} (hres : e.reservedSet [(16, 7), (24, 36)] [(179, 5)] = false)
    (hchecks : firstFail (s.view.openChecks s.ctx e) = none) (hidx : s.view.allocIdx = some i)
    (hareas : s.view.allocAll (.sess i) s.view.openKinds = some d1) :
    execSessOpen e s = .next (s.commit (d1.openAt s.ctx e e.cmd i)) := by
  rw [execSessOpen, State.ring_next _ hres, Dev.checked_pass _ hchecks]
  obtain ⟨kinds, hkinds⟩ : ∃ kinds, s.view.openKinds = kinds := ⟨_, rfl⟩
  rw [hkinds] at hareas ⊢
  simp only [hidx, hareas]

/-- A batch opens with at least one of the listed sessions. -/
theorem Dev.stepOpen_joined {x : Ctx} {d : Dev} (c : Cmd)
    (h : (Dev.joinAll x (e.f 16 2) ((List.range (e.f 18 2)).map fun k => d.ld x (e.f 24 6 + 4 * k) 4) d).2.1.isEmpty = false) :
    d.stepOpen x e c =
      (let j := Dev.joinAll x (e.f 16 2) ((List.range (e.f 18 2)).map fun k => d.ld x (e.f 24 6 + 4 * k) 4) d
       ((j.1.stBytes x (e.f 48 6) (j.2.2.map Status.code)).openBatch x e j.2.1).finish x c .DONE 0) := by
  simp only [Dev.stepOpen, h, Bool.false_eq_true, if_false]

theorem execSessStepOpen_joined (hres : e.reservedSet [(16, 4), (24, 34)] [(240, 16), (432, 16)] = false)
    (hchecks : firstFail (s.view.stepOpenChecks e) = none)
    (hbufs : (([(e.f 24 6, 4 * e.f 18 2), (e.f 48 6, e.f 18 2)]).find? fun b => !(mappedRange s.ctx.fuses.part s.view.raiseRails b.1 b.2)) = none)
    (hmedia : s.view.raiseRails.mediaBad (e.f 24 6) (4 * e.f 18 2) = false) :
    execSessStepOpen e s =
      .next (s.commit ((s.view.raiseRails.eccRead (e.f 24 6) (4 * e.f 18 2) true).stepOpen s.ctx e e.cmd)) := by
  rw [execSessStepOpen, State.ring_next _ hres, Dev.checked_pass _ hchecks, Dev.buffers_pass _ hbufs, Dev.source_pass _ hmedia]

theorem execSessStepClose_open {b : Batch} (hres : e.reservedSet [(16, 3), (24, 8)] [(145, 7)] = false)
    (hbatch : s.view.batch (e.f 16 2) = some b)
    (hbuf : (([(e.f 24 8, b.members.length)]).find? fun b => !(mappedRange s.ctx.fuses.part s.view b.1 b.2)) = none) :
    execSessStepClose e s =
      (let r := Dev.closeMembers s.ctx (bit (e.f 18 1) 0) b.members s.view
       .next (s.commit (((r.1.stBytes s.ctx (e.f 24 8) (r.2.map Status.code)).settleAll s.ctx).finish s.ctx e.cmd .DONE r.2.length))) := by
  rw [execSessStepClose, State.ring_next _ hres, hbatch]
  dsimp only
  rw [Dev.buffers_pass _ hbuf]

theorem execSessCancel_batch {b : Batch} (hres : e.reservedSet [(16, 7)] [(177, 7)] = false) (hall : e.f 16 4 = 0xFFFFFFFF)
    (hbatch : s.view.batch (e.f 20 2) = some b) :
    execSessCancel e s =
      (let r := Dev.cancelMembers s.ctx b.members s.view
       .next (s.commit ((r.1.settleAll s.ctx).endOfCancel s.ctx e.cmd r.2.1 r.2.2))) := by
  rw [execSessCancel, State.ring_next _ hres]
  dsimp only
  rw [if_pos (by simp [hall]), hbatch]

theorem execSessCancel_one (hres : e.reservedSet [(16, 7)] [(177, 7)] = false) (hone : e.f 16 4 ≠ 0xFFFFFFFF) :
    execSessCancel e s = .next (s.commit (s.view.cancelHandle s.ctx e.cmd (e.f 16 4) (bit (e.f 22 1) 0))) := by
  rw [execSessCancel, State.ring_next _ hres]
  dsimp only
  rw [if_neg (by simpa using hone)]

theorem Dev.cancelHandle_good {x : Ctx} {d : Dev} {h : Nat} (c : Cmd) (force : Bool) (hd : (d.readDesc x (handleIdx h)).2 = some ds)
    (hg : ds.gen % 1024 = handleGen h) :
    d.cancelHandle x c h force = (d.readDesc x (handleIdx h)).1.cancelOne x c (handleIdx h) ds force := by
  rw [Dev.cancelHandle, Dev.readDesc_good hd]
  simp [hg]

theorem Dev.cancelOne_hot {x : Ctx} {d : Dev} {i : Nat} (c : Cmd) (force : Bool) (hfree : d.memberBound i = false) (hhot : ds.state = .hot) :
    d.cancelOne x c i ds force = d.cancelHot x c i := by
  simp [Dev.cancelOne, hfree, hhot]

theorem execSessClose_good (hres : e.reservedSet [(16, 4)] [] = false)
    (hd : (s.view.readDesc s.ctx (handleIdx (e.f 16 4))).2 = some ds) (hg : ds.gen % 1024 = handleGen (e.f 16 4))
    (hfree : s.view.memberBound (handleIdx (e.f 16 4)) = false) (hstate : ds.state = .idle ∨ ds.state = .parked)
    (hpin : (s.view.readDesc s.ctx (handleIdx (e.f 16 4))).1.canPin (handleIdx (e.f 16 4)) = true) :
    execSessClose e s = .next (s.commit
      ((s.view.readDesc s.ctx (handleIdx (e.f 16 4))).1.closeGood s.ctx e.cmd (handleIdx (e.f 16 4)))) := by
  rw [execSessClose, State.ring_next _ hres]
  dsimp only
  rw [hfree, Dev.readDesc_good hd]
  rcases hstate with h | h <;> simp [hg, h, hpin]

theorem execSessQuery_good (hres : e.reservedSet [(16, 4), (24, 8)] [] = false)
    (hbuf : (([(e.f 24 8, 256)]).find? fun b => !(mappedRange s.ctx.fuses.part s.view b.1 b.2)) = none)
    (hd : (s.view.readDesc s.ctx (handleIdx (e.f 16 4))).2 = some ds) (hg : ds.gen % 1024 = handleGen (e.f 16 4)) :
    execSessQuery e s = .next (s.commit
      (((s.view.readDesc s.ctx (handleIdx (e.f 16 4))).1.st s.ctx (e.f 24 8) 256 ds.pack).finish s.ctx e.cmd .DONE 0)) := by
  rw [execSessQuery, State.ring_next _ hres, Dev.buffers_pass _ hbuf]
  dsimp only
  rw [Dev.readDesc_good hd]
  simp [hg]

theorem execSessSetTail_good (hres : e.reservedSet [(16, 42), (60, 4)] [(166, 2), (171, 5)] = false)
    (habs : setTailAbsent s.fuses.part e = false) (hd : (s.view.readDesc s.ctx (handleIdx (e.f 16 4))).2 = some ds)
    (hg : ds.gen % 1024 = handleGen (e.f 16 4)) (hidle : ds.state = .idle)
    (hfree : (s.view.readDesc s.ctx (handleIdx (e.f 16 4))).1.memberBound (handleIdx (e.f 16 4)) = false)
    (hchecks : firstFail ((s.view.readDesc s.ctx (handleIdx (e.f 16 4))).1.setTailChecks e) = none) :
    execSessSetTail e s =
      (let d1 := (s.view.readDesc s.ctx (handleIdx (e.f 16 4))).1
       .next (s.commit ((d1.putDesc s.ctx (handleIdx (e.f 16 4)) (setTail e (d1.startState s.ctx (e.f 56 2)) ds)).finish s.ctx e.cmd .DONE 0))) := by
  rw [execSessSetTail_present hres habs, Dev.withSession_pass _ hd hg, Dev.checked_pass _ (by simp [hidle, hfree, hchecks])]

end

/-- Settles O30: each clause is the rule above for its command. -/
theorem sessionCommandsComplete : Obligations.SessionCommandsComplete := by
  intro s
  refine ⟨?_, ?_, ?_, ?_, ?_, ?_, ?_, ?_⟩
  · exact fun e i d1 => execSessOpen_opens
  · exact fun e hres hchecks hbufs hmedia hjoined =>
      (execSessStepOpen_joined hres hchecks hbufs hmedia).trans (by rw [Dev.stepOpen_joined _ hjoined])
  · exact fun e b => execSessStepClose_open
  · exact fun e b => execSessCancel_batch
  · exact fun e ds hres hone hd hg hfree hhot =>
      (execSessCancel_one hres hone).trans (by rw [Dev.cancelHandle_good _ _ hd hg, Dev.cancelOne_hot _ _ hfree hhot])
  · exact fun e ds => execSessClose_good
  · exact fun e ds => execSessQuery_good
  · exact fun e ds => execSessSetTail_good

/-! ### Layer and tail requests, and the timeouts (R115, R116, R121, R311) -/

theorem State.request_hp {s : State} {e : Entry} (f : Ctx → Dev → ReqImg → Dev) (hres : e.reservedSet [(16, 8)] [(176, 16)] = false) :
    s.request (.hp e) f = .next (s.commit (f s.ctx s.view (s.view.reqImg s.ctx (.hp e)))) :=
  State.ring_next (fun x d _ => f x d (d.reqImg x (.hp e))) hres

theorem State.request_cvf (s : State) (port from_ len val : Nat) (f : Ctx → Dev → ReqImg → Dev) :
    s.request (.cvf port from_ len val) f = .next (s.commit (f s.ctx s.view (s.view.reqImg s.ctx (.cvf port from_ len val)))) := rfl

section
variable {x : Ctx} {d d1 : Dev} {g : ReqImg} {b : Batch} {dl : Ns} {fin : Nat}

theorem Dev.layerReq_passes {es : List LEnt} (hform : d.layerForm x g = .good d1 b dl es) (hroom : (d1.layerPlan x g b dl es).room = true)
    (hpass : (d1.layerPlan x g b dl es).verdict = .pass fin) : d.layerReq x g = d1.takeLayer x g dl es (d1.layerPlan x g b dl es) fin := by
  simp only [Dev.layerReq, hform, hroom, hpass, Bool.not_true, Bool.false_eq_true, if_false]

theorem Dev.tailReq_passes {es : List TEnt} (hform : d.tailForm x g = .good d1 b dl es) (hroom : (d1.tailPlan x g b dl es).room = true)
    (hpass : (d1.tailPlan x g b dl es).verdict = .pass fin) : d.tailReq x g = d1.takeTail x g dl es (d1.tailPlan x g b dl es) fin := by
  simp only [Dev.tailReq, hform, hroom, hpass, Bool.not_true, Bool.false_eq_true, if_false]

end

theorem execBatchTimeout_late {s : State} {batch : Nat} {b : Batch} (hbatch : s.view.batch batch = some b)
    (hlate : b.winEnd + s.view.fld Reg.sessBatchTo 0 16 * 1000000 ≤ s.view.now) :
    execBatchTimeout batch s = .next (s.commit ((Dev.closeMembers s.ctx false b.members s.view).1.settleAll s.ctx)) := by
  rw [execBatchTimeout, State.run_next, hbatch]
  exact congrArg (fun d => Host.Outcome.next (s.commit d)) (if_neg (Nat.not_lt.2 hlate))

/-- Settles O33: a request is its decision once its entry is read, on both paths. -/
theorem layerAndTailRequestsComplete : Obligations.LayerAndTailRequestsComplete := by
  intro s
  refine ⟨?_, ?_, ?_, ?_, ?_, ?_, ?_⟩
  · exact fun e d1 b dl es fin hres hform hroom hpass =>
      (State.request_hp _ hres : execLayerReq (.hp e) s = _).trans (by rw [Dev.layerReq_passes hform hroom hpass])
  · exact fun port from_ len val d1 b dl es fin hform hroom hpass =>
      (s.request_cvf port from_ len val _ : execLayerReq _ s = _).trans (by rw [Dev.layerReq_passes hform hroom hpass])
  · exact fun e d1 b dl es fin hres hform hroom hpass =>
      (State.request_hp _ hres : execTailReq (.hp e) s = _).trans (by rw [Dev.tailReq_passes hform hroom hpass])
  · exact fun port from_ len val d1 b dl es fin hform hroom hpass =>
      (s.request_cvf port from_ len val _ : execTailReq _ s = _).trans (by rw [Dev.tailReq_passes hform hroom hpass])
  · exact fun tail e hres => (State.request_hp _ hres : execDecisionTimeout tail (.hp e) s = _)
  · exact fun tail port from_ len val => (s.request_cvf port from_ len val _ : execDecisionTimeout tail _ s = _)
  · exact fun batch b => execBatchTimeout_late

end Sys2Proof.Machine
end

section
/-! PROOFS about KV pages and narrow arithmetic (chapter 3): the commands of shared prefixes and of MX buffers, compression,
fading and row writes. -/

namespace Sys2Proof.Machine

/-! ### Prefix capture (R178, R179) -/

/-- The capture is listed among those that run. -/
def Dev.listCapture (d : Dev) (o : CaptureOp) : Dev := { d with kv := { d.kv with captures := d.kv.captures ++ [o] } }

/-- A capture is at its end when every page of its session is compressed and every header can be read. -/
theorem Dev.captureStep_done {x : Ctx} {d : Dev} {o : CaptureOp}
    (hfull : ((d.kv.pages.filter fun p => p.1.owner == POwner.sess o.idx).filter fun p => p.2.kind == .full) = [])
    (hheaders : ((d.kv.pages.filter fun p => p.1.owner == POwner.sess o.idx).any fun p => d.headerBad x p.1) = false) :
    d.captureStep x o = d.captureDone x o := by
  simp only [Dev.captureStep, hfull, hheaders, List.any_nil, List.isEmpty_nil, Bool.or_self, Bool.false_eq_true, if_false, if_true]

section
variable {s : State} {e : Entry} {ds : Desc}

theorem execPrefixCapture_starts {i id : Nat} {d1 : Dev} (hres : e.reservedSet [(16, 8)] [] = false) (hi : handleIdx (e.f 16 4) = i)
    (hid : e.f 20 4 = id) (hd1 : (s.view.readDesc s.ctx i).1 = d1) (hd : (s.view.readDesc s.ctx i).2 = some ds)
    (hg : ds.gen % 1024 = handleGen (e.f 16 4)) (hidle : ds.state = .idle) (hfree : d1.memberBound i = false) (hocc : d1.occupied i = false)
    (hnone : ds.prefixId = 0xFFFFFFFF) (hlen : ds.commitLen ≠ 0) (hvalid : id ≠ 0xFFFFFFFF)
    (hnew : d1.kv.prefixes.any (fun p => p.id == id) = false) (halone : d1.kv.captures.any (fun o => o.prefixId == id) = false)
    (hroom : d1.kv.prefixes.length < 4096) :
    execPrefixCapture e s = .next (s.commit ((d1.listCapture ⟨i, id, e.cmd⟩).captureStep s.ctx ⟨i, id, e.cmd⟩)) := by
  subst hi hid hd1
  rw [execPrefixCapture, State.ring_next _ hres, Dev.withSession_pass _ hd hg, Dev.checked_pass]
  · rfl
  · simp [hidle, hfree, hocc, hnone, hlen, hvalid, hnew, halone, hroom]

end

/-! ### Loaded prefixes (R179, R259, R261) -/

section
variable {s : State} {e : Entry} {p : Prefix}

theorem execPrefixRelease_loaded (hres : e.reservedSet [(20, 4)] [] = false) (hp : s.view.loadedPrefix (e.f 20 4) = some p)
    (href : p.loadRef = true) :
    execPrefixRelease e s = .next (s.commit
      (((s.view.updPrefix (e.f 20 4) fun p => { p with loadRef := false }).dropRef (e.f 20 4)).finish s.ctx e.cmd .DONE (p.refs - 1))) := by
  rw [execPrefixRelease, State.ring_next _ hres]
  simp only [hp, href, if_true]

theorem execPrefixPin_pins {d1 : Dev} (hres : e.reservedSet [(20, 4)] [] = false) (hp : s.view.loadedPrefix (e.f 20 4) = some p)
    (hpin : p.pinned = false) (hreads : ((s.view.pagesOf (.pfx (e.f 20 4))).any fun k => s.view.tileBad s.ctx k.1 k.2 0) = false)
    (hcopies : s.view.pinPages s.ctx (s.view.pagesOf (.pfx (e.f 20 4))) = some d1) :
    execPrefixPin e s = .next (s.commit
      (((d1.updPrefix (e.f 20 4) fun p => { p with pinned := true, pinnedAt := d1.now }).retier s.ctx (e.f 20 4)).finish s.ctx e.cmd .DONE 0)) := by
  rw [execPrefixPin, State.ring_next _ hres, Dev.checked_pass _ (by simp [hp, hpin])]
  simp only [hreads, hcopies, Bool.false_eq_true, if_false]

theorem execPrefixUnpin_pinned (hres : e.reservedSet [(20, 4)] [] = false) (hp : s.view.loadedPrefix (e.f 20 4) = some p)
    (hpin : p.pinned = true) :
    execPrefixUnpin e s = .next (s.commit ((s.view.unpin s.ctx (e.f 20 4)).finish s.ctx e.cmd .DONE 0)) := by
  rw [execPrefixUnpin, State.ring_next _ hres, Dev.checked_pass _ (by simp [hp, hpin])]

end

/-! ### MX buffers (R183, R184) -/

section
variable {s : State} {e : Entry} {ds : Desc}

theorem Dev.mxChecks_pass {d : Dev} {i : Nat} (hidle : ds.state = .idle) (hfree : d.memberBound i = false) (hocc : d.occupied i = false)
    (hrows : e.f 20 4 ≠ 0) (hmax : e.f 20 4 ≤ 65536) (hk : (mxFmt (e.f 24 1)).isSome = true) (hv : (mxFmt (e.f 25 1)).isSome = true) :
    firstFail (d.mxChecks e i ds) = none := by
  have hfmt : ∀ {f}, (mxFmt f).isSome = true → (mxFmt f).isNone = false := fun h => Option.isNone_eq_false_iff.2 h
  simp [Dev.mxChecks, hidle, hfree, hocc, hrows, hmax, hfmt hk, hfmt hv]

theorem execKvImport_starts {i : Nat} {d1 : Dev} (hres : e.reservedSet [(16, 10), (32, 8)] [(304, 16)] = false)
    (hi : handleIdx (e.f 16 4) = i) (hd1 : (s.view.readDesc s.ctx i).1 = d1) (hd : (s.view.readDesc s.ctx i).2 = some ds)
    (hg : ds.gen % 1024 = handleGen (e.f 16 4)) (hchecks : firstFail (d1.mxChecks e i ds) = none)
    (hlen : ds.commitLen + e.f 20 4 ≤ 1048576) (hpool : d1.importSlots i (e.f 20 4) ≤ d1.poolFree s.ctx)
    (hbuf : (([(e.f 32 6, d1.mxBytes (e.f 20 4) (e.f 24 1) (e.f 25 1))]).find? fun b => !(mappedRange s.ctx.fuses.part d1 b.1 b.2)) = none) :
    execKvImport e s = .next (s.commit (d1.startMx e e.cmd i true)) := by
  subst hi hd1
  rw [execKvImport, State.ring_next _ hres, Dev.withSession_pass _ hd hg, Dev.checked_pass _ (by simp [hchecks, hlen, hpool]),
    Dev.buffers_pass _ hbuf]

theorem execKvExport_starts {i : Nat} {d1 : Dev} (hres : e.reservedSet [(16, 10), (28, 4), (32, 8)] [(304, 16)] = false)
    (hi : handleIdx (e.f 16 4) = i) (hd1 : (s.view.readDesc s.ctx i).1 = d1) (hd : (s.view.readDesc s.ctx i).2 = some ds)
    (hg : ds.gen % 1024 = handleGen (e.f 16 4)) (hchecks : firstFail (d1.mxChecks e i ds) = none)
    (hlen : e.f 28 4 + e.f 20 4 ≤ ds.commitLen)
    (hbuf : (([(e.f 32 6, d1.mxBytes (e.f 20 4) (e.f 24 1) (e.f 25 1))]).find? fun b => !(mappedRange s.ctx.fuses.part d1 b.1 b.2)) = none) :
    execKvExport e s = .next (s.commit (d1.startMx e e.cmd i false)) := by
  subst hi hd1
  rw [execKvExport, State.ring_next _ hres, Dev.withSession_pass _ hd hg, Dev.checked_pass _ (by simp [hchecks, hlen]),
    Dev.buffers_pass _ hbuf]

end

/-- Settles O32: each clause is the rule above for its command. -/
theorem prefixCommandsComplete : Obligations.PrefixCommandsComplete := by
  intro s
  refine ⟨?_, ?_, ?_, ?_, ?_, ?_⟩
  · exact fun e ds hres hd hg hidle hfree hocc hnone hlen hvalid hnew halone hroom hfull hheaders =>
      (execPrefixCapture_starts hres rfl rfl rfl hd hg hidle hfree hocc hnone hlen hvalid hnew halone hroom).trans
        (congrArg (fun d => Host.Outcome.next (s.commit d)) (Dev.captureStep_done hfull hheaders))
  · exact fun e p => execPrefixRelease_loaded
  · exact fun e p d1 => execPrefixPin_pins
  · exact fun e p => execPrefixUnpin_pinned
  · exact fun e ds hres hd hg hidle hfree hocc hrows hmax hk hv =>
      execKvImport_starts hres rfl rfl hd hg (Dev.mxChecks_pass hidle hfree hocc hrows hmax hk hv)
  · exact fun e ds hres hd hg hidle hfree hocc hrows hmax hk hv =>
      execKvExport_starts hres rfl rfl hd hg (Dev.mxChecks_pass hidle hfree hocc hrows hmax hk hv)

/-! ### Compression (R167) -/

/-- The queued pass of a page runs, and works in a slot. -/
def Dev.runPass (d : Dev) (page : PKey) (slot : Nat) : Dev :=
  let queued := fun (p : CompPass) => p.key == page && p.running.isNone
  { d with kv := { d.kv with passes := replaceFirst queued (fun p => { p with running := some slot }) d.kv.passes } }

/-- The queued pass of a page is deferred (R169). -/
def Dev.deferPass (d : Dev) (page : PKey) : Dev :=
  let queued := fun (p : CompPass) => p.key == page && p.running.isNone
  { d with kv := { d.kv with passes := d.kv.passes.eraseP queued, deferred := d.kv.deferred ++ [page] } }

section
variable {s : State} {page : PKey}

theorem execCompressionPassStart_next (hnext : s.view.nextPass s.ctx (homeOf s.ctx.fuses.part page).1 = some page) :
    execCompressionPassStart page s = .next (s.commit (match s.view.workSlot s.ctx page with
      | some (d1, a) => d1.runPass page a
      | none => s.view.deferPass page)) :=
  (State.run_ite_not _ _ (by rw [hnext, bne_self_eq_false]; exact Bool.false_ne_true)).trans rfl

theorem execCompressionHeaderSwap_swaps {p : CompPass} {h : Page} {slot : Nat}
    (hpass : (s.view.kv.passes.find? fun p => p.key == page && p.running.isSome) = some p) (hpage : s.view.page page = some h)
    (hslot : p.running = some slot) (hcool : s.view.baseHot (stackOf slot) = false) :
    execCompressionHeaderSwap page s = .next (s.commit ((s.view.passDone s.ctx page h slot).captureAll s.ctx)) := by
  rw [execCompressionHeaderSwap, State.run_next]
  simp only [hpass, hpage, hslot, hcool, Bool.false_eq_true, if_false]

/-! ### Fading (R171 to R173) -/

/-- A trial that has worked on its page: it stands where its error is within the budget, and the page fades no further otherwise (R172). -/
def Dev.trialEnds (x : Ctx) (d : Dev) (page : PKey) (t : FadeTrial) (p : Page) (f : Page × Nat × Nat) : Dev :=
  if fle f.1.vErr (d.reg Reg.sessKvFadeBud) then
    let ended : FadeTrial := { t with done := some f.1, metaVal := f.2.1, payVal := f.2.2 }
    { d with kv := { d.kv with fades := replaceFirst (fun (f : FadeTrial) => f.key == page) (fun _ => ended) d.kv.fades } }
  else (((d.dropFade page).freeSlots [t.slot]).putPage x page { p with fadeStop := true }).bump Reg.sessKvFadeRej 1

theorem execFadeTrialDone_ends {t : FadeTrial} {p : Page} (htrial : (s.view.kv.fades.find? fun f => f.key == page && f.done.isNone) = some t)
    (hcool : s.view.baseHot (stackOf t.slot) = false) (hpage : s.view.page page = some p) (hreads : s.view.pageBad s.ctx page p 256 = false) :
    execFadeTrialDone page s = .next (s.commit ((s.view.readFrames p 256).trialEnds s.ctx page t p
      ((s.view.readFrames p 256).faded s.ctx page p t.target t.slot))) := by
  rw [execFadeTrialDone, State.run_next]
  simp only [htrial, hcool, hpage, hreads, Bool.false_eq_true, if_false]
  rfl

theorem execFadeSwap_idle {t : FadeTrial} {h : Page} {i : Nat} (htrial : (s.view.kv.fades.find? fun f => f.key == page) = some t)
    (hdone : t.done = some h) (howner : page.owner = .sess i) (hidle : (s.view.desc i).state = .idle)
    (hpage : ((s.view.dropFade page).page page).isSome = true) :
    execFadeSwap page s =
      (let d1 := s.view.dropFade page
       let d2 := (d1.st s.ctx t.slot (256 * d1.shape.d) t.payVal).st s.ctx h.meta1 (64 * d1.shape.d) t.metaVal
       .next (s.commit ((((d2.swapFrames page t.slot).putPage s.ctx page h).bump
         (if t.target == .k3s then Reg.sessKvFade3Cnt else Reg.sessKvFade2Cnt) 1).journal page))) := by
  have hswaps : (!((s.view.desc i).state == .idle) || ((s.view.dropFade page).page page).isNone) = false := by
    simp only [hidle, Option.isNone_eq_false_iff.2 hpage, beq_self_eq_true, Bool.not_true, Bool.or_self]
  rw [execFadeSwap, State.run_next]
  simp only [htrial, hdone, howner, hswaps, Bool.false_eq_true, if_false]

end

/-! ### Row writes (R724) -/

theorem execComaRowWrite_written {s : State} {idx layer head : Nat} {r : StagedRow}
    (hstaged : (s.view.kv.staged.find? fun r => r.idx == idx && r.layer == layer && r.head == head) = some r)
    (hok : (s.view.writeStaged s.ctx idx layer head).2 = true) :
    execComaRowWrite idx layer head false s = .next (s.commit (s.view.writeStaged s.ctx idx layer head).1) := by
  rw [execComaRowWrite, State.run_next]
  simp only [hstaged, hok, Bool.false_and, Bool.false_eq_true, if_false, if_true]

/-- Settles O47: each clause is the rule above for its event; FP8_FRAME_RELEASE and FADE_SWEEP have no case to choose. -/
theorem kvEventsComplete : Obligations.KvEventsComplete := by
  intro s
  refine ⟨?_, ?_, ?_, ?_, ?_, ?_, ?_, ?_⟩
  · exact fun page => execCompressionPassStart_next
  · exact fun page p h slot => execCompressionHeaderSwap_swaps
  · exact fun owner => s.run_next _
  · exact s.run_next _
  · exact fun page t p htrial hcool hpage hreads hwithin =>
      (execFadeTrialDone_ends htrial hcool hpage hreads).trans (by rw [Dev.trialEnds, if_pos hwithin])
  · exact fun page t p htrial hcool hpage hreads hbeyond =>
      (execFadeTrialDone_ends htrial hcool hpage hreads).trans (by rw [Dev.trialEnds, if_neg (ne_true_of_eq_false hbeyond)])
  · exact fun page t h i => execFadeSwap_idle
  · exact fun idx layer head r => execComaRowWrite_written

end Sys2Proof.Machine
end

section
/-! PROOFS about attention engines (chapter 4): tiles, rings and their records. -/

namespace Sys2Proof.Machine

/-! ### Tiles and their results (R194, R198, R204, R211) -/

/-- The memory stack that holds the payload of a page in a tile's snapshot. -/
def WorkTile.snapStack (t : WorkTile) (page : Nat) : Nat := match tblGet page t.snap with | some p => stackOf p.payload | none => 0

section
variable {s : State}

theorem execTileDispatch_free {q ae : Nat} (hq : q < 4) (hae : ae < 16) (hon : s.view.aeOnline q ae = true)
    (hfree : s.view.aeBusy q ae = false) (hstays : s.view.attn.aePendingOffline.contains (q, ae) = false) :
    execTileDispatch q ae s = .next (s.commit (s.view.dispatchTile s.ctx q ae)) := by
  refine State.run_ite _ _ ?_
  simp only [hq, hae, hon, hfree, hstays, decide_true, Bool.not_false, Bool.and_self]

theorem execTileComplete_scored {q ae n : Nat} (busyNs : Nat) {r : LayerReq} {t : WorkTile} {e : AttnEntry}
    (hrun : (s.view.attn.reqs.findSome? fun r =>
      (findPos (fun (t : WorkTile) => t.ae == some (q, ae) && !t.done) r.tiles).map fun n => (r, n)) = some (r, n))
    (ht : r.tiles[n]? = some t) (he : r.entries[t.entry]? = some e) (hscored : (t.offload.all fun p => t.scored.contains p) = true) :
    execTileComplete q ae busyNs s = .next (s.commit (s.view.completeTile s.ctx q ae busyNs r n t e)) := by
  rw [execTileComplete, State.run_next]
  simp only [hrun, ht, he, hscored, if_true]

theorem execPartialArrive_first {req entry head tile n : Nat} {r : LayerReq} {t : WorkTile}
    (hr : (s.view.attn.reqs.find? fun r => r.id == req) = some r)
    (ht : (r.tiles.zipIdx.filter fun t => t.1.entry == entry && t.1.head == head)[tile]? = some (t, n))
    (hdone : t.done = true) (hnew : t.delivered = false) :
    execPartialArrive req entry head tile s =
      (let d1 := (s.view.updReq req fun r => { r with tiles := updAt (fun t => { t with delivered := true }) n r.tiles }).crossed
         fun o => o == .partials req t.key
       .next (s.commit ((d1.bump (Reg.qdMergeCount (d1.mergeQuad t.idx)) t.partials.length).settleEntry s.ctx req entry))) := by
  rw [execPartialArrive, State.run_next]
  simp only [hr, ht, hdone, hnew, Bool.not_true, Bool.or_self, Bool.false_eq_true, if_false]

theorem execScorePageDone_awaited {req entry head tile page n : Nat} {r : LayerReq} {t : WorkTile}
    (hr : (s.view.attn.reqs.find? fun r => r.id == req) = some r)
    (hn : findPos (fun (t : WorkTile) => t.entry == entry && t.head == head && t.order == tile && t.offload.contains page &&
      !(t.scored.contains page)) r.tiles = some n)
    (ht : r.tiles[n]? = some t) :
    execScorePageDone req entry head tile page s =
      (let d1 := s.view.updReq req fun r => { r with tiles := updAt (fun t => { t with scored := page :: t.scored }) n r.tiles }
       .next (s.commit ((d1.bump (Reg.qdScorePages (t.snapStack page / 3)) 1).chargeSome s.ctx (d1.desc t.idx).composition 1))) := by
  rw [execScorePageDone, State.run_next]
  simp only [hr, hn, ht]
  rfl

/-! ### Attention engines offline and online (R223) -/

/-- A write that sets a W1S bit of an attention engine's control register. -/
theorem State.run_aeCtl {q ae lo : Nat} (f : Ctx → Dev → Dev) (hq : q < 4) (hae : ae < 16)
    (h : s.view.bar0Cpl s.ctx (Reg.qdAeCtl q ae) = .success) :
    s.run (fun x d => if q < 4 && ae < 16 then d.w1sWrite x (Reg.qdAeCtl q ae) lo (f x) else d) =
      .next (s.commit (f s.ctx (s.view.setFld (Reg.qdAeCtl q ae) lo 1 1))) := by
  refine (State.run_ite _ _ (by simp only [hq, hae, decide_true, Bool.and_self])).trans ?_
  rw [Dev.w1sWrite, Dev.bar0_served _ h]

end

/-- Settles O48: each clause is the rule above for its event. -/
theorem attentionEventsComplete : Obligations.AttentionEventsComplete := by
  intro s
  refine ⟨?_, ?_, ?_, ?_, ?_, ?_⟩
  · exact fun q ae => execTileDispatch_free
  · exact fun q ae busyNs n r t e => execTileComplete_scored busyNs
  · exact fun req entry head tile n r t => execPartialArrive_first
  · exact fun req entry head tile page n r t => execScorePageDone_awaited
  · exact fun q ae => State.run_aeCtl _
  · exact fun q ae => State.run_aeCtl _

/-! ### RING_OPEN, RING_BIND and RING_CLOSE (R225, R226, R228) -/

section
variable {s : State} {e : Entry} {r : Ring}

theorem execRingOpen_opens (hres : e.reservedSet [(16, 5), (24, 16)] [(272, 48)] = false)
    (hchecks : firstFail (s.view.ringOpenChecks s.ctx e) = none) :
    execRingOpen e s = .next (s.commit (s.view.ringOpen s.ctx e e.cmd)) := by
  rw [execRingOpen, State.ring_next _ hres, Dev.checked_pass _ hchecks]

theorem execRingBind_binds {ds : Desc} {i : Nat} {d1 : Dev} (hres : e.reservedSet [(16, 5), (24, 4)] [] = false)
    (hi : handleIdx (e.f 16 4) = i) (hd1 : (s.view.readDesc s.ctx i).1 = d1) (hd : (s.view.readDesc s.ctx i).2 = some ds)
    (hg : ds.gen % 1024 = handleGen (e.f 16 4)) (hidle : ds.state = .idle)
    (hnew : (d1.attn.rings.any fun r => r.bindings.any fun b => b.rsn == e.f 24 4 || b.idx == i) = false)
    (hring : d1.ringAt (e.f 20 1) = some r) (hup : r.state = .up) (hpfx : r.pos = 0 ∨ ds.prefixId = 0xFFFFFFFF)
    (hroom : r.bindings.length < 131071) :
    execRingBind e s = .next (s.commit ((d1.updRing (e.f 20 1) fun r =>
      { r with bindings := r.bindings ++ [(⟨e.f 24 4, i, ds.commitLen, ds.stepSeq⟩ : RingBinding)] }).finish s.ctx e.cmd .DONE 0)) := by
  subst hi hd1
  have hprefix : (r.pos != 0 && ds.prefixId != 0xFFFFFFFF) = false := by rcases hpfx with h | h <;> simp [h]
  rw [execRingBind, State.ring_next _ hres, Dev.withSession_pass _ hd hg, Dev.checked_pass]
  simp [hidle, hnew, hring, hup, hprefix, hroom]

theorem execRingClose_closes (hres : e.reservedSet [(16, 2)] [(137, 7)] = false) (hring : s.view.ringAt (e.f 16 1) = some r)
    (hforce : r.bindings = [] ∨ bit (e.f 17 1) 0 = true) :
    execRingClose e s =
      .next (s.commit (((s.view.stopRing s.ctx r).finish? s.ctx r.cmd .FAULT_TIMEOUT 0).finish s.ctx e.cmd .DONE 0)) := by
  rw [execRingClose, State.ring_next _ hres, hring]
  exact congrArg (fun d => Host.Outcome.next (s.commit d)) (Dev.checked_pass _ (by rcases hforce with h | h <;> simp [h]))

end

/-! ### Forming (R225, R231, R240) -/

section
variable {s : State} {ring : Nat} {r : Ring} {h : Hello}

/-- Whether a HELLO is not one that the ring waits for (R225). -/
def Ring.ignoresHello (r : Ring) (h : Hello) : Bool :=
  r.pos != 0 || r.state != .forming || h.tag != r.tag || h.seg != r.seg || h.pos == 0 || decide (r.m ≤ h.pos)

/-- A head that forms takes the HELLO of a position after its own with its tag and its segment. -/
theorem Ring.takes_hello (hhead : r.pos = 0) (hforming : r.state = .forming) (htag : h.tag = r.tag) (hseg : h.seg = r.seg)
    (hpos : h.pos ≠ 0) (hlt : h.pos < r.m) : r.ignoresHello h = false := by
  simp [Ring.ignoresHello, hhead, hforming, htag, hseg, hpos, hlt]

/-- The HELLOs of a head with a new one, which replaces an older one of its position. -/
def Ring.withHello (r : Ring) (h : Hello) : List Hello := r.hellos.filter (fun o => o.pos != h.pos) ++ [h]

section
variable (hring : s.view.ringAt ring = some r) (htaken : r.ignoresHello h = false)
include hring htaken

theorem execHello_waits (hfew : (r.withHello h).length < r.m - 1) :
    execHello ring h s = .next (s.commit (s.view.updRing ring fun q => { q with hellos := r.withHello h })) := by
  unfold Ring.ignoresHello at htaken
  unfold Ring.withHello at hfew
  rw [execHello, State.run_next]
  simp only [hring, htaken, hfew, Bool.false_eq_true, if_false, if_true]
  rfl

theorem execHello_last (hall : r.m - 1 ≤ (r.withHello h).length) (hnew : r.reopening = false) :
    execHello ring h s = .next (s.commit (((s.view.updRing ring fun q => { q with hellos := r.withHello h }).ringUp s.ctx r).ringRecord r
      "HELLO_ACK" [r.tag])) := by
  unfold Ring.ignoresHello at htaken
  unfold Ring.withHello at hall
  rw [execHello, State.run_next]
  simp only [hring, htaken, Nat.not_lt.2 hall, hnew, Bool.not_false, Bool.false_eq_true, if_false, if_true]
  rfl

end

theorem execHelloAck_member (hring : s.view.ringAt ring = some r) (hmember : r.pos ≠ 0) (hforming : r.state = .forming) :
    execHelloAck ring s = .next (s.commit
      (if r.pos + 1 < r.m then (s.view.ringUp s.ctx r).ringRecord r "HELLO_ACK" [r.tag] else s.view.ringUp s.ctx r)) := by
  rw [execHelloAck, State.run_next]
  simp only [hring, hforming, beq_false_of_ne hmember, bne_self_eq_false, Bool.or_self, Bool.false_eq_true, if_false]

theorem execRingFormTimeout_late (hring : s.view.ringAt ring = some r) (hforming : r.state = .forming)
    (hlate : r.since + s.view.fld Reg.sessOrbitTo 0 16 * 1000000 ≤ s.view.now) :
    execRingFormTimeout ring s =
      (let d1 : Dev := if r.reopening then s.view.updRing ring fun r => { r with state := .broken, cmd := none, reopening := false }
         else { s.view with attn := { s.view.attn with rings := s.view.attn.rings.filter fun q => q.id != ring } }
       .next (s.commit (d1.finish? s.ctx r.cmd .FAULT_TIMEOUT 0))) := by
  rw [execRingFormTimeout, State.run_next]
  simp only [hring, hforming, bne_self_eq_false, decide_eq_false (Nat.not_lt.2 hlate), Bool.or_self, Bool.false_eq_true, if_false]

end

/-! ### Legs, running partials, tiles and outputs on a ring (R232, R234, R235, R237) -/

section
variable {s : State} {ring leg : Nat} {r : Ring} {q : LayerReq}

theorem execRingLeg_member (l : RingLeg) (hring : s.view.ringAt ring = some r) (hmember : r.pos ≠ 0) (hup : r.state = .up) :
    execRingLeg ring l s = .next (s.commit (s.view.ringLeg s.ctx r l)) := by
  rw [execRingLeg, State.run_next]
  simp only [hring, hup, beq_false_of_ne hmember, bne_self_eq_false, Bool.or_self, Bool.false_eq_true, if_false]

theorem execRunningPartial_first (ps : List RunEntry) (hring : s.view.ringAt ring = some r) (hq : s.view.legReq r leg = some q)
    (hnone : q.running = none) (htop : q.kvTop = none) :
    execRunningPartial ring leg ps s =
      (let d1 := s.view.updReq q.id fun q => { q with running := some ps }
       .next (s.commit (if r.pos = 0 then (d1.rowsOnRing q ((ps.filter (·.rowsWritten)).map (·.rsn))).settleEntries s.ctx q
         else d1.settleLeg { q with running := some ps }))) := by
  rw [execRunningPartial, State.run_next]
  simp only [hring, hq, hnone, htop, Option.isSome_none, Bool.or_self, Bool.false_eq_true, if_false, beq_iff_eq]

theorem execKvTile_member {top : Nat} (tile : Tile) (hring : s.view.ringAt ring = some r) (hmember : r.pos ≠ 0)
    (hq : s.view.legReq r leg = some q) (htop : q.kvTop = some top) :
    execKvTile ring leg tile s = .next (s.commit (s.view.kvTile s.ctx r q top tile)) := by
  rw [execKvTile, State.run_next]
  simp only [hring, beq_false_of_ne hmember, Bool.false_eq_true, if_false, hq, htop]

theorem execMemberOutputs_first {pos : Nat} (outs : List MemberOut) (hring : s.view.ringAt ring = some r) (hhead : r.pos = 0)
    (hq : s.view.legReq r leg = some q) (htop : q.kvTop.isSome = true) (hpos : pos ≠ 0) (hlt : pos < r.m)
    (hnew : (q.memberOuts.any fun m => m.1 == pos) = false) :
    execMemberOutputs ring leg pos outs s =
      (let d1 := s.view.updReq q.id fun q => { q with memberOuts := q.memberOuts ++ [(pos, outs)] }
       .next (s.commit ((d1.rowsOnRing q ((outs.filter (·.rowsWritten)).map (·.rsn))).settleEntries s.ctx q))) := by
  rw [execMemberOutputs, State.run_next]
  simp only [hring, hhead, hq, Option.isNone_eq_false_iff.2 htop, beq_false_of_ne hpos, decide_eq_false (Nat.not_le.2 hlt), hnew,
    bne_self_eq_false, Bool.or_self, Bool.false_eq_true, if_false]

end

/-! ### Steps and cancels on a ring (R238, R239) -/

section
variable {s : State} {ring rsn : Nat} {r : Ring} {b : RingBinding}

theorem execStepRecord_hot (stepSeq rows : Nat) (commit : Bool) (hring : s.view.ringAt ring = some r) (hmember : r.pos ≠ 0)
    (hhot : (r.bindings.find? fun b => b.rsn == rsn && (s.view.desc b.idx).state == .hot) = some b) :
    execStepRecord ring rsn stepSeq commit rows s =
      (let d1 := s.view.ringBoth r "STEP" [rsn, stepSeq, ofB commit, rows]
       .next (s.commit (if commit && b.stepSeq == stepSeq then d1.commitLeg s.ctx b.idx rows else d1.rollbackLeg s.ctx b.idx))) := by
  rw [execStepRecord, State.run_next]
  simp only [hring, hhot, beq_false_of_ne hmember, Option.isSome_some, Bool.or_true, Bool.false_eq_true, if_false, if_true]

theorem execCancelRecord_head (hring : s.view.ringAt ring = some r) (hhead : r.pos = 0) :
    execCancelRecord ring rsn s = .next (s.commit (s.view.endCancel s.ctx ring rsn)) := by
  rw [execCancelRecord, State.run_next]
  simp only [hring, hhead, beq_self_eq_true, if_true]

theorem execCancelRecord_hot (hring : s.view.ringAt ring = some r) (hmember : r.pos ≠ 0)
    (hb : (r.bindings.find? fun b => b.rsn == rsn) = some b) (hhot : ((s.view.ringCancel r rsn).desc b.idx).state = .hot) :
    execCancelRecord ring rsn s = .next (s.commit ((s.view.ringCancel r rsn).rollbackLeg s.ctx b.idx)) := by
  rw [execCancelRecord, State.run_next]
  simp only [hring, beq_false_of_ne hmember, hb, hhot, beq_self_eq_true, Bool.false_eq_true, if_false, if_true]

end

/-- Settles O34: each clause is the rule above for its command or event; RING_RATES has no case to choose. -/
theorem ringsFormAndStep : Obligations.RingsFormAndStep := by
  intro s
  refine ⟨?_, ?_, ?_, ?_, ?_, ?_, ?_, ?_, ?_, ?_, ?_, ?_, ?_, ?_, ?_, ?_, ?_, ?_⟩
  · exact fun e => execRingOpen_opens
  · exact fun e ds r hres hd hg => execRingBind_binds hres rfl rfl hd hg
  · exact fun e r => execRingClose_closes
  · exact fun ring h r hring hhead hforming htag hseg hpos hlt =>
      execHello_waits hring (Ring.takes_hello hhead hforming htag hseg hpos hlt)
  · exact fun ring h r hring hhead hforming htag hseg hpos hlt =>
      execHello_last hring (Ring.takes_hello hhead hforming htag hseg hpos hlt)
  · exact fun ring r => execHelloAck_member
  · exact fun ring r => execRingFormTimeout_late
  · exact fun ring pos rates => s.run_next _
  · exact fun ring leg r => execRingLeg_member leg
  · exact fun ring leg ps r q hring hq hnone htop hhead =>
      (execRunningPartial_first ps hring hq hnone htop).trans (by simp only [if_pos hhead])
  · exact fun ring leg ps r q hring hq hnone htop hmember =>
      (execRunningPartial_first ps hring hq hnone htop).trans (by simp only [if_neg hmember])
  · exact fun ring leg top tile r q => execKvTile_member tile
  · exact fun ring leg pos outs r q => execMemberOutputs_first outs
  · exact fun ring rsn stepSeq rows commit r b hring hmember hhot hcommit hseq =>
      (execStepRecord_hot stepSeq rows commit hring hmember hhot).trans (by simp [hcommit, hseq])
  · exact fun ring rsn stepSeq rows commit r b hring hmember hhot hroll =>
      (execStepRecord_hot stepSeq rows commit hring hmember hhot).trans (by rcases hroll with h | h <;> simp [h])
  · exact fun ring rsn r => execCancelRecord_head
  · exact fun ring rsn r b => execCancelRecord_hot
  · exact fun ring rsn hlate => State.run_ite _ _ hlate

/-! ### A lost member, a break and the response deadline (R239, R240) -/

section
variable {s : State} {ring leg : Nat} {r : Ring} {q : LayerReq}

theorem execRingPartialTimeout_late (hring : s.view.ringAt ring = some r) (hq : s.view.legReq r leg = some q) (hup : r.state = .up)
    (hnone : q.running = none) (htop : q.kvTop = none) (hpos : r.pos ≠ 1)
    (hlate : (if r.pos = 0 then q.deadline - 6000 else q.deadline) ≤ s.view.now) :
    execRingPartialTimeout ring leg s =
      .next (s.commit (s.view.memberLost s.ctx r (if r.pos == 0 then r.m - 1 else r.pos - 1))) := by
  have hdue : ¬ s.view.now < (if r.pos == 0 then q.deadline - 6000 else q.deadline) := by simpa using hlate
  rw [execRingPartialTimeout, State.run_next]
  simp only [hring, hq, hup, hnone, htop, beq_false_of_ne hpos, decide_eq_false hdue, bne_self_eq_false, Option.isSome_none, Bool.or_self,
    Bool.false_eq_true, if_false]

theorem execRingBreak_up (lost : Nat) (hring : s.view.ringAt ring = some r) (hup : r.state = .up) :
    execRingBreak ring lost s = .next (s.commit (s.view.breakRing s.ctx ring lost)) := by
  rw [execRingBreak, State.run_next]
  simp only [hring, hup]

section
variable (hring : s.view.ringAt ring = some r) (hq : s.view.legReq r leg = some q) (hlate : q.deadline ≤ s.view.now)
include hring hq hlate

theorem execRingResponseDeadline_head (hhead : r.pos = 0) :
    execRingResponseDeadline ring leg s = .next (s.commit ((s.view.lackMember s.ctx q).settleAll s.ctx)) := by
  rw [execRingResponseDeadline, State.run_next]
  simp only [hring, hq, Nat.not_lt.2 hlate, hhead, beq_self_eq_true, if_false, if_true]

theorem execRingResponseDeadline_member (hmember : r.pos ≠ 0) :
    execRingResponseDeadline ring leg s =
      (let late := (q.entries.zipIdx.filter fun e => e.1.status.isNone && !(s.view.legReady q e.2 e.1)).map (·.2)
       let fix := fun (e : AttnEntry × Nat) => if late.contains e.2 then { e.1 with status := some Status.FAULT_UNIT } else e.1
       let d1 := s.view.updReq q.id fun q =>
         { q with entries := q.entries.zipIdx.map fix, tiles := q.tiles.filter fun t => !(late.contains t.entry) }
       .next (s.commit (d1.settleLayers s.ctx))) := by
  rw [execRingResponseDeadline, State.run_next]
  simp only [hring, hq, Nat.not_lt.2 hlate, beq_false_of_ne hmember, Bool.false_eq_true, if_false]

end

end

/-! ### Records that go around a ring (R228, R241, R275, R288, R446) -/

/-- A member that is not the last of its ring passes a record on. -/
def Dev.passOn (d : Dev) (r : Ring) (tag : String) (ws : List Nat) : Dev := if r.pos + 1 < r.m then d.ringRecord r tag ws else d

section
variable {s : State} {ring rsn : Nat} {r : Ring} {b : RingBinding} {d1 : Dev}

section
variable (hring : s.view.ringAt ring = some r) (hmember : r.pos ≠ 0) (hb : (r.bindings.find? fun b => b.rsn == rsn) = some b)
include hring hmember hb

theorem execRingParkRecord_parks {image : Bool} {n store last : Nat}
    (hd1 : (s.view.passOn r (RingTask.words (.park image 1 last n store)).1 (rsn :: (RingTask.words (.park image 1 last n store)).2)) = d1)
    (hidle : (d1.desc b.idx).state = .idle) (hfree : (d1.dropUndo s.ctx b.idx).occupied b.idx = false)
    (hmode : firstFail ((d1.dropUndo s.ctx b.idx).tileMode s.ctx image) = none)
    (hplace : (d1.dropUndo s.ctx b.idx).inPlaceOk s.ctx = true) :
    execRingParkRecord ring rsn (.park image 1 last n store) s =
      .next (s.commit ((d1.dropUndo s.ctx b.idx).parkInPlace s.ctx b.idx (some ring) none image)) := by
  unfold Dev.passOn at hd1
  rw [execRingParkRecord, State.run_next]
  simp only [hring, beq_false_of_ne hmember, hb, hd1, hidle, hfree, hmode, hplace, bne_self_eq_false, beq_self_eq_true, Bool.or_self,
    Bool.and_self, Bool.false_eq_true, if_false, if_true]

theorem execRingParkRecord_revives (hd1 : s.view.passOn r (RingTask.words .revive).1 (rsn :: (RingTask.words .revive).2) = d1)
    (hparked : (d1.desc b.idx).state = .parked) :
    execRingParkRecord ring rsn .revive s = .next (s.commit (d1.startRevive s.ctx b.idx (some ring) none)) := by
  unfold Dev.passOn at hd1
  rw [execRingParkRecord, State.run_next]
  simp only [hring, beq_false_of_ne hmember, hb, hd1, hparked, bne_self_eq_false, Bool.false_eq_true, if_false]

theorem execRingParkRecord_closes (hd1 : s.view.passOn r (RingTask.words .close).1 (rsn :: (RingTask.words .close).2) = d1) :
    execRingParkRecord ring rsn .close s =
      (let d2 := if (d1.desc b.idx).state = .hot then d1.rollbackLeg s.ctx b.idx else d1
       .next (s.commit (((d2.dropUndo s.ctx b.idx).dropDemotion s.ctx b.idx).endSession s.ctx b.idx))) := by
  unfold Dev.passOn at hd1
  rw [execRingParkRecord, State.run_next]
  simp only [hring, beq_false_of_ne hmember, hb, hd1, beq_iff_eq, Bool.false_eq_true, if_false]

theorem execRingParkRecord_undoes {kind : Nat} {who : List Nat}
    (hd1 : s.view.passOn r (RingTask.words (.undo kind who)).1 (rsn :: (RingTask.words (.undo kind who)).2) = d1)
    (hwho : who.contains r.pos = true) :
    execRingParkRecord ring rsn (.undo kind who) s = .next (s.commit (d1.undoPart s.ctx b.idx kind)) := by
  unfold Dev.passOn at hd1
  rw [execRingParkRecord, State.run_next]
  simp only [hring, beq_false_of_ne hmember, hb, hd1, hwho, Bool.false_eq_true, if_false, if_true]

end

theorem execRingMemberReport_waited {pos : Nat} (status : Status) (hring : s.view.ringAt ring = some r) (hhead : r.pos = 0) (hpos : pos ≠ 0)
    (hlt : pos < r.m) (hwaits : (r.ops.any fun o => o.rsn == rsn && o.kind != 3) = true) :
    execRingMemberReport ring rsn pos status s =
      (let add := fun (o : RingOp) => if o.reports.any fun p => p.1 == pos then o else { o with reports := o.reports ++ [(pos, status)] }
       .next (s.commit ((s.view.updRing ring fun r =>
         { r with ops := replaceFirst (fun (o : RingOp) => o.rsn == rsn && o.kind != 3) add r.ops }).settleRing s.ctx ring))) := by
  rw [execRingMemberReport, State.run_next]
  simp only [hring, hhead, beq_false_of_ne hpos, decide_eq_false (Nat.not_le.2 hlt), hwaits, bne_self_eq_false, Bool.or_self, Bool.true_or,
    Bool.false_eq_true, if_false, if_true]

/-! ### Checkpoints of a ring's sessions (R446) -/

section
variable {epoch stepSeq : Nat} (hring : s.view.ringAt ring = some r) (hmember : r.pos ≠ 0)
  (hd1 : s.view.passOn r "CKPT" [rsn, epoch, stepSeq] = d1) (hb : (r.bindings.find? fun b => b.rsn == rsn) = some b)
  (hstore : d1.ckpt.store.isSome = true) (hseq : (d1.desc b.idx).stepSeq = stepSeq)
include hring hmember hd1 hb hstore hseq

theorem execCkptRecord_starts (hrun : d1.ckpt.run = none) :
    execCkptRecord ring rsn epoch stepSeq s = .next (s.commit
      ((d1.startRun s.ctx (u64 (d1.ckpt.lastUsed + 1)) 0 false none (some ⟨b.idx, false, false, some (epoch, stepSeq)⟩)).settleRun s.ctx)) := by
  unfold Dev.passOn at hd1
  rw [execCkptRecord, State.run_next]
  simp only [hring, beq_false_of_ne hmember, hb, hd1, Option.isNone_eq_false_iff.2 hstore, hseq, hrun, bne_self_eq_false, Bool.or_self,
    Bool.false_eq_true, if_false]

theorem execCkptRecord_joins {q : CkRun} (hrun : d1.ckpt.run = some q) (hopen : q.catalogues = []) :
    execCkptRecord ring rsn epoch stepSeq s = .next (s.commit (d1.updRun fun k => { k with
      dirty := (⟨b.idx, false, false, some (epoch, stepSeq)⟩ : DirtyOwner) :: (q.dirty.filter fun p => p.pfx || p.owner != b.idx) })) := by
  unfold Dev.passOn at hd1
  rw [execCkptRecord, State.run_next]
  simp only [hring, beq_false_of_ne hmember, hb, hd1, Option.isNone_eq_false_iff.2 hstore, hseq, hrun, hopen, List.isEmpty_nil,
    bne_self_eq_false, Bool.or_self, Bool.false_eq_true, if_false, if_true]

end

/-! ### Moves of a ring's sessions (R288) -/

theorem execMoveRecord_moves {ringB tag : Nat} {dests : List Nat} {image whole : Bool} (hring : s.view.ringAt ring = some r)
    (hmember : r.pos ≠ 0) (hd1 : s.view.passOn r "MOVE" ([rsn, ringB, tag, ofB image] ++ dests) = d1)
    (hb : (r.bindings.find? fun b => b.rsn == rsn) = some b) (hwhole : (image || !s.ctx.fuses.part.tileMove) = whole)
    (hgood : d1.moveRecordFault s.ctx b.idx whole = none) :
    execMoveRecord ring rsn ringB tag ⟨dests, image⟩ s = .next (s.commit (((d1.dropUndo s.ctx b.idx).dropDemotion s.ctx b.idx).startMove
      s.ctx b.idx none tag (getAt 0 r.pos dests) whole false (some ring))) := by
  unfold Dev.passOn at hd1
  rw [execMoveRecord, State.run_next]
  simp only [hring, beq_false_of_ne hmember, hb, hd1, hwhole, hgood, Bool.false_eq_true, if_false]

theorem execMoveReady_head {pos : Nat} (hring : s.view.ringAt ring = some r) (hhead : r.pos = 0) (hpos : pos ≠ 0) (hlt : pos < r.m) :
    execMoveReady ring rsn pos s = .next (s.commit (s.view.ringReady s.ctx r rsn pos)) := by
  rw [execMoveReady, State.run_next]
  simp only [hring, hhead, beq_false_of_ne hpos, decide_eq_false (Nat.not_le.2 hlt), bne_self_eq_false, Bool.or_self, Bool.false_eq_true,
    if_false]

theorem execMoveCommit_member (hring : s.view.ringAt ring = some r) (hmember : r.pos ≠ 0) :
    execMoveCommit ring rsn s = .next (s.commit ((s.view.passOn r "COMMIT" [rsn]).ringCommitMove s.ctx ring rsn)) := by
  rw [execMoveCommit, State.run_next]
  simp only [hring, beq_false_of_ne hmember, Bool.false_eq_true, if_false]
  rfl

end

/-- Settles O35: each clause is the rule above for its event. -/
theorem ringFailuresAndRecordsComplete : Obligations.RingFailuresAndRecordsComplete := by
  intro s
  refine ⟨?_, ?_, ?_, ?_, ?_, ?_, ?_, ?_, ?_, ?_, ?_, ?_, ?_, ?_⟩
  · exact fun ring leg r q => execRingPartialTimeout_late
  · exact fun ring lost r => execRingBreak_up lost
  · exact fun ring leg r q => execRingResponseDeadline_head
  · exact fun ring leg r q => execRingResponseDeadline_member
  · exact fun ring rsn n store last image r b hring hmember hb => execRingParkRecord_parks hring hmember hb rfl
  · exact fun ring rsn r b hring hmember hb => execRingParkRecord_revives hring hmember hb rfl
  · exact fun ring rsn r b hring hmember hb => execRingParkRecord_closes hring hmember hb rfl
  · exact fun ring rsn kind who r b hring hmember hb => execRingParkRecord_undoes hring hmember hb rfl
  · exact fun ring rsn pos status r => execRingMemberReport_waited status
  · exact fun ring rsn epoch stepSeq r b hring hmember => execCkptRecord_starts hring hmember rfl
  · exact fun ring rsn epoch stepSeq r b q hring hmember hb hstore hseq =>
      execCkptRecord_joins hring hmember rfl hb hstore hseq
  · exact fun ring rsn ringB tag dests image r b hring hmember hb => execMoveRecord_moves hring hmember rfl hb rfl
  · exact fun ring rsn pos r => execMoveReady_head
  · exact fun ring rsn r => execMoveCommit_member

end Sys2Proof.Machine
end

section
/-! PROOFS about memory tiers and the movement of sessions (chapter 5): parks, revives, pressure, retirement, moves between devices and
lending. -/

namespace Sys2Proof.Machine

/-! ### Parks and revives (R272, R276) -/

section
variable {s : State} {idx : Nat}

section
variable {p : ParkOp} (hpark : (s.view.tier.parks.find? fun p => p.idx == idx && p.waiting == 0) = some p)
include hpark

theorem execParkWritesDone_park (hown : (s.view.tier.movesIn.find? fun (m : MoveIn) => m.idx == idx) = none) :
    execParkWritesDone idx s = .next (s.commit ((s.view.parkDone s.ctx p).settleRings s.ctx)) := by
  rw [execParkWritesDone, State.run_next]
  simp only [hpark, hown]

theorem execParkWritesDone_moveIn {m : MoveIn} (hmove : (s.view.tier.movesIn.find? fun (m : MoveIn) => m.idx == idx) = some m) :
    execParkWritesDone idx s = .next (s.commit ((s.view.moveWritten s.ctx m p).settleRings s.ctx)) := by
  rw [execParkWritesDone, State.run_next]
  simp only [hpark, hmove]

end

/-- A revive that has its reservation waits no more and reads its targets. The definition is unfolded as a function: where its body stands applied,
the kernel would carry out the allocations. -/
theorem Dev.reviveReserve_room {x : Ctx} {d d1 : Dev} {r : ReviveOp} {m : Manifest} {c : ParkedImage} (hd1 : d.reserveT1 x r.idx c = some d1) :
    d.reviveReserve x r m c =
      (let r1 := { r with reserved := true }
       let d2 : Dev := { d1 with tier := { d1.tier with
         revives := replaceFirst (fun (q : ReviveOp) => q.idx == r.idx) (fun _ => r1) d1.tier.revives
         reviveWaiters := d1.tier.reviveWaiters.filter fun j => j != r.idx } }
       d2.startTargetReads x r1 m) := by
  have hunfold : Dev.reviveReserve = Dev.reviveReserve := rfl
  conv at hunfold => rhs; delta Dev.reviveReserve
  rw [hunfold]
  beta_reduce
  rw [hd1]

section
variable {r : ReviveOp} {m : Manifest} {c : ParkedImage} (hm : tblGet idx s.view.tier.manifests = some m)
  (hc : tblGet idx s.view.tier.images = some c)
include hm hc

theorem execReviveReserved_waiting (hr : (s.view.tier.revives.find? fun r => r.idx == idx && !r.reserved) = some r) :
    execReviveReserved idx s = .next (s.commit ((s.view.reviveReserve s.ctx r m c).settleRings s.ctx)) := by
  rw [execReviveReserved, State.run_next]
  simp only [hr, hm, hc]

theorem execReviveTile_listed (n : Nat) (ok : Bool) (hr : (s.view.tier.revives.find? fun r => r.idx == idx) = some r) :
    execReviveTile idx n ok s = .next (s.commit (((s.view.reviveTile s.ctx r m c n ok).settleRings s.ctx).settleLoans)) := by
  rw [execReviveTile, State.run_next]
  simp only [hr, hm, hc]

end

end

/-! ### Retirement of slots (R302) -/

theorem execRetirementCopy_copies {s : State} {slot : Nat} {u : SlotUse} {p : Page} (hlisted : s.view.kv.pool.retiring.contains slot = true)
    (hbulk : s.view.bulkHeld (stackOf slot) = false) (hu : (s.view.kv.pool.used.find? fun u => u.addr == slot) = some u)
    (hp : s.view.page u.key = some p) (hcopyable : s.view.copyable u.key.owner = true) (hfree : s.view.capturing u.key.owner = false)
    (hreads : s.view.tileBad s.ctx u.key p (s.view.lenBefore u.key.owner.index) = false) :
    execRetirementCopy slot s = .next (s.commit (s.view.copyPage s.ctx u.key p)) := by
  rw [execRetirementCopy, State.run_next]
  simp only [hlisted, hbulk, hu, hp, hcopyable, hfree, hreads, Bool.not_true, Bool.or_self, Bool.false_eq_true, if_false]

/-! ### The end of work on MX buffers (R184, R185) -/

theorem execKvImportExportEnd_listed {s : State} {idx : Nat} {o : ImpExp} (ho : (s.view.kv.impexp.find? fun o => o.idx == idx) = some o) :
    execKvImportExportEnd idx s = .next (s.commit (s.view.endMx s.ctx o)) := by
  rw [execKvImportExportEnd, State.run_next]
  simp only [ho]

/-- Settles O49: each clause is the rule above for its event; the releases have no case to choose. -/
theorem tierEventsComplete : Obligations.TierEventsComplete := by
  intro s
  refine ⟨?_, ?_, ?_, ?_, ?_, ?_, ?_, ?_, ?_, ?_, ?_⟩
  · exact fun idx p => execParkWritesDone_park
  · exact fun idx p m hpark hmove => execParkWritesDone_moveIn hpark hmove
  · exact fun idx => s.run_next _
  · exact fun idx => s.run_next _
  · exact fun idx r m c d1 hr hm hc hd1 => (execReviveReserved_waiting hm hc hr).trans
      (congrArg (fun d => Host.Outcome.next (s.commit (d.settleRings s.ctx))) (Dev.reviveReserve_room hd1))
  · exact fun idx n ok r m c hr hm hc _ _ _ => execReviveTile_listed hm hc n ok hr
  · exact fun hlow => State.run_ite _ _ hlow
  · exact fun prefixId => s.run_next _
  · exact fun slot hfails => State.run_ite _ _ hfails
  · exact fun slot u p => execRetirementCopy_copies
  · exact fun idx o => execKvImportExportEnd_listed

/-! ### The source of a move (R282, R284 to R286) -/

section
variable {s : State} {tag src : Nat} {m : MoveOut}

/-- A source that holds no manifest has no targets to read: everything is sent at once. -/
theorem execMoveAccept_sends {ringB : Nat} {addrs : List Nat}
    (hm : (s.view.moveOut fun m => m.tag == tag && m.dest == src && !m.accepted) = some m)
    (hnone : tblGet m.idx s.view.tier.manifests = none) (hreads : (s.view.moveContent s.ctx m.idx m.flat).2 = false)
    (hsent : (s.view.sendContent m (s.view.moveContent s.ctx m.idx m.flat).1).2 = true) (hring : m.ring = none) :
    execMoveAccept tag ⟨src, ringB, addrs⟩ s =
      (let d1 := (s.view.sendContent m (s.view.moveContent s.ctx m.idx m.flat).1).1
       .next (s.commit (d1.updMoveOut m.idx fun m => { m with accepted := true, sentAll := true, sentAt := d1.now }))) := by
  rw [execMoveAccept, State.run_next]
  simp only [hm, hnone, List.zipIdx_nil, List.foldl_nil, hreads, hsent, hring, Bool.not_false, Bool.and_self, Bool.false_eq_true, if_false,
    if_true, Option.bind_none]

theorem execMoveReject_single (status : Status) (hm : (s.view.moveOut fun m => m.tag == tag && !m.accepted) = some m)
    (hring : m.ring = none) : execMoveReject tag status s = .next (s.commit (s.view.endMoveOut s.ctx m status)) := by
  rw [execMoveReject, State.run_next]
  simp only [hm, hring, Option.bind_none]

theorem execMoveDone_single (gen : Nat) (hm : (s.view.moveOut fun m => m.tag == tag && (m.dest == src || m.ring.isSome)) = some m)
    (haccepted : m.accepted = true) (hring : m.ring = none) :
    execMoveDone tag src gen s = .next (s.commit (s.view.finishMove s.ctx m)) := by
  rw [execMoveDone, State.run_next]
  simp only [hm, haccepted, hring, Bool.not_true, Bool.false_eq_true, if_false, Option.bind_none]

theorem execMoveStatusAnswer_resolved (committed : Bool)
    (hm : (s.view.moveOut fun m => m.tag == tag && (m.sentAll || m.cancel.isSome)) = some m) (hopen : m.unresolved = false) :
    execMoveStatusAnswer tag committed s = .next (s.commit
      (if committed then s.view.finishMove s.ctx m else s.view.endMoveOut s.ctx m (if m.cancel.isSome then .CANCELLED else .FAULT_LINK))) := by
  rw [execMoveStatusAnswer, State.run_next]
  simp only [hm, hopen, Bool.false_eq_true, if_false]

theorem execMoveTile_again (n : Nat) (hm : (s.view.moveOut fun m => m.tag == tag && m.dest == src && m.sentAll) = some m) :
    execMoveTile tag src (.again n) s = .next (s.commit (s.view.tileAgain s.ctx m n)) := by
  rw [execMoveTile, State.run_next]
  simp only [hm]

/-- When a source that waits for the outcome began to: at the cancel that asks for it, else when everything was sent (R285, R286). -/
def MoveOut.askedAt (m : MoveOut) : Ns := match m.cancel with | some (_, t) => t | none => m.sentAt

/-- A source has waited RESOLVE_MS for the outcome (R285). -/
def Dev.outcomeLate (d : Dev) (tag : Nat) (m : MoveOut) : Bool :=
  m.tag == tag && (m.sentAll || m.cancel.isSome) && !m.unresolved && m.askedAt + d.fld Reg.sessMoveTo 16 16 * 1000000 ≤ d.now

theorem execMoveResolveTimeout_unresolved (hm : s.view.moveOut (s.view.outcomeLate tag) = some m) (hcancel : m.cancel = none) :
    execMoveResolveTimeout tag s =
      (let d1 := (s.view.bump Reg.sessMoveUnres 1).report sessSource 0x63 3 (s.view.handleOf m.idx)
       let d2 := d1.event s.ctx 9 (d1.handleOf m.idx) tag 0
       .next (s.commit ((d2.updMoveOut m.idx fun m => { m with unresolved := true }).finish? s.ctx m.cmd .FAULT_LINK 1))) := by
  rw [execMoveResolveTimeout, State.run_next]
  generalize hfound : s.view.moveOut _ = found
  obtain rfl : found = some m := hfound.symm.trans hm
  simp only [hcancel]

end

/-! ### The destination of a move (R281 to R284) -/

section
variable {s : State} {tag src : Nat} {m : MoveIn}

section
variable {offer : MoveOffer}

theorem execMoveOffer_meets (hm : (s.view.tier.movesIn.find? fun m => m.meets offer) = some m) :
    execMoveOffer offer s = .next (s.commit (s.view.matchOffer s.ctx m offer)) := by
  rw [execMoveOffer, State.run_next]
  simp only [hm]

theorem execMoveOffer_waits (hnone : (s.view.tier.movesIn.find? fun m => m.meets offer) = none) :
    execMoveOffer offer s = .next (s.commit
      { s.view with tier := { s.view.tier with offersWaiting := s.view.tier.offersWaiting ++ [(offer, s.view.now)] } }) := by
  rw [execMoveOffer, State.run_next]
  simp only [hnone]

end

theorem execMoveInTimeout_late (hm : (s.view.tier.movesIn.find? fun m =>
      m.tag == tag && m.offer.isNone && m.since + s.view.fld Reg.sessMoveTo 0 16 * 1000000 ≤ s.view.now) = some m) :
    execMoveInTimeout tag s = .next (s.commit ((s.view.tellRing m .FAULT_TIMEOUT).endMoveIn s.ctx m .FAULT_TIMEOUT)) := by
  rw [execMoveInTimeout, State.run_next]
  simp only [hm]

/-- An offer has waited ACK_MS for its SESS_MOVE_IN (R281). -/
def Dev.offerLate (d : Dev) (tag : Nat) (o : MoveOffer × Ns) : Bool :=
  o.1.tag == tag && o.2 + d.fld Reg.sessMoveTo 0 16 * 1000000 ≤ d.now

theorem execMoveOfferTimeout_late {o : MoveOffer × Ns} (ho : s.view.tier.offersWaiting.find? (s.view.offerLate tag) = some o) :
    execMoveOfferTimeout tag s =
      (let d1 : Dev := { s.view with tier := { s.view.tier with offersWaiting := s.view.tier.offersWaiting.eraseP (s.view.offerLate tag) } }
       .next (s.commit (d1.sendNote o.1.src 0x10 2 "MOVE_REJECT" 64 [tag, Status.REFUSED_STATE.code] 0))) := by
  unfold Dev.offerLate at ho ⊢
  rw [execMoveOfferTimeout, State.run_next]
  simp only [ho]

/-- A part that comes from the source, as against a request for a tile. -/
theorem execMoveTile_part {item : MoveItem} {o : MoveOffer} (hpart : ∀ n, item ≠ .again n)
    (hm : (s.view.tier.movesIn.find? fun m => m.tag == tag && m.src == src && !m.held && !(s.view.tier.parks.any fun p => p.idx == m.idx)) =
      some m)
    (ho : m.offer = some o) : execMoveTile tag src item s = .next (s.commit (s.view.moveTile s.ctx m o item)) := by
  rw [execMoveTile, State.run_next]
  cases item with
  | again n => exact absurd rfl (hpart n)
  | tile n t ok => simp only [hm, ho]
  | extras g l => simp only [hm, ho]
  | stripe n c ok => simp only [hm, ho]

end

/-! ### Status and abort of a move (R284 to R286) -/

section
variable {s : State} {tag peer : Nat}

theorem execMoveStatus_answers (hidle : (s.view.tier.movesIn.any fun m => m.tag == tag && m.src == peer) = false) :
    execMoveStatus tag peer s =
      (let ok := match s.view.tier.outcomes.find? fun o => o.1 == tag with | some o => o.2 | none => false
       .next (s.commit (s.view.sendNote peer 0x10 2 (if ok then "COMMITTED" else "ABORTED") 64 [tag] 0))) :=
  State.run_ite_not _ _ (ne_true_of_eq_false hidle)

/-- Without a ring nobody else is told. -/
theorem Dev.abortIn_single {x : Ctx} {d : Dev} {m : MoveIn} (status : Status) (hring : m.ring = none) :
    d.abortIn x m m.src status = (d.endMoveIn x m status).sendNote m.src 0x10 2 "ABORTED" 64 [m.tag] 0 := by
  simp only [Dev.abortIn, hring, Option.bind_none, beq_self_eq_true, if_true]

theorem Dev.abortOut_single {x : Ctx} {d : Dev} {m : MoveOut} (status : Status) (hring : m.ring = none) :
    d.abortOut x m peer status = d.endMoveOut x m (if m.cancel.isSome then .CANCELLED else status) := by
  simp only [Dev.abortOut, hring, Option.bind_none]

theorem execMoveAbort_in {m : MoveIn} (status : Status)
    (hm : (s.view.tier.movesIn.find? fun m => m.tag == tag && (m.src == peer || m.ring.isSome)) = some m)
    (hsrc : m.src = peer) (hring : m.ring = none) : execMoveAbort tag peer status s =
      .next (s.commit ((s.view.endMoveIn s.ctx m status).sendNote peer 0x10 2 "ABORTED" 64 [tag] 0)) := by
  have hmeets := List.find?_some hm
  have htag : m.tag = tag := beq_iff_eq.1 (Bool.and_eq_true_iff.1 hmeets).1
  subst hsrc htag
  rw [execMoveAbort, State.run_next]
  simp only [hm, Dev.abortIn_single status hring]

section
variable (hin : (s.view.tier.movesIn.find? fun m => m.tag == tag && (m.src == peer || m.ring.isSome)) = none)
include hin

theorem execMoveAbort_out {m : MoveOut} (status : Status)
    (hm : (s.view.moveOut fun m => m.tag == tag && (m.dest == peer || m.ring.isSome)) = some m) (hring : m.ring = none) :
    execMoveAbort tag peer status s =
      .next (s.commit (s.view.endMoveOut s.ctx m (if m.cancel.isSome then .CANCELLED else status))) := by
  rw [execMoveAbort, State.run_next]
  simp only [hin, hm, Dev.abortOut_single status hring]

theorem execMoveAbort_unknown (status : Status)
    (hout : (s.view.moveOut fun m => m.tag == tag && (m.dest == peer || m.ring.isSome)) = none)
    (hnever : (s.view.tier.outcomes.any fun o => o.1 == tag && o.2) = false) :
    execMoveAbort tag peer status s =
      (let d1 : Dev := { s.view with tier := { s.view.tier with
         offersWaiting := s.view.tier.offersWaiting.filter fun o => !(o.1.tag == tag && o.1.src == peer) } }
       .next (s.commit ((d1.keepOutcome tag false).sendNote peer 0x10 2 "ABORTED" 64 [tag] 0))) := by
  rw [execMoveAbort, State.run_next]
  simp only [hin, hout, hnever, Bool.false_eq_true, if_false]

end

end

/-! ### Lending (R293 to R298) -/

section
variable {s : State}

theorem execLendOfferTick_offers (hdue : s.view.tier.offeredAt + 10000000 ≤ s.view.now) (hon : bit (s.view.reg Reg.sessLendCtl) 31 = true)
    (hspare : s.view.fld Reg.sessPoolWater 24 8 * s.view.poolSlots s.ctx < s.view.poolFree s.ctx * 100) :
    execLendOfferTick s = .next (s.commit (s.view.tier.lendList.foldl
      (fun (d : Dev) n => d.sendNote n 0x30 5 "OFFER" 64 [d.lendable s.ctx, d.slotsLent / 16384] 0)
      { s.view with tier := { s.view.tier with offeredAt := s.view.now } })) := by
  refine (State.run_ite_not _ _ (Nat.not_lt.2 hdue)).trans ?_
  simp only [hon, hspare, decide_true, Bool.and_self, if_true]

theorem execOffer_asks (lender recallable : Nat) {units : Nat} (hon : bit (s.view.reg Reg.sessLendCtl) 30 = true) (hunits : 0 < units) :
    execOffer lender units recallable s =
      (let d1 : Dev := { s.view with tier := { s.view.tier with
         offers := s.view.tier.offers.filter (fun o => o.1 != lender) ++ [(lender, units)] } }
       .next (s.commit (if d1.draw.1 % (units + 1) == 0 then d1.draw.2
         else d1.draw.2.sendNote lender 0x30 5 "LOAN_REQ" 64 [d1.draw.1 % (units + 1), recallable] 0))) :=
  (s.run_next _).trans (congrArg (fun d => Host.Outcome.next (s.commit d)) (if_pos (Bool.and_eq_true_iff.2 ⟨hon, decide_eq_true hunits⟩)))

/-- What a lender grants to a borrower: `n` units that the borrower does not hold yet, each of 16,384 free slots (R293, R485). -/
def Dev.newLoan (x : Ctx) (d : Dev) (borrower n : Nat) : Loan :=
  let us := unusedNumbers ((d.tier.lent.filter fun l => l.peer == borrower).flatMap (·.units)) n
  ⟨borrower, unusedNumber (d.tier.lent.map (·.number)) 256, us,
    us.zipIdx.map fun u => (u.1, ((d.freeSlotList x).drop (16384 * u.2)).take 16384), none, true⟩

theorem execLoanReq_grants {borrower units n : Nat} {d1 : Dev} (hd1 : s.view.contact borrower = d1)
    (hn : min units (d1.lendable s.ctx) = n) (hsome : n ≠ 0) (hroom : d1.tier.lent.length < 256) :
    execLoanReq borrower units s =
      (let l := d1.newLoan s.ctx borrower n
       .next (s.commit (({ d1 with tier := { d1.tier with lent := d1.tier.lent ++ [l] } } : Dev).sendNote borrower 0x30 5 "LOAN_GRANT" 64
         ([l.number, n] ++ l.units) 0))) := by
  rw [execLoanReq, State.run_next]
  simp only [hd1, hn, beq_false_of_ne hsome, decide_eq_false (Nat.not_le.2 hroom), Bool.or_self, Bool.false_eq_true, if_false]
  rfl

theorem execLoanGrant_window {lender number w : Nat} {units : List Nat}
    (hw : (s.view.windowOf lender).or ((List.range 64).find? fun w => !(bit (s.view.reg (Reg.fabWin w)) 31)) = some w) :
    execLoanGrant lender number units s =
      (let d1 := (s.view.setFld (Reg.fabWin w) 0 16 lender).setFld (Reg.fabWin w) 31 1 1
       .next (s.commit { d1 with tier := { d1.tier with
         borrowed := d1.tier.borrowed ++ [(⟨lender, number, units, [], none, true⟩ : Loan)] } })) := by
  rw [execLoanGrant, State.run_next]
  simp only [hw]

theorem execLoanVoid_borrowed {peer number : Nat} {l : Loan}
    (hl : (s.view.tier.borrowed.find? fun l => l.peer == peer && l.number == number) = some l) :
    execLoanVoid peer number s = .next (s.commit (l.units.foldl (fun (d : Dev) u => d.loseUnit s.ctx peer number u) s.view)) := by
  rw [execLoanVoid, State.run_next]
  simp only [hl]

end

/-- Settles O50: each clause is the rule above for its event; an event that tests one condition is a `State.run_ite`. -/
theorem moveAndLendingEventsComplete : Obligations.MoveAndLendingEventsComplete := by
  intro s
  refine ⟨?_, ?_, ?_, ?_, ?_, ?_, ?_, ?_, ?_, ?_, ?_, ?_, ?_, ?_, ?_, ?_, ?_, ?_, ?_, ?_, ?_, ?_, ?_, ?_, ?_, ?_, ?_, ?_⟩
  · exact fun offer m => execMoveOffer_meets
  · exact fun offer => execMoveOffer_waits
  · exact fun tag src ringB addrs m => execMoveAccept_sends
  · exact fun tag status m => execMoveReject_single status
  · exact fun tag src item m o hpart => execMoveTile_part fun n h => by rw [h] at hpart; exact Bool.false_ne_true hpart
  · exact fun tag src n m => execMoveTile_again n
  · exact fun tag src gen m => execMoveDone_single gen
  · exact fun tag peer status m => execMoveAbort_in status
  · exact fun tag peer status => execMoveAbort_unknown (status := status)
  · exact fun tag peer status m hin => execMoveAbort_out hin status
  · exact s.run_next _
  · exact fun tag src k hidle hkept => (execMoveStatus_answers hidle).trans (by rw [hkept]; rfl)
  · exact fun tag src hidle hnone => (execMoveStatus_answers hidle).trans (by rw [hnone]; rfl)
  · exact fun tag m => execMoveStatusAnswer_resolved true
  · exact fun tag m => execMoveStatusAnswer_resolved false
  · exact fun tag m => execMoveResolveTimeout_unresolved
  · exact fun tag m => execMoveInTimeout_late
  · exact fun tag o => execMoveOfferTimeout_late
  · exact execLendOfferTick_offers
  · exact fun lender units recallable => execOffer_asks lender recallable
  · exact fun borrower units => execLoanReq_grants rfl rfl
  · exact fun lender number w units => execLoanGrant_window
  · exact fun lender number unit hloan => State.run_ite_not _ _ (by rw [hloan]; exact Bool.false_ne_true)
  · exact fun borrower number unit hlent => State.run_ite _ _ hlent
  · exact fun peer number l => execLoanVoid_borrowed
  · exact fun lender number unit hlate => State.run_ite _ _ hlate
  · exact fun borrower number unit hlate => State.run_ite _ _ hlate
  · exact fun hlow => State.run_ite_not _ _ (by rw [hlow]; exact Bool.false_ne_true)

end Sys2Proof.Machine
end

section
/-! PROOFS about the session tail (chapter 6): the commands of a session's lists and place, variants, grammars and top-K rows, and the events
of the tail, of text and of Recall. -/

namespace Sys2Proof.Machine

/-- A ring command whose handle has the generation of the descriptor. -/
theorem State.ring_session {s : State} {e : Entry} {used res : List (Nat × Nat)} {ds : Desc} {i : Nat} {d1 : Dev}
    (f : Ctx → Cmd → Dev → Nat → Desc → Dev) (hres : e.reservedSet used res = false) (hi : handleIdx (e.f 16 4) = i)
    (hd1 : (s.view.readDesc s.ctx i).1 = d1) (hd : (s.view.readDesc s.ctx i).2 = some ds) (hg : ds.gen % 1024 = handleGen (e.f 16 4)) :
    s.ring e used res (fun x d c => d.withSession x c (e.f 16 4) (f x c)) = .next (s.commit (f s.ctx e.cmd d1 i ds)) := by
  subst hi hd1
  rw [State.ring_next _ hres, Dev.withSession_pass _ hd hg]

/-! ### The lists of a session (R350) -/

section
variable {s : State} {e : Entry} {ds : Desc} {i : Nat} {d1 : Dev}

section
variable (hres : e.reservedSet [(16, 5), (24, 8)] [(162, 6)] = false) (hi : handleIdx (e.f 16 4) = i)
  (hd1 : (s.view.readDesc s.ctx i).1 = d1) (hd : (s.view.readDesc s.ctx i).2 = some ds) (hg : ds.gen % 1024 = handleGen (e.f 16 4))
  (hidle : ds.state = .idle) (hfree : d1.memberBound i = false)
include hres hi hd1 hd hg hidle hfree

theorem execSessSetLists_clears (hclear : bit (e.f 20 1) 0 = true) :
    execSessSetLists e s = .next (s.commit
      ((((d1.releaseHeld s.ctx i).freeAreas fun u => u.owner == POwner.sess i && u.kind == .lists).updDesc s.ctx i fun s =>
        { s with listsAddr := 0 }).finish s.ctx e.cmd .DONE 0)) := by
  rw [execSessSetLists, State.ring_session _ hres hi hd1 hd hg, Dev.checked_pass _ (by simp [hidle, hfree])]
  simp only [hclear, if_true]

theorem execSessSetLists_installs {d2 d3 : Dev} {addr : Nat} (hset : bit (e.f 20 1) 0 = false)
    (hbuf : (([(e.f 24 8, 36864)]).find? fun b => !(mappedRange s.ctx.fuses.part d1 b.1 b.2)) = none)
    (hmedia : d1.mediaBad (e.f 24 8) 36864 = false) (hd2 : d1.eccRead (e.f 24 8) 36864 true = d2)
    (hblock : d2.listBlock i = some (d3, addr)) :
    execSessSetLists e s =
      (let keep := bit (e.f 20 1) 1
       .next (s.commit (((if keep then d3 else d3.releaseHeld s.ctx i).installLists s.ctx i addr (e.f 24 8) (ds.listsAddr != 0) keep).finish
         s.ctx e.cmd .DONE 0))) := by
  subst hd2
  rw [execSessSetLists, State.ring_session _ hres hi hd1 hd hg, Dev.checked_pass _ (by simp [hidle, hfree])]
  simp only [hset, Bool.false_eq_true, if_false, Dev.buffers_pass _ hbuf, Dev.source_pass _ hmedia, hblock]

end

end

/-! ### Parks (R271, R272) -/

theorem Dev.ringDown_unbound {d : Dev} {i : Nat} (h : d.bindingOf i = none) : d.ringDown i = false := by
  simp only [Dev.ringDown, h]

section
variable {x : Ctx} {d : Dev} {i : Nat} {c : Option Cmd} {image : Bool} {first : Nat} (last n store : Nat)

theorem Dev.parkHere_inPlace (hfirst : first = 1) (hroom : d.inPlaceOk x = true) :
    d.parkHere x i none c image first last n store = d.parkInPlace x i none c image := by
  simp only [Dev.parkHere, hfirst, hroom, beq_self_eq_true, Bool.and_self, if_true]

theorem Dev.parkHere_outside (hout : first ≠ 1 ∨ d.inPlaceOk x = false) (hpin : d.canPin i = true) :
    d.parkHere x i none c image first last n store = d.parkOut x i none c image false first last n store := by
  have hleaves : (first == 1 && d.inPlaceOk x) = false := by rcases hout with h | h <;> simp [h]
  simp only [Dev.parkHere, hleaves, hpin, Bool.not_true, Bool.false_eq_true, if_false]

/-- A park outside T1 whose content can be read and has a place writes that content. -/
theorem Dev.parkOut_writes {content : ParkedImage} {d2 : Dev} {ts : List Target} (hcontent : d.contentOf x i false = (content, false))
    (hplace : (d.askLoan (max 2 first) last (d.areaSizes content image n)).placeContent content image (max 2 first) last n store = some (d2, ts)) :
    d.parkOut x i none c image false first last n store = ((d2.setState x i .transit .parking).withdraw i).startWrites x
      ⟨i, c, false, image, max 2 first, last, n, store, ts, content, [], none⟩ := by
  simp only [Dev.parkOut, hcontent, hplace, Bool.false_eq_true, if_false]

end

/-! ### Revives (R276) -/

section
variable {x : Ctx} {d : Dev} {i : Nat} {m : Manifest} (ring : Option Nat) (c : Option Cmd)

section
variable (hm : tblGet i d.tier.manifests = some m) (hmode : firstFail (d.tileMode x (d.desc i).image) = none)
  (hreads : d.manifestBad x i = false)
include hm hmode hreads

theorem Dev.startRevive_inPlace (hplace : m.inPlace = true) : d.startRevive x i ring c = d.reviveInPlace x i ring c := by
  simp only [Dev.startRevive, hm, hmode, hreads, hplace, Bool.false_eq_true, if_false, if_true]

theorem Dev.startRevive_outside (hplace : m.inPlace = false) (hkept : m.lost = false) (hreach : (m.targets.all fun t => d.reachable t) = true)
    (hpin : d.canPin i = true) :
    d.startRevive x i ring c =
      (let d2 := d.setState x i .reviving .none
       { d2 with tier := { d2.tier with revives := d2.tier.revives ++ [(⟨i, c, false, [], [], [], [], ring⟩ : ReviveOp)] } }) := by
  simp only [Dev.startRevive, hm, hmode, hreads, hplace, hkept, hreach, hpin, Bool.not_true, Bool.false_eq_true, if_false]

end

end

/-! ### Sessions of no ring that are parked, revived and moved (R272, R276, R282) -/

section
variable {s : State} {e : Entry} {ds : Desc} {i : Nat} {d1 : Dev} (hi : handleIdx (e.f 16 4) = i)
  (hd1 : (s.view.readDesc s.ctx i).1 = d1) (hd : (s.view.readDesc s.ctx i).2 = some ds) (hg : ds.gen % 1024 = handleGen (e.f 16 4))
  (hfree : d1.memberBound i = false) (halone : d1.bindingOf i = none)
include hi hd1 hd hg hfree halone

theorem execSessPark_here (hres : e.reservedSet [(16, 7), (24, 8)] [(161, 7), (171, 1), (175, 1)] = false) (hidle : ds.state = .idle)
    (hocc : d1.occupied i = false) (hfields : parkFieldsOk (e.f 21 1) (e.f 22 1) = true)
    (hmode : firstFail (d1.tileMode s.ctx (bit (e.f 20 1) 0)) = none) :
    execSessPark e s = .next (s.commit (d1.parkHere s.ctx i none (some e.cmd) (bit (e.f 20 1) 0) (d1.chain (e.f 21 1)).1
      (d1.chain (e.f 21 1)).2 (e.f 22 1) (e.f 24 8))) := by
  have hdown := Dev.ringDown_unbound halone
  rw [execSessPark, State.ring_session _ hres hi hd1 hd hg, Dev.checked_pass _ (by simp [hmode, hidle, hfree, hocc, hfields, hdown])]
  simp only [halone]

theorem execSessRevive_here (hres : e.reservedSet [(16, 4)] [] = false) (hparked : ds.state = .parked) :
    execSessRevive e s = .next (s.commit (d1.startRevive s.ctx i none (some e.cmd))) := by
  have hdown := Dev.ringDown_unbound halone
  rw [execSessRevive, State.ring_session _ hres hi hd1 hd hg, Dev.checked_pass _ (by simp [hparked, hfree, hdown])]
  simp only [halone]

theorem execSessMoveOut_starts (hres : e.reservedSet [(16, 5), (24, 4), (32, 8)] [(162, 6), (272, 48)] = false)
    (hstate : ds.state = .idle ∨ ds.state = .parked) (hocc : d1.occupied i = false)
    (hmode : firstFail (d1.tileMode s.ctx (bit (e.f 20 1) 0)) = none) (hreads : d1.parkedMoveFault s.ctx i = none)
    (hpin : d1.canPin i = true) :
    execSessMoveOut e s = .next (s.commit ((d1.dropDemotion s.ctx i).startMove s.ctx i (some e.cmd) (e.f 24 4) (e.f 32 8)
      (bit (e.f 20 1) 0) (bit (e.f 20 1) 1) ((d1.bindingOf i).map (·.1.id)))) := by
  have hrests : (ds.state != .idle && ds.state != .parked) = false := by rcases hstate with h | h <;> simp [h]
  rw [execSessMoveOut, State.ring_session _ hres hi hd1 hd hg, Dev.checked_pass]
  simp [hmode, hrests, hocc, hfree, halone, hreads, hpin]

end

section
variable {s : State} {e : Entry} {i : Nat}

/-- The index of a SESS_MOVE_IN is allocated: its descriptor waits for the move (R90, R281). -/
def Dev.allocMoveIn (x : Ctx) (d : Dev) (i composition : Nat) : Dev :=
  let d1 : Dev := { d with sess := { d.sess with lastAlloc := i } }
  (d1.putDesc x i { Desc.void (d.nextGen i) d.now with state := .transit, sub := .movingIn, composition := composition }).touch i

/-- A SESS_MOVE_IN to no ring that finds no offer waits for one. The search for the index and the store of the descriptor stand under names
of their own: else the kernel would carry them out. -/
theorem execSessMoveIn_waits {d2 : Dev}
    (hres : e.reservedSet [(16, 2), (20, 12), (32, 16)] [(129, 7), (163, 1), (167, 1), (272, 48)] = false) (hring : bit (e.f 16 1) 0 = false)
    (hidx : s.view.allocIdx = some i) (hpin : s.view.canPin i = true) (hd2 : s.view.allocMoveIn s.ctx i (e.f 22 2) = d2)
    (hnone : d2.tier.offersWaiting = []) :
    execSessMoveIn e s = .next (s.commit
      { d2 with tier := { d2.tier with movesIn := d2.tier.movesIn ++ [(⟨i, e.cmd, e.f 24 4, e.f 32 8, e.f 20 1, e.f 21 1, e.f 22 2, e.f 40 8,
        none, d2.now, none, [], [], none, [], false, [], ((s.view.nextGen i + 1023) % 1024, s.view.sess.lastAlloc)⟩ : MoveIn)] } }) := by
  rw [Dev.allocMoveIn] at hd2
  rw [execSessMoveIn, State.ring_next _ hres]
  obtain ⟨found, hfound⟩ : ∃ found, s.view.allocIdx = found := ⟨_, rfl⟩
  obtain ⟨put, hput⟩ : ∃ put, Dev.putDesc = put := ⟨_, rfl⟩
  rw [hfound] at hidx ⊢
  rw [hput] at hd2 ⊢
  simp only [hring, hidx, Bool.false_eq_true, if_false]
  rw [Dev.checked_pass _ (by simp [hpin])]
  simp only [hd2, hnone, List.find?_nil]

end

/-- Settles O31: each clause is the rule above for its command; this device alone parks and revives a session of no ring. -/
theorem sessionPlacesComplete : Obligations.SessionPlacesComplete := by
  intro s
  refine ⟨?_, ?_, ?_, ?_, ?_, ?_, ?_, ?_⟩
  · exact fun e ds hres hd hg => execSessSetLists_clears hres rfl rfl hd hg
  · exact fun e ds d3 addr hres hd hg hidle hfree hset hbuf hmedia =>
      execSessSetLists_installs hres rfl rfl hd hg hidle hfree hset hbuf hmedia rfl
  · exact fun e ds hres hd hg hidle hfree hocc hfields hmode halone hfirst hroom =>
      (execSessPark_here rfl rfl hd hg hfree halone hres hidle hocc hfields hmode).trans
        (by rw [Dev.parkHere_inPlace _ _ _ hfirst hroom])
  · exact fun e ds d2 ts hres hd hg hidle hfree hocc hfields hmode halone hout hpin hplace hreads =>
      (execSessPark_here rfl rfl hd hg hfree halone hres hidle hocc hfields hmode).trans
        (by rw [Dev.parkHere_outside _ _ _ hout hpin, Dev.parkOut_writes _ _ _ (Prod.ext rfl hreads) hplace])
  · exact fun e ds m hres hd hg hparked hfree halone hm hmode hreads hplace =>
      (execSessRevive_here rfl rfl hd hg hfree halone hres hparked).trans
        (by rw [Dev.startRevive_inPlace _ _ hm hmode hreads hplace])
  · exact fun e ds m hres hd hg hparked hfree halone hm hmode hreads hplace hkept hreach hpin =>
      (execSessRevive_here rfl rfl hd hg hfree halone hres hparked).trans
        (by rw [Dev.startRevive_outside _ _ hm hmode hreads hplace hkept hreach hpin])
  · exact fun e ds hres hd hg hstate hocc hmode hfree halone =>
      execSessMoveOut_starts rfl rfl hd hg hfree halone hres hstate hocc hmode
  · exact fun e i hres hring hidx hpin => execSessMoveIn_waits hres hring hidx hpin rfl

/-! ### Images of the tail (R322) -/

section
variable {x : Ctx} {d : Dev} {c : Cmd} {bytes a : Nat} (id src : Nat) (put : Dev → TailImage → Dev)

/-- An image that has a place, in a store with room and a list that is not full, is copied there and measured. -/
theorem Dev.storeImage_stores {full : Bool} (hplace : d.shadowPlace bytes = some a) (hlist : full = false)
    (hroom : cdiv bytes 65536 ≤ d.storeFree) :
    d.storeImage x c id src bytes full put =
      (let d2 := ({ d with free := d.free + 1 } : Dev).st x a bytes (d.ld x src bytes)
       ((put d2 ⟨id, a, bytes, cdiv bytes 65536⟩).measureAt x 4 c.opcode id src bytes).finish x c .DONE 0) := by
  simp only [Dev.storeImage, hplace, hlist, decide_eq_false (Nat.not_lt.2 hroom), Bool.or_self, Bool.false_eq_true, if_false]

end

/-! ### Variants and grammars (R323, R330) -/

/-- A variant is listed. -/
def Dev.listVariant (d : Dev) (g : TailImage) : Dev := { d with tail := { d.tail with variants := d.tail.variants ++ [g] } }

/-- A grammar is listed. -/
def Dev.listGrammar (d : Dev) (g : TailImage) : Dev := { d with tail := { d.tail with grammars := d.tail.grammars ++ [g] } }

section
variable {s : State} {e : Entry}

section
variable {d1 : Dev} (hres : e.reservedSet [(16, 2), (24, 16)] [(240, 16)] = false)
  (hbuf : (([(e.f 24 6, e.f 32 8)]).find? fun b => !(mappedRange s.ctx.fuses.part s.view b.1 b.2)) = none)
  (hmedia : s.view.mediaBad (e.f 24 6) (e.f 32 8) = false) (hd1 : s.view.eccRead (e.f 24 6) (e.f 32 8) true = d1)
include hres hbuf hmedia hd1

theorem execVariantLoad_loads (hbase : e.f 16 2 ≠ 0) (hnone : e.f 16 2 ≠ 0xFFFF) (hnew : imageOf d1.tail.variants (e.f 16 2) = none)
    (hok : d1.variantOk s.ctx (e.f 24 6) (e.f 32 8) = true) (heven : d1.variantOdd s.ctx (e.f 24 6) = false) :
    execVariantLoad e s = .next (s.commit (d1.storeImage s.ctx e.cmd (e.f 16 2) (e.f 24 6) (e.f 32 8) (64 ≤ d1.tail.variants.length)
      Dev.listVariant)) := by
  subst hd1
  rw [execVariantLoad, State.ring_next _ hres, Dev.buffers_pass _ hbuf, Dev.source_pass _ hmedia,
    Dev.checked_pass _ (by simp [hbase, hnone, hnew, hok])]
  simp only [heven, Bool.false_eq_true, if_false]
  rfl

theorem execGrammarLoad_loads (hnone : e.f 16 2 ≠ 0xFFFF) (hnew : imageOf d1.tail.grammars (e.f 16 2) = none)
    (hok : d1.grammarOk s.ctx (e.f 24 6) = true) (heven : d1.grammarOdd s.ctx (e.f 24 6) (e.f 32 8) = false) :
    execGrammarLoad e s = .next (s.commit (d1.storeImage s.ctx e.cmd (e.f 16 2) (e.f 24 6) (e.f 32 8) (1024 ≤ d1.tail.grammars.length)
      Dev.listGrammar)) := by
  subst hd1
  rw [execGrammarLoad, State.ring_next _ hres, Dev.buffers_pass _ hbuf, Dev.source_pass _ hmedia,
    Dev.checked_pass _ (by simp [hnone, hnew, hok])]
  simp only [heven, Bool.false_eq_true, if_false]
  rfl

end

section
variable (hres : e.reservedSet [(16, 2)] [] = false)
include hres

theorem execVariantUnload_unused (hlisted : (imageOf s.view.tail.variants (e.f 16 2)).isSome = true)
    (hunused : (s.view.sess.table.any fun p => p.2.state != .void && p.2.variant == e.f 16 2) = false) :
    execVariantUnload e s = .next (s.commit (({ s.view with tail := { s.view.tail with
      variants := s.view.tail.variants.filter fun g => g.id != e.f 16 2 } } : Dev).finish s.ctx e.cmd .DONE 0)) := by
  rw [execVariantUnload, State.ring_next _ hres,
    Dev.checked_pass _ (by simp only [firstFail_cons, firstFail_nil, Option.isNone_eq_false_iff.2 hlisted, hunused, Bool.false_eq_true, if_false])]

/-- With a grammar go its cached masks and those to be prefetched. -/
theorem execGrammarUnload_unused (hlisted : (imageOf s.view.tail.grammars (e.f 16 2)).isSome = true)
    (hunused : (s.view.sess.table.any fun p => p.2.state != .void && p.2.grammar == e.f 16 2) = false) :
    execGrammarUnload e s = .next (s.commit (({ s.view with tail := { s.view.tail with
      grammars := s.view.tail.grammars.filter (fun g => g.id != e.f 16 2),
      masks := s.view.tail.masks.filter (fun k => k.grammar != e.f 16 2),
      prefetch := s.view.tail.prefetch.filter fun k => k.grammar != e.f 16 2 } } : Dev).finish s.ctx e.cmd .DONE 0)) := by
  rw [execGrammarUnload, State.ring_next _ hres,
    Dev.checked_pass _ (by simp only [firstFail_cons, firstFail_nil, Option.isNone_eq_false_iff.2 hlisted, hunused, Bool.false_eq_true, if_false])]

end

/-! ### Top-K rows (R338) -/

/-- What a top-K row leaves once its values are read: K records, padded where too few values are valid, and the counts. -/
def Dev.topkOut (x : Ctx) (d : Dev) (c : Cmd) (out k : Nat) (vals : List (Option Nat)) : Dev :=
  let top := rankRow vals k
  let nValid := (vals.filter (·.isSome)).length
  let recs := top ++ List.replicate (k - top.length) (0xFFFFFFFF, 0xFF800000)
  let d2 := d.stBytes x out (recs.flatMap fun r => leBytes r.1 4 ++ leBytes r.2 4)
  let d3 := (if vals.any (·.isNone) then d2.bump Reg.tailNonfinite 1 else d2).chargeSome x (d2.sqComp c) 2
  if nValid < k then (d3.bump Reg.tailPartialCnt 1).finish x c .DONE_PARTIAL nValid else d3.finish x c .DONE nValid

theorem Dev.topkChecks_pass {d : Dev} {fmt n k : Nat} (hfmt : fmt ≤ 2) (hn0 : n ≠ 0) (hn1 : n ≤ 1048576) (hk0 : k ≠ 0) (hk1 : k ≤ 4096)
    (hpipe : d.tail.pipes.any (·.up) = true) :
    firstFail [(2 < fmt || n == 0 || 1048576 < n || k == 0 || 4096 < k, .REFUSED_STATE), (!(d.tail.pipes.any (·.up)), .FAULT_UNIT)] = none := by
  rw [firstFail_cons, firstFail_cons, hpipe]
  simp [Nat.not_lt.2 hfmt, hn0, Nat.not_lt.2 hn1, hk0, Nat.not_lt.2 hk1]

theorem execTopkRow_ranks {f : Fmt × Nat} {n k : Nat} (hres : e.reservedSet [(16, 1), (20, 20), (40, 2)] [(240, 16), (304, 16)] = false)
    (hf : topkFmt (e.f 16 1) = f) (hn : e.f 20 4 = n) (hk : e.f 40 2 = k) (hfmt : e.f 16 1 ≤ 2) (hn0 : n ≠ 0) (hn1 : n ≤ 1048576)
    (hk0 : k ≠ 0) (hk1 : k ≤ 4096) (hpipe : (s.view.tail.pipes.any (·.up)) = true)
    (hbufs : (([(e.f 24 6, n * f.2), (e.f 32 6, 8 * k)]).find? fun b => !(mappedRange s.ctx.fuses.part s.view b.1 b.2)) = none)
    (hmedia : s.view.mediaBad (e.f 24 6) (n * f.2) = false) :
    execTopkRow e s =
      (let d1 := s.view.eccRead (e.f 24 6) (n * f.2) true
       .next (s.commit (d1.topkOut s.ctx e.cmd (e.f 32 6) k ((elemsOf f (d1.ld s.ctx (e.f 24 6) (n * f.2)) n).map intakeVal)))) := by
  subst hf hn hk
  rw [execTopkRow, State.ring_next _ hres]
  dsimp only
  rw [Dev.checked_pass _ (Dev.topkChecks_pass hfmt hn0 hn1 hk0 hk1 hpipe), Dev.buffers_pass _ hbufs, Dev.source_pass _ hmedia]
  rfl

end

/-- Settles O36: each clause is the rule above for its command. -/
theorem tailCommandsComplete : Obligations.TailCommandsComplete := by
  intro s
  refine ⟨?_, ?_, ?_, ?_, ?_⟩
  · exact fun e a hres hbuf hmedia hbase hnone hnew hok heven hplace hlist hroom =>
      (execVariantLoad_loads hres hbuf hmedia rfl hbase hnone hnew hok heven).trans
        (congrArg (fun d => Host.Outcome.next (s.commit d))
          (Dev.storeImage_stores _ _ _ hplace (decide_eq_false (Nat.not_le.2 hlist)) hroom))
  · exact fun e => execVariantUnload_unused
  · exact fun e a hres hbuf hmedia hnone hnew hok heven hplace hlist hroom =>
      (execGrammarLoad_loads hres hbuf hmedia rfl hnone hnew hok heven).trans
        (congrArg (fun d => Host.Outcome.next (s.commit d))
          (Dev.storeImage_stores _ _ _ hplace (decide_eq_false (Nat.not_le.2 hlist)) hroom))
  · exact fun e => execGrammarUnload_unused
  · exact fun e hres hfmt hn0 hn1 hk0 hk1 => execTopkRow_ranks hres rfl rfl rfl hfmt hn0 hn1 hk0 hk1

/-! ### Masks, delta tiles and entries of the tail (R318, R321, R329) -/

/-- A delta tile is charged to the composition of each of its entries. -/
def Dev.chargeDelta (x : Ctx) (d : Dev) (q : TailReq) (t : DeltaTile) : Dev :=
  t.entries.foldl (fun (d : Dev) m => match q.entries[m]? with
    | some e => d.chargeSome x (d.desc e.idx).composition 0
    | none => d) d

section
variable {s : State}

theorem execMaskPrefetch_next {k : MaskKey} {rest : List MaskKey} (hnext : s.view.tail.prefetch = k :: rest)
    (hpipe : s.view.tail.pipes.any (·.up) = true) :
    execMaskPrefetch s = .next (s.commit
      ((({ s.view with tail := { s.view.tail with prefetch := rest } } : Dev).insertMask k).bump Reg.tailMaskPrefetch 1)) := by
  rw [execMaskPrefetch, State.run_next]
  simp only [hnext, hpipe, if_true]

section
variable {req : Nat} {q : TailReq} (hq : (s.view.tail.reqs.find? fun q => q.id == req) = some q)
include hq

theorem execDeltaTileComplete_running {n k a : Nat} {t : DeltaTile} (ht : q.deltas[n]? = some t) (hae : t.ae = some (k, a))
    (hopen : t.done = false) :
    execDeltaTileComplete req n s =
      (let sums := s.view.deltaSums s.ctx q t
       let d1 := s.view.updTail req fun q => { q with deltas := updAt (fun t => { t with done := true, sums := sums }) n q.deltas }
       let d2 := (d1.releaseDemand q.booking (deltaKey t.variant) t.demand).bump (Reg.qdAeTiles k a) 1
       .next (s.commit ((d2.chargeDelta s.ctx q t).aeFreed s.ctx k a))) := by
  rw [execDeltaTileComplete, State.run_next]
  simp only [hq, ht, hae, hopen, Bool.false_eq_true, if_false]
  rfl

/-- A pipe takes the entry that is ready and comes first (R311). -/
theorem execTailEntryRun_ready {entry pipe : Nat} {e : TailEntry} (he : q.entries[entry]? = some e) (hpipe : pipe < 4)
    (hup : (s.view.pipe pipe).up = true) (hstays : (s.view.pipe pipe).pendingOff = false) (hidle : s.view.pipeBusy pipe = false)
    (hreset : s.view.pipeResets pipe = false) (hready : s.view.tailReady q entry e = true)
    (hfirst : (s.view.tail.reqs.any fun r => (decide (r.deadline < q.deadline) || (r.deadline == q.deadline && decide (r.booking < q.booking))) &&
      r.entries.zipIdx.any fun a => s.view.tailReady r a.2 a.1) = false) :
    execTailEntryRun req entry pipe s = .next (s.commit ((s.view.runEntry s.ctx q entry e pipe).settleTails s.ctx)) := by
  rw [execTailEntryRun, State.run_next]
  simp only [hq, he, hpipe, hup, hstays, hidle, hreset, hready, hfirst, decide_true, Bool.not_false, Bool.and_self, if_true]

end

/-! ### Hooks (R346, R581) -/

/-- An entry that waits for a hook is in the hook stage. -/
theorem Dev.hooked_stage {d : Dev} {req entry : Nat} {q : TailReq} {e : TailEntry} (h : d.hooked req entry = some (q, e)) :
    ∃ p posted dead builtin, e.stage = .hook p posted dead builtin := by
  unfold Dev.hooked at h
  split at h
  · cases h
  · split at h
    · cases h
    · split at h
      · next p posted dead builtin hstage _ =>
        cases h
        exact ⟨p, posted, dead, builtin, hstage⟩
      · cases h

section
variable {req entry p builtin : Nat} {posted : Ns} {dead : Bool} {q : TailReq} {e : TailEntry}
  (hhook : s.view.hooked req entry = some (q, e)) (hstage : e.stage = .hook p posted dead builtin)
include hhook hstage

theorem execHookReply_inTime (token rngAdv : Nat) (htime : s.view.now ≤ posted + s.view.fld Reg.tailHookCtl 0 16) :
    execHookReply req entry token rngAdv s = .next (s.commit ((s.view.hookReply s.ctx q entry e token rngAdv).settleTails s.ctx)) := by
  rw [execHookReply, State.run_next]
  simp only [Dev.onHookReply, hhook, hstage, Nat.not_lt.2 htime, if_false]

theorem execHookDeadline_late (hlate : posted + s.view.fld Reg.tailHookCtl 0 16 ≤ s.view.now) :
    execHookDeadline req entry s = .next (s.commit ((((s.view.dropHook s.ctx req entry).bump Reg.tailHookLate 1).hookMissed s.ctx q entry e
      (s.view.pick s.ctx q entry e) 0x40).settleTails s.ctx)) := by
  rw [execHookDeadline, State.run_next]
  simp only [hhook, hstage, Nat.not_lt.2 hlate, if_false, Dev.hookLate]

end

/-! ### Units that go offline and online by a W1S bit (R223, R351, R386, R415) -/

section
variable {n unit off lo : Nat} {p : Ctx → Dev → Prop} [∀ x d, Decidable (p x d)] (f g : Ctx → Dev → Dev) (hunit : unit < n)
  (hcpl : s.view.bar0Cpl s.ctx off = .success)
include hunit hcpl

/-- A write that sets the W1S bit of one of `n` units, which then does one of two things. -/
theorem State.run_unitCtl_ite (h : p s.ctx (s.view.setFld off lo 1 1)) :
    s.run (fun x d => if n ≤ unit then d else d.w1sWrite x off lo fun d => if p x d then f x d else g x d) =
      .next (s.commit (f s.ctx (s.view.setFld off lo 1 1))) := by
  rw [State.run_next, if_neg (Nat.not_le.2 hunit), Dev.w1sWrite, Dev.bar0_served _ hcpl, if_pos h]

theorem State.run_unitCtl_ite_not (h : ¬ p s.ctx (s.view.setFld off lo 1 1)) :
    s.run (fun x d => if n ≤ unit then d else d.w1sWrite x off lo fun d => if p x d then f x d else g x d) =
      .next (s.commit (g s.ctx (s.view.setFld off lo 1 1))) := by
  rw [State.run_next, if_neg (Nat.not_le.2 hunit), Dev.w1sWrite, Dev.bar0_served _ hcpl, if_neg h]

end

/-- Software brings back online what software took offline. -/
theorem Pipe.offline_by_software {p : Pipe} (hoff : p.offline = true) (hcause : p.cause = 1) : (p.offline && p.cause == 1) = true := by
  rw [hoff, hcause]
  rfl

/-! ### Queries and compaction of Recall (R403, R404, R410) -/

section
variable {query : Nat} {k : QueryCmd} (hk : (s.view.rcl.queries.find? fun c => c.id == query) = some k)
include hk

theorem execRecallScanDone_awaited {n list engine : Nat} {ix : Index} {q : Query} (hix : s.view.index k.index = some ix)
    (hq : k.queries[n]? = some q) (hup : s.view.domainUp .rcl = true) (hopen : q.status = none) (htodo : q.todo.contains (list, engine) = true)
    (hruns : s.view.scanHeld engine = false) :
    execRecallScanDone query n list engine s = .next (s.commit (s.view.scanPart s.ctx k ix n q list engine)) := by
  rw [execRecallScanDone, State.run_next]
  simp only [hk, hix, hq, hup, hopen, htodo, hruns, Option.isNone_none, Bool.not_false, Bool.and_self, if_true]

theorem execRecallQueryTimeout_late (hlate : k.since + s.view.fld Reg.recallCtl 16 16 * 1000000 ≤ s.view.now) :
    execRecallQueryTimeout query s = .next (s.commit (s.view.timeoutQuery s.ctx k)) := by
  rw [execRecallQueryTimeout, State.run_next]
  simp only [hk, Nat.not_lt.2 hlate, if_false]

end

section
variable {index : Nat} {ix : Index} (hix : s.view.index index = some ix) (hworks : s.view.rclWorks = true)
include hix hworks

theorem execCompactionStart_works : execCompactionStart index s = .next (s.commit (s.view.startCompaction index ix)) := by
  rw [execCompactionStart, State.run_next]
  simp only [hix, hworks, if_true]

theorem execCompactionPublish_started {p : Compaction} (hp : (s.view.rcl.compactions.find? fun p => p.index == index && p.started) = some p) :
    execCompactionPublish index s = .next (s.commit (s.view.publishPass s.ctx p ix)) := by
  rw [execCompactionPublish, State.run_next]
  simp only [hix, hp, hworks, if_true]

end

end

/-- Settles O51: each clause is the rule above for its event; CHANNEL_BACKLOG_SEND has no case to choose. -/
theorem tailTextAndRecallEventsComplete : Obligations.TailTextAndRecallEventsComplete := by
  intro s
  refine ⟨?_, ?_, ?_, ?_, ?_, ?_, ?_, ?_, ?_, ?_, ?_, ?_, ?_, ?_, ?_, ?_, ?_⟩
  · exact fun k rest => execMaskPrefetch_next
  · exact fun req n k a q t hq => execDeltaTileComplete_running hq
  · exact fun req entry pipe q e hq => execTailEntryRun_ready hq
  · intro req entry token rngAdv q e x d hhook posted htime
    obtain ⟨p, since, dead, builtin, hstage⟩ := Dev.hooked_stage hhook
    have hposted : posted = since := by simp only [posted, hstage]
    exact execHookReply_inTime hhook hstage token rngAdv (hposted ▸ htime)
  · exact fun req entry p builtin posted dead q e => execHookDeadline_late
  · exact fun p hp hcpl hon => State.run_unitCtl_ite_not _ _ hp hcpl (ne_true_of_eq_false hon)
  · exact fun p hp hcpl hoff hcause => State.run_unitCtl_ite _ _ hp hcpl (Pipe.offline_by_software hoff hcause)
  · exact fun channel => s.run_next _
  · exact fun q hq hcpl hon => State.run_unitCtl_ite_not _ _ hq hcpl (ne_true_of_eq_false hon)
  · exact fun q hq hcpl hoff hcause => State.run_unitCtl_ite _ _ hq hcpl (Pipe.offline_by_software hoff hcause)
  · exact fun query n list engine k ix q hk => execRecallScanDone_awaited hk
  · exact fun query k => execRecallQueryTimeout_late
  · exact fun index row hworks => State.run_ite _ _ hworks
  · exact fun index ix => execCompactionStart_works
  · exact fun index ix p hix hp hworks => execCompactionPublish_started hix hworks hp
  · exact fun e he hcpl hon => State.run_unitCtl_ite_not _ _ he hcpl (ne_true_of_eq_false hon)
  · exact fun e he hcpl hoff hcause => State.run_unitCtl_ite _ _ he hcpl (Pipe.offline_by_software hoff hcause)

end Sys2Proof.Machine
end

section
/-! PROOFS about text in and out (chapter 7): the commands of the tokenizer, of input streams, and of output channels and bindings. -/

namespace Sys2Proof.Machine

/-! ### The tokenizer (R359, R360) -/

/-- The region of every quadrant, as large as that of the smallest. -/
def Dev.tokenizerRoom (d : Dev) : Nat := (List.range 4).foldl (fun m q => min m (d.fld (Reg.qdSramPartA q) 16 8)) 255 * 0x100000

/-- A tokenizer image is measured, copied to its area and to every quadrant that is up. -/
def Dev.placeTokenizer (x : Ctx) (d : Dev) (opcode src n : Nat) : Dev :=
  let d1 := d.measureAt x 3 opcode 0 src n
  let d2 := d1.st x d1.textArea n (d1.ld x src n)
  { d2 with text := { d2.text with tokenizer := some ⟨d2.textArea, n, (List.range 4).filter fun q => d2.quadUp q⟩ } }

section
variable {s : State} {e : Entry}

theorem execTokenizerLoad_loads {d1 : Dev} (hres : e.reservedSet [(24, 16)] [] = false) (hunbound : s.view.text.bindings = [])
    (hclosed : s.view.text.streams = []) (hbuf : (([(e.f 24 8, e.f 32 8)]).find? fun b => !(mappedRange s.ctx.fuses.part s.view b.1 b.2)) = none)
    (hmedia : s.view.mediaBad (e.f 24 8) (e.f 32 8) = false) (hd1 : s.view.eccRead (e.f 24 8) (e.f 32 8) true = d1)
    (hok : d1.tokenizerOk s.ctx (e.f 24 8) = true) (hroom : e.f 32 8 ≤ d1.tokenizerRoom) (hsize : e.f 32 8 ≤ 0x4000000)
    (heven : d1.tokenizerOdd s.ctx (e.f 24 8) (e.f 32 8) = false) :
    execTokenizerLoad e s = .next (s.commit ((d1.placeTokenizer s.ctx e.cmd.opcode (e.f 24 8) (e.f 32 8)).finish s.ctx e.cmd .DONE
      (d1.tokHead s.ctx (e.f 24 8)).maxLen)) := by
  subst hd1
  rw [execTokenizerLoad, State.ring_next _ hres]
  dsimp only
  rw [Dev.checked_pass _ (by rw [hunbound, hclosed]; rfl), Dev.buffers_pass _ hbuf, Dev.source_pass _ hmedia, ← Dev.tokenizerRoom,
    Dev.checked_pass _ (by simp [hok, Nat.not_lt.2 hroom, Nat.not_lt.2 hsize])]
  simp only [heven, Bool.false_eq_true, if_false]
  rfl

/-! ### Input streams (R363, R370, R372) -/

section
variable (hres : e.reservedSet [(16, 2)] [] = false)
include hres

theorem execTextInOpen_opens (htok : s.view.text.tokenizer.isSome = true) (hnew : tblGet (e.f 16 2) s.view.text.streams = none) :
    execTextInOpen e s = .next (s.commit ((s.view.putStream (e.f 16 2) ⟨[], 0⟩).finish s.ctx e.cmd .DONE 0)) := by
  rw [execTextInOpen, State.ring_next _ hres, Dev.checked_pass _ (by rw [Option.isNone_eq_false_iff.2 htok, hnew]; rfl)]

theorem execTextInClose_closes {z : Tokenizer} {st : Stream} (htok : s.view.text.tokenizer = some z)
    (hst : tblGet (e.f 16 2) s.view.text.streams = some st) :
    execTextInClose e s = .next (s.commit (({ s.view with text := { s.view.text with streams := tblDel (e.f 16 2) s.view.text.streams } } : Dev).finish
      s.ctx e.cmd .DONE st.carry.length)) := by
  rw [execTextInClose, State.ring_next _ hres]
  simp only [htok, hst]

end

/-- The context that TEXT_TOKENISE leaves: the current piece and the bytes after it; or, where a piece does not fit, what is left of the carry
from there on. -/
def Stream.kept (st : Stream) (bs : List Nat) (used : Nat) (sc : ScanSt) (rest : List Nat) : List Piece → Stream
  | [] => ⟨sc.cur.reverse ++ rest, if sc.cur.isEmpty then sc.dfa else sc.curDfa⟩
  | p :: _ => ⟨(bs.take st.carry.length).drop used, p.dfa⟩

/-- The bytes of the buffer that TEXT_TOKENISE has used: all `n`, or where a piece does not fit, those before it. -/
def Stream.bufferUsed (st : Stream) (n used : Nat) : List Piece → Nat
  | [] => n
  | _ => used - st.carry.length

section
variable {x : Ctx} {d : Dev} {c : Cmd} {z : Tokenizer} {st : Stream}

/-- Where the words that fit and the result have room: they are written, the stream keeps what is left, and the work is charged. -/
theorem Dev.tokenise_writes {bs rest ws : List Nat} {sc : ScanSt} {done left : List Piece}
    (hbs : st.carry ++ d.ldBytes x (e.f 24 6) (e.f 20 4) = bs)
    (hrun : (d.scanOf x z.addr (d.tokHead x z.addr) (bit (e.f 18 1) 0)).run (bs.length + 1) bs ⟨[], [], st.dfa, st.dfa⟩ = (sc, rest))
    (hfit : fitPieces (d.pieceWords x z.addr (d.tokHead x z.addr)) (e.f 40 4) sc.out.reverse [] [] = (ws, done, left))
    (hbufs : (([(e.f 32 6, 4 * ws.length), (e.f 48 6, 16)]).find? fun b => !(mappedRange x.fuses.part d b.1 b.2)) = none) :
    d.tokenise x e c z st =
      (let used := sumOf (done.map (·.bytes.length))
       let new := st.kept bs used sc rest left
       let res := packFields [(0, 4, ws.length), (4, 4, st.bufferUsed (e.f 20 4) used left), (8, 2, new.carry.length),
         (10, 2, (done.filter (·.first)).length), (12, 4, (done.filter (·.invalid)).length)]
       let d2 := (d.stBytes x (e.f 32 6) (ws.flatMap fun w => leBytes w 4)).st x (e.f 48 6) 16 res
       (((d2.countPieces done).putStream (e.f 16 2) new).chargeSome x (d2.sqComp c) 3).finish x c
         (if left.isEmpty then .DONE else .DONE_PARTIAL) ws.length) := by
  subst hbs
  simp only [Dev.tokenise, hrun, hfit, Dev.buffers_pass _ hbufs]
  rfl

/-- Where the words have room: those of the carry, taken to its end, and the control token's are written, and the carry is empty. -/
theorem Dev.ctrlInsert_writes {rest ws : List Nat} {sc : ScanSt}
    (hrun : (d.scanOf x z.addr (d.tokHead x z.addr) true).run (st.carry.length + 1) st.carry ⟨[], [], st.dfa, st.dfa⟩ = (sc, rest))
    (hws : (sc.out.reverse.flatMap fun p => d.pieceWords x z.addr (d.tokHead x z.addr) p) ++ [e.f 20 4 + 2 ^ 31] = ws)
    (hbuf : (([(e.f 32 6, 4 * ws.length)]).find? fun b => !(mappedRange x.fuses.part d b.1 b.2)) = none) :
    d.ctrlInsert x e c z st =
      (let d1 := ((d.stBytes x (e.f 32 6) (ws.flatMap fun w => leBytes w 4)).countPieces sc.out.reverse).bump Reg.textCtrlIns 1
       ((d1.putStream (e.f 16 2) ⟨[], sc.dfa⟩).chargeSome x (d1.sqComp c) 3).finish x c .DONE ws.length) := by
  simp only [Dev.ctrlInsert, hrun, hws, Dev.buffers_pass _ hbuf]

end

section
variable {z : Tokenizer} {st : Stream} (htok : s.view.text.tokenizer = some z) (hst : tblGet (e.f 16 2) s.view.text.streams = some st)
  (honline : s.view.textOnline = true)
include htok hst honline

theorem execTextTokenise_tokenises (hres : e.reservedSet [(16, 3), (20, 24), (48, 8)] [(145, 7), (240, 16), (304, 16), (432, 16)] = false)
    (hlen : e.f 20 4 ≤ 1048576) (hmax : 1088 ≤ e.f 40 4)
    (hbuf : (([(e.f 24 6, e.f 20 4)]).find? fun b => !(mappedRange s.ctx.fuses.part s.view b.1 b.2)) = none)
    (hmedia : s.view.mediaBad (e.f 24 6) (e.f 20 4) = false) :
    execTextTokenise e s = .next (s.commit ((s.view.eccRead (e.f 24 6) (e.f 20 4) true).tokenise s.ctx e e.cmd z st)) := by
  rw [execTextTokenise, State.ring_next _ hres]
  simp only [htok, hst]
  rw [Dev.checked_pass _ (by simp [Nat.not_lt.2 hlen, Nat.not_lt.2 hmax, honline]), Dev.buffers_pass _ hbuf, Dev.source_pass _ hmedia]

theorem execTextCtrlInsert_inserts (hres : e.reservedSet [(16, 2), (20, 4), (32, 12)] [(304, 16)] = false)
    (hvocab : e.f 20 4 < (s.view.tokHead s.ctx z.addr).vocab)
    (hcontrol : (s.view.tokEntry s.ctx z.addr (s.view.tokHead s.ctx z.addr) (e.f 20 4)).2.2 = true)
    (hroom : st.carry.length + 1 ≤ e.f 40 4) :
    execTextCtrlInsert e s = .next (s.commit (s.view.ctrlInsert s.ctx e e.cmd z st)) := by
  rw [execTextCtrlInsert, State.ring_next _ hres]
  simp only [htok, hst]
  rw [Dev.checked_pass _ (by simp [Nat.not_le.2 hvocab, hcontrol, Nat.not_lt.2 hroom, honline])]

end

/-! ### Output channels (R377, R617) -/

/-- The kind of channel that TEXT_CHAN_SET names. -/
def chanKind : Nat → ChanKind
  | 0 => .off
  | 1 => .hp
  | _ => .cvf

/-- A channel that no session is bound to is set; records in its backlog stay and WR starts at 0 (log 36). -/
theorem execTextChanSet_sets (hres : e.reservedSet [(16, 5), (24, 12)] (if e.f 17 1 == 2 then [(208, 48)] else []) = false)
    (hunbound : s.view.text.bindings.any (fun b => b.channel == e.f 16 1) = false) (hfields : chanFieldsOk e = true)
    (hbuf : ((if chanKind (e.f 17 1) == .hp then [(e.f 24 8, 2 ^ e.f 20 1)] else []).find? fun b =>
      !(mappedRange s.ctx.fuses.part s.view b.1 b.2)) = none) :
    execTextChanSet e s = .next (s.commit (((s.view.setChannel (e.f 16 1) { s.view.channel (e.f 16 1) with
      kind := chanKind (e.f 17 1), vector := e.f 18 2, ringLog2 := e.f 20 1, addr := e.f 24 8, tag := e.f 32 4, wr := 0 }).lateCancels s.ctx
        (e.f 16 1)).finish s.ctx e.cmd .DONE 0)) := by
  rw [execTextChanSet, State.ring_next _ hres]
  dsimp only
  rw [Dev.checked_pass _ (by rw [hunbound, hfields]; rfl)]
  exact congrArg (fun d => Host.Outcome.next (s.commit d)) (Dev.buffers_pass _ hbuf)

/-! ### Bindings of sessions to channels (R375, R378) -/

section
variable {ds : Desc} {i : Nat} {d1 : Dev}

/-- A session that rests and takes no part in a ring's step may be bound to a channel that is set, or be unbound. -/
theorem textOutBindChecks_pass {unbind off : Bool} (hrests : ds.state = .idle ∨ ds.state = .parked) (hfree : d1.memberBound i = false)
    (htok : d1.text.tokenizer.isSome = true) (hset : (!unbind && off) = false) :
    firstFail [((ds.state != .idle && ds.state != .parked) || d1.memberBound i || (!unbind && off) || d1.text.tokenizer.isNone,
      .REFUSED_STATE)] = none := by
  have hstate : (ds.state != .idle && ds.state != .parked) = false := by rcases hrests with h | h <;> simp [h]
  rw [firstFail_cons, hstate, hfree, hset, Option.isNone_eq_false_iff.2 htok]
  rfl

section
variable (hres : e.reservedSet [(16, 6)] [(171, 5)] = false) (hi : handleIdx (e.f 16 4) = i)
  (hd1 : (s.view.readDesc s.ctx i).1 = d1) (hd : (s.view.readDesc s.ctx i).2 = some ds) (hg : ds.gen % 1024 = handleGen (e.f 16 4))
  (hrests : ds.state = .idle ∨ ds.state = .parked) (hfree : d1.memberBound i = false) (htok : d1.text.tokenizer.isSome = true)
include hres hi hd1 hd hg hrests hfree htok

theorem execTextOutBind_unbinds (hunbind : bit (e.f 21 1) 2 = true) :
    execTextOutBind e s = .next (s.commit (({ d1 with text := { d1.text with bindings := d1.text.bindings.filter fun b => b.idx != i } } : Dev).finish
      s.ctx e.cmd .DONE 0)) := by
  rw [execTextOutBind, State.ring_session _ hres hi hd1 hd hg,
    Dev.checked_pass _ (textOutBindChecks_pass hrests hfree htok (by rw [hunbind]; rfl))]
  simp only [hunbind, if_true]

/-- The session is bound anew; text that it holds back goes out where the binding sends text (R375). -/
theorem execTextOutBind_binds (hbind : bit (e.f 21 1) 2 = false) (hchan : (d1.channel (e.f 20 1)).kind ≠ .off) :
    execTextOutBind e s =
      (let rest := d1.text.bindings.filter fun b => b.idx != i
       let d2 : Dev := { d1 with text := { d1.text with bindings :=
         rest ++ [(⟨i, e.f 20 1, bit (e.f 21 1) 0, bit (e.f 21 1) 1, 0⟩ : Binding)] } }
       .next (s.commit ((if bit (e.f 21 1) 0 && ds.pendN != 0 then (d2.flushPend s.ctx i).updDesc s.ctx i fun s => { s with pendN := 0, pendBytes := 0 }
         else d2).finish s.ctx e.cmd .DONE 0))) := by
  rw [execTextOutBind, State.ring_session _ hres hi hd1 hd hg,
    Dev.checked_pass _ (textOutBindChecks_pass hrests hfree htok (by rw [beq_eq_false_iff_ne.2 hchan, Bool.and_false]))]
  simp only [hbind, Bool.false_eq_true, if_false]

end

end

end

/-- Settles O37: each clause is the rule above for its command; the words that a stream command writes are those that the scan of its
bytes gives. -/
theorem textCommandsComplete : Obligations.TextCommandsComplete := by
  intro s
  refine ⟨?_, ?_, ?_, ?_, ?_, ?_, ?_, ?_⟩
  · exact fun e hres hunbound hclosed hbuf hmedia => execTokenizerLoad_loads hres hunbound hclosed hbuf hmedia rfl
  · exact fun e => execTextInOpen_opens
  · exact fun e z st hres => execTextInClose_closes hres
  · exact fun e z st hres htok hst hlen hmax honline hbuf hmedia hbufs =>
      (execTextTokenise_tokenises htok hst honline hres hlen hmax hbuf hmedia).trans
        (by rw [Dev.tokenise_writes rfl Prod.mk.eta.symm Prod.mk.eta.symm hbufs]; rfl)
  · exact fun e z st hres htok hst hvocab hcontrol hroom honline hbuf =>
      (execTextCtrlInsert_inserts htok hst honline hres hvocab hcontrol hroom).trans
        (congrArg (fun d => Host.Outcome.next (s.commit d)) (Dev.ctrlInsert_writes Prod.mk.eta.symm rfl hbuf))
  · exact fun e => execTextChanSet_sets
  · exact fun e ds hres hd hg => execTextOutBind_unbinds hres rfl rfl hd hg
  · exact fun e ds hres hd hg => execTextOutBind_binds hres rfl rfl hd hg

end Sys2Proof.Machine
end

section
/-! PROOFS about Recall (chapter 8): the commands of an index, of its rows, and its queries. -/

namespace Sys2Proof.Machine

/-! ### The index that a command names (R397, R414) -/

/-- A command whose index is in a state it takes, with structures that can be read, has its effect on that index. -/
theorem Dev.withIndex_pass {x : Ctx} {d : Dev} {c : Cmd} {n : Nat} {ok : IndexState → Bool} {ix : Index} (f : Dev → Index → Dev)
    (hchecks : firstFail (d.recallChecks n) = none) (hix : d.index n = some ix) (hok : ok ix.state = true)
    (hreads : (ix.structures.any fun b => d.mediaBad b.1 b.2) = false) : d.withIndex x c n ok f = f d ix := by
  rw [Dev.withIndex, Dev.checked_pass _ hchecks]
  simp only [hix, hok, hreads, Bool.not_true, Bool.false_eq_true, if_false]

/-- A ring command that takes an index in the state `st`. -/
theorem State.ring_index {s : State} {e : Entry} {used res : List (Nat × Nat)} {n : Nat} {ix : Index} {st : IndexState}
    (f : Ctx → Cmd → Dev → Index → Dev) (hres : e.reservedSet used res = false) (hchecks : firstFail (s.view.recallChecks n) = none)
    (hix : s.view.index n = some ix) (hstate : ix.state = st) (hreads : (ix.structures.any fun b => s.view.mediaBad b.1 b.2) = false) :
    s.ring e used res (fun x d c => d.withIndex x c n (· == st) (f x c)) = .next (s.commit (f s.ctx e.cmd s.view ix)) := by
  rw [State.ring_next _ hres, Dev.withIndex_pass (ok := (· == st)) _ hchecks hix (beq_iff_eq.2 hstate) hreads]

/-- A COUNT in the range that rows and VIDs have (R400, R401). -/
theorem rowCountChecks_pass {k : Nat} (h0 : k ≠ 0) (h1 : k ≤ 65536) : firstFail [(k == 0 || 65536 < k, .REFUSED_STATE)] = none := by
  simp [h0, Nat.not_lt.2 h1]

section
variable {s : State} {e : Entry} {ix : Index} {n : Nat}

/-! ### Indexes (R397, R398) -/

/-- An INDEX that is free takes a new index where memory has room for its structures. -/
theorem execRecallCreate_creates {d1 : Dev} (hres : e.reservedSet [(16, 6), (24, 12)] [(154, 6)] = false)
    (hchecks : firstFail (s.view.recallChecks (e.f 16 1)) = none) (hnew : s.view.index (e.f 16 1) = none) (hok : createOk e = true)
    (hroom : s.view.createIndex s.ctx e = some (d1, ix)) :
    execRecallCreate e s = .next (s.commit ((d1.putIndex s.ctx (e.f 16 1) ix).finish s.ctx e.cmd .DONE 0)) := by
  rw [execRecallCreate, State.ring_next _ hres, Dev.checked_pass _ (by rw [firstFail_append, hchecks, hnew, hok]; rfl)]
  simp only [hroom]

/-- The centroids of a BUILDING index make it READY; a table that the cache has no room for is not cached. -/
theorem execRecallCentroids_readies {d1 : Dev} {len : Nat} (hres : e.reservedSet [(16, 1), (24, 8)] [(240, 16)] = false) (hn : e.f 16 1 = n)
    (hchecks : firstFail (s.view.recallChecks n) = none) (hix : s.view.index n = some ix) (hbuilding : ix.state = .building)
    (hreads : (ix.structures.any fun b => s.view.mediaBad b.1 b.2) = false) (hlen : ix.lists * vecBytes ix.metric ix.dim = len)
    (hbuf : (([(e.f 24 6, len)]).find? fun b => !(mappedRange s.ctx.fuses.part s.view b.1 b.2)) = none)
    (hmedia : s.view.mediaBad (e.f 24 6) len = false) (hd1 : s.view.eccRead (e.f 24 6) len true = d1) :
    execRecallCentroids e s =
      (let lacks : Bool := ix.cache && d1.centroidRoom < d1.centroidUsed n + len
       let d2 := d1.st s.ctx ix.centAddr len (d1.ld s.ctx (e.f 24 6) len)
       .next (s.commit ((d2.putIndex s.ctx n { ix with state := .ready, cache := ix.cache && !lacks }).finish s.ctx e.cmd .DONE (ofB lacks)))) := by
  subst hn hlen hd1
  rw [execRecallCentroids, State.ring_index _ hres hchecks hix hbuilding hreads, Dev.buffers_pass _ hbuf, Dev.source_pass _ hmedia]

/-- An index becomes DROPPING, its compaction passes are abandoned, and it is released at once where no query uses it. -/
theorem execRecallDrop_drops (hres : e.reservedSet [(16, 1)] [] = false) (hn : e.f 16 1 = n)
    (hchecks : firstFail (s.view.recallChecks n) = none) (hix : s.view.index n = some ix) (hstate : ix.state ≠ .dropping) :
    execRecallDrop e s =
      (let d1 := s.view.putIndex s.ctx n { ix with state := .dropping }
       let cmds := (d1.rcl.compactions.filter fun p => p.index == n).filterMap (·.cmd)
       let d2 : Dev := { d1 with rcl := { d1.rcl with
         compactions := d1.rcl.compactions.filter (fun p => p.index != n), dropWait := d1.rcl.dropWait ++ [(n, e.cmd)] } }
       .next (s.commit ((cmds.foldl (fun (d : Dev) k => d.finish s.ctx k .CANCELLED 0) d2).settleDrop s.ctx n))) := by
  subst hn
  rw [execRecallDrop, State.ring_next _ hres]
  dsimp only
  rw [Dev.checked_pass _ hchecks]
  simp only [hix, beq_eq_false_iff_ne.2 hstate, Bool.false_eq_true, if_false]

section
variable (hres : e.reservedSet [(16, 1), (24, 8)] [(240, 16)] = false) (hchecks : firstFail (s.view.recallChecks (e.f 16 1)) = none)
  (hbuf : (([(e.f 24 6, 256)]).find? fun b => !(mappedRange s.ctx.fuses.part s.view b.1 b.2)) = none)
include hres hchecks hbuf

theorem execRecallStat_copiesHeader (hix : s.view.index (e.f 16 1) = some ix) (hmedia : s.view.mediaBad ix.headerAddr 256 = false) :
    execRecallStat e s =
      (let d1 := s.view.eccRead ix.headerAddr 256 true
       .next (s.commit ((d1.st s.ctx (e.f 24 6) 256 (d1.ld s.ctx ix.headerAddr 256)).finish s.ctx e.cmd .DONE 0))) := by
  rw [execRecallStat, State.ring_next _ hres, Dev.checked_pass _ hchecks, Dev.buffers_pass _ hbuf]
  simp only [hix, hmedia, Bool.false_eq_true, if_false]

/-- An INDEX that names no index reads as a header of zeros (log 37). -/
theorem execRecallStat_free (hfree : s.view.index (e.f 16 1) = none) :
    execRecallStat e s = .next (s.commit ((s.view.st s.ctx (e.f 24 6) 256 freeHeader).finish s.ctx e.cmd .DONE 0)) := by
  rw [execRecallStat, State.ring_next _ hres, Dev.checked_pass _ hchecks, Dev.buffers_pass _ hbuf]
  simp only [hfree]

end

/-! ### Rows (R399 to R401, R404) -/

/-- The resources that RECALL_INSERT needs are there: capacity, room in the side list, and a COMMIT_SEQ to give. -/
theorem insertChecks_pass {rows : List Nat} {charge k : Nat} (hvids : (rows.any fun v => bits v 64 32 == 0xFFFFFFFF) = false)
    (hcap : ix.rowsUsed + charge ≤ ix.capacity) (hside : ix.side.length + k ≤ ix.sideMax) (hseq : ix.commitSeq + 1 ≠ 0xFFFFFFFF) :
    firstFail [(rows.any (fun v => bits v 64 32 == 0xFFFFFFFF), .REFUSED_STATE),
      (decide (ix.capacity < ix.rowsUsed + charge) || decide (ix.sideMax < ix.side.length + k) || ix.commitSeq + 1 == 0xFFFFFFFF,
        .REFUSED_RESOURCE)] = none := by
  rw [hvids, decide_eq_false (Nat.not_lt.2 hcap), decide_eq_false (Nat.not_lt.2 hside), beq_eq_false_iff_ne.2 hseq]
  rfl

section
variable (hn : e.f 16 1 = n) (hchecks : firstFail (s.view.recallChecks n) = none) (hix : s.view.index n = some ix) (hready : ix.state = .ready)
  (hreads : (ix.structures.any fun b => s.view.mediaBad b.1 b.2) = false)
include hn hchecks hix hready hreads

section
variable {k : Nat} {d1 : Dev} (hres : e.reservedSet [(16, 1), (20, 12)] [] = false) (hk : e.f 20 4 = k) (hk0 : k ≠ 0) (hk1 : k ≤ 65536)
include hres hk hk0 hk1

/-- Rows that have no NaN and a VID each are appended to the side list and charged, one commit for all. -/
theorem execRecallInsert_commits {rows : List Nat} {charge : Nat} {d2 : Dev} {ix2 : Index}
    (hbuf : (([(e.f 24 8, k * ix.rowBytes)]).find? fun b => !(mappedRange s.ctx.fuses.part s.view b.1 b.2)) = none)
    (hmedia : s.view.mediaBad (e.f 24 8) (k * ix.rowBytes) = false) (hd1 : s.view.eccRead (e.f 24 8) (k * ix.rowBytes) true = d1)
    (hrows : ((List.range k).map fun j => d1.ld s.ctx (e.f 24 8 + j * ix.rowBytes) ix.rowBytes) = rows)
    (hcharge : (1 + ofB ix.assign2) * k = charge) (hvids : (rows.any fun v => bits v 64 32 == 0xFFFFFFFF) = false)
    (hcap : ix.rowsUsed + charge ≤ ix.capacity) (hside : ix.side.length + k ≤ ix.sideMax) (hseq : ix.commitSeq + 1 ≠ 0xFFFFFFFF)
    (hnan : (rows.any fun v => isNan (rowScale ix.efmt ix.dim (v / 2 ^ 128)) || (rowElems ix.efmt ix.dim (v / 2 ^ 128)).any isNan) = false)
    (happend : Dev.appendSide s.ctx n rows d1 ix = some (d2, ix2)) :
    execRecallInsert e s = .next (s.commit
      (((d2.commitIndex s.ctx n { ix2 with rowsUsed := ix2.rowsUsed + charge }).bump Reg.recallInserted k).finish s.ctx e.cmd .DONE 0)) := by
  subst hn hk hd1 hrows hcharge
  rw [execRecallInsert, State.ring_index _ hres hchecks hix hready hreads, Dev.checked_pass _ (rowCountChecks_pass hk0 hk1),
    Dev.buffers_pass _ hbuf, Dev.source_pass _ hmedia]
  dsimp only
  rw [Dev.checked_pass _ (insertChecks_pass hvids hcap hside hseq)]
  simp only [hnan, happend, Bool.false_eq_true, if_false]

/-- The rows of the VIDs named, as the commit before sees them, are pending deletes from the next commit on. -/
theorem execRecallDelete_commits {vids : List Nat} {hit : List Row}
    (hbuf : (([(e.f 24 8, 4 * k)]).find? fun b => !(mappedRange s.ctx.fuses.part s.view b.1 b.2)) = none)
    (hmedia : s.view.mediaBad (e.f 24 8) (4 * k) = false) (hd1 : s.view.eccRead (e.f 24 8) (4 * k) true = d1)
    (hvids : ((List.range k).map fun j => d1.ld s.ctx (e.f 24 8 + 4 * j) 4) = vids)
    (hhit : ((ix.rows.filter fun r => (ix.mainIds ++ ix.side).contains r.id).filter fun r =>
      vids.contains r.vid && decide (r.insSeq < ix.commitSeq + 1)) = hit)
    (hroom : ix.pendingNow.length + hit.length ≤ 1048576) (hseq : ix.commitSeq + 1 ≠ 0xFFFFFFFF) :
    execRecallDelete e s = .next (s.commit
      (((d1.commitIndex s.ctx n { ix with pending := ix.pending ++ hit.map fun r => (⟨r.id, ix.commitSeq + 1⟩ : PendDel) }).bump
        Reg.recallDeleted hit.length).finish s.ctx e.cmd .DONE (vids.filter fun v => !(hit.any fun r => r.vid == v)).length)) := by
  subst hn hk hd1 hvids hhit
  rw [execRecallDelete, State.ring_index _ hres hchecks hix hready hreads, Dev.checked_pass _ (rowCountChecks_pass hk0 hk1),
    Dev.buffers_pass _ hbuf, Dev.source_pass _ hmedia]
  dsimp only
  rw [Dev.checked_pass _ (by rw [decide_eq_false (Nat.not_lt.2 hroom), beq_eq_false_iff_ne.2 hseq]; rfl)]

end

/-- RECALL_COMPACT waits for its pass. -/
theorem execRecallCompact_waits (hres : e.reservedSet [(16, 1)] [] = false) (hworks : s.view.rclWorks = true) :
    execRecallCompact e s = .next (s.commit { s.view with rcl := { s.view.rcl with
      compactions := s.view.rcl.compactions ++ [(⟨n, false, [], [], some e.cmd⟩ : Compaction)] } }) := by
  subst hn
  rw [execRecallCompact, State.ring_index _ hres hchecks hix hready hreads, Dev.checked_pass _ (by rw [hworks]; rfl)]

end

end

/-! ### Queries (R405, R406) -/

/-- The buffers of the host that a query writes: from the host's ring, a result block of a header and, unless it is refused, K records for
each query (R412). -/
def ReqPath.outputs (ix : Index) (qs : List Query) : ReqPath → List (Nat × Nat)
  | .hp _ => qs.map fun q => (q.resAddr, 64 + 16 * (if q.refused ix then 0 else q.k))
  | _ => []

/-- A query of a READY index, with its buffers in memory and readable, begins on one of the engines that take work. -/
theorem Dev.startQuery_begins {x : Ctx} {d : Dev} {path : ReqPath} {n count qe : Nat} {img : Nat → Nat → Nat} {buf : Index → List (Nat × Nat)}
    {ix : Index} {qs : List Query} (hup : d.domainUp .rcl = true) (hix : d.index n = some ix) (hready : ix.state = .ready) (hcount0 : count ≠ 0)
    (hcount1 : count ≤ 64) (hreads : (ix.structures.any fun b => d.mediaBad b.1 b.2) = false)
    (hqe : d.qesUp[Config.placeHint d.free % max 1 d.qesUp.length]? = some qe)
    (hqs : ((List.range count).map fun k => readQuery img ix k) = qs)
    (hbufs : ((buf ix ++ path.outputs ix qs).find? fun b => !(mappedRange x.fuses.part d b.1 b.2)) = none)
    (hmedia : ((buf ix).any fun b => d.mediaBad b.1 b.2) = false) :
    d.startQuery x path n count img buf = d.runQuery x path n ix qe qs := by
  subst hqs
  have hstate : (ix.state != .ready || count == 0 || decide (64 < count)) = false := by
    simp [hready, hcount0, Nat.not_lt.2 hcount1]
  cases path <;>
    · simp only [ReqPath.outputs] at hbufs
      simp only [Dev.startQuery, hup, hix, hstate, hreads, hqe, hbufs, hmedia, Bool.false_eq_true, if_false, if_true]

/-- A query from the host's ring lies in the host's memory. -/
theorem execRecallQuery_ring {s : State} {e : Entry} (hres : e.reservedSet [(16, 1), (18, 2), (24, 8)] [(240, 16)] = false) :
    execRecallQuery (.hp e) s = .next (s.commit (s.view.startQuery s.ctx (.hp e.cmd) (e.f 16 1) (e.f 18 2)
      (fun o n => s.view.ld s.ctx (e.f 24 6 + o) n) fun ix => [(e.f 24 6, e.f 18 2 * queryBlock ix)])) := by
  rw [execRecallQuery, State.ring_next _ hres]

/-- A neighbour's query lies in its message, after the INDEX and the QCOUNT (log 37). -/
theorem execRecallQuery_neighbour {s : State} (port from_ len val : Nat) (hrecall : s.ctx.fuses.part.hasRecall = true) :
    execRecallQuery (.cvf port from_ len val) s = .next (s.commit (s.view.startQuery s.ctx (.cvf port from_) (bits val 0 8) (bits val 8 16)
      (fun o n => bits val (8 * (o + 4)) (8 * n)) fun _ => [])) := by
  rw [execRecallQuery, State.run_next]
  simp only [hrecall, Bool.not_true, Bool.false_eq_true, if_false]

/-- Settles O38: each clause is the rule above for its command; a neighbour's query names no buffer of the host. -/
theorem recallCommandsComplete : Obligations.RecallCommandsComplete := by
  intro s
  refine ⟨?_, ?_, ?_, ?_, ?_, ?_, ?_, ?_, ?_, ?_⟩
  · exact fun e d1 ix => execRecallCreate_creates
  · exact fun e ix hres hchecks hix hbuilding hreads hbuf hmedia =>
      execRecallCentroids_readies hres rfl hchecks hix hbuilding hreads rfl hbuf hmedia rfl
  · exact fun e ix hres => execRecallDrop_drops hres rfl
  · exact fun e ix hres hchecks hix hbuf => execRecallStat_copiesHeader hres hchecks hbuf hix
  · exact fun e hres hchecks hfree hbuf => execRecallStat_free hres hchecks hbuf hfree
  · exact fun e ix ix2 d2 hres hchecks hix hready hreads hk0 hk1 hbuf hmedia =>
      execRecallInsert_commits rfl hchecks hix hready hreads hres rfl hk0 hk1 hbuf hmedia rfl rfl rfl
  · exact fun e ix hres hchecks hix hready hreads hk0 hk1 hbuf hmedia =>
      execRecallDelete_commits rfl hchecks hix hready hreads hres rfl hk0 hk1 hbuf hmedia rfl rfl rfl
  · exact fun e ix hres hchecks hix hready hreads => execRecallCompact_waits rfl hchecks hix hready hreads hres
  · exact fun e ix qe hres hup hix hready hcount0 hcount1 hreads hqe hbufs hmedia =>
      (execRecallQuery_ring hres).trans (congrArg (fun d => Host.Outcome.next (s.commit d))
        (Dev.startQuery_begins hup hix hready hcount0 hcount1 hreads hqe rfl hbufs hmedia))
  · exact fun port from_ len val ix qe hrecall hup hix hready hcount0 hcount1 hreads hqe =>
      (execRecallQuery_neighbour port from_ len val hrecall).trans (congrArg (fun d => Host.Outcome.next (s.commit d))
        (Dev.startQuery_begins hup hix hready hcount0 hcount1 hreads hqe rfl rfl rfl))

end Sys2Proof.Machine
end

section
/-! PROOFS about checkpoint and restore (chapter 9) and about shaping (R502): their commands, and the events of capture runs. -/

namespace Sys2Proof.Machine

/-! ### Capture runs (R419 to R422, R431, R436, R437) -/

section
variable {s : State}

/-- CKPT_RUN starts a run where none is in progress, a store is configured and the epoch asked for is new. -/
theorem execCkptRun_starts {e : Entry} (hres : e.reservedSet [(16, 1), (24, 8)] [(129, 7)] = false) (hrun : s.view.ckpt.run = none)
    (hstore : s.view.ckpt.store.isSome = true) (hnew : e.f 24 8 = 0 ∨ s.view.ckpt.lastUsed < e.f 24 8) :
    execCkptRun e s = .next (s.commit ((s.view.startRun s.ctx (if e.f 24 8 == 0 then u64 (s.view.ckpt.lastUsed + 1) else e.f 24 8) 1
      (s.view.runFull (bit (e.f 16 1) 0)) (some e.cmd) none).settleRun s.ctx)) := by
  have hepoch : (e.f 24 8 != 0 && decide (e.f 24 8 ≤ s.view.ckpt.lastUsed)) = false := by
    rcases hnew with h | h
    · rw [h]; rfl
    · rw [decide_eq_false (Nat.not_le.2 h), Bool.and_false]
  rw [execCkptRun, State.ring_next _ hres, Dev.checked_pass]
  simp only [hrun, Option.isNone_eq_false_iff.2 hstore, hepoch, Option.isSome_none, Bool.or_self, firstFail_cons, firstFail_nil,
    Bool.false_eq_true, if_false]

/-- A period of the schedule is counted as passed. -/
def Dev.periodPassed (d : Dev) : Dev := { d with ckpt := { d.ckpt with schedAt := d.now } }

section
variable (hperiod : s.view.fld Reg.ckptCtl 16 16 * 1000000000 ≠ 0)
  (hdue : s.view.ckpt.schedAt / (s.view.fld Reg.ckptCtl 16 16 * 1000000000) < s.view.now / (s.view.fld Reg.ckptCtl 16 16 * 1000000000))
include hperiod hdue

/-- When a period has passed, a run starts, or the period is counted as skipped because a run is in progress. -/
theorem execCkptSchedule_due : execCkptSchedule s = .next (s.commit (if s.view.ckpt.run.isSome then
    s.view.periodPassed.bump Reg.ckptSchedSkip 1 else (s.view.periodPassed.autoRun s.ctx 2).settleRun s.ctx)) :=
  State.run_ite_not _ _ (by simp only [beq_false_of_ne hperiod, decide_eq_false (Nat.not_le.2 hdue), Bool.or_self, Bool.false_eq_true,
    not_false_eq_true])

theorem execCkptSchedule_starts (hrun : s.view.ckpt.run = none) :
    execCkptSchedule s = .next (s.commit ((s.view.periodPassed.autoRun s.ctx 2).settleRun s.ctx)) := by
  rw [execCkptSchedule_due hperiod hdue, if_neg (by rw [hrun]; exact Bool.false_ne_true)]

theorem execCkptSchedule_skips (hrun : s.view.ckpt.run.isSome = true) :
    execCkptSchedule s = .next (s.commit (s.view.periodPassed.bump Reg.ckptSchedSkip 1)) := by
  rw [execCkptSchedule_due hperiod hdue, if_pos hrun]

end

/-- A failure warning is raised for the present window: it is counted and sent as an event (R422). -/
def Dev.raiseWarning (x : Ctx) (d : Dev) : Dev :=
  let d1 : Dev := { d with ckpt := { d.ckpt with warnedWin := some d.err.warnWin } }
  (d1.bump Reg.ckptWarnCnt 1).event x 2 d1.err.warnCount (d1.fld Reg.ckptWarnCtl 16 16) (d.err.warnWin * d1.warnWindow)

/-- A warning outside the hold time of another starts a run where none is in progress. -/
theorem execFailureWarning_starts (hthresh : s.view.fld Reg.ckptWarnCtl 0 16 ≠ 0)
    (hcount : s.view.fld Reg.ckptWarnCtl 0 16 ≤ s.view.err.warnCount) (hnew : s.view.ckpt.warnedWin ≠ some s.view.err.warnWin)
    (hhold : (s.view.raiseWarning s.ctx).ckpt.warnStart = none) (hrun : (s.view.raiseWarning s.ctx).ckpt.run = none) :
    execFailureWarning s = .next (s.commit ((s.view.raiseWarning s.ctx).warnRun s.ctx)) := by
  unfold Dev.raiseWarning at hhold hrun
  rw [execFailureWarning, State.run_next]
  simp only [beq_false_of_ne hthresh, decide_eq_false (Nat.not_lt.2 hcount), beq_false_of_ne hnew, hhold, hrun, Option.isSome_none,
    Bool.or_self, Bool.false_eq_true, if_false]
  rfl

theorem execCkptRunTimeout_late {r : CkRun} (hrun : s.view.ckpt.run = some r)
    (hlate : r.since + s.view.fld Reg.ckptRunTo 0 16 * 1000000000 ≤ s.view.now) :
    execCkptRunTimeout s = .next (s.commit ((s.view.abandonRun s.ctx .FAULT_TIMEOUT).settleRun s.ctx)) := by
  rw [execCkptRunTimeout, State.run_next]
  simp only [hrun, Nat.not_lt.2 hlate, if_false]

end

/-- Settles O52: each clause is the rule above for its event; the acknowledgements have no case to choose. -/
theorem checkpointEventsComplete : Obligations.CheckpointEventsComplete := by
  intro s
  refine ⟨?_, ?_, ?_, ?_, ?_, ?_⟩
  · exact execCkptSchedule_starts
  · exact execCkptSchedule_skips
  · exact execFailureWarning_starts
  · exact fun part ok => s.run_next _
  · exact fun target ok => s.run_next _
  · exact fun r => execCkptRunTimeout_late

/-! ### The store, its scan and a restore (R436, R439, R441, R444) -/

/-- Whether the store has the targets of another. -/
def Dev.sameTargets (d : Dev) (st : CkStore) : Bool := match d.ckpt.store with | some o => o.targets == st.targets | none => false

/-- The device with a store that is set: the epochs of other targets are forgotten (log 38). -/
def Dev.withStore (d : Dev) (st : CkStore) : Dev :=
  { d with ckpt := { d.ckpt with store := some st, epochs := if d.sameTargets st then d.ckpt.epochs else [] } }

/-- The entry of an epoch in a scan, with the epoch as its key (R439). -/
def StoreView.scanEntry (u : StoreView) (n verdict : Nat) : Nat × Nat :=
  (n, packFields [(0, 8, n), (8, 8, u.base n), (16, 1, ofB (u.full n)), (17, 1, verdict), (20, 4, u.count n)])

/-- The S7 epochs that a scan shows: none where T4 cannot be read. -/
def Dev.s7Shown (d : Dev) (t4 : T4Store) : StoreView := if d.t4Open then s7View t4 else { s7View t4 with epochs := [] }

/-- The entries of a scan in the order of their epochs: the native ones with their verdicts, those of S7 with verdict 4. -/
def Dev.scanEntries (d : Dev) (st : CkStore) (t4 : T4Store) : List (Nat × Nat) :=
  let v := d.nativeView st t4
  let w := d.s7Shown t4
  sortBy (fun (a b : Nat × Nat) => decide (a.1 < b.1))
    ((v.epochs.map fun n => v.scanEntry n (v.verdict n)) ++ w.epochs.map fun n => w.scanEntry n 4)

/-- The newest epoch with verdict 0 within a limit, where 0 is no limit: the epoch R that a restore takes (R440). -/
def StoreView.newestUsable (v : StoreView) (limit : Nat) : Option Nat :=
  (v.epochs.filter fun n => v.verdict n == 0 && (limit == 0 || n ≤ limit)).getLast?

section
variable {s : State} {e : Entry} {st : CkStore} {d1 : Dev}
  (hmedia : s.view.mediaBad (e.f 24 8) 256 = false) (hd1 : s.view.eccRead (e.f 24 8) 256 true = d1)
  (hstore : d1.storeRecord s.ctx (e.f 24 8) = some st)
include hmedia hd1 hstore

section
variable (hbuf : (([(e.f 24 8, 256)]).find? fun b => !(mappedRange s.ctx.fuses.part s.view b.1 b.2)) = none)
include hbuf

theorem execCkptStore_sets (hres : e.reservedSet [(24, 8)] [] = false) (hrun : s.view.ckpt.run = none)
    (hkey : (d1.sec.storeKey.isNone && st.targets.any fun t => t.tier == 4) = false)
    (hheld : (st.targets.all fun t => d1.storeHeld t) = true) :
    execCkptStore e s = .next (s.commit ((d1.withStore st).finish s.ctx e.cmd .DONE 0)) := by
  subst hd1
  rw [execCkptStore, State.ring_next _ hres, Dev.checked_pass _ (by rw [hrun]; rfl), Dev.buffers_pass _ hbuf, Dev.source_pass _ hmedia]
  simp only [hstore]
  rw [Dev.checked_pass _ (by rw [hkey, hheld]; rfl)]
  rfl

theorem execCkptScan_writes {t4 : T4Store} (hres : e.reservedSet [(24, 16)] [] = false) (hopen : d1.storeShut st false = false)
    (hout : (([(e.f 32 8, 32 * (d1.scanEntries st t4).length)]).find? fun b => !(mappedRange s.ctx.fuses.part d1 b.1 b.2)) = none) :
    execCkptScan e t4 s = .next (s.commit ((d1.stRecords s.ctx (e.f 32 8) 32 ((d1.scanEntries st t4).map (·.2))).finish
      s.ctx e.cmd .DONE (d1.scanEntries st t4).length)) := by
  subst hd1
  rw [execCkptScan, State.ring_next _ hres, Dev.buffers_pass _ hbuf, Dev.source_pass _ hmedia]
  simp only [hstore]
  rw [Dev.checked_pass _ (by rw [hopen]; rfl)]
  exact congrArg (fun d => Host.Outcome.next (s.commit d)) (Dev.buffers_pass _ hout)

end

section
variable {t4 : T4Store} {n : Nat} (hres : e.reservedSet [(16, 1), (24, 32)] [(129, 7)] = false) (hrun : s.view.ckpt.run = none)
  (hbufs : (([(e.f 24 8, 256), (e.f 48 8, 1)]).find? fun b => !(mappedRange s.ctx.fuses.part s.view b.1 b.2)) = none)
include hres hrun hbufs

/-- A native restore reads the shards of the chain of R, those of rings up to RING_EPOCH (R447). -/
theorem execCkptRestore_native (hnative : bit (e.f 16 1) 0 = false) (hopen : d1.storeShut st false = false)
    (hr : (d1.nativeView st t4).newestUsable (e.f 32 8) = some n) :
    execCkptRestore e t4 s =
      (let v := d1.nativeView st t4
       let chain := ((d1.nativeShards st t4).map (·.2)).filter fun q =>
         (v.base n ≤ q.epoch && q.epoch ≤ n) && (e.f 40 8 == 0 || q.rsn == 0 || q.headEpoch ≤ e.f 40 8)
       .next (s.commit ((d1.ignoreEpochs v n).restoreNative s.ctx e.cmd (e.f 48 8) chain))) := by
  subst hd1
  unfold StoreView.newestUsable at hr
  rw [execCkptRestore, State.ring_next _ hres, Dev.checked_pass _ (by rw [hrun]; rfl), Dev.buffers_pass _ hbufs, Dev.source_pass _ hmedia]
  simp only [hstore, hnative]
  rw [Dev.checked_pass _ (by rw [hopen]; rfl)]
  simp only [hr, Bool.false_eq_true, if_false]

/-- A restore from S7 needs the shape of what S7 holds to be the device's own, and a part that can read S7 (R444). -/
theorem execCkptRestore_s7 (hs7 : bit (e.f 16 1) 0 = true) (hopen : d1.storeShut st true = false)
    (hr : (s7View t4).newestUsable (e.f 32 8) = some n) (hshape : t4.s7Shape = (d1.shape.hkv, d1.shape.d, d1.shape.vocab))
    (hcap : bit (capReg s.ctx.fuses 3) 25 = true) :
    execCkptRestore e t4 s =
      (let inChain := fun (m : Nat) => (s7View t4).base n ≤ m && m ≤ n
       .next (s.commit ((d1.ignoreEpochs (s7View t4) n).restoreFromS7 s.ctx e.cmd (e.f 48 8) (t4.s7Sessions.filter fun q => inChain q.epoch)
         (t4.s7Shards.filter fun q => inChain q.epoch)))) := by
  subst hd1
  unfold StoreView.newestUsable at hr
  rw [execCkptRestore, State.ring_next _ hres, Dev.checked_pass _ (by rw [hrun]; rfl), Dev.buffers_pass _ hbufs, Dev.source_pass _ hmedia]
  simp only [hstore, hs7]
  rw [Dev.checked_pass _ (by rw [hopen]; rfl)]
  simp only [hr, hshape, hcap, bne_self_eq_false, Bool.not_true, Bool.or_self, Bool.false_eq_true, if_false, if_true]

end

end

/-! ### Shaping, policing and routes (R501 to R503) -/

/-- The settings of a SHAPE_SET or POLICE_SET wait for the port's next refill, behind those that wait already. -/
def Dev.awaitRefill (x : Ctx) (d : Dev) (port : Nat) (p : PendingShape) : Dev :=
  (d.refillDue x port).setShaper port fun S => { S with pendingSets := S.pendingSets ++ [p] }

/-- The route table entry that a ROUTE_SET writes, by a position or by a node. -/
def Dev.setRoute (d : Dev) (pos : Bool) (i v : Nat) : Dev :=
  (if pos then d.setReg (Reg.fabRoutePos i) v else d.setReg (Reg.fabRouteNode i) v).settleReach

section
variable {s : State} {e : Entry}

theorem execShapeSet_waits (hres : e.reservedSet [(16, 3), (20, 17)] [(148, 4)] = false) (hok : s.view.shapeOk e = true)
    (hon : s.view.shaperOn (e.f 16 1) = true) :
    execShapeSet e s = .next (s.commit (s.view.awaitRefill s.ctx (e.f 16 1) ⟨e.cmd, false, e.bytes⟩)) := by
  rw [execShapeSet, State.ring_next _ hres, Dev.checked_pass _ (by rw [hok, hon]; rfl)]
  rfl

theorem execPoliceSet_waits (hres : e.reservedSet [(16, 6), (24, 8)] [(145, 7)] = false) (hport : e.f 16 1 ≤ 7) (hentry : e.f 17 1 ≤ 15)
    (hclass : e.f 19 1 ≤ 5) (hrate : e.f 24 4 < 2 ^ 24) (hburst : e.f 28 4 < 2 ^ 24)
    (hbound : s.view.burstOk (e.f 16 1) (e.f 24 4) (e.f 28 4) = true) (hon : s.view.shaperOn (e.f 16 1) = true) :
    execPoliceSet e s = .next (s.commit (s.view.awaitRefill s.ctx (e.f 16 1) ⟨e.cmd, true, e.bytes⟩)) := by
  rw [execPoliceSet, State.ring_next _ hres, Dev.checked_pass]
  · rfl
  · rw [decide_eq_false (Nat.not_lt.2 hport), decide_eq_false (Nat.not_lt.2 hentry), decide_eq_false (Nat.not_lt.2 hclass),
      decide_eq_false (Nat.not_le.2 hrate), decide_eq_false (Nat.not_le.2 hburst), hbound, hon]
    rfl

theorem execRouteSet_sets (hres : e.reservedSet [(16, 1), (18, 3)] [(130, 6)] = false) (hport : e.f 20 1 ≤ 7)
    (hindex : e.f 18 2 ≤ (if bit (e.f 16 1) 0 then 31 else 2047)) (hup : s.view.domainUp (.cvfGroup 0) = true) :
    execRouteSet e s = .next (s.commit ((s.view.setRoute (bit (e.f 16 1) 0) (e.f 18 2)
      (ofB (bit (e.f 16 1) 1) * 2 ^ 31 + e.f 20 1)).finish s.ctx e.cmd .DONE 0)) := by
  rw [execRouteSet, State.ring_next _ hres]
  dsimp only
  rw [Dev.checked_pass]
  · rfl
  · rw [decide_eq_false (Nat.not_lt.2 hport), decide_eq_false (Nat.not_lt.2 hindex), hup]
    rfl

end

/-- Settles O39: each clause is the rule above for its command. -/
theorem checkpointCommandsComplete : Obligations.CheckpointCommandsComplete := by
  intro s
  refine ⟨?_, ?_, ?_, ?_, ?_, ?_, ?_, ?_⟩
  · exact fun e => execCkptRun_starts
  · exact fun e st hres hrun hbuf hmedia hstore => execCkptStore_sets hmedia rfl hstore hbuf hres hrun
  · exact fun e t4 st hres hbuf hmedia hstore => execCkptScan_writes hmedia rfl hstore hbuf hres
  · exact fun e t4 st n hres hrun hbufs hmedia hstore => execCkptRestore_native hmedia rfl hstore hres hrun hbufs
  · exact fun e t4 st n hres hrun hbufs hmedia hstore => execCkptRestore_s7 hmedia rfl hstore hres hrun hbufs
  · exact fun e => execShapeSet_waits
  · exact fun e => execPoliceSet_waits
  · exact fun e => execRouteSet_sets

end Sys2Proof.Machine
end

section
/-! PROOFS about the Clalvaum fabric (chapter 10): how links come up, change and go down, and flits, frames, window accesses and shaping. -/

namespace Sys2Proof.Machine

/-- A command is a run, so what its function makes of the view is what it leaves. -/
theorem State.run_eq {s : State} {f : Ctx → Dev → Dev} {d : Dev} (h : f s.ctx s.view = d) : s.run f = .next (s.commit d) := by
  rw [State.run_next, h]

/-! ### Bring-up (R453 to R455) -/

/-- The port forgets its last bring-up, waits for the peer's INIT and sends its own with the nonce (R453); sequence numbers restart at 0
(log 39). -/
def Dev.sendInit (d : Dev) (port nonce : Nat) : Dev :=
  let d1 := d.setPort port fun P => { P with fecLock := true, keys := some (nonce, 0), txSeq := 0, rxExpect := 0, retry := [] }
  (d1.setPortState port 2).ctrlFlit port "INIT" ([d1.fabricAddr, 1, d1.ownLanes port] ++ rxBuffers ++
    [d1.fld (Reg.cvfCtl port) 28 2, d1.fld (Reg.cvfCtl port) 20 4, nonce])

/-- The port takes what an INIT says of the peer, with new keys on an encrypted link, and settles its width (R453, R454, R630). -/
def Dev.takeInit (x : Ctx) (d : Dev) (port : Nat) (init : InitFlit) : Dev :=
  let own := match (d.port port).keys with | some k => k.1 | none => 0
  let keys := if init.enc == 1 then some (d.portKeys x own init) else none
  let d1 := d.setPort port fun P =>
    { P with initDone := true, peerEnc := init.enc, peerMask := init.mask % 256, credits := init.credits.take 6, keys := keys,
             bringUps := P.bringUps + 1, txCount := 0, rxCount := 0, rxExpect := 1 }
  (d1.setReg (Reg.cvfPeer port) (init.kind % 256 * 2 ^ 24 + init.addr % 65536)).setWidth x port

section
variable {s : State} {port : Nat}

section
variable (hon : s.view.portOn port = true)
include hon

theorem execPortTrained_sendsInit {lanes : Nat} (nonce : Nat) (hstate : s.view.portState port = 1)
    (hlock : lanes &&& s.view.ownLanes port = s.view.ownLanes port) :
    execPortTrained port lanes nonce s = .next (s.commit (s.view.sendInit port nonce)) :=
  State.run_ite_not _ _ (by simp [hon, hstate, hlock])

/-- An INIT that the port accepts begins the first time exchange, where a width is left to run at. -/
theorem execInit_accepts {init : InitFlit} (hstate : s.view.portState port = 2) (hnew : (s.view.port port).initDone = false)
    (hok : s.view.initRefused port init = false) (hwidth : (s.view.takeInit s.ctx port init).portWidth port ≠ 0) :
    execInit port init s = .next (s.commit ((s.view.takeInit s.ctx port init).timeStart port)) := by
  have hwaits : ¬ (!s.view.portOn port || s.view.portState port != 2 || (s.view.port port).initDone) = true := by
    simp [hon, hstate, hnew]
  have hruns : ¬ ((s.view.takeInit s.ctx port init).portWidth port == 0) = true := by simpa using hwidth
  exact State.run_eq ((if_neg hwaits).trans ((if_neg (ne_true_of_eq_false hok)).trans (if_neg hruns)))

theorem execPortRetry_trains (hstate : s.view.portState port = 0) (hdue : (s.view.port port).retryAt.getD 0 ≤ s.view.now)
    (hop : s.view.operational = true) : execPortRetry port s = .next (s.commit (s.view.setPortState port 1)) :=
  State.run_ite _ _ (by simp only [hon, hstate, hdue, hop, beq_self_eq_true, decide_true, Bool.or_true, Bool.true_or, Bool.and_self])

/-! ### Time across a link (R482) -/

theorem execTimeFlit_asked (hinit : (s.view.port port).initDone = true) :
    execTimeFlit port none s = .next (s.commit (s.view.send (.cvfFlit port "TIME_ANSWER" [s.view.now, s.view.now]))) :=
  State.run_ite_not _ _ (by simp [hon, hinit])

end

/-- The offset of the peer and the delay of the link, from the sending time `t1` of an exchange and the times of its answer (R482). -/
def Dev.takeTimes (d : Dev) (port t1 t2 t3 : Nat) : Dev :=
  let peer : Int := (((t2 : Int) - t1) + ((t3 : Int) - d.now)) / 2
  let dly : Int := (((d.now : Int) - t1) - ((t3 : Int) - t2)) / 2
  let d1 := d.setPort port fun P =>
    { P with ofs := -peer, prevOfs := P.ofs, prevAt := P.exchangeAt, exchangeAt := d.now, linkDly := dly.toNat, timeT1 := none }
  d1.setFld (Reg.cvfTsync port) 0 16 (min dly.toNat 0xFFFF)

/-- A port in bring-up is up once its first time exchange is over. -/
def Dev.endBringUp (d : Dev) (port : Nat) : Dev :=
  if d.portState port == 2 then ((d.setPortState port 3).setFld (Reg.cvfCtl port) 30 1 0).settleReach else d

theorem execTimeFlit_answered {t1 : Nat} (t2 t3 : Nat) (hon : s.view.portOn port = true) (hinit : (s.view.port port).initDone = true)
    (hasked : (s.view.port port).timeT1 = some t1) :
    execTimeFlit port (some (t2, t3)) s = .next (s.commit ((s.view.takeTimes port t1 t2 t3).endBringUp port)) := by
  have hlinked : ¬ (!s.view.portOn port || !(s.view.port port).initDone) = true := by simp [hon, hinit]
  refine State.run_eq ((if_neg hlinked).trans ?_)
  simp only [hasked]
  rfl

theorem execTimeExchange_due (hup : s.view.portUp port = true) (hdue : (s.view.port port).timeAt + 1000000 ≤ s.view.now) :
    execTimeExchange port s = .next (s.commit (s.view.timeStart port)) :=
  State.run_ite _ _ (by simp only [hup, hdue, decide_true, Bool.and_self])

/-! ### Width changes (R463, R464) -/

/-- A sequenced flit with the peer's good lanes is taken (R457, R463). -/
def Dev.takeMask (d : Dev) (port mask : Nat) : Dev := (d.ctrlSeen port).setPort port fun P => { P with peerMask := mask % 256 }

/-- A lane is retired, counted and reported (R464). -/
def Dev.retireLane (d : Dev) (port lane : Nat) : Dev :=
  ((d.setPort port fun P => { P with retired := P.retired + 2 ^ lane }).bump (Reg.cvfLaneDrop port) 1).report (portSource port) 0x40 2 lane

/-- The port asks its peer for the width that its lanes allow (R463). -/
def Dev.askWidth (d : Dev) (port : Nat) : Dev :=
  let d1 := (d.setPortState port 4).ctrlFlit port "DEGRADE" [d.ownLanes port]
  d1.setPort port fun P => { P with change := some ⟨d1.now, d1.ownLanes port⟩ }

section
variable (hup : s.view.portUp port = true)
include hup

theorem execDegrade_up (mask : Nat) :
    execDegrade port mask s =
      (let d1 := s.view.takeMask port mask
       .next (s.commit ((d1.ctrlFlit port "DEGRADE_ACK" [d1.ownLanes port, (d1.port port).txSeq]).newWidth s.ctx port))) :=
  State.run_ite_not _ _ (by simp [hup])

theorem execDegradeAck_changing (mask seq : Nat) (hchange : (s.view.port port).change.isSome = true) :
    execDegradeAck port mask seq s = .next (s.commit ((s.view.takeMask port mask).newWidth s.ctx port)) :=
  State.run_ite_not _ _ (by simp [hup, Option.isNone_eq_false_iff.2 hchange])

theorem execWidthChangeTimeout_late {w : WidthChange} (hchange : (s.view.port port).change = some w) (hlate : w.since + 50000 ≤ s.view.now) :
    execWidthChangeTimeout port s = .next (s.commit (s.view.portDown s.ctx port 6)) :=
  State.run_ite _ _ (by simp only [hup, hchange, hlate, decide_true, Bool.and_self])

/-- A lane that lost lock or has too many uncorrectable codewords is retired, and the port asks for the width of the others. -/
theorem execLaneRetire_narrows {lane : Nat} {lockLost : Bool} (hlane : lane < 8) (hused : bit (s.view.ownLanes port) lane = true)
    (hbad : lockLost = true ∨ s.view.fld (Reg.cvfRetryCtl port) 16 8 ≤ s.view.laneUnc port lane)
    (hleft : (s.view.retireLane port lane).ownLanes port ≠ 0) :
    execLaneRetire port ⟨lane, lockLost⟩ s = .next (s.commit ((s.view.retireLane port lane).askWidth port)) := by
  have hretires : ¬ (!s.view.portUp port || decide (8 ≤ lane) || !bit (s.view.ownLanes port) lane ||
      !(lockLost || decide (s.view.fld (Reg.cvfRetryCtl port) 16 8 ≤ s.view.laneUnc port lane))) = true := by
    rcases hbad with h | h <;> simp [hup, hlane, hused, h]
  have hruns : ¬ ((s.view.retireLane port lane).ownLanes port == 0) = true := by simpa using hleft
  exact State.run_eq ((if_neg hretires).trans (if_neg hruns))

/-! ### Ways down and RETRAIN (R455, R464, R506) -/

theorem execLaneLockLost_up : execLaneLockLost port s = .next (s.commit (s.view.portDown s.ctx port 8)) := State.run_ite _ _ hup

end

section
variable (hport : port < 8)
include hport

theorem execPortTrainingFailed_training (hstate : s.view.portState port = 1 ∨ s.view.portState port = 2) :
    execPortTrainingFailed port s = .next (s.commit (s.view.portDown s.ctx port 2)) :=
  State.run_ite _ _ (by simp [hport, hstate])

theorem execDown_running (hstate : s.view.portState port ≠ 0) : execDown port s = .next (s.commit (s.view.portDown s.ctx port 7)) :=
  State.run_ite _ _ (by simp [hport, hstate])

/-- A write that sets RETRAIN of a port that may run takes it down and back to TRAINING, with every lane in use again. -/
theorem execCvfRetrain_trains (hcpl : s.view.bar0Cpl s.ctx (Reg.cvfCtl port) = .success)
    (hon : (s.view.setFld (Reg.cvfCtl port) 30 1 1).portOn port = true) :
    execCvfRetrain port s = .next (s.commit ((((s.view.setFld (Reg.cvfCtl port) 30 1 1).portDown s.ctx port 9).setPort port fun P =>
      { P with retired := 0 }).setPortState port 1)) := by
  refine State.run_eq ((if_neg (Nat.not_le.2 hport)).trans ?_)
  rw [Dev.w1sWrite, Dev.bar0_served _ hcpl]
  exact if_neg (by simp [hon])

end

end

/-- Settles O53: each clause is the rule above for its event. -/
theorem fabricLinkEventsComplete : Obligations.FabricLinkEventsComplete := by
  intro s
  refine ⟨?_, ?_, ?_, ?_, ?_, ?_, ?_, ?_, ?_, ?_, ?_, ?_, ?_, ?_⟩
  · exact fun port lanes nonce hon => execPortTrained_sendsInit hon nonce
  · exact fun port init hon => execInit_accepts hon
  · exact fun port => execPortRetry_trains
  · exact fun port => execPortTrainingFailed_training
  · exact fun port mask hup => execDegrade_up hup mask
  · exact fun port mask seq hup => execDegradeAck_changing hup mask seq
  · exact fun port w hup => execWidthChangeTimeout_late hup
  · exact fun port lane lockLost hup => execLaneRetire_narrows hup
  · exact fun port => execDown_running
  · exact fun port => execLaneLockLost_up
  · exact fun port => execCvfRetrain_trains
  · exact fun port => execTimeExchange_due
  · exact fun port => execTimeFlit_asked
  · exact fun port t1 t2 t3 => execTimeFlit_answered t2 t3

/-! ### Flits and frames (R457, R459 to R461) -/

/-- The credits that a flit returns for a class (R459). -/
def Dev.takeCredits (d : Dev) (port cls n : Nat) : Dev :=
  d.setPort port fun P => { P with credits := setAt 0 (getAt 0 cls P.credits + n) cls P.credits }

/-- The port's codewords of a frame are counted, and its shaper is refilled up to now. -/
def Dev.frameArrives (x : Ctx) (d : Dev) (port : Nat) (frame : FrameIn) : Dev :=
  ((frame.fec.filter fun w => w.1 < 8).foldl (fun (d : Dev) w => d.codewords port w) d).refillDue x port

/-- A frame in sequence is taken and counted, and its credits go back at once (R457, R459); they are those of the whole frame (log 39). -/
def Dev.takeFrame (d : Dev) (port : Nat) (frame : FrameIn) : Dev :=
  let d1 := d.setPort port fun P => { P with rxExpect := (P.rxExpect + frame.flits) % 65536, rxHold := false }
  (d1.send (.cvfFlit port "CREDIT" [frame.cls, frame.flits, (d1.port port).rxExpect])).countRx port frame

section
variable {s : State} {port : Nat}

section
variable (hup : s.view.portUp port = true)
include hup

theorem execIdleFlit_credits {cls : Nat} (ack n : Nat) (hcls : cls < 6) :
    execIdleFlit port ack cls n s = .next (s.commit ((s.view.ackUpTo port ack).takeCredits port cls n)) :=
  State.run_eq ((if_neg (by simp [hup])).trans (if_neg (Nat.not_le.2 hcls)))

/-- A frame in sequence that passes its tag and its policer is reassembled here or forwarded. -/
theorem execFrameReceive_passes {frame : FrameIn} {d3 : Dev} (hcls : frame.cls < 6) (hflits : frame.flitsOk = true)
    (hseq : frame.seq = ((s.view.frameArrives s.ctx port frame).port port).rxExpect) (htag : frame.tagOk = true)
    (hpolice : ((s.view.frameArrives s.ctx port frame).takeFrame port frame).police port frame = some d3)
    (hkept : ((d3.port port).reasm.any fun r => r.has frame && r.discarded) = false) :
    execFrameReceive port frame s =
      .next (s.commit (if frame.dst == d3.fabricAddr then d3.reassemble s.ctx port frame else d3.forward port frame)) := by
  have htaken : ¬ (!s.view.portUp port || decide (6 ≤ frame.cls)) = true := by simp [hup, hcls]
  have hinSeq : ¬ (!frame.flitsOk || frame.seq != ((s.view.frameArrives s.ctx port frame).port port).rxExpect) = true := by
    simp [hflits, ← hseq]
  refine State.run_eq ((if_neg htaken).trans ((if_neg hinSeq).trans ((if_neg (by simp [htag])).trans ?_)))
  unfold Dev.takeFrame Dev.frameArrives at hpolice
  simp only [hpolice, hkept, Bool.false_eq_true, if_false]

/-- A NAK of a flit in the retry buffer acknowledges those before it and replays from it. -/
theorem execNak_replays {seq : Nat} (hheld : ((s.view.port port).retry.any fun f => f.seq == seq) = true) :
    execNak port seq s =
      (let k := (s.view.port port).retry.findIdx fun f => f.seq == seq
       .next (s.commit (((s.view.setPort port fun P => { P with retry := P.retry.drop k }).settleSent port).replayFrom s.ctx port seq))) :=
  State.run_ite _ _ (by simp only [hup, hheld, Bool.and_self])

theorem execReplayTimeout_late {f : SentFlit} {rest : List SentFlit} (hretry : (s.view.port port).retry = f :: rest)
    (hlate : (s.view.port port).lastAdvance + 2000 ≤ s.view.now) :
    execReplayTimeout port s = .next (s.commit (s.view.replayFrom s.ctx port f.seq)) := by
  rw [execReplayTimeout, State.run_next]
  simp only [hretry, hup, hlate, decide_true, Bool.and_self, if_true]

end

/-! ### Answers to messages of this device (R470, R486, R487) -/

section
variable {msgId : Nat} {p : Nat × Msg} (hsent : s.view.sentMsg msgId = some p)
include hsent

theorem execDropNotice_fails {cls : Nat} (reason : Nat) (hcls : p.2.cls = cls) :
    execDropNotice cls msgId reason s = .next (s.commit ((s.view.failMsg s.ctx p true).settleTransfers s.ctx)) := by
  rw [execDropNotice, State.run_next]
  simp only [hsent, hcls, beq_self_eq_true, if_true]

theorem execMemWrAck_done (hkind : p.2.kind = 0x11) :
    execMemWrAck msgId s = .next (s.commit (((s.view.dropSent msgId).msgDone s.ctx p.2.owner).settleTransfers s.ctx)) := by
  rw [execMemWrAck, State.run_next]
  simp only [hsent, hkind, beq_self_eq_true, if_true]

theorem execMemRdData_done (hkind : p.2.kind = 0x13) :
    execMemRdData msgId s = .next (s.commit (((s.view.dropSent msgId).msgDone s.ctx p.2.owner).settleTransfers s.ctx)) := by
  rw [execMemRdData, State.run_next]
  simp only [hsent, hkind, beq_self_eq_true, if_true]

theorem execMemErr_fails (hkind : p.2.kind = 0x11 ∨ p.2.kind = 0x13) :
    execMemErr msgId s = .next (s.commit ((s.view.failMsg s.ctx p false).settleTransfers s.ctx)) := by
  have haccess : (p.2.kind == 0x11 || p.2.kind == 0x13) = true := by simpa using hkind
  rw [execMemErr, State.run_next]
  simp only [hsent, haccess, if_true]

end

/-! ### Window accesses of a borrower (R486, R487) -/

/-- The bytes of a value go to the parts of a window range in order, the low ones first. -/
def Dev.stParts (x : Ctx) (d : Dev) (ps : List (Nat × Nat)) (val : Nat) : Dev :=
  (ps.foldl (fun (a : Dev × Nat) r => (a.1.st x r.1 r.2 (a.2 % 2 ^ (8 * r.2)), a.2 / 2 ^ (8 * r.2))) (d, val)).1

/-- Each part of a window range is read through ECC. -/
def Dev.readParts (d : Dev) (ps : List (Nat × Nat)) : Dev := ps.foldl (fun (d : Dev) r => d.eccRead r.1 r.2 true) d

/-- The parts of memory that a borrower's range of its window stands for; none where it is not all lent (R486). -/
def Dev.accessParts (d : Dev) (src off len : Nat) : Option (List (Nat × Nat)) := d.windowParts src (len / max 1 d.slotBytes + 2) off len

section
variable {src cls off len : Nat} {ps : List (Nat × Nat)} (hup : s.view.portUp port = true) (hlen : len ≤ 0x100000) (hcls : cls = 2 ∨ cls = 3)
  (hparts : (s.view.contact src).accessParts src off len = some ps)

section
include hup hlen hcls

/-- A window access comes over a port that is up, in a class of window accesses and no longer than one may be (R486). -/
theorem windowAccess_taken : ¬ (!s.view.portUp port || decide (0x100000 < len) || (cls != 2 && cls != 3)) = true := by
  rcases hcls with h | h <;> simp [hup, hlen, h]

end

include hup hlen hcls hparts

/-- The answer has the class of its request (log 39). -/
theorem execMemWr_writes (val : Nat) :
    execMemWr port ⟨src, cls⟩ off len val s =
      (let d2 := (s.view.contact src).stParts s.ctx ps val
       .next (s.commit (d2.sendNote src 0x12 cls "MEM_WR_ACK" 16 [off, len] (d2.loanAt src off)))) := by
  unfold Dev.accessParts at hparts
  refine State.run_eq ((if_neg (windowAccess_taken hup hlen hcls)).trans ?_)
  simp only [hparts]
  rfl

theorem execMemRd_reads (hmedia : (ps.any fun r => (s.view.contact src).mediaBad r.1 r.2) = false) :
    execMemRd port ⟨src, cls⟩ off len s =
      (let d2 := (s.view.contact src).readParts ps
       .next (s.commit (d2.sendNote src 0x14 cls "MEM_RD_DATA" (16 + len) ([off, len] ++ ps.flatMap fun r => d2.ldBytes s.ctx r.1 r.2)
         (d2.loanAt src off)))) := by
  unfold Dev.accessParts at hparts
  refine State.run_eq ((if_neg (windowAccess_taken hup hlen hcls)).trans ?_)
  simp only [hparts, hmedia, Bool.false_eq_true, if_false]
  rfl

end

/-! ### Shaping (R490, R497, R504) -/

section
variable (hport : port ≤ 8) (hon : s.view.shaperOn port = true)
include hport hon

theorem execShaperRefill_on : execShaperRefill port s = .next (s.commit (s.view.refillDue s.ctx port)) :=
  State.run_ite _ _ (by simp [hport, hon])

theorem execQueueSample_on : execQueueSample port s = .next (s.commit ((s.view.refillDue s.ctx port).sampleDue port)) :=
  State.run_ite _ _ (by simp [hport, hon])

end

/-- A port that is up and not between two widths starts the frame that the arbiter picks. -/
theorem execFrameStart_picked {c : Nat} {f : EgFrame} {q : ClassQ} (hup : s.view.portUp port = true) (hwidth : s.view.portState port ≠ 4)
    (hpick : ((s.view.refillDue s.ctx port).sampleDue port).pickFrame port = some (c, f, q)) :
    execFrameStart port s = .next (s.commit (((s.view.refillDue s.ctx port).sampleDue port).startFrame s.ctx port c f q)) := by
  refine State.run_eq ((if_neg (by simp [hup, hwidth])).trans ?_)
  simp only [hpick]

end

/-- Settles O54: each clause is the rule above for its event. -/
theorem fabricTrafficEventsComplete : Obligations.FabricTrafficEventsComplete := by
  intro s
  refine ⟨?_, ?_, ?_, ?_, ?_, ?_, ?_, ?_, ?_, ?_, ?_, ?_, ?_⟩
  · exact fun port ack credCls credN hup => execIdleFlit_credits hup ack credN
  · exact fun port frame d3 hup => execFrameReceive_passes hup
  · exact fun port seq hup => execNak_replays hup
  · exact fun port f rest hretry hup => execReplayTimeout_late hup hretry
  · exact fun cls msgId reason p hsent => execDropNotice_fails hsent reason
  · exact fun port src cls off len val ps hup hlen hcls hparts => execMemWr_writes hup hlen hcls hparts val
  · exact fun port src cls off len ps => execMemRd_reads
  · exact fun msgId p => execMemWrAck_done
  · exact fun msgId p => execMemRdData_done
  · exact fun msgId p => execMemErr_fails
  · exact fun port => execShaperRefill_on
  · exact fun port => execQueueSample_on
  · exact fun port c f q => execFrameStart_picked

end Sys2Proof.Machine
end

section
/-! PROOFS about a step: the command in front, the idle step, and the invariant that every step keeps. -/

namespace Sys2Proof.Machine

/-! ### The queue of commands (R60) -/

theorem step_withFront (c : Instr) (s : State) : step (s.withFront c) = exec c s :=
  step_cons (s.withFront_pending c)

theorem step_nil {s : State} (h : s.pending = []) : step s = .next s.idle := by simp only [step, h]

/-- Settles O1: a step with a command in front is its arm on the rest of the queue. -/
theorem stepRunsFrontCommand : Obligations.StepRunsFrontCommand :=
  fun c s => ⟨step_withFront c s, fun _ => step_cons⟩

/-- Settles O2: a step of an empty queue is `State.idle`. -/
theorem idleStepIsOneTick : Obligations.IdleStepIsOneTick := fun _ => step_nil

/-! ### The invariant of memory and of its effects -/

/-- Settles O4: memory after power-on has no cell, and the device after it lists no effect. -/
theorem invariantHoldsAtReset : Obligations.InvariantHoldsAtReset := ⟨Memory.reset_wf, rfl⟩

/-- A next state that the outcome answers meets the invariant. -/
def LeadsToInv (o : Host.Outcome State Fault Refusal) : Prop := ∀ t, o = .next t → t.Inv

theorem State.commit_inv {s : State} (h : s.mem.wf = true) (d : Dev) : (s.commit d).Inv := ⟨Memory.applyAll_wf _ _ h, rfl⟩

theorem State.run_inv {s : State} (h : s.mem.wf = true) (f : Ctx → Dev → Dev) : LeadsToInv (s.run f) := by
  rintro _ ⟨⟩
  exact State.commit_inv h _

theorem State.request_inv {s : State} (h : s.mem.wf = true) (src : ReqSrc) (f : Ctx → Dev → ReqImg → Dev) : LeadsToInv (s.request src f) := by
  cases src with
  | hp e => exact State.run_inv h _
  | cvf => exact State.run_inv h _

theorem execDecisionTimeout_inv {s : State} (h : s.mem.wf = true) (tail : Bool) (src : ReqSrc) : LeadsToInv (execDecisionTimeout tail src s) :=
  State.request_inv h src _

theorem execRecallQuery_inv {s : State} (h : s.mem.wf = true) (src : ReqSrc) : LeadsToInv (execRecallQuery src s) := by
  cases src with
  | hp e => exact State.run_inv h _
  | cvf => exact State.run_inv h _

/-- A command that is one effect that runs. -/
def IsRun (f : State → Host.Outcome State Fault Refusal) : Prop := ∃ g : Ctx → Dev → Dev, f = fun s => s.run g

theorem offOn_isRun {val n : Nat} {off on : Nat → State → Host.Outcome State Fault Refusal} (hoff : ∀ k, IsRun (off k)) (hon : ∀ k, IsRun (on k)) :
    ∀ f ∈ offOn val n off on, IsRun f := by
  intro f hf
  obtain ⟨k, -, hk⟩ := List.mem_flatMap.1 hf
  split at hk
  · exact List.mem_singleton.1 hk ▸ hoff k
  · exact List.mem_singleton.1 (List.mem_ite_nil_right.1 hk).2 ▸ hon k

/-- Each command that W1S bits stand for is an effect of its own (R22). -/
theorem w1sRows_isRun (off val : Nat) : ∀ f ∈ w1sRows off val, IsRun f := by
  intro f hf
  simp only [w1sRows, List.mem_append, List.mem_flatMap, List.mem_ite_nil_right, List.mem_singleton] at hf
  rcases hf with (((((((⟨q, -, a, -, -, h⟩ | ⟨p, -, -, rfl⟩) | ⟨-, h⟩) | ⟨-, h⟩) | ⟨-, h⟩) | ⟨-, k, -, -, rfl⟩) | ⟨-, rfl⟩) | ⟨-, rfl⟩) |
    ⟨-, ⟨-, rfl⟩ | ⟨-, rfl⟩⟩
  · exact offOn_isRun (fun _ => ⟨_, rfl⟩) (fun _ => ⟨_, rfl⟩) f h
  · exact ⟨_, rfl⟩
  · exact offOn_isRun (fun _ => ⟨_, rfl⟩) (fun _ => ⟨_, rfl⟩) f h
  · exact offOn_isRun (fun _ => ⟨_, rfl⟩) (fun _ => ⟨_, rfl⟩) f h
  · exact offOn_isRun (fun _ => ⟨_, rfl⟩) (fun _ => ⟨_, rfl⟩) f h
  · exact ⟨_, rfl⟩
  · exact ⟨_, rfl⟩
  · exact ⟨_, rfl⟩
  · exact ⟨_, rfl⟩
  · exact ⟨_, rfl⟩

theorem LeadsToInv.andThen {o : Host.Outcome State Fault Refusal} (h : LeadsToInv o) {f : State → Host.Outcome State Fault Refusal}
    (hf : IsRun f) : LeadsToInv (State.andThen o f) := by
  obtain ⟨g, rfl⟩ := hf
  cases o with
  | next t => exact State.run_inv (h t rfl).1 g
  | _ => exact h

theorem LeadsToInv.foldl_andThen {l : List (State → Host.Outcome State Fault Refusal)} (hl : ∀ f ∈ l, IsRun f)
    {o : Host.Outcome State Fault Refusal} (h : LeadsToInv o) : LeadsToInv (l.foldl State.andThen o) := by
  induction l generalizing o with
  | nil => exact h
  | cons f l ih => exact ih (fun g hg => hl g (List.mem_cons_of_mem f hg)) (h.andThen (hl f List.mem_cons_self))

theorem execRegisterWrite_inv {s : State} (h : s.mem.wf = true) (off val : Nat) : LeadsToInv (execRegisterWrite off val s) := by
  refine LeadsToInv.foldl_andThen ?_ (State.run_inv h _)
  split
  · exact w1sRows_isRun off val
  · exact fun _ hf => absurd hf List.not_mem_nil

/-- Every command runs its effect and commits it; a register write may run several in turn. -/
theorem exec_inv (c : Instr) {s : State} (h : s.mem.wf = true) : LeadsToInv (exec c s) := by
  cases c with
  | layerReq src => exact State.request_inv h src _
  | tailReq src => exact State.request_inv h src _
  | decisionTimeout tail src => exact execDecisionTimeout_inv h tail src
  | recallQuery src => exact execRecallQuery_inv h src
  | registerWrite off val => exact execRegisterWrite_inv h off val
  | _ => exact State.run_inv h _

theorem State.Inv.idle {s : State} (h : s.Inv) : s.idle.Inv := h

/-- Settles O5: an idle step leaves memory and the list of effects alone, and a command ends in a commit. -/
theorem everyStepKeepsInvariant : Obligations.EveryStepKeepsInvariant := by
  intro s t hs hstep
  cases hp : s.pending with
  | nil =>
    rw [step_nil hp] at hstep
    cases hstep
    exact hs.idle
  | cons c rest =>
    rw [step_cons hp] at hstep
    exact exec_inv c (s := { s with pending := rest }) hs.1 t hstep

end Sys2Proof.Machine
end

section
/-! PROOFS about the host interface (chapter 11) and the counters: entries of completion queues, vectors, queue commands, doorbells, signals and
management messages. -/

namespace Sys2Proof.Machine

/-! ### Counters (R700) -/

theorem Dev.reg_lt (d : Dev) (off : Nat) : d.reg off < 2 ^ 32 := BitVec.isLt _

theorem Dev.bump_reg (d : Dev) (off n o : Nat) : (d.bump off n).reg o = if o = off then min (d.reg off + n) 0xFFFFFFFF else d.reg o := by
  rw [Dev.bump, Dev.setReg_reg, Nat.mod_eq_of_lt (by omega)]

/-- Settles O13: a counter register takes the bounded sum, and a stored value is never above the bound. -/
theorem countersSaturate : Obligations.CountersSaturate := by
  intro d off n
  have hlt := d.reg_lt off
  refine ⟨by rw [Dev.bump_reg, if_pos rfl], ?_, fun o ho => by rw [Dev.bump_reg, if_neg ho]⟩
  rw [Dev.bump_reg, if_pos rfl]
  omega

/-! ### Bits of a number -/

theorem bit_eq_testBit (n i : Nat) : bit n i = n.testBit i := by
  rw [Nat.testBit_eq_decide_div_mod_eq, bit, bits, Nat.pow_one]
  rfl

/-- A field that is set: the bits above it, the new value and the bits below it. -/
theorem setBits_eq (n lo len v : Nat) : setBits n lo len v = 2 ^ lo * (2 ^ len * (n / 2 ^ lo / 2 ^ len) + v % 2 ^ len) + n % 2 ^ lo := by
  have hn : n = 2 ^ lo * (2 ^ len * (n / 2 ^ lo / 2 ^ len)) + n % 2 ^ lo + bits n lo len * 2 ^ lo := by
    rw [bits]
    conv_lhs => rw [← Nat.div_add_mod n (2 ^ lo), ← Nat.div_add_mod (n / 2 ^ lo) (2 ^ len)]
    ring
  rw [setBits, Nat.sub_eq_of_eq_add hn]
  ring

theorem setBits_div (n lo len v : Nat) : setBits n lo len v / 2 ^ lo = 2 ^ len * (n / 2 ^ lo / 2 ^ len) + v % 2 ^ len := by
  rw [setBits_eq, Nat.mul_add_div (by positivity), Nat.div_eq_of_lt (Nat.mod_lt _ (by positivity)), Nat.add_zero]

theorem setBits_mod (n lo len v : Nat) : setBits n lo len v % 2 ^ lo = n % 2 ^ lo := by
  rw [setBits_eq, Nat.mul_add_mod, Nat.mod_mod]

theorem bits_setBits_self (n lo len v : Nat) : bits (setBits n lo len v) lo len = v % 2 ^ len := by
  rw [bits, setBits_div, Nat.mul_add_mod, Nat.mod_mod]

/-- A bit outside the field that is set stays. -/
theorem bit_setBits_other {n lo len v i : Nat} (h : i < lo ∨ lo + len ≤ i) : bit (setBits n lo len v) i = bit n i := by
  rw [bit_eq_testBit, bit_eq_testBit]
  rcases h with h | h
  · have hlow : ∀ m, (m % 2 ^ lo).testBit i = m.testBit i := fun m => by simp [Nat.testBit_mod_two_pow, h]
    rw [← hlow, setBits_mod, hlow]
  · have hhigh : ∀ m, (m / 2 ^ lo / 2 ^ len).testBit (i - (lo + len)) = m.testBit i := fun m => by
      rw [Nat.testBit_div_two_pow, Nat.testBit_div_two_pow]
      congr 1
      omega
    rw [← hhigh, setBits_div, Nat.mul_add_div (by positivity), Nat.div_eq_of_lt (Nat.mod_lt _ (by positivity)), Nat.add_zero, hhigh]

theorem bit_u32 {n i : Nat} (h : i < 32) : bit (n % 2 ^ 32) i = bit n i := by
  rw [bit_eq_testBit, bit_eq_testBit, Nat.testBit_mod_two_pow]
  simp [h]

theorem Dev.setFld_reg (d : Dev) (off lo len v o : Nat) :
    (d.setFld off lo len v).reg o = if o = off then setBits (d.reg off) lo len v % 2 ^ 32 else d.reg o := Dev.setReg_reg ..

/-! ### Vectors (R535) -/

theorem Dev.raise_disabled {d : Dev} (v : Nat) (h : d.hif.hp.msixEnable = false) : d.raise v = d := by simp [Dev.raise, h]

theorem Dev.raise_sent {d : Dev} {v : Nat} (hen : d.hif.hp.msixEnable = true)
    (h : (d.hif.hp.functionMask || bit (d.reg (Reg.msixCtrl v)) 0 || !d.hif.hp.bme) = false) : d.raise v = d.send (.msix v) := by
  simp only [Dev.raise, hen, h, Bool.not_true, Bool.false_eq_true, if_false]

theorem Dev.raise_pending {d : Dev} {v : Nat} (hen : d.hif.hp.msixEnable = true)
    (h : (d.hif.hp.functionMask || bit (d.reg (Reg.msixCtrl v)) 0 || !d.hif.hp.bme) = true) :
    d.raise v = d.setFld (Reg.msixPba (v / 32)) (v % 32) 1 1 := by
  simp only [Dev.raise, hen, h, Bool.not_true, Bool.false_eq_true, if_false, if_true]

/-- A bit of a register that is set alone. -/
theorem Dev.setFld_bit (d : Dev) {off i : Nat} (hi : i < 32) :
    bit ((d.setFld off i 1 1).reg off) i = true ∧
      (∀ w, w ≠ i → w < 32 → bit ((d.setFld off i 1 1).reg off) w = bit (d.reg off) w) ∧ ∀ o, o ≠ off → (d.setFld off i 1 1).reg o = d.reg o := by
  simp only [Dev.setFld_reg]
  refine ⟨?_, fun w hw h32 => ?_, fun o ho => if_neg ho⟩
  · rw [if_true, bit_u32 hi, bit, bits_setBits_self]
    rfl
  · rw [if_true, bit_u32 h32, bit_setBits_other (by omega)]

/-- Settles O23, by the three cases of `Dev.raise`. -/
theorem vectorRaised : Obligations.VectorRaised := by
  intro d v _ masked
  refine ⟨Dev.raise_disabled v, Dev.raise_sent, fun hen hmask => ?_, Dev.raise_hif d v, Dev.raise_units d v, Dev.raise_err d v, Dev.raise_kv d v⟩
  rw [Dev.raise_pending hen hmask]
  obtain ⟨hset, hbits, hregs⟩ := d.setFld_bit (off := Reg.msixPba (v / 32)) (Nat.mod_lt v (by omega : 0 < 32))
  exact ⟨hset, hbits, hregs, Dev.setFld_wire ..⟩

/-! ### Entries of completion queues (R526 to R528, R532) -/

theorem Dev.signal_cqs (d : Dev) (v : Nat) (now : Bool) : (d.signal v now).hif.cqs = d.hif.cqs := by
  simp only [Dev.signal]
  split
  · simp [Dev.raiseVec]
  · rfl

theorem Dev.signal_sqs (d : Dev) (v : Nat) (now : Bool) : (d.signal v now).hif.sqs = d.hif.sqs := by
  simp only [Dev.signal]
  split
  · simp [Dev.raiseVec]
  · rfl

/-- The queue after an entry is posted at its tail (R528). -/
def Cq.afterPost (q : Cq) : Cq :=
  { q with tail := (q.tail + 1) % 2 ^ q.sizeLog2, phase := if (q.tail + 1) % 2 ^ q.sizeLog2 == 0 then !q.phase else q.phase, live := q.live + 1 }

/-- The queue moves on; the device is otherwise as the store of the entry left it. -/
def Dev.advanceCq (d : Dev) (cq : Nat) (q : Cq) : Dev := { d with hif := { d.hif with cqs := tblSet cq q.afterPost d.hif.cqs } }

theorem Dev.advanceCq_writes (d : Dev) (cq : Nat) (q : Cq) : (d.advanceCq cq q).writes = d.writes := rfl

theorem Dev.advanceCq_cqs (d : Dev) (cq : Nat) (q : Cq) : (d.advanceCq cq q).hif.cqs = tblSet cq q.afterPost d.hif.cqs := rfl

theorem Dev.advanceCq_sqs (d : Dev) (cq : Nat) (q : Cq) : (d.advanceCq cq q).hif.sqs = d.hif.sqs := rfl

/-- The store of an entry into the slot at the tail of its queue (R526, R528). -/
def Dev.stEntry (x : Ctx) (d : Dev) (form val : Nat) (q : Cq) : Dev :=
  d.st x (d.ringBase + q.offset + 32 * q.tail) 32 (setBits val 40 8 (form + ofB q.phase * 128))

theorem Dev.post_stEntry {x : Ctx} {d : Dev} {cq : Nat} {q : Cq} (form val : Nat) (now : Bool) (h : tblGet cq d.hif.cqs = some q) :
    d.post x cq form val now = (d.stEntry x form val q).advanceCq cq q ∨
      ∃ v, d.post x cq form val now = ((d.stEntry x form val q).advanceCq cq q).signal v now := by
  rw [Dev.post_eq h, Dev.stEntry]
  generalize d.st x _ 32 _ = d1
  dsimp only
  split
  · exact .inr ⟨_, rfl⟩
  · exact .inl rfl

theorem Dev.stEntry_hif (x : Ctx) (d : Dev) (form val : Nat) (q : Cq) : (d.stEntry x form val q).hif = d.hif := Dev.st_hif ..

/-- Posting an entry stores it and moves its queue on; a vector that is signalled then reaches neither. -/
theorem Dev.post_fields {x : Ctx} {d : Dev} {cq : Nat} {q : Cq} (form val : Nat) (now : Bool) (h : tblGet cq d.hif.cqs = some q) :
    (d.post x cq form val now).writes = (d.stEntry x form val q).writes ∧
      (d.post x cq form val now).hif.cqs = tblSet cq q.afterPost d.hif.cqs ∧ (d.post x cq form val now).hif.sqs = d.hif.sqs := by
  have hplaced : ((d.stEntry x form val q).advanceCq cq q).writes = (d.stEntry x form val q).writes ∧
      ((d.stEntry x form val q).advanceCq cq q).hif.cqs = tblSet cq q.afterPost d.hif.cqs ∧
      ((d.stEntry x form val q).advanceCq cq q).hif.sqs = d.hif.sqs := by
    rw [Dev.advanceCq_writes, Dev.advanceCq_cqs, Dev.advanceCq_sqs, Dev.stEntry_hif]
    exact ⟨rfl, rfl, rfl⟩
  rcases Dev.post_stEntry (x := x) form val now h with hp | ⟨v, hp⟩
  · rw [hp]
    exact hplaced
  · rw [hp, Dev.signal_writes, Dev.signal_cqs, Dev.signal_sqs]
    exact hplaced

/-- Byte 5 of a posted entry is FORM with PHASE in bit 7. -/
theorem byteOf_setBits_form (val : Nat) {b : Nat} (h : b < 256) : byteOf (setBits val 40 8 b) 5 = b := by
  rw [byteOf, bits_setBits_self]
  exact Nat.mod_eq_of_lt h

theorem ofB_le (b : Bool) : ofB b ≤ 1 := by cases b <;> decide

/-- Settles O10: the store and the queue are those of `Dev.post_fields`; the frame is that of posting. -/
theorem entryPosted : Obligations.EntryPosted := by
  intro x d cq form val now q hq hmapped hform t
  obtain ⟨hwrites, hcqs, hsqs⟩ := Dev.post_fields (x := x) form val now hq
  have hphase := ofB_le q.phase
  refine ⟨hwrites.trans (Dev.st_writes _ (by omega) hmapped), byteOf_setBits_form val (by omega), ?_, fun k hk => ?_, hsqs,
    Dev.post_units .., Dev.post_kv ..⟩
  · rw [hcqs, tblGet_tblSet_self]
    rfl
  · rw [hcqs, tblGet_tblSet, if_neg hk]

theorem Dev.settleDelete_serving {x : Ctx} {d : Dev} {sq : Nat} {q : Sq} (h : tblGet sq d.hif.sqs = some q) (hq : q.deleting = none) :
    d.settleDelete x sq = d := by
  simp only [Dev.settleDelete, h, hq]

/-- A command of a queue that is not being deleted only posts its FINAL entry. -/
theorem Dev.finish_serving {x : Ctx} {d : Dev} {c : Cmd} {q : Sq} {k : Cq} (st : Status) (result : Nat) (hsq : tblGet c.sq d.hif.sqs = some q)
    (hserving : q.deleting = none) (hcq : tblGet q.cq d.hif.cqs = some k) :
    d.finish x c st result = (d.land c).post x q.cq 0 (Machine.finalEntry c q.head st result d.now) c.irqNow := by
  have hpost : (d.land c).postFinal x c st result d.now = (d.land c).post x q.cq 0 (Machine.finalEntry c q.head st result d.now) c.irqNow := by
    simp only [Dev.postFinal, show tblGet c.sq (d.land c).hif.sqs = some q from hsq]
  obtain ⟨-, -, hsqs⟩ := Dev.post_fields (x := x) (d := d.land c) 0 (Machine.finalEntry c q.head st result d.now) c.irqNow hcq
  rw [Dev.finish, Dev.finishAt, hpost]
  exact Dev.settleDelete_serving (by rw [hsqs]; exact hsq) hserving

/-- The address map looks at the registers and at whether the pool is up. -/
theorem mapped_link {d e : Dev} (p : Part) (hr : d.regs = e.regs) (hp : d.hif.ppUp = e.hif.ppUp) (a : Nat) : mapped p d a = mapped p e a := by
  simp only [mapped, inPool, inWindow, hr, hp]

theorem firstHole_link {d e : Dev} (p : Part) (hr : d.regs = e.regs) (hp : d.hif.ppUp = e.hif.ppUp) (b fuel a : Nat) :
    firstHole p d b fuel a = firstHole p e b fuel a := by
  induction fuel generalizing a with
  | zero => rfl
  | succ n ih => simp only [firstHole, mapped_link p hr hp, spanEnd, hr, ih]

theorem mappedRange_link {d e : Dev} (p : Part) (hr : d.regs = e.regs) (hp : d.hif.ppUp = e.hif.ppUp) (a len : Nat) :
    mappedRange p d a len = mappedRange p e a len := by
  simp only [mappedRange, holeIn, firstHole_link p hr hp]

theorem execNop_finishes {s : State} {e : Entry} (hres : e.reservedSet [] [] = false) :
    execNop e s = .next (s.commit (s.view.finish s.ctx e.cmd .DONE 0)) := State.ring_next _ hres

/-- What a byte reads after one entry has been stored. -/
theorem Memory.read_entry {m : Memory} (h : m.wf = true) (slot entry : Nat) :
    (∀ j, j < 32 → ((m.applyAll [.store slot 32 entry]).read (slot + j)).toNat = byteOf entry j) ∧
      ∀ a, (a < slot ∨ slot + 32 ≤ a) → (m.applyAll [.store slot 32 entry]).read a = m.read a := by
  have hread : ∀ a, (m.applyAll [.store slot 32 entry]).read a =
      if slot ≤ a ∧ a < slot + 32 then BitVec.ofNat 8 (byteOf entry (a - slot)) else m.read a := Memory.read_store h slot 32 entry
  refine ⟨fun j hj => ?_, fun a ha => by rw [hread, if_neg (by omega)]⟩
  rw [hread, if_pos (by omega), Nat.add_sub_cancel_left, BitVec.toNat_ofNat]
  exact Nat.mod_eq_of_lt (byteOf_lt ..)

/-- What a command of a queue that serves leaves when it finishes: its entry in the slot at the tail, and its queue moved on. -/
theorem Dev.finish_fields {x : Ctx} {d : Dev} {c : Cmd} {q : Sq} {k : Cq} (st : Status) (result : Nat) (hsq : tblGet c.sq d.hif.sqs = some q)
    (hserving : q.deleting = none) (hcq : tblGet q.cq d.hif.cqs = some k)
    (hmapped : mappedRange x.fuses.part d (d.ringBase + k.offset + 32 * k.tail) 32 = true) :
    (d.finish x c st result).writes =
        .store (d.ringBase + k.offset + 32 * k.tail) 32 (setBits (Machine.finalEntry c q.head st result d.now) 40 8 (ofB k.phase * 128)) :: d.writes ∧
      (d.finish x c st result).hif.cqs = tblSet q.cq k.afterPost d.hif.cqs ∧ (d.finish x c st result).hif.sqs = d.hif.sqs := by
  obtain ⟨hwrites, hcqs, hsqs⟩ :=
    Dev.post_fields (x := x) (d := d.land c) 0 (Machine.finalEntry c q.head st result d.now) c.irqNow hcq
  have hslot : mappedRange x.fuses.part (d.land c) (d.ringBase + k.offset + 32 * k.tail) 32 = true :=
    (mappedRange_link (d := d.land c) (e := d) _ rfl rfl _ _).trans hmapped
  have hbase : (d.land c).ringBase = d.ringBase := rfl
  rw [Dev.finish_serving st result hsq hserving hcq, hwrites, hcqs, hsqs, Dev.stEntry, hbase, Dev.st_writes _ (by omega) hslot, Nat.zero_add]
  exact ⟨rfl, rfl, rfl⟩

/-- Settles O22: NOP finishes, and `Dev.finish_fields` says what that stores and moves. -/
theorem nopFrame : Obligations.NopFrame := by
  intro s e q k hwf hres hsq hserving hcq hmapped slot entry
  obtain ⟨hwrites, hcqs, hsqs⟩ := Dev.finish_fields (x := s.ctx) (d := s.view) (c := e.cmd) .DONE 0 hsq hserving hcq
    ((mappedRange_link (d := s.view) (e := s.dev) _ rfl rfl _ _).trans hmapped)
  have hunits := s.view.finish_units s.ctx e.cmd .DONE 0
  have hkv := s.view.finish_kv s.ctx e.cmd .DONE 0
  have hlogs := s.view.finish_logs s.ctx e.cmd .DONE 0
  have hexec := execNop_finishes (s := s) hres
  generalize s.view.finish s.ctx e.cmd .DONE 0 = d at *
  have hmem : (s.commit d).mem = s.mem.applyAll [.store slot 32 entry] := congrArg s.mem.applyAll hwrites
  obtain ⟨hin, hout⟩ := Memory.read_entry hwf slot entry
  refine ⟨_, hexec, hmem ▸ hin, hmem ▸ hout, hunits, hkv, hsqs, hlogs, fun j hj => ?_⟩
  rw [State.commit_dev, hcqs, tblGet_tblSet, if_neg hj]
  rfl

end Sys2Proof.Machine
end

section
/-! PROOFS about the host interface (chapter 11): queue commands, doorbells, the fetcher, BAR2, signals and management messages. -/

namespace Sys2Proof.Machine

/-! ### Queue commands (R531 to R533, R539, R551) -/

section
variable {s : State} {e : Entry}

/-- A ring command with its reserved bytes 0 and its checks passed. -/
theorem State.ring_checked {used res : List (Nat × Nat)} {cs : Dev → List (Bool × Status)} (f : Ctx → Cmd → Dev → Dev)
    (hres : e.reservedSet used res = false) (hchecks : firstFail (cs s.view) = none) :
    s.ring e used res (fun x d c => d.checked x c (cs d) (f x c)) = .next (s.commit (f s.ctx e.cmd s.view)) := by
  rw [State.ring_next _ hres, Dev.checked_pass _ hchecks]

theorem execQDeleteSq_waits {q : Sq} (hres : e.reservedSet [(16, 2)] [] = false) (hchecks : firstFail (deleteSqChecks s.view e) = none)
    (hq : tblGet (e.f 16 2) s.view.hif.sqs = some q) :
    execQDeleteSq e s = .next (s.commit (({ s.view with
      hif := { s.view.hif with sqs := tblSet (e.f 16 2) { q with deleting := some e.cmd } s.view.hif.sqs } } : Dev).settleDelete s.ctx (e.f 16 2))) := by
  refine (State.ring_checked (cs := (deleteSqChecks · e)) _ hres hchecks).trans ?_
  simp only [Dev.deleteSq, hq]

theorem execStoreDone_answers {r : HostReq} {st : Status} (hres : e.reservedSet [(16, 5), (24, 8)] [] = false)
    (hr : (s.view.hif.requests.find? fun r => r.reqId == e.f 16 4) = some r) (hst : storeStatus (e.f 20 1) (e.f 24 8) r = some st) :
    execStoreDone e s = .next (s.commit
      ((((s.view.dropRequest r.reqId).requestDone s.ctx r.owner st).settleTransfers s.ctx).finish s.ctx e.cmd .DONE 0)) := by
  rw [execStoreDone, State.ring_next _ hres]
  simp only [hr, hst]

theorem execMeterRead_copies (hres : e.reservedSet [(16, 5), (24, 8)] [(161, 7)] = false) (h0 : e.f 18 2 ≠ 0) (h1 : e.f 18 2 ≤ 4096)
    (hlast : e.f 16 2 + e.f 18 2 ≤ 65536)
    (hbuf : (([(e.f 24 8, 64 * e.f 18 2)]).find? fun b => !(mappedRange s.ctx.fuses.part s.view b.1 b.2)) = none) :
    execMeterRead e s = .next (s.commit
      ((s.view.copyMeters s.ctx (e.f 16 2) (e.f 18 2) (e.f 24 8) (bit (e.f 20 1) 0)).finish s.ctx e.cmd .DONE 0)) := by
  rw [execMeterRead, State.ring_next _ hres]
  dsimp only
  rw [if_neg (by simp [h0, h1]), Dev.checked_pass _ (by simp [hlast]), Dev.buffers_pass _ hbuf]

end

/-- Settles O26: each command of a queue passes its checks and takes effect. -/
theorem queueCommandsComplete : Obligations.QueueCommandsComplete := by
  intro s
  refine ⟨?_, ?_, ?_, ?_, ?_, ?_, ?_, ?_⟩
  · exact fun e => execNop_finishes
  · exact fun e hres hchecks => (State.ring_checked (cs := (createCqChecks · e)) _ hres hchecks : execQCreateCq e s = _)
  · exact fun e hres hchecks => (State.ring_checked (cs := (createSqChecks · e)) _ hres hchecks : execQCreateSq e s = _)
  · exact fun e q => execQDeleteSq_waits
  · exact fun e hres hchecks => (State.ring_checked (cs := (deleteCqChecks · e)) _ hres hchecks : execQDeleteCq e s = _)
  · exact fun e hres hchecks => (State.ring_checked (cs := (hrqCreateChecks · e)) _ hres hchecks : execHrqCreate e s = _)
  · exact fun e r st => execStoreDone_answers
  · exact fun e => execMeterRead_copies

/-! ### Doorbells (R522) -/

section
variable {x : Ctx} {d : Dev} {n val : Nat}

theorem Dev.sqTail_moves {q : Sq} (hq : tblGet n d.hif.sqs = some q) (hserving : q.deleting = none) (hval : val < 2 ^ q.sizeLog2)
    (hroom : q.waiting + (val + 2 ^ q.sizeLog2 - q.tail) % 2 ^ q.sizeLog2 < 2 ^ q.sizeLog2) :
    d.sqTail x n val = { d with hif := { d.hif with
      sqs := tblSet n { q with tail := val, waiting := q.waiting + (val + 2 ^ q.sizeLog2 - q.tail) % 2 ^ q.sizeLog2 } d.hif.sqs } } := by
  unfold Dev.sqTail
  rw [hq]
  exact (if_neg (by simp [hserving])).trans (if_neg (by simp [Nat.not_le.2 hval, Nat.not_le.2 hroom]))

theorem Dev.cqHead_moves {q : Cq} (hq : tblGet n d.hif.cqs = some q) (hval : val < 2 ^ q.sizeLog2)
    (hlive : (val + 2 ^ q.sizeLog2 - q.head) % 2 ^ q.sizeLog2 ≤ q.live) :
    d.cqHead x n val = { d with hif := { d.hif with
      cqs := tblSet n { q with head := val, live := q.live - (val + 2 ^ q.sizeLog2 - q.head) % 2 ^ q.sizeLog2 } d.hif.cqs } } := by
  unfold Dev.cqHead
  rw [hq]
  exact if_neg (by simp [Nat.not_le.2 hval, Nat.not_lt.2 hlive])

theorem Dev.hrqHead_moves {h : Hrq} (hh : d.hif.hrq = some h) (hval : val < 2 ^ h.sizeLog2)
    (hlive : (val + 2 ^ h.sizeLog2 - h.head) % 2 ^ h.sizeLog2 ≤ h.live) :
    d.hrqHead x val = ({ d with hif := { d.hif with
      hrq := some { h with head := val, live := h.live - (val + 2 ^ h.sizeLog2 - h.head) % 2 ^ h.sizeLog2 } } } : Dev).postWaiting x := by
  unfold Dev.hrqHead
  rw [hh]
  exact if_neg (by simp [Nat.not_le.2 hval, Nat.not_lt.2 hlive])

end

theorem State.run_doorbell {s : State} (f : Ctx → Dev → Dev) (hbars : s.view.barsDecoded = true) (hop : s.view.operational = true) :
    s.run (fun x d => d.doorbell 0 4 (f x)) = .next (s.commit (f s.ctx s.view)) := by
  rw [State.run_next, Dev.doorbell_served _ hbars hop rfl rfl]

/-! ### The fetcher (R525) -/

section
variable {s : State} {n : Nat}

theorem execSqFetch_high (hhi : nextInTurn s.view.hif.fetchTurn.1 (s.view.fetchable s.ctx true) = some n)
    (hturn : (nextInTurn s.view.hif.fetchTurn.2 (s.view.fetchable s.ctx false)).isNone ∨ s.view.hif.highVisits < 4) :
    execSqFetch s = .next (s.commit (Dev.fetchFrom s.ctx n 8 { s.view with
      hif := { s.view.hif with fetchTurn := (n, s.view.hif.fetchTurn.2), highVisits := s.view.hif.highVisits + 1 } })) := by
  refine State.run_eq ?_
  unfold Dev.fetchVisit
  rw [hhi]
  cases hlo : nextInTurn s.view.hif.fetchTurn.2 (s.view.fetchable s.ctx false) with
  | none => rfl
  | some l =>
    have hfew : s.view.hif.highVisits < 4 := hturn.resolve_left (by rw [hlo]; exact Bool.false_ne_true)
    exact if_neg (Nat.not_le.2 hfew)

theorem execSqFetch_normal (hlo : nextInTurn s.view.hif.fetchTurn.2 (s.view.fetchable s.ctx false) = some n)
    (hturn : (nextInTurn s.view.hif.fetchTurn.1 (s.view.fetchable s.ctx true)).isNone ∨ 4 ≤ s.view.hif.highVisits) :
    execSqFetch s = .next (s.commit (Dev.fetchFrom s.ctx n 8 { s.view with
      hif := { s.view.hif with fetchTurn := (s.view.hif.fetchTurn.1, n), highVisits := 0 } })) := by
  refine State.run_eq ?_
  unfold Dev.fetchVisit
  rw [hlo]
  cases hhi : nextInTurn s.view.hif.fetchTurn.1 (s.view.fetchable s.ctx true) with
  | none => rfl
  | some h =>
    have hmany : 4 ≤ s.view.hif.highVisits := hturn.resolve_left (by rw [hhi]; exact Bool.false_ne_true)
    exact if_pos hmany

end

/-! ### BAR2 and ADMIN_CTL (R514, R523, R721) -/

section
variable {s : State} {off len : Nat} (hbars : s.view.barsDecoded = true) (hoff : off < 2 ^ s.view.hif.hp.bar2SizeLog2)
  (hop : s.view.operational = true)
include hbars hoff hop

theorem execBar2Access_operational (wr : Bool) (val : Nat) : execBar2Access wr off len val s = .next (s.commit
    (if wr then s.view.bar2Write s.ctx (s.view.bar2Addr off) len val else s.view.bar2Read s.ctx (s.view.bar2Addr off) len)) := by
  refine State.run_eq ?_
  rw [if_neg (by simp only [hbars, Nat.not_le.2 hoff, decide_false, Bool.not_true, Bool.or_self, Bool.false_eq_true, not_false_iff]), if_pos hop]

end

theorem Dev.bar2Write_stores {x : Ctx} {d : Dev} {a len : Nat} (val : Nat) (hmapped : d.bar2Hole x a len = none)
    (hwhole : (d.err.bad.filter fun b => b.uncorrectable && b.within a len && !(a ≤ b.addr && b.addr + eccWord b.addr ≤ a + len)) = [])
    (hown : ((d.st x a len val).deviceOnly.any fun r => a < r.1 + r.2 && r.1 < a + len) = false) :
    d.bar2Write x a len val = d.st x a len val := by
  simp only [Dev.bar2Write, hmapped, hwhole, hown, Bool.and_false, Bool.false_eq_true, if_false]

theorem Dev.bar2Read_reads {x : Ctx} {d : Dev} {a len : Nat} (hmapped : d.bar2Hole x a len = none)
    (hmem : (inHbm x.fuses.part a || inSram a || inStaging a) = true) :
    d.bar2Read x a len =
      (d.eccRead a len false).send (.cpl .success (leNat ((List.range len).map fun i => d.hostByte x (a + i))) (d.mediaBad a len)) := by
  simp only [Dev.bar2Read, hmapped, hmem, if_true]

/-- A write of ADMIN_CTL that changes EN makes or removes queue 0. -/
theorem execAdminCtlEn_changes {s : State} {val : Nat} (hcpl : s.view.bar0Cpl s.ctx Reg.hifAdminCtl = .success)
    (hen : bit val 31 ≠ bit (s.view.reg Reg.hifAdminCtl) 31) :
    execAdminCtlEn val s = .next (s.commit
      (((s.view.setFld Reg.hifAdminCtl 0 11 val).setFld Reg.hifAdminCtl 31 1 (val / 2 ^ 31)).adminEnable (bit val 31) (val % 2048))) := by
  refine (State.run_bar0 _ hcpl).trans ?_
  dsimp only
  rw [if_neg (by simpa using hen)]

/-- Settles O27: each clause is the rule above for its event. -/
theorem hostEventsComplete : Obligations.HostEventsComplete := by
  intro s
  refine ⟨?_, ?_, ?_, ?_, ?_, ?_, ?_, ?_⟩
  · exact fun sq val q hbars hop hq hserving hval hroom =>
      (State.run_doorbell _ hbars hop : execSqDoorbell sq 0 4 val s = _).trans (by rw [Dev.sqTail_moves hq hserving hval hroom])
  · exact fun cq val q hbars hop hq hval hlive =>
      (State.run_doorbell _ hbars hop : execCqDoorbell cq 0 4 val s = _).trans (by rw [Dev.cqHead_moves hq hval hlive])
  · exact fun val h hbars hop hh hval hlive =>
      (State.run_doorbell _ hbars hop : execHrqDoorbell 0 4 val s = _).trans (by rw [Dev.hrqHead_moves hh hval hlive])
  · exact fun n => execSqFetch_high
  · exact fun n => execSqFetch_normal
  · intro off len val x d hbars hoff hop a hmapped hwhole d1 _ hown
    exact (execBar2Access_operational hbars hoff hop true val).trans (by rw [if_pos rfl, Dev.bar2Write_stores val hmapped hwhole hown])
  · intro off len val x d hbars hoff hop a hmapped hmem
    exact (execBar2Access_operational hbars hoff hop false val).trans
      (by rw [if_neg Bool.false_ne_true, Dev.bar2Read_reads hmapped hmem])
  · exact fun val => execAdminCtlEn_changes

end Sys2Proof.Machine
end

section
/-! PROOFS about the host interface (chapter 11): coalesced and pending vectors, timeouts of host requests, mailboxes, the pool's link, and the
messages of the management endpoint. -/

namespace Sys2Proof.Machine

/-! ### Vectors that wait (R535, R536) -/

section
variable {s : State} {v : Nat}

theorem execVectorCoalTimeout_late {w : VecState} (hw : tblGet v s.view.hif.vecs = some w) (hus : s.view.fld (Reg.hifVecCoal v) 16 16 ≠ 0)
    (hlate : w.oldest + s.view.fld (Reg.hifVecCoal v) 16 16 * 1000 ≤ s.view.now) :
    execVectorCoalTimeout v s = .next (s.commit (s.view.raiseVec v)) := by
  refine State.run_eq ?_
  rw [hw]
  exact if_neg (by rw [beq_eq_false_iff_ne.2 hus, decide_eq_false (Nat.not_lt.2 hlate)]; exact Bool.false_ne_true)

theorem execVectorUnmask_sends (hcpl : s.view.bar0Cpl s.ctx (Reg.msixCtrl v) = .success)
    (hpending : bit ((s.view.setFld (Reg.msixCtrl v) 0 1 0).reg (Reg.msixPba (v / 32))) (v % 32) = true)
    (hen : s.view.hif.hp.msixEnable = true) (hmask : s.view.hif.hp.functionMask = false) (hbme : s.view.hif.hp.bme = true) :
    execVectorUnmask v s = .next (s.commit
      (((s.view.setFld (Reg.msixCtrl v) 0 1 0).setFld (Reg.msixPba (v / 32)) (v % 32) 1 0).send (.msix v))) := by
  refine (State.run_bar0 _ hcpl).trans ?_
  dsimp only
  rw [if_pos (by rw [hpending, Dev.setFld_hif, hen, hmask, hbme]; rfl)]

end

/-! ### Timeouts of host requests (R540) -/

/-- The requests with the first of a number replaced. -/
def Dev.putRequest (d : Dev) (n : Nat) (r : HostReq) : Dev :=
  { d with hif := { d.hif with requests := replaceFirst (fun (q : HostReq) => q.reqId == n) (fun _ => r) d.hif.requests } }

section
variable {s : State} {n : Nat} {r : HostReq} (hr : (s.view.hif.requests.find? fun r => r.reqId == n) = some r)
  (hlate : r.since + s.view.fld Reg.hifHrqCtl 0 16 * 1000000 ≤ s.view.now)
include hr hlate

/-- An odd count of RETRIES waits for the retry; an even one for STORE_DONE. -/
theorem execHrqTimeout_late :
    execHrqTimeout n s = .next (s.commit (
      let again := { r with retries := r.retries + 1, since := s.view.now }
      let d1 := (s.view.bump Reg.hifHrqTimeout 1).event s.ctx 0xA r.reqId r.origin 0
      if r.retries % 2 == 1 then (s.view.putRequest n { again with posted := false }).postReq s.ctx { again with posted := false }
      else if r.op == 3 && r.retries < 6 then d1.putRequest n again
      else ((d1.dropRequest n).requestDone s.ctx r.owner .FAULT_LINK).settleTransfers s.ctx)) := by
  refine State.run_eq ?_
  rw [hr]
  exact if_neg (Nat.not_lt.2 hlate)

theorem execHrqTimeout_retries (hodd : r.retries % 2 = 1) :
    execHrqTimeout n s = .next (s.commit
      ((s.view.putRequest n { r with retries := r.retries + 1, since := s.view.now, posted := false }).postReq s.ctx
        { r with retries := r.retries + 1, since := s.view.now, posted := false })) :=
  (execHrqTimeout_late hr hlate).trans (by rw [if_pos (beq_iff_eq.2 hodd)])

theorem execHrqTimeout_waits (heven : r.retries % 2 = 0) (hop : r.op = 3) (hfew : r.retries < 6) :
    execHrqTimeout n s = .next (s.commit
      (((s.view.bump Reg.hifHrqTimeout 1).event s.ctx 0xA r.reqId r.origin 0).putRequest n
        { r with retries := r.retries + 1, since := s.view.now })) :=
  (execHrqTimeout_late hr hlate).trans (by rw [if_neg (by simp [heven]), if_pos (by simp [hop, hfew])])

theorem execHrqTimeout_fails (heven : r.retries % 2 = 0) (hlast : r.op ≠ 3 ∨ 6 ≤ r.retries) :
    execHrqTimeout n s = .next (s.commit
      (((((s.view.bump Reg.hifHrqTimeout 1).event s.ctx 0xA r.reqId r.origin 0).dropRequest n).requestDone s.ctx r.owner .FAULT_LINK).settleTransfers
        s.ctx)) :=
  (execHrqTimeout_late hr hlate).trans (by
    rw [if_neg (by simp [heven]), if_neg (by rcases hlast with h | h <;> simp [h])])

end

/-! ### Mailboxes (R541, R542) -/

theorem State.run_mbox {s : State} {n : Nat} (f : Ctx → Dev → Dev) (hcpl : s.view.bar0Cpl s.ctx (Reg.mboxH2dData n) = .success) (hn : n < 8) :
    s.run (fun x d => d.mboxAccess x (.m n) (f x)) = .next (s.commit (f s.ctx s.view)) := by
  refine State.run_eq ?_
  rw [Dev.mboxAccess, Dev.bar0_served _ hcpl, if_pos hn]

/-! ### The pool's link (R519, R520) -/

/-- The link is down: PP_STAT shows it, and an entry and an event tell so. -/
def Dev.ppDown (x : Ctx) (d : Dev) : Dev :=
  ((({ d with hif := { d.hif with ppUp := false } } : Dev).setFld Reg.hifPpStat 24 8 0).report (sourceOf 0x1800000 0 0) 0x41 2 0x10).event x 8 0x10 0 0

/-- The transfers to and from T3 that are in flight fail. -/
def Dev.poolTransfersFail (x : Ctx) (d : Dev) : Dev :=
  let parks := d.tier.parks.flatMap fun p => (p.targets.zipIdx.filter fun t => t.1.tier == 3).map fun t => (p.idx, t.2)
  let d := parks.foldl (fun (d : Dev) p => d.parkFailed x p.1 p.2 3) d
  let revs := (d.tier.revives.filter fun r => r.reserved && (match tblGet r.idx d.tier.manifests with
    | some m => m.targets.any fun t => t.tier == 3
    | none => false)).map (·.idx)
  let d := revs.foldl (fun (d : Dev) i => d.reviveFails x i .FAULT_LINK) d
  (d.tier.evacuating.filter fun v => v.dest.tier == 3).foldl (fun (d : Dev) v => d.evacAck x v.idx v.target false) d

theorem Dev.poolTransfersFail_idle {x : Ctx} {d : Dev} (hparks : d.tier.parks = []) (hrevives : d.tier.revives = [])
    (hevac : d.tier.evacuating = []) : d.poolTransfersFail x = d := by
  simp only [Dev.poolTransfersFail, hparks, hrevives, hevac, List.flatMap_nil, List.filter_nil, List.map_nil, List.foldl_nil]

theorem execPpLinkDown_up {s : State} (hup : s.view.hif.ppUp = true) :
    execPpLinkDown s = .next (s.commit ((((s.view.ppDown s.ctx).poolTransfersFail s.ctx).storeLinkDown s.ctx).settleTransfers s.ctx)) :=
  State.run_ite_not _ _ (by simp only [hup, Bool.not_true, Bool.false_eq_true, not_false_iff])

theorem execPpLinkDown_idle {s : State} (hup : s.view.hif.ppUp = true) (hparks : (s.view.ppDown s.ctx).tier.parks = [])
    (hrevives : (s.view.ppDown s.ctx).tier.revives = []) (hevac : (s.view.ppDown s.ctx).tier.evacuating = []) :
    execPpLinkDown s = .next (s.commit (((s.view.ppDown s.ctx).storeLinkDown s.ctx).settleTransfers s.ctx)) := by
  rw [execPpLinkDown_up hup, Dev.poolTransfersFail_idle hparks hrevives hevac]

theorem execPpLinkUp_enumerates {s : State} (serials : List Nat) (hdown : s.view.hif.ppUp = false) (hop : s.view.operational = true) :
    execPpLinkUp serials s = .next (s.commit (s.view.ppEnumerate s.ctx serials)) := by
  refine State.run_eq (if_neg ?_)
  rw [hdown, hop]
  exact Bool.false_ne_true

/-- Settles O28: each clause is the rule above for its event. -/
theorem hostSignalsComplete : Obligations.HostSignalsComplete := by
  intro s
  refine ⟨?_, ?_, ?_, ?_, ?_, ?_, ?_, ?_, ?_, ?_, ?_, ?_, ?_⟩
  · exact fun v w => execVectorCoalTimeout_late
  · exact fun v => execVectorUnmask_sends
  · exact fun n r => execHrqTimeout_retries
  · exact fun n r hr hlate heven => execHrqTimeout_waits hr hlate heven
  · exact fun n r hr hlate heven => execHrqTimeout_fails hr hlate heven
  · exact fun n val hcpl hn => State.run_mbox _ hcpl hn
  · exact fun val => s.run_next _
  · exact fun n hcpl hn => State.run_mbox _ hcpl hn
  · exact s.run_next _
  · exact fun m val hup => (State.run_ite _ _ hup : execMboxOwnerWrite m val s = _)
  · exact fun m hup => (State.run_ite _ _ hup : execMboxOwnerRead m s = _)
  · exact execPpLinkDown_idle
  · exact execPpLinkUp_enumerates

/-! ### The management endpoint (R546 to R548) -/

section
variable {s : State} (hecl : s.view.eclipse = false)
include hecl

theorem State.run_mctp (a : Ctx → Dev → McAnswer) : s.run (fun x d => d.mctp (a x d)) = .next (s.commit (s.view.send (.mctp (a s.ctx s.view)))) :=
  State.run_eq (Dev.mctp_answers _ hecl)

/-- A request that sets a part of the host interface keeps it and is answered. -/
theorem State.run_mctpSet (h : Dev → Hif) (a : McAnswer) :
    s.run (fun _ d => if d.eclipse then d else ({ d with hif := h d } : Dev).mctp a) =
      .next (s.commit (({ s.view with hif := h s.view } : Dev).send (.mctp a))) := by
  refine State.run_eq ((if_neg (by rw [hecl]; exact Bool.false_ne_true)).trans (Dev.mctp_answers _ ?_))
  exact hecl

theorem execMctpOtherMessage_control (cmd : Nat) : execMctpOtherMessage 0 cmd s = .next (s.commit (s.view.send (.mctp (.unsupportedCmd cmd)))) :=
  State.run_mctp hecl _

/-- The record handle that a GetPDR reads: 0 stands for the first. -/
theorem execGetpdr_record {record id : Nat} (hid : (sensorIds s.ctx.fuses.part)[(if record = 0 then 1 else record) - 1]? = some id) :
    execGetpdr record s = .next (s.commit (s.view.send (.mctp (.pdr (if record = 0 then 1 else record) id (sensorNumeric id) (sensorUnit id)
      (if (if record = 0 then 1 else record) < (sensorIds s.ctx.fuses.part).length then (if record = 0 then 1 else record) + 1 else 0))))) := by
  refine State.run_eq ?_
  simp only [beq_iff_eq, hid]
  exact Dev.mctp_answers _ hecl

theorem execGetsensorreading_numeric {sensor : Nat} (hin : (sensorIds s.ctx.fuses.part).contains sensor = true)
    (hnum : sensorNumeric sensor = true) :
    execGetsensorreading sensor s = .next (s.commit (s.view.send (.mctp (.sensorReading sensor (s.view.sensor sensor))))) :=
  State.run_eq ((if_pos (by rw [hin, hnum]; rfl)).trans (Dev.mctp_answers _ hecl))

theorem execGetstatesensorreadings_state {sensor : Nat} (hin : (sensorIds s.ctx.fuses.part).contains sensor = true)
    (hstate : sensorNumeric sensor = false) :
    execGetstatesensorreadings sensor s = .next (s.commit (s.view.send (.mctp (.sensorState sensor (s.view.sensor sensor))))) :=
  State.run_eq ((if_pos (by rw [hin, hstate]; rfl)).trans (Dev.mctp_answers _ hecl))

end

/-- Settles O29: outside Eclipse mode each message is answered (`Dev.mctp_answers`); the two refreshes are their own expressions. -/
theorem managementCommandsComplete : Obligations.ManagementCommandsComplete := by
  intro s
  refine ⟨?_, ?_, ?_, ?_, ?_, ?_, ?_, ?_, ?_, ?_, ?_, ?_, ?_, ?_, ?_, ?_, ?_, ?_, ?_⟩
  · exact fun eid hecl => State.run_mctpSet hecl (fun d => { d.hif with eid := eid }) _
  · exact fun hecl => State.run_mctp hecl fun _ d => .endpointId d.hif.eid
  · exact fun hecl => State.run_mctp hecl fun x _ => .uuid x.fuses.serial
  · exact fun typ hecl => State.run_mctp hecl fun _ _ => .versions typ (typ == 0xFF || typ == 0x00 || typ == 0x01)
  · exact fun hecl => State.run_mctp hecl fun _ _ => .messageTypes [0x01]
  · exact fun cmd hecl => execMctpOtherMessage_control hecl cmd
  · exact s.run_next _
  · exact s.run_next _
  · exact fun tid hecl => State.run_mctpSet hecl (fun d => { d.hif with tid := tid }) _
  · exact fun hecl => State.run_mctp hecl fun _ d => .tid d.hif.tid
  · exact fun typ hecl => State.run_mctp hecl fun _ _ => .pldmVersion typ (typ == 0 || typ == 2)
  · exact fun hecl => State.run_mctp hecl fun _ _ => .pldmTypes [0, 2]
  · exact fun typ hecl => State.run_mctp hecl fun _ _ => .pldmCommands typ (pldmCommandNames typ)
  · exact fun eid hecl => State.run_mctpSet hecl (fun d => { d.hif with eventReceiver := some eid }) _
  · exact fun hecl => State.run_mctp hecl fun x _ => .pdrInfo (sensorIds x.fuses.part).length
  · exact fun record id hecl hid => execGetpdr_record hecl hid
  · exact fun sensor hecl => execGetsensorreading_numeric hecl
  · exact fun sensor hecl => execGetstatesensorreadings_state hecl
  · exact fun typ cmd hecl => State.run_mctp hecl fun _ _ => .unsupportedPldm typ cmd

end Sys2Proof.Machine
end

section
/-! PROOFS about the Belt (chapter 12): the registers of its harts, its commands, and the instructions and ends of running work. -/

namespace Sys2Proof.Machine

/-! ### Registers of a hart (R559) -/

theorem getAt_setAt {α : Type} (z v : α) (i j : Nat) (l : List α) : getAt z j (setAt z v i l) = if j = i then v else getAt z j l := by
  have hnil : ∀ k, getAt z k [] = z := fun k => rfl
  induction i generalizing j l with
  | zero => cases l <;> cases j <;> simp [setAt, getAt]
  | succ i ih =>
    cases l with
    | nil =>
      cases j with
      | zero => rfl
      | succ j => exact (ih j []).trans (by simp [hnil])
    | cons a as =>
      cases j with
      | zero => rfl
      | succ j => exact (ih j as).trans (by simp [getAt])

theorem setAt_eq_set {α : Type} (z v : α) {i : Nat} {l : List α} (h : i < l.length) : setAt z v i l = l.set i v := by
  induction i generalizing l with
  | zero => cases l with
    | nil => exact absurd h (Nat.not_lt_zero _)
    | cons a as => rfl
  | succ i ih => cases l with
    | nil => exact absurd h (Nat.not_lt_zero _)
    | cons a as => exact congrArg (a :: ·) (ih (Nat.lt_of_succ_lt_succ h))

section
variable {r : HartRegs} {n : Nat} (v : Nat)

theorem HartRegs.get_zero (h : n % 32 = 0) : r.get n = 0 := by simp [HartRegs.get, h]

theorem HartRegs.set_zero (h : n % 32 = 0) : r.set n v = r := by simp [HartRegs.set, h]

theorem HartRegs.get_set (h : n % 32 ≠ 0) (m : Nat) : (r.set n v).get m = if m % 32 = n % 32 then v % 2 ^ 64 else r.get m := by
  by_cases hm : m % 32 = 0
  · simp [HartRegs.get, hm, h.symm]
  · simp [HartRegs.get, HartRegs.set, hm, h, getAt_setAt, u64]

end

/-- The integer registers that a hart goes on with: x0 cleared, the others at their width. -/
theorem HartRegs.norm_x (old r : HartRegs) : (old.norm r).x = ((List.range 32).map fun i => getAt 0 i r.x % 2 ^ 64).set 0 0 :=
  setAt_eq_set 0 0 (by simp)

/-- Settles O15: the cases of `HartRegs.get_set`, and the list of `HartRegs.norm_x`. -/
theorem hartRegisterZero : Obligations.HartRegisterZero := by
  refine ⟨fun r n v h => ⟨HartRegs.get_zero h, HartRegs.set_zero v h⟩, fun r n m v h => ⟨?_, fun hm => ?_⟩, fun old r => ⟨?_, ?_, ?_, ?_⟩⟩
  · rw [HartRegs.get_set v h, if_pos rfl]
  · rw [HartRegs.get_set v h, if_neg hm]
  · exact (getAt_setAt ..).trans (if_pos rfl)
  · simp [HartRegs.norm_x]
  · intro v hv
    rw [HartRegs.norm_x] at hv
    rcases List.mem_or_eq_of_mem_set hv with hmem | rfl
    · obtain ⟨i, -, rfl⟩ := List.mem_map.1 hmem
      exact Nat.mod_lt _ (by positivity)
    · positivity
  · exact Nat.le_max_left ..

/-! ### Commands of the Belt (R567, R569, R570, R573, R579, R583) -/

section
variable {x : Ctx} {d : Dev} {p : Nat}

theorem beltChecks_append {cs : List (Bool × Status)} (h : firstFail (d.beltChecks x p) = none) (hcs : firstFail cs = none) :
    firstFail (d.beltChecks x p ++ cs) = none := by
  rw [firstFail_append, h, hcs]
  rfl

theorem Dev.placeTask_waits {n payload : Nat} {q : BeltQueue} (owner : TaskOwner) (hq : d.beltQueue p n = some q)
    (hroom : q.waiting.length < q.slots) (hup : d.domainUp .belt = true) :
    d.placeTask p n payload owner =
      (d.setBeltQueue p n { q with waiting := q.waiting ++ [⟨n, q.entry, payload, owner, d.now⟩] }, true) := by
  simp only [Dev.placeTask, hq, hroom, hup, decide_true, Bool.and_self, if_true]

end

section
variable {s : State} {e : Entry} {p : Nat} (hchecks : firstFail (s.view.beltChecks s.ctx p) = none)
include hchecks

/-- A Belt command with its reserved bytes 0 and its checks passed. -/
theorem State.ring_belt {used res : List (Nat × Nat)} {cs : Ctx → Dev → List (Bool × Status)} (f : Ctx → Cmd → Dev → Dev)
    (hres : e.reservedSet used res = false) (hcs : firstFail (cs s.ctx s.view) = none) :
    s.ring e used res (fun x d c => d.checked x c (d.beltChecks x p ++ cs x d) (f x c)) = .next (s.commit (f s.ctx e.cmd s.view)) := by
  rw [State.ring_next _ hres, Dev.checked_pass _ (beltChecks_append hchecks hcs)]

theorem execBeltJobStart_starts (hp : e.f 16 1 = p) (hres : e.reservedSet [(16, 1), (18, 22)] [(240, 16)] = false)
    (hmode : s.view.taskMode p = false) (hjob : (s.view.beltPart p).job = none) (h0 : e.f 18 2 ≠ 0)
    (hfit : e.f 18 2 ≤ 64 * (s.view.onlineCores p).length) (hwin : s.view.windowed p (e.f 24 6) 1 2 = true) :
    execBeltJobStart e s = .next (s.commit
      ((s.view.measureAt s.ctx 5 e.cmd.opcode 0 (e.f 24 6) 0x10000).startJob e.cmd p (e.f 18 2) (e.f 20 4) (e.f 24 6) (e.f 32 8))) := by
  subst hp
  exact State.ring_belt hchecks _ hres (by simp [hmode, hjob, h0, hfit, hwin])

theorem execBeltJobKill_ends (hp : e.f 16 1 = p) (hres : e.reservedSet [(16, 1)] [] = false) (hjob : (s.view.beltPart p).job.isSome = true) :
    execBeltJobKill e s = .next (s.commit ((s.view.endJob s.ctx p .CANCELLED 0).finish s.ctx e.cmd .DONE 0)) := by
  subst hp
  exact State.ring_belt hchecks _ hres (by simp [Option.isSome_iff_ne_none.1 hjob])

theorem execBeltJobSuspend_suspends (hp : e.f 16 1 = p) (hres : e.reservedSet [(16, 1)] [] = false) (hjob : s.view.jobIs p false = true) :
    execBeltJobSuspend e s = .next (s.commit ((s.view.suspendJob s.ctx p).finish s.ctx e.cmd .DONE 0)) := by
  subst hp
  exact State.ring_belt hchecks _ hres (by simp [hjob])

theorem execBeltJobResume_resumes (hp : e.f 16 1 = p) (hres : e.reservedSet [(16, 1)] [] = false) (hjob : s.view.jobIs p true = true) :
    execBeltJobResume e s = .next (s.commit ((s.view.resumeJob s.ctx p).finish s.ctx e.cmd
      (if ((s.view.resumeJob s.ctx p).beltPart p).job.isSome then .DONE else .FAULT_MEDIA) 0)) := by
  subst hp
  exact State.ring_belt hchecks _ hres (by simp [hjob])

section
variable {q : Nat} (hp : e.f 16 1 = p) (hn : e.f 17 1 = q) (hres : e.reservedSet [(16, 8), (24, 8)] [(153, 7), (240, 16)] = false)
  (hmode : s.view.taskMode p = true) (hq : q ≤ 15) (hwin : s.view.windowed p (e.f 24 6) 1 2 = true)
include hp hn hres hmode hq hwin

theorem execBeltQueueSet_enables (hen : bit (e.f 19 1) 0 = true) (hmin : 4 ≤ e.f 18 1) (hmax : e.f 18 1 ≤ 11)
    (hnew : s.view.beltQueue p q = none) (hslots : sumOf ((s.view.beltPart p).queues.map fun b => b.2.slots) + 2 ^ e.f 18 1 ≤ 2048) :
    execBeltQueueSet e s = .next (s.commit
      (((s.view.measureAt s.ctx 5 e.cmd.opcode 0 (e.f 24 6) 0x10000).setBeltQueue p q ⟨2 ^ e.f 18 1, e.f 20 4, e.f 24 6, []⟩).finish s.ctx e.cmd
        .DONE 0)) := by
  subst hp hn
  exact (State.ring_belt hchecks _ hres 
    (by simp [hmode, Nat.not_lt.2 hq, hwin, hen, Nat.not_lt.2 hmin, Nat.not_lt.2 hmax, hnew, Nat.not_lt.2 hslots])).trans (by rw [if_pos hen])

theorem execBeltQueueSet_disables (hen : bit (e.f 19 1) 0 = false) (hfree : s.view.queueBound p q = false) :
    execBeltQueueSet e s = .next (s.commit ((s.view.disableQueue s.ctx p q).finish s.ctx e.cmd .DONE 0)) := by
  subst hp hn
  exact (State.ring_belt hchecks _ hres (by simp [hmode, Nat.not_lt.2 hq, hwin, hen, hfree])).trans (by rw [if_neg (by simp [hen])])

end

theorem execBeltTaskSubmit_queues {n : Nat} {b q : BeltQueue} {d1 : Dev} (hp : e.f 16 1 = p) (hn : e.f 17 1 = n)
    (hres : e.reservedSet [(16, 2), (24, 8)] [(240, 16)] = false) (hmode : s.view.taskMode p = true) (hb : s.view.beltQueue p n = some b)
    (hslot : b.waiting.length < b.slots)
    (hbuf : (([(e.f 24 6, 64)]).find? fun b => !(mappedRange s.ctx.fuses.part s.view b.1 b.2)) = none)
    (hmedia : s.view.mediaBad (e.f 24 6) 64 = false) (hd1 : s.view.eccRead (e.f 24 6) 64 true = d1) (hq : d1.beltQueue p n = some q)
    (hroom : q.waiting.length < q.slots) (hup : d1.domainUp .belt = true) :
    execBeltTaskSubmit e s = .next (s.commit
      (d1.setBeltQueue p n { q with waiting := q.waiting ++ [⟨n, q.entry, d1.ld s.ctx (e.f 24 6) 64, .cmd e.cmd, d1.now⟩] })) := by
  subst hp hn hd1
  refine (State.ring_belt hchecks _ hres (by simp [hmode, hb, hslot])).trans ?_
  rw [Dev.buffers_pass _ hbuf, Dev.source_pass _ hmedia, Dev.placeTask_waits _ hq hroom hup]

theorem execBeltHookReg_registers (hp : e.f 18 1 = p) (hres : e.reservedSet [(16, 4)] [] = false) (hall : e.f 16 2 ≠ 0xFFFF)
    (hnew : (s.view.belt.hooks.any fun h => h.1 == e.f 16 2) = false) (hmode : s.view.taskMode p = true)
    (hqueue : (s.view.beltQueue p (e.f 19 1)).isSome = true) (hroom : s.view.belt.hooks.length < 256) :
    execBeltHookReg e s = .next (s.commit
      (({ s.view with belt := { s.view.belt with hooks := s.view.belt.hooks ++ [(e.f 16 2, p, e.f 19 1)] } } : Dev).finish s.ctx e.cmd .DONE 0)) := by
  subst hp
  refine State.ring_belt hchecks _ hres ?_
  simp only [firstFail_cons, firstFail_nil, beq_eq_false_iff_ne.2 hall, hnew, hmode, Option.isNone_eq_false_iff.2 hqueue,
    decide_eq_false (Nat.not_le.2 hroom), Bool.or_self, Bool.not_true, Bool.false_eq_true, if_false]

theorem execBeltLifeReg_registers (hp : e.f 16 1 = p) (hres : e.reservedSet [(16, 2), (20, 2)] [] = false) (hmode : s.view.taskMode p = true)
    (hqueue : (s.view.beltQueue p (e.f 17 1)).isSome = true) :
    execBeltLifeReg e s = .next (s.commit (({ s.view with
      belt := { s.view.belt with life := if e.f 20 2 == 0 then none else some (p, e.f 17 1, e.f 20 2) } } : Dev).finish s.ctx e.cmd .DONE 0)) := by
  subst hp
  exact State.ring_belt hchecks _ hres (by simp [hmode, Option.isNone_eq_false_iff.2 hqueue])

end

theorem execBeltHookUnreg_removes {s : State} {e : Entry} (hres : e.reservedSet [(16, 2)] [] = false) (hbelt : s.ctx.fuses.part.hasBelt = true)
    (hup : s.view.domainUp .belt = true) (hreg : (s.view.belt.hooks.any fun h => h.1 == e.f 16 2) = true)
    (hfree : (s.view.sess.table.any fun p => p.2.state != .void && p.2.hook == e.f 16 2) = false) :
    execBeltHookUnreg e s = .next (s.commit
      (({ s.view with belt := { s.view.belt with hooks := s.view.belt.hooks.filter fun h => h.1 != e.f 16 2 } } : Dev).finish s.ctx e.cmd .DONE 0)) := by
  rw [execBeltHookUnreg, State.ring_next _ hres, Dev.checked_pass]
  simp only [firstFail_cons, firstFail_nil, hbelt, hup, hreg, hfree, Bool.not_true, Bool.false_eq_true, if_false]

/-- Settles O40: each clause is the rule above for its command. -/
theorem beltCommandsComplete : Obligations.BeltCommandsComplete := by
  intro s
  refine ⟨?_, ?_, ?_, ?_, ?_, ?_, ?_, ?_, ?_, ?_⟩
  · exact fun e hres hchecks => execBeltJobStart_starts hchecks rfl hres
  · exact fun e hres hchecks => execBeltJobKill_ends hchecks rfl hres
  · exact fun e hres hchecks => execBeltJobSuspend_suspends hchecks rfl hres
  · exact fun e hres hchecks => execBeltJobResume_resumes hchecks rfl hres
  · exact fun e hres hchecks => execBeltQueueSet_enables hchecks rfl rfl hres
  · exact fun e hres hchecks => execBeltQueueSet_disables hchecks rfl rfl hres
  · exact fun e b q hres hchecks hmode hb hslot hbuf hmedia => execBeltTaskSubmit_queues hchecks rfl rfl hres hmode hb hslot hbuf hmedia rfl
  · exact fun e hres hchecks => execBeltHookReg_registers hchecks rfl hres
  · exact fun e => execBeltHookUnreg_removes
  · exact fun e hres hchecks => execBeltLifeReg_registers hchecks rfl hres

end Sys2Proof.Machine
end

section
/-! PROOFS about running harts (chapter 12): custom instructions, exceptions, dispatch and the limits of tasks and jobs. -/

namespace Sys2Proof.Machine

/-! ### Custom instructions (R562, R563) -/

section
variable {s : State} {h : Nat} {w0 w : HartWork} {d1 : Dev} (hw0 : tblGet h s.view.belt.harts = some w0) (hruns : w0.wait = none)
  (hd1 : s.view.runHart s.ctx h = d1) (hw : tblGet h d1.belt.harts = some w)
include hw0 hruns hd1 hw

/-- An instruction of a hart that runs acts on what the program has left. -/
theorem State.run_bt (f : Ctx → Dev → HartWork → Dev) : s.run (fun x d => d.bt x h (f x)) = .next (s.commit (f s.ctx d1 w)) := by
  refine State.run_eq ?_
  subst hd1
  simp only [Dev.bt, hw0, hruns, hw, Option.isSome_none, Bool.false_eq_true, if_false, Option.getD_some]

theorem execBtTdone_ends {t : Task} (rs1 rs2 : Nat) (ht : w.task = some t) :
    execBtTdone h rs1 rs2 s = .next (s.commit (match t.owner with
      | .hook r n _ => (d1.leaveHart s.ctx h w).onHookReply s.ctx r n (u32 (w.regs.get rs1)) (w.regs.get rs2 % 256)
      | _ => (d1.leaveHart s.ctx h w).taskOver s.ctx t .DONE (u32 (w.regs.get rs1)))) := by
  refine (State.run_bt hw0 hruns hd1 hw _).trans ?_
  simp only [ht] <;> rfl

theorem execBtExit_exits (rs1 : Nat) (ht : w.task = none) :
    execBtExit h rs1 s = .next (s.commit (d1.exitHart s.ctx h w (u32 (w.regs.get rs1)))) := by
  refine (State.run_bt hw0 hruns hd1 hw _).trans ?_
  rw [ht]

theorem execBtSubmit_places {p a n : Nat} {q : BeltQueue} {d2 : Dev} (rd rs1 rs2 : Nat) (hp : d1.partOf h = p) (ha : w.regs.get rs1 = a)
    (hn : w.regs.get rs2 % 16 = n) (hread : d1.mayRead p a 64 = true) (hmode : d1.taskMode p = true) (hq : d1.beltQueue p n = some q)
    (hd2 : d1.holeCheck s.ctx a 64 = d2) :
    execBtSubmit h rd rs1 rs2 s = .next (s.commit
      ((d2.placeTask p n (d2.ld s.ctx a 64) (.thread (d2.workComp h w))).1.btDone h w rd
        (if (d2.placeTask p n (d2.ld s.ctx a 64) (.thread (d2.workComp h w))).2 then 0 else 1))) := by
  refine (State.run_bt hw0 hruns hd1 hw _).trans ?_
  subst hp ha hn hd2
  simp only [hread, hmode, hq, Bool.not_true, Bool.false_eq_true, if_false]

theorem execBtWait_compares {a : Nat} {d2 : Dev} (rd rs1 rs2 : Nat) (ha : w.regs.get rs1 / 8 * 8 = a)
    (hread : d1.mayRead (d1.partOf h) a 8 = true) (hd2 : d1.holeCheck s.ctx a 8 = d2) :
    execBtWait h rd rs1 rs2 s = .next (s.commit
      (if d2.ld s.ctx a 8 ≠ w.regs.get rs2 then d2.btDone h w rd (d2.ld s.ctx a 8)
       else d2.setHart h { w with wait := some (rd, a, w.regs.get rs2, d2.now) })) := by
  refine (State.run_bt hw0 hruns hd1 hw _).trans ?_
  subst ha hd2
  simp only [hread, Bool.not_true, Bool.false_eq_true, if_false, bne_iff_ne]

end

/-! ### A hart that waits (R562, R563) -/

section
variable {s : State} {h rd a old t : Nat} {w : HartWork} (hw : tblGet h s.view.belt.harts = some w) (hwait : w.wait = some (rd, a, old, t))
include hw hwait

theorem execBtWaitResume_changed (hnew : s.view.ld s.ctx a 8 ≠ old) :
    execBtWaitResume h s = .next (s.commit (s.view.btDone h w rd (s.view.ld s.ctx a 8))) := by
  refine State.run_eq ?_
  rw [hw]
  dsimp only
  rw [hwait]
  exact if_neg (by rw [beq_eq_false_iff_ne.2 hnew]; exact Bool.false_ne_true)

theorem execBtWaitTimeout_late (hlate : t + s.view.fld Reg.beltWaitCtl 0 16 * 1000 ≤ s.view.now) :
    execBtWaitTimeout h s = .next (s.commit (s.view.btDone h w rd (s.view.ld s.ctx a 8))) := by
  refine State.run_eq ?_
  rw [hw]
  dsimp only
  rw [hwait]
  exact if_neg (Nat.not_lt.2 hlate)

end

/-! ### Exceptions, dispatch and limits (R561, R568, R572, R573) -/

section
variable {s : State}

theorem execHartException_running {h : Nat} {w : HartWork} (cause : Nat) (hw : tblGet h s.view.belt.harts = some w) (hruns : w.wait = none) :
    execHartException h cause s = .next (s.commit ((s.view.runHart s.ctx h).hartFault s.ctx h w cause)) := by
  refine State.run_eq ?_
  rw [hw]
  exact if_neg (by rw [hruns]; exact Bool.false_ne_true)

theorem execTaskDispatch_taskMode {p : Nat} (hp : p < 2) (hmode : s.view.taskMode p = true) (hbelt : s.ctx.fuses.part.hasBelt = true)
    (hup : s.view.domainUp .belt = true) : execTaskDispatch p s = .next (s.commit (s.view.dispatch s.ctx p)) :=
  State.run_ite _ _ (by simp only [hp, hmode, hbelt, hup, decide_true, Bool.and_self])

theorem execTaskTimeout_late {h : Nat} {w : HartWork} {t : Task} {q : BeltQueue} (hw : tblGet h s.view.belt.harts = some w)
    (ht : w.task = some t) (hq : s.view.beltQueue (s.view.partOf h) t.queue = some q) (hus : q.taskUs ≠ 0) (hbulk : t.deadline = none)
    (hlate : q.taskUs * 1000 ≤ s.view.ranFor w) :
    execTaskTimeout h s = .next (s.commit ((s.view.runHart s.ctx h).endTask s.ctx h w t .FAULT_TIMEOUT 0)) := by
  refine State.run_eq ?_
  rw [hw]
  dsimp only
  rw [ht]
  dsimp only
  rw [hq]
  exact if_neg (by simp [hus, hbulk, Nat.not_lt.2 hlate])

theorem execJobLimit_late {p : Nat} {j : Job} (hj : (s.view.beltPart p).job = some j) (hlimit : j.limitMs ≠ 0) (hruns : j.suspended = false)
    (hlate : j.since + (j.limitMs * 1000000 - j.ranNs) ≤ s.view.now) :
    execJobLimit p s = .next (s.commit
      (((s.view.jobHarts p s.view.belt.harts).foldl (fun (d : Dev) h => d.runHart s.ctx h) s.view).endJob s.ctx p .FAULT_TIMEOUT 0)) := by
  refine State.run_eq ?_
  rw [hj]
  exact if_neg (by
    rw [beq_eq_false_iff_ne.2 hlimit, hruns, decide_eq_false (Nat.not_lt.2 hlate)]
    exact Bool.false_ne_true)

end

/-- Settles O58: an instruction is `State.run_bt` with its effect; the other events are the rules above. -/
theorem hartEventsComplete : Obligations.HartEventsComplete := by
  intro s
  refine ⟨?_, ?_, ?_, ?_, ?_, ?_, ?_, ?_, ?_, ?_, ?_, ?_, ?_, ?_, ?_, ?_, ?_⟩
  · exact fun h rs1 rs2 t w0 w hw0 hruns hw => execBtTdone_ends hw0 hruns rfl hw rs1 rs2
  · exact fun h rs1 w0 w hw0 hruns hw => execBtExit_exits hw0 hruns rfl hw rs1
  · exact fun h rd w0 w hw0 hruns hw => (State.run_bt hw0 hruns rfl hw _ : execBtTime h rd s = _)
  · exact fun h rd w0 w hw0 hruns hw => (State.run_bt hw0 hruns rfl hw _ : execBtSelf h rd s = _)
  · exact fun h rd rs1 w0 w hw0 hruns hw => (State.run_bt hw0 hruns rfl hw _ : execBtMix h rd rs1 s = _)
  · exact fun h rd rs1 w0 w hw0 hruns hw => (State.run_bt hw0 hruns rfl hw _ : execBtRkey h rd rs1 s = _)
  · exact fun h w0 w hw0 hruns hw => (State.run_bt hw0 hruns rfl hw _ : execBtFlush h s = _)
  · exact fun h rd rs1 rs2 q w0 w hw0 hruns hw hread hmode hq =>
      execBtSubmit_places hw0 hruns rfl hw rd rs1 rs2 rfl rfl rfl hread hmode hq rfl
  · exact fun h rd rs1 rs2 w0 w hw0 hruns hw hread => execBtWait_compares hw0 hruns rfl hw rd rs1 rs2 rfl hread rfl
  · exact fun h rd a old t w => execBtWaitResume_changed
  · exact fun h rd a old t w => execBtWaitTimeout_late
  · exact fun h rs1 w0 w hw0 hruns hw => (State.run_bt hw0 hruns rfl hw _ : execBtMbox h rs1 s = _)
  · exact fun h rd w0 w hw0 hruns hw => (State.run_bt hw0 hruns rfl hw _ : execBtMboxr h rd s = _)
  · exact fun h cause w => execHartException_running cause
  · exact fun p => execTaskDispatch_taskMode
  · exact fun h w t q => execTaskTimeout_late
  · exact fun p j => execJobLimit_late

end Sys2Proof.Machine
end

section
/-! PROOFS about resets (chapter 13): the reset pins and RST_CTL.WARM. -/

namespace Sys2Proof.Machine

/-- A warm reset that nothing absorbs resets (R606, R615). -/
theorem Dev.warmAsked_resets {d : Dev} (x : Ctx) (cause : Nat) (hrails : d.boot.railsOut = false) (hheld : d.boot.heldPerst = false)
    (hecl : d.eclipse = false) : d.warmAsked x cause = d.warmReset x cause :=
  if_neg (by rw [hrails, hheld, hecl]; exact Bool.false_ne_true)

theorem execPerstNAssert_resets {s : State} (hrails : s.view.boot.railsOut = false) :
    execPerstNAssert s = .next (s.commit
      (let n := s.view.coldReset s.ctx 1 0
       let n1 : Dev := { n with boot := { n.boot with heldPerst := true, heldWarm := s.view.boot.heldWarm } }
       if s.view.eclipse then n1.enterEclipse else n1)) :=
  State.run_ite_not _ _ (by rw [hrails]; exact Bool.false_ne_true)

theorem execPerstNDeassert_starts {s : State} (straps rnd : Nat) (hheld : s.view.boot.heldPerst = true) (hrails : s.view.boot.railsOut = false) :
    execPerstNDeassert straps rnd s = .next (s.commit
      (let d1 : Dev := { s.view with boot := { s.view.boot with heldPerst := false } }
       let d2 := ({ d1 with sec := d1.sec.fresh rnd } : Dev).sampleStraps straps
       if d2.eclipse then d2 else d2.beginStart)) :=
  State.run_eq ((if_neg (by rw [hheld]; exact Bool.false_ne_true)).trans (if_neg (by rw [hrails]; exact Bool.false_ne_true)))

theorem execWarmRstN_resets {s : State} (hrails : s.view.boot.railsOut = false) (hheld : s.view.boot.heldPerst = false)
    (hecl : s.view.eclipse = false) :
    execWarmRstN s = .next (s.commit (({ s.view with boot := { s.view.boot with heldWarm := true } } : Dev).warmReset s.ctx 2)) :=
  State.run_eq (Dev.warmAsked_resets _ _ hrails hheld hecl)

theorem execWarmRstNRelease_starts {s : State} {d1 : Dev} (hheld : s.view.boot.heldWarm = true)
    (hd1 : { s.view with boot := { s.view.boot with heldWarm := false } } = d1) (hfree : d1.held = false) (hecl : d1.eclipse = false) :
    execWarmRstNRelease s = .next (s.commit d1.beginStart) := by
  subst hd1
  exact State.run_eq ((if_neg (by rw [hheld]; exact Bool.false_ne_true)).trans (if_neg (by rw [hfree, hecl]; exact Bool.false_ne_true)))

theorem execRstCtlWarm_resets {s : State} (hcpl : s.view.bar0Cpl s.ctx Reg.chipRstCtl = .success) (hrails : s.view.boot.railsOut = false)
    (hheld : s.view.boot.heldPerst = false) (hecl : s.view.eclipse = false) :
    execRstCtlWarm s = .next (s.commit (s.view.warmReset s.ctx 3)) :=
  (State.run_bar0 _ hcpl).trans (by rw [Dev.warmAsked_resets _ _ hrails hheld hecl])

/-- Settles O55: power-on reset and a rail out of range act as they are written; the others find nothing wider that absorbs them. -/
theorem resetPinsComplete : Obligations.ResetPinsComplete := by
  intro s
  refine ⟨?_, ?_, ?_, ?_, ?_, ?_, ?_⟩
  · exact fun straps rnd testMode => State.run_next s _
  · exact State.run_next s _
  · exact fun hrails => execPerstNAssert_resets hrails
  · exact fun straps rnd hheld hrails => execPerstNDeassert_starts straps rnd hheld hrails
  · exact fun hrails hheld hecl => execWarmRstN_resets hrails hheld hecl
  · exact fun hheld hfree hecl => execWarmRstNRelease_starts hheld rfl hfree hecl
  · exact fun hcpl hrails hheld hecl => execRstCtlWarm_resets hcpl hrails hheld hecl

end Sys2Proof.Machine
end

section
/-! PROOFS about the stages of a start (chapter 13): the ROM, CORES, POWER, MEMORY, IMAGE, CONFIG and FABRIC stages and neighbour push. -/

namespace Sys2Proof.Machine

/-! ### The ROM stage (R591, R594, R598 to R600) -/

theorem Dev.romFlash_takes {x : Ctx} {d : Dev} {copy dir : Nat} (hdir : d.directory = some (copy, dir)) :
    d.romFlash x = match Dev.firstSlot 0 (fun s =>
        let p := (dirSlot dir s).1
        let v := d.flashLd p.1 (min p.2 0x2000001)
        (d.bundleOk p.2 v).map fun ver => (p.2, v, ver)) (dirOrder dir) d with
      | (d1, some (slot, b, v, ver)) => d1.romDone slot b v ver
      | (d1, none) => d1.failStart x 0x02 0 := by
  simp only [Dev.romFlash, hdir] <;> rfl

section
variable {s : State} (hat : s.view.at_ 1 = true)
include hat

theorem execRomStage_eclipse (flashFault : Bool) (hsrc : s.view.bootSrc = 3) :
    execRomStage flashFault s = .next (s.commit (((s.view.setFld Reg.chipBootStat 8 8 0).setReg Reg.chipBootDetail 0).enterEclipse)) :=
  State.run_eq (by simp only [hat, hsrc, Bool.not_true, Bool.false_eq_true, if_false, beq_self_eq_true, if_true])

variable (htest : s.view.boot.testMode = false)
include htest

theorem execRomStage_flash (hsrc : s.view.bootSrc = 0) : execRomStage false s = .next (s.commit (s.view.romFlash s.ctx)) :=
  State.run_eq (by simp only [hat, hsrc, htest, Bool.not_true, Bool.false_eq_true, if_false, Nat.reduceBEq, if_true])

theorem execRomStage_hostPush (flashFault : Bool) (hsrc : s.view.bootSrc = 1) (hpush : s.view.boot.pushBundle = true) :
    execRomStage flashFault s = .next (s.commit (s.view.romTake s.ctx 0x2000000 s.view.bootRamVal)) :=
  State.run_eq (by simp only [hat, hsrc, htest, hpush, Bool.not_true, Bool.false_eq_true, if_false, Nat.reduceBEq, if_true])

theorem execRomStage_neighbourPush {b v : Nat} (flashFault : Bool) (hsrc : s.view.bootSrc = 2) (hbundle : s.view.boot.bundle = some (b, v)) :
    execRomStage flashFault s = .next (s.commit (s.view.romTake s.ctx b v)) :=
  State.run_eq (by simp only [hat, hsrc, htest, hbundle, Bool.not_true, Bool.false_eq_true, if_false, Nat.reduceBEq])

end

/-! ### POWER and IMAGE (R594, R599, R600, R671) -/

theorem execPowerStage_aligns {s : State} (hat : s.view.at_ 3 = true) :
    execPowerStage none s = .next (s.commit (((List.range 4).foldl (fun (d : Dev) q => d.alignQuad q)
      ({ s.view with pmc := { s.view.pmc with railMv := List.replicate 4 750 } } : Dev)).enterStage 4)) :=
  State.run_ite_not _ _ (by rw [hat]; exact Bool.false_ne_true)

theorem execMemoryStage_trains {s : State} (hat : s.view.at_ 4 = true) : execMemoryStage none s = .next (s.commit (s.view.enterStage 5)) :=
  State.run_ite_not _ _ (by rw [hat]; exact Bool.false_ne_true)

theorem Dev.imageFlash_takes {x : Ctx} {d : Dev} {copy dir : Nat} (hdir : d.directory = some (copy, dir)) :
    d.imageFlash x = match Dev.firstSlot 1 (fun s =>
        let p := (dirSlot dir s).2
        let v := d.flashLd p.1 (min p.2 0x20000001)
        if d.imageOk p.2 v then some (p.2, v) else none) (dirOrder dir) d with
      | (d1, some (slot, b, v)) => d1.imageDone x slot b v
      | (d1, none) => d1.failStart x 0x03 0 := by
  simp only [Dev.imageFlash, hdir] <;> rfl

section
variable {s : State} (hat : s.view.at_ 5 = true)
include hat

theorem execImageStage_flash (hsrc : s.view.bootSrc = 0) : execImageStage false s = .next (s.commit (s.view.imageFlash s.ctx)) :=
  State.run_eq (by simp only [hat, hsrc, Bool.not_true, Bool.false_eq_true, if_false, Nat.reduceBEq, if_true])

theorem execImageStage_hostPush {n : Nat} (flashFault : Bool) (hsrc : s.view.bootSrc = 1) (hpush : s.view.boot.pushImage = true)
    (hn : min (s.view.ld s.ctx 16 8) 0x20000000 = n) :
    execImageStage flashFault s = .next (s.commit (s.view.imageTake s.ctx n (s.view.ld s.ctx 0 n))) := by
  subst hn
  exact State.run_eq (by simp only [hat, hsrc, hpush, Bool.not_true, Bool.false_eq_true, if_false, Nat.reduceBEq, if_true])

theorem execImageStage_neighbourPush {b v : Nat} (flashFault : Bool) (hsrc : s.view.bootSrc = 2) (himage : s.view.boot.image = some (b, v)) :
    execImageStage flashFault s = .next (s.commit (s.view.imageTake s.ctx b v)) :=
  State.run_eq (by simp only [hat, hsrc, himage, Bool.not_true, Bool.false_eq_true, if_false, Nat.reduceBEq])

end

/-! ### FABRIC (R603, R612) -/

theorem execFabricStage_operates {s : State} (ppSerials : List Nat) (hat : s.view.at_ 7 = true)
    (hpos : s.view.boot.chainMode = false ∨ s.view.boot.posAssigned = true) :
    execFabricStage ppSerials s = .next (s.commit
      (let d1 := if s.view.boot.posAssigned then s.view else s.view.takePos 0
       let d2 := ((d1.setFld Reg.fabFabId 0 5 (d1.fld Reg.chipMchStat 0 5)).gateGroups).startPorts s.ctx
       (if ppSerials.isEmpty then d2 else d2.ppEnumerate s.ctx ppSerials).goOperational)) := by
  have hgoes : (!(s.view.at_ 7) || (s.view.boot.chainMode && !s.view.boot.posAssigned)) = false := by
    rcases hpos with h | h
    · rw [hat, h]; rfl
    · rw [hat, h, Bool.not_true, Bool.and_false]; rfl
  exact State.run_ite_not _ _ (by rw [hgoes]; exact Bool.false_ne_true)

/-! ### Neighbour push (R600) -/

theorem execBootReqTick_asks {s : State} (hstart : s.view.starting = true) (hsrc : s.view.bootSrc = 2) (hbundle : s.view.boot.bundle = none) :
    execBootReqTick s = .next (s.commit (((List.range 8).filter fun p => s.view.portUp p).foldl
      (fun (d : Dev) p => (d.sendOn p 0 0x3F 5 "BOOT_REQ" 64 [] none 1 .none).1) s.view)) :=
  State.run_ite_not _ _ (by rw [hstart, hsrc, hbundle]; exact Bool.false_ne_true)

theorem execBootReq_serves {s : State} {port : Nat} {b i : Nat × Nat} (hop : s.view.operational = true) (hserve : s.view.boot.bootServe = true)
    (hup : s.view.portUp port = true) (hb : s.view.boot.bundle = some b) (hi : s.view.boot.image = some i) :
    execBootReq port s = .next (s.commit
      (s.view.sendOn port 0 0x3F 5 "BOOT_ANSWER" (b.1 + i.1) [b.1, b.2, i.1, i.2] none 1 .none).1) :=
  State.run_eq (by simp only [hop, hserve, hup, hb, hi, Bool.not_true, Bool.or_self, Bool.false_eq_true, if_false])

theorem execBootAnswer_takes {s : State} {port : Nat} (bundle image : Nat × Nat) (hat : s.view.at_ 1 = true) (hsrc : s.view.bootSrc = 2)
    (hbundle : s.view.boot.bundle = none) (hup : s.view.portUp port = true) :
    execBootAnswer port bundle image s = .next (s.commit
      { s.view with boot := { s.view.boot with bundle := some bundle, image := some image } }) :=
  State.run_ite_not _ _ (by rw [hat, hsrc, hbundle, hup]; exact Bool.false_ne_true)

/-- Settles O56: each stage is the present one, so its test passes, and then the boot source chooses where its item comes from. -/
theorem startupStagesComplete : Obligations.StartupStagesComplete := by
  intro s
  refine ⟨?_, ?_, ?_, ?_, ?_, ?_, ?_, ?_, ?_, ?_, ?_, ?_, ?_, ?_, ?_⟩
  · exact fun copy dir hat hsrc htest hdir =>
      (execRomStage_flash hat htest hsrc).trans (congrArg (fun d => Host.Outcome.next (s.commit d)) (Dev.romFlash_takes hdir))
  · exact fun flashFault hat hsrc htest hpush => execRomStage_hostPush hat htest flashFault hsrc hpush
  · exact fun flashFault b v hat hsrc htest hbundle => execRomStage_neighbourPush hat htest flashFault hsrc hbundle
  · exact fun flashFault hat hsrc => execRomStage_eclipse hat flashFault hsrc
  · exact fun hat => State.run_ite _ _ hat
  · exact fun hat => execPowerStage_aligns hat
  · exact fun hat => execMemoryStage_trains hat
  · exact fun flashFault b v hat hsrc himage => execImageStage_neighbourPush hat flashFault hsrc himage
  · exact fun flashFault hat hsrc hpush => execImageStage_hostPush hat flashFault hsrc hpush rfl
  · exact fun copy dir hat hsrc hdir =>
      (execImageStage_flash hat hsrc).trans (congrArg (fun d => Host.Outcome.next (s.commit d)) (Dev.imageFlash_takes hdir))
  · exact fun hat => State.run_ite _ _ hat
  · exact fun ppSerials hat hpos => execFabricStage_operates ppSerials hat hpos
  · exact fun hstart hsrc hbundle => execBootReqTick_asks hstart hsrc hbundle
  · exact fun port b i hop hserve hup hb hi => execBootReq_serves hop hserve hup hb hi
  · exact fun port bundle image hat hsrc hbundle hup => execBootAnswer_takes bundle image hat hsrc hbundle hup

end Sys2Proof.Machine
end

section
/-! PROOFS about the recovery mailbox, the management chain (chapter 13) and the zeroing of a stack (chapter 14). -/

namespace Sys2Proof.Machine

/-! ### The recovery mailbox (R621, R622, R646) -/

section
variable {s : State} {d1 : Dev} (hrails : s.view.boot.railsOut = false)
include hrails

section
variable (hwrite : s.view.boot.flashWrite = none) (hd1 : s.view.recTake = d1)
include hwrite hd1

/-- A command word that comes while no WRITE takes data is a command. -/
theorem State.run_recCommand (cmd arg : Nat) (f : Ctx → Dev → Dev) :
    s.run (fun x d => d.recCommand cmd arg (f x)) = .next (s.commit (f s.ctx d1)) := by
  refine State.run_eq ?_
  rw [Dev.recCommand, hrails, hwrite, hd1]
  rfl

theorem execErase_erases {sector : Nat} (hallowed : d1.flashAllowed = true) (hsector : sector < flashSectors) :
    execErase sector false s = .next (s.commit
      (({ d1 with boot := { d1.boot with flash := d1.boot.flash.filter fun p => p.1 / 65536 != sector } } : Dev).recAnswer 2 .DONE 0)) := by
  refine (State.run_recCommand hrails hwrite hd1 2 sector _).trans ?_
  rw [hallowed, Bool.false_or, decide_eq_false (Nat.not_le.2 hsector)]
  rfl

theorem execWrite_begins {sector : Nat} (hallowed : d1.flashAllowed = true) (hsector : sector < flashSectors) :
    execWrite sector s = .next (s.commit { d1 with boot := { d1.boot with flashWrite := some ⟨sector, []⟩ } }) := by
  refine (State.run_recCommand hrails hwrite hd1 3 sector _).trans ?_
  rw [hallowed, if_neg (by exact Bool.false_ne_true), if_neg (Nat.not_le.2 hsector)]

theorem execCrc_answers {sector : Nat} (hsector : sector < flashSectors) :
    execCrc sector false s = .next (s.commit
      (({ d1 with boot := { d1.boot with recoveryOut := [crcOf (d1.flashLd (sector * 65536) 65536) 65536] } } : Dev).recAnswer 4 .DONE 0)) := by
  refine (State.run_recCommand hrails hwrite hd1 4 sector _).trans ?_
  rw [Bool.false_or, decide_eq_false (Nat.not_le.2 hsector)]
  rfl

theorem execRestart_warm (hecl : d1.eclipse = false) :
    execRestart s = .next (s.commit ((d1.warmAsked s.ctx 3).recAnswer 5 .DONE 0)) :=
  (State.run_recCommand hrails hwrite hd1 5 0 _).trans (by rw [if_neg (by rw [hecl]; exact Bool.false_ne_true)])

theorem execRestart_cold {d2 n1 : Dev} (hecl : d1.eclipse = true) (hd2 : { d1 with free := d1.free + 1 } = d2)
    (hn1 : (let n := (d2.setFld Reg.chipBootStat 26 2 0).coldReset s.ctx 7 (Config.random d1.free)
      ({ n with boot := { n.boot with heldPerst := d2.boot.heldPerst, heldWarm := d2.boot.heldWarm } } : Dev)) = n1) :
    execRestart s = .next (s.commit ((if n1.held then n1 else n1.beginStart).recAnswer 5 .DONE 0)) := by
  subst hd2 hn1
  exact (State.run_recCommand hrails hwrite hd1 5 0 _).trans (by rw [if_pos hecl])

theorem execPushDone_bundle (hsrc : d1.bootSrc = 1) (hat : d1.at_ 1 = true) :
    execPushDone 0 s = .next (s.commit (({ d1 with boot := { d1.boot with pushBundle := true } } : Dev).recAnswer 6 .DONE 0)) := by
  refine (State.run_recCommand hrails hwrite hd1 6 0 _).trans ?_
  rw [hsrc, hat]
  rfl

theorem execPushDone_image (hsrc : d1.bootSrc = 1) (hat : d1.at_ 5 = true) :
    execPushDone 1 s = .next (s.commit (({ d1 with boot := { d1.boot with pushImage := true } } : Dev).recAnswer 6 .DONE 0)) := by
  refine (State.run_recCommand hrails hwrite hd1 6 1 _).trans ?_
  rw [hsrc, hat]
  rfl

end

/-- A data word of a WRITE that is not its last is programmed. -/
theorem execRecoveryDataWord_programs {w : FlashWrite} {a : Nat} {d2 : Dev} (word : Nat) (hwrite : s.view.boot.flashWrite = some w)
    (hcollide : (s.view.mbox .recovery).h2d.collide = false) (hmore : w.words.length + 1 ≠ 16384) (hd1 : s.view.recTake = d1)
    (hd2 : { d1 with boot := { d1.boot with flashWrite := some { w with words := w.words ++ [u32 word] } } } = d2)
    (ha : w.sector * 65536 + 4 * w.words.length = a) :
    execRecoveryDataWord word false s = .next (s.commit
      (d2.flashSt a ((List.range 4).map fun k => (byteOf (u32 word) k &&& d1.flashByte (a + k))))) := by
  refine (State.run_ite_not _ _ (by rw [hrails]; exact Bool.false_ne_true)).trans ?_
  subst hd2 ha
  rw [Dev.dataWord, hwrite]
  simp only [hcollide, hd1, Bool.false_eq_true, if_false, beq_iff_eq, hmore] <;> rfl

end

/-! ### The management chain (R609 to R611) -/

section
variable {s : State} {second : Bool} {bytes : List Nat} {d1 d2 : Dev} {recent : List (Bool × List Nat × Nat)}
  (hrails : s.view.boot.railsOut = false) (hchain : second = false ∨ s.view.boot.chain2 = true) (hok : frameOk bytes = true)
  (hd1 : s.view.send (.chain second (forwarded bytes)) = d1) (hrecent : (d1.boot.chain.filter fun c => d1.now ≤ c.2.2 + 100000) = recent)
  (honce : (d1.boot.chain2 && recent.any fun c => c.1 != second && c.2.1 == bytes) = false)
  (hd2 : { d1 with boot := { d1.boot with chain := recent ++ [(second, bytes, d1.now)] } } = d2)
  (hdst : d2.dstMatches (getAt 0 2 bytes) = true)
include hrails hchain hok hd1 hrecent honce hd2 hdst

/-- The device acts on a good frame that is for it and has not come on the other chain, after it is forwarded. -/
theorem State.run_chainFrame (f : Ctx → Dev → Dev) :
    s.run (fun x d => d.chainFrame second bytes (f x)) = .next (s.commit (f s.ctx d2)) := by
  subst hd1 hrecent hd2
  exact State.run_eq (Dev.chainFrame_acts _ hrails hchain hok honce hdst)

/-- A frame with the command that is asked about is acted on. -/
theorem State.run_chainCmd {cmd : Nat} (f : Ctx → Dev → Dev) (hcmd : getAt 0 1 bytes = cmd) :
    s.run (fun x d => d.chainFrame second bytes fun d => if getAt 0 1 bytes == cmd then f x d else d) = .next (s.commit (f s.ctx d2)) :=
  (State.run_chainFrame hrails hchain hok hd1 hrecent honce hd2 hdst fun x d => if getAt 0 1 bytes == cmd then f x d else d).trans
    (by rw [if_pos (beq_iff_eq.2 hcmd)])

end

/-! ### Zeroing of a stack (R638) -/

theorem execZeroStackDone_zeroes {s : State} {stack : Nat} {old : List (Nat × Nat)} {d1 : Dev} {left : List Nat}
    (hzeroing : s.view.sec.zeroing.contains stack = true) (hcool : s.view.baseHot stack = false)
    (hold : (s.ctx.mem.stale.filterMap fun r =>
      let lo := max r.1 (stack * stackBytes)
      let hi := min r.2 ((stack + 1) * stackBytes)
      if lo < hi then some (lo, hi) else none) = old)
    (hd1 : s.view.zeroRanges (cutAll s.view.unzeroed old) = d1) (hleft : (d1.sec.zeroing.filter fun k => k != stack) = left) :
    execZeroStackDone stack s = .next (s.commit
      { d1 with sec := { d1.sec with zeroing := left, zeroDone := if left.isEmpty then d1.now else d1.sec.zeroDone } }) := by
  subst hold hd1 hleft
  exact State.run_ite_not _ _ (by rw [hzeroing, hcool]; exact Bool.false_ne_true)

/-- Settles O57: no WRITE is taking data, so a word of the mailbox is a command; a chain frame is good, new and for this device. -/
theorem recoveryCommandsComplete : Obligations.RecoveryCommandsComplete := by
  intro s
  refine ⟨?_, ?_, ?_, ?_, ?_, ?_, ?_, ?_, ?_, ?_, ?_, ?_, ?_, ?_, ?_⟩
  · exact fun hrails hwrite => State.run_recCommand hrails hwrite rfl 1 0 _
  · exact fun sector hrails hwrite hallowed hsector => execErase_erases hrails hwrite rfl hallowed hsector
  · exact fun sector hrails hwrite hallowed hsector => execWrite_begins hrails hwrite rfl hallowed hsector
  · exact fun word w hrails hwrite hcollide hmore => execRecoveryDataWord_programs hrails word hwrite hcollide hmore rfl rfl rfl
  · exact fun sector hrails hwrite hsector => execCrc_answers hrails hwrite rfl hsector
  · exact fun hrails hwrite hecl => execRestart_warm hrails hwrite rfl hecl
  · exact fun hrails hwrite hecl => execRestart_cold hrails hwrite rfl hecl rfl rfl
  · exact fun hrails hwrite hsrc hat => execPushDone_bundle hrails hwrite rfl hsrc hat
  · exact fun hrails hwrite hsrc hat => execPushDone_image hrails hwrite rfl hsrc hat
  · exact fun second bytes hrails hchain hok honce hdst hcmd => State.run_chainCmd hrails hchain hok rfl rfl honce rfl hdst _ hcmd
  · exact fun second bytes hrails hchain hok honce hdst hcmd => State.run_chainCmd hrails hchain hok rfl rfl honce rfl hdst _ hcmd
  · exact fun second bytes hrails hchain hok honce hdst hcmd => State.run_chainCmd hrails hchain hok rfl rfl honce rfl hdst _ hcmd
  · exact fun second bytes hrails hchain hok honce hdst hcmd => State.run_chainCmd hrails hchain hok rfl rfl honce rfl hdst _ hcmd
  · exact fun second bytes hrails hchain hok honce hdst => State.run_chainFrame hrails hchain hok rfl rfl honce rfl hdst _
  · exact fun stack hzeroing hcool => execZeroStackDone_zeroes hzeroing hcool rfl rfl rfl

end Sys2Proof.Machine
end

section
/-! PROOFS about security commands (chapter 14): records, attestation, debug unlock, the SVN floor and firmware updates. -/

namespace Sys2Proof.Machine

/-- One check: its status where it fails, and else the effect. -/
theorem Dev.checked_single (x : Ctx) (d : Dev) (c : Cmd) (b : Bool) (st : Status) (f : Dev → Dev) :
    d.checked x c [(b, st)] f = if b then d.finish x c st 0 else f d := by
  cases b <;> rfl

/-! ### Commands with a record (R633, R634, R642, R645) -/

section
variable {x : Ctx} {d d1 d2 : Dev} {e : Entry} {r : Nat}
  (hbuf : ([(e.f 24 8, 256), (e.f 32 8, 64)].find? fun b => !(mappedRange x.fuses.part d b.1 b.2)) = none)
  (hmedia : d.mediaBad (e.f 24 8) 256 = false) (hd1 : d.eccRead (e.f 24 8) 256 true = d1)
  (hmedia1 : d1.mediaBad (e.f 32 8) 64 = false) (hd2 : d1.eccRead (e.f 32 8) 64 true = d2) (hr : d2.recordAt x e = r)
include hbuf hmedia hd1 hmedia1 hd2 hr

/-- A record and a key that can be read decide: the effect, or REFUSED_STATE and a count. -/
theorem Dev.authorised_decides (c : Cmd) (kind : Nat) (f : Dev → Nat → Dev) :
    d.authorised x c e kind f =
      if d2.recordOk x kind r (d2.ownerKeyAt x e) then f d2 r else (d2.bump Reg.secAuthFail 1).finish x c .REFUSED_STATE 0 := by
  subst hd1 hd2 hr
  rw [Dev.authorised, Dev.buffers_pass _ hbuf, Dev.source_pass _ hmedia, Dev.source_pass _ hmedia1]

end

section
variable {s : State} {e : Entry} {d1 d2 : Dev} {r : Nat} (hres : e.reservedSet [(24, 16)] [] = false)
  (hbuf : ([(e.f 24 8, 256), (e.f 32 8, 64)].find? fun b => !(mappedRange s.ctx.fuses.part s.view b.1 b.2)) = none)
  (hmedia : s.view.mediaBad (e.f 24 8) 256 = false) (hd1 : s.view.eccRead (e.f 24 8) 256 true = d1)
  (hmedia1 : d1.mediaBad (e.f 32 8) 64 = false) (hd2 : d1.eccRead (e.f 32 8) 64 true = d2) (hr : d2.recordAt s.ctx e = r)
include hres hbuf hmedia hd1 hmedia1 hd2 hr

theorem execTenantSwitch_decides {d3 : Dev} (hlevel : s.view.sec.debugLevel ≠ 2)
    (hd3 : d2.switchTenant s.ctx 0xA0 r (recTenant r) (if bit r 56 then Config.sm2Decrypt (recBlob r) else none) = d3) :
    execTenantSwitch e s = .next (s.commit
      (if d2.recordOk s.ctx 1 r (d2.ownerKeyAt s.ctx e) then d3.finish s.ctx e.cmd .DONE (u32 d3.sec.epoch)
       else (d2.bump Reg.secAuthFail 1).finish s.ctx e.cmd .REFUSED_STATE 0)) := by
  subst hd3
  rw [execTenantSwitch, State.ring_next _ hres, Dev.checked_single, if_neg (by rw [beq_iff_eq]; exact hlevel),
    Dev.authorised_decides hbuf hmedia hd1 hmedia1 hd2 hr]

theorem execDebugUnlock_decides {level : Nat} {d3 : Dev} (hlevel : recArg r = level) (hknown : level = 1 ∨ level = 2)
    (hraises : d2.sec.debugLevel ≤ level)
    (hd3 : (if level == 2 then d2.switchTenant s.ctx 0xA4 r (2 ^ 64 - 1) none
      else { d2 with sec := { d2.sec with debugUsed := true } }) = d3) :
    execDebugUnlock e s = .next (s.commit
      (if d2.recordOk s.ctx 2 r (d2.ownerKeyAt s.ctx e) then
         (({ d3 with sec := { d3.sec with debugLevel := level } } : Dev).measure 7 0xA4 0 (Config.sm3 32 (bits r 0 256))).finish s.ctx
           e.cmd .DONE 0
       else (d2.bump Reg.secAuthFail 1).finish s.ctx e.cmd .REFUSED_STATE 0)) := by
  have hchecks : firstFail [(level != 1 && level != 2, Status.REFUSED_STATE), (decide (level < d2.sec.debugLevel), .REFUSED_STATE)] =
      none := by
    rw [decide_eq_false (Nat.not_lt.2 hraises)]
    rcases hknown with rfl | rfl <;> rfl
  subst hd3 hlevel
  rw [execDebugUnlock, State.ring_next _ hres, Dev.authorised_decides hbuf hmedia hd1 hmedia1 hd2 hr]
  simp only [Dev.checked_pass _ hchecks]

theorem execSvnCommit_decides {floor : Nat} (hfloor : recArg r = floor) (hrises : d2.sec.svnFloor < floor) (hfits : floor ≤ 63)
    (hruns : floor ≤ d2.boot.bundleVer / 2 ^ 24) :
    execSvnCommit e s = .next (s.commit
      (if d2.recordOk s.ctx 3 r (d2.ownerKeyAt s.ctx e) then
         (({ d2 with sec := { d2.sec with svnFloor := floor } } : Dev).measure 7 0xA6 0 (Config.sm3 32 (bits r 0 256))).finish s.ctx
           e.cmd .DONE 0
       else (d2.bump Reg.secAuthFail 1).finish s.ctx e.cmd .REFUSED_STATE 0)) := by
  have hchecks : firstFail [(decide (floor ≤ d2.sec.svnFloor) || decide (63 < floor) || decide (d2.boot.bundleVer / 2 ^ 24 < floor),
      Status.REFUSED_STATE)] = none := by
    rw [decide_eq_false (Nat.not_le.2 hrises), decide_eq_false (Nat.not_lt.2 hfits), decide_eq_false (Nat.not_lt.2 hruns)]
    rfl
  subst hfloor
  rw [execSvnCommit, State.ring_next _ hres, Dev.authorised_decides hbuf hmedia hd1 hmedia1 hd2 hr]
  simp only [Dev.checked_pass _ hchecks]

end

/-! ### Attestation (R641) -/

section
variable {s : State} {e : Entry}

theorem execAttest_signs {d1 : Dev} {q sig : Nat} (hres : e.reservedSet [(24, 16)] [] = false)
    (hbuf : ([(e.f 24 8, 32), (e.f 32 8, 448)].find? fun b => !(mappedRange s.ctx.fuses.part s.view b.1 b.2)) = none)
    (hmedia : s.view.mediaBad (e.f 24 8) 32 = false) (hd1 : s.view.eccRead (e.f 24 8) 32 true = d1)
    (hq : d1.quote s.ctx (d1.ld s.ctx (e.f 24 8) 32) = q) (hsig : Config.sm2Sign (Config.sm3 384 q) d1.free % 2 ^ 512 = sig) :
    execAttest e s = .next (s.commit
      ((({ d1 with free := d1.free + 1 } : Dev).st s.ctx (e.f 32 8) 448 (q + sig * 2 ^ 3072)).finish s.ctx e.cmd .DONE 0)) := by
  subst hd1 hq hsig
  rw [execAttest, State.ring_next _ hres, Dev.buffers_pass _ hbuf, Dev.source_pass _ hmedia]

theorem execMlogRead_writes {es : List MEntry} (hres : e.reservedSet [(16, 4), (24, 8)] [] = false) (hsome : e.f 18 2 ≠ 0)
    (hfew : e.f 18 2 ≤ 4096) (hes : (s.view.sec.mlog.drop (e.f 16 2)).take (e.f 18 2) = es)
    (hbuf : ([(e.f 24 8, 64 * es.length)].find? fun b => !(mappedRange s.ctx.fuses.part s.view b.1 b.2)) = none) :
    execMlogRead e s = .next (s.commit ((s.view.stRecords s.ctx (e.f 24 8) 64 (es.map MEntry.pack)).finish s.ctx e.cmd
      (if es.length < e.f 18 2 then .DONE_PARTIAL else .DONE) es.length)) := by
  have hcount : ¬ ((e.f 18 2 == 0 || decide (4096 < e.f 18 2)) = true) := by
    rw [beq_eq_false_iff_ne.2 hsome, decide_eq_false (Nat.not_lt.2 hfew)]
    exact Bool.false_ne_true
  subst hes
  rw [execMlogRead, State.ring_next _ hres, if_neg hcount, Dev.buffers_pass _ hbuf]

theorem execCertRead_copies (hres : e.reservedSet [(24, 12)] [] = false) :
    execCertRead e s = .next (s.commit
      (if e.f 32 4 < Config.certChain.1 then s.view.finish s.ctx e.cmd .REFUSED_RESOURCE 0
       else s.view.buffers s.ctx e.cmd [(e.f 24 8, Config.certChain.1)] fun d =>
         (d.st s.ctx (e.f 24 8) Config.certChain.1 Config.certChain.2).finish s.ctx e.cmd .DONE Config.certChain.1)) := by
  rw [execCertRead, State.ring_next _ hres, Dev.checked_single]
  simp only [decide_eq_true_eq]

/-! ### Firmware updates (R644) -/

theorem execFwUpdate_decides {n copy v slot : Nat} {d1 d2 : Dev} {fw img : Nat × Nat} (hres : e.reservedSet [(24, 24)] [] = false)
    (hn : (if e.f 24 8 != 0 then e.f 40 4 else 0) = n)
    (hbuf : ([(e.f 24 8, n), (e.f 32 8, e.f 44 4)].find? fun b => !(mappedRange s.ctx.fuses.part s.view b.1 b.2)) = none)
    (hmedia : s.view.mediaBad (e.f 24 8) n = false) (hd1 : s.view.eccRead (e.f 24 8) n true = d1)
    (hmedia1 : d1.mediaBad (e.f 32 8) (e.f 44 4) = false) (hd2 : d1.eccRead (e.f 32 8) (e.f 44 4) true = d2)
    (hfw : (if e.f 24 8 != 0 then (n, d2.ld s.ctx (e.f 24 8) n) else d2.boot.bundle.getD (0, 0)) = fw)
    (himg : (e.f 44 4, d2.ld s.ctx (e.f 32 8) (e.f 44 4)) = img) (hslot : 1 - d2.fld Reg.chipBootStat 25 1 = slot)
    (hdir : d2.directory = some (copy, v)) (hfwFits : fitsArea v (dirSlot v slot).1.1 fw.1 = true)
    (himgFits : fitsArea v (dirSlot v slot).2.1 img.1 = true) :
    execFwUpdate e false s = .next (s.commit
      (if d2.updateOk s.ctx fw img then (d2.writeSlot copy v slot fw img).finish s.ctx e.cmd .DONE 0
       else d2.finish s.ctx e.cmd .REFUSED_STATE 0)) := by
  subst hn hd1 hd2 hfw himg hslot
  rw [execFwUpdate, State.ring_next _ hres, Dev.buffers_pass _ hbuf, Dev.source_pass _ hmedia, Dev.source_pass _ hmedia1]
  simp only [hdir, hfwFits, himgFits, Bool.not_true, Bool.or_self, Bool.false_eq_true, if_false, Bool.not_eq_true', ← Bool.not_eq_true,
    ite_not]

end

/-- Settles O41: the buffers are mapped and can be read, so the record, the items or the log decide. -/
theorem securityCommandsComplete : Obligations.SecurityCommandsComplete := by
  intro s
  refine ⟨?_, ?_, ?_, ?_, ?_, ?_, ?_⟩
  · exact fun e hres hlevel hbuf hmedia hmedia1 => execTenantSwitch_decides hres hbuf hmedia rfl hmedia1 rfl rfl hlevel rfl
  · exact fun e hres hbuf hmedia => execAttest_signs hres hbuf hmedia rfl rfl rfl
  · exact fun e hres hsome hfew hbuf => execMlogRead_writes hres hsome hfew rfl hbuf
  · exact fun e hres => execCertRead_copies hres
  · exact fun e hres hbuf hmedia hmedia1 hknown hraises =>
      execDebugUnlock_decides hres hbuf hmedia rfl hmedia1 rfl rfl rfl hknown hraises rfl
  · exact fun e hres hbuf hmedia hmedia1 hrises hfits hruns =>
      execSvnCommit_decides hres hbuf hmedia rfl hmedia1 rfl rfl rfl hrises hfits hruns
  · exact fun e copy v hres hbuf hmedia hmedia1 hdir hfwFits himgFits =>
      execFwUpdate_decides hres rfl hbuf hmedia rfl hmedia1 rfl rfl rfl rfl hdir hfwFits himgFits

end Sys2Proof.Machine
end

section
/-! PROOFS about power (chapter 15): gating and waking, limits and modes, evaluations, samples and THERMTRIP. -/

namespace Sys2Proof.Machine

/-! ### Commands (R668 to R670) -/

section
variable {s : State} {e : Entry}

section
variable (hres : e.reservedSet [(16, 1)] [] = false)
include hres

theorem execPwrGate_begins (hgate : s.view.gateRefused s.ctx (e.f 16 1) = false) :
    execPwrGate e s = .next (s.commit (({ s.view with pmc := { s.view.pmc with
      gating := s.view.pmc.gating ++ [(⟨e.f 16 1, e.cmd, s.view.now, s.view.sess.batches.map (·.id), false, []⟩ : GateOp)] } } : Dev).sendRates
        s.ctx)) := by
  rw [execPwrGate, State.ring_next _ hres, Dev.checked_single, if_neg (by rw [hgate]; exact Bool.false_ne_true)]

theorem execPwrVmode_waits (hmode : e.f 16 1 ≤ 2) :
    execPwrVmode e s = .next (s.commit
      (({ s.view with pmc := { s.view.pmc with pendingMode := some (e.f 16 1) } } : Dev).finish s.ctx e.cmd .DONE 0)) := by
  rw [execPwrVmode, State.ring_next _ hres, Dev.checked_single, if_neg (by rw [decide_eq_true_eq]; exact Nat.not_lt.2 hmode)]

section
variable {code : Nat} (hcode : e.f 16 1 = code) (hdomain : (gateBit s.ctx.fuses.part code).isSome = true)
include hcode hdomain

/-- A wake of a domain that can be gated acts on its gate, if one is in progress, and else on the domain. -/
theorem execPwrWake_decides :
    execPwrWake e s = .next (s.commit (match s.view.gateOf code with
      | some g => s.view.wakeGating s.ctx e.cmd g
      | none =>
        if !(s.view.gated s.ctx code) then s.view.finish s.ctx e.cmd .DONE 0
        else if s.view.pmc.waking.any fun w => w.domain == code then
          { s.view with pmc := { s.view.pmc with
              waking := s.view.pmc.waking.map fun w => if w.domain == code then { w with wakes := w.wakes ++ [e.cmd] } else w } }
        else { s.view with pmc := { s.view.pmc with
                 waking := s.view.pmc.waking ++ [(⟨code, e.cmd, s.view.now, [], false, []⟩ : GateOp)] } })) := by
  subst hcode
  rw [execPwrWake, State.ring_next _ hres, Dev.checked_single,
    if_neg (by rw [Option.isNone_eq_false_iff.2 hdomain]; exact Bool.false_ne_true)] <;> rfl

theorem execPwrWake_gating {g : GateOp} (hg : s.view.gateOf code = some g) :
    execPwrWake e s = .next (s.commit (s.view.wakeGating s.ctx e.cmd g)) :=
  (execPwrWake_decides hres hcode hdomain).trans (by rw [hg])

theorem execPwrWake_awake (hg : s.view.gateOf code = none) (hgated : s.view.gated s.ctx code = false) :
    execPwrWake e s = .next (s.commit (s.view.finish s.ctx e.cmd .DONE 0)) :=
  (execPwrWake_decides hres hcode hdomain).trans (by rw [hg, hgated]; rfl)

theorem execPwrWake_begins (hg : s.view.gateOf code = none) (hgated : s.view.gated s.ctx code = true)
    (hwaking : (s.view.pmc.waking.any fun w => w.domain == code) = false) :
    execPwrWake e s = .next (s.commit { s.view with pmc := { s.view.pmc with
      waking := s.view.pmc.waking ++ [(⟨code, e.cmd, s.view.now, [], false, []⟩ : GateOp)] } }) :=
  (execPwrWake_decides hres hcode hdomain).trans (by rw [hg, hgated, hwaking]; rfl)

end
end

theorem execPwrLimit_waits {w : Nat} (hres : e.reservedSet [(16, 2)] [] = false) (hw : e.f 16 2 = w) (hlow : 0x4B0 ≤ w) (hhigh : w ≤ 0x5DC)
    (hcorner : bit (s.view.reg Reg.sessLedgerCtl) 31 = false ∨ 1400 ≤ w) :
    execPwrLimit e s = .next (s.commit
      (({ s.view with pmc := { s.view.pmc with pendingLimit := some w } } : Dev).finish s.ctx e.cmd .DONE 0)) := by
  have hok : (decide (w < 0x4B0) || decide (0x5DC < w) || (bit (s.view.reg Reg.sessLedgerCtl) 31 && decide (w < 1400))) = false := by
    rw [decide_eq_false (Nat.not_lt.2 hlow), decide_eq_false (Nat.not_lt.2 hhigh)]
    rcases hcorner with h | h
    · rw [h]; rfl
    · rw [decide_eq_false (Nat.not_lt.2 h), Bool.and_false]; rfl
  subst hw
  rw [execPwrLimit, State.ring_next _ hres, Dev.checked_single, if_neg (by rw [hok]; exact Bool.false_ne_true)]

end

/-! ### Gating and waking (R667 to R669) -/

section
variable {s : State} {domain : Nat} {g : GateOp} (hg : s.view.gateOf domain = some g) (hdrained : g.drained = false)
include hg hdrained

section
variable (hbatches : g.batches = [])
include hbatches

theorem execGateBatchesClosed_drains (hquad : domain < 4) :
    execGateBatchesClosed domain s = .next (s.commit { s.view with pmc := { s.view.pmc with
      gating := s.view.pmc.gating.map fun k => if k.domain == domain then { k with drained := true, since := s.view.now } else k } }) := by
  refine State.run_eq ?_
  simp only [hg, hbatches, hdrained, List.isEmpty_nil, Bool.not_true, Bool.or_self, Bool.false_eq_true, if_false]
  exact if_pos hquad

theorem execGateBatchesClosed_gates (hother : 4 ≤ domain) :
    execGateBatchesClosed domain s = .next (s.commit (s.view.gateNow s.ctx g)) := by
  refine State.run_eq ?_
  simp only [hg, hbatches, hdrained, List.isEmpty_nil, Bool.not_true, Bool.or_self, Bool.false_eq_true, if_false]
  exact if_neg (Nat.not_lt.2 hother)

end

theorem execPwrGateTimeout_fails (hlate : g.since + 1000000000 ≤ s.view.now) :
    execPwrGateTimeout domain s = .next (s.commit
      ((({ s.view with pmc := { s.view.pmc with gating := s.view.pmc.gating.filter fun k => k.domain != domain } } : Dev).sendRates
        s.ctx).finish s.ctx g.cmd .FAULT_TIMEOUT 0)) := by
  refine State.run_eq ?_
  simp only [hg, hdrained, Bool.false_or]
  exact if_neg (by rw [decide_eq_true_eq]; exact Nat.not_lt.2 hlate)

end

theorem execWakeReady_rejoins {s : State} {domain b : Nat} {w : GateOp} {d1 d2 : Dev}
    (hw : (s.view.pmc.waking.find? fun w => w.domain == domain && (3 < domain || (s.view.keeper (domain + 1)).aligned)) = some w)
    (hb : gateBit s.ctx.fuses.part domain = some b)
    (hd1 : ({ s.view with pmc := { s.view.pmc with waking := s.view.pmc.waking.filter fun k => k.domain != domain } } : Dev).setFld
      Reg.pmcGate b 1 0 = d1)
    (hd2 : (if domain < 4 then d1.quadBack s.ctx domain else d1).domainPaces s.ctx domain 1 = d2) :
    execWakeReady domain s = .next (s.commit
      ((w.cmd :: w.wakes).foldl (fun (d : Dev) c => d.finish s.ctx c .DONE 0) (d2.sendRates s.ctx))) := by
  refine State.run_eq ?_
  subst hd1 hd2
  simp only [hw, hb]

/-! ### Evaluations, samples and THERMTRIP (R650, R653, R658) -/

section
variable {s : State} (hfree : s.view.held = false) (hstage : 2 < s.view.stage) (hecl : s.view.eclipse = false)
include hfree hstage hecl

theorem execPmcEvaluation_evaluates (railMv : List Nat) (htrip : s.view.pmc.tripped = false) :
    execPmcEvaluation railMv s = .next (s.commit (s.view.evaluate s.ctx railMv)) :=
  State.run_ite_not _ _ (by rw [hfree, decide_eq_false (Nat.not_le.2 hstage), hecl, htrip]; exact Bool.false_ne_true)

theorem execThermalSample_samples {bad : List Nat} {quads : List Int} {stackT : List (Nat × Int)} {pkgW w : Nat} {d1 d2 d3 d4 : Dev}
    (hd1 : bad.foldl (fun (d : Dev) b => d.sensorFails b) s.view = d1)
    (hd2 : ((quads.take 4).zipIdx).foldl (fun (d : Dev) q => d.quadSample q.2 q.1) d1 = d2)
    (hd3 : (stackT.filter fun k => s.ctx.fuses.part.fittedStacks.contains k.1).foldl
      (fun (d : Dev) k => d.stackSample s.ctx k.1 k.2) d2 = d3)
    (hw : min pkgW 0xFFFF = w)
    (hd4 : (d3.setFld Reg.pmcPkgPower 0 16 w).setFld Reg.pmcPkgPower 16 16 (max w (d3.fld Reg.pmcPkgPower 16 16)) = d4) :
    execThermalSample quads stackT pkgW bad s = .next (s.commit
      ((if d4.pmc.stackCrit == s.view.pmc.stackCrit then d4 else d4.sendRates s.ctx).setAlert)) := by
  subst hd1 hd2 hd3 hw hd4
  refine State.run_eq (if_neg ?_)
  rw [hfree, decide_eq_false (Nat.not_le.2 hstage), hecl]
  exact Bool.false_ne_true

end

theorem execThermtrip_trips {s : State} {d1 : Dev} (sensor : Nat) (htrip : s.view.pmc.tripped = false) (hrails : s.view.boot.railsOut = false)
    (hd1 : (if 2 ≤ s.view.stage && !s.view.eclipse && s.view.hif.eventReceiver.isSome then
      s.view.mctp (.platformEvent sensor (s.view.sense sensor)) else s.view) = d1) :
    execThermtrip sensor s = .next (s.commit
      (({ d1 with pmc := { d1.pmc with tripped := true, railMv := [0, 0, 0, 0] } } : Dev).send (.pin .thermtripN false))) := by
  subst hd1
  exact State.run_ite_not _ _ (by rw [htrip, hrails]; exact Bool.false_ne_true)

/-- Settles O42: the checks of a command pass and each event finds the gate, the wake or the device that it waits for. -/
theorem powerComplete : Obligations.PowerComplete := by
  intro s
  refine ⟨?_, ?_, ?_, ?_, ?_, ?_, ?_, ?_, ?_, ?_, ?_, ?_, ?_⟩
  · exact fun e hres hgate => execPwrGate_begins hres hgate
  · exact fun e g hres hdomain hg => execPwrWake_gating hres rfl hdomain hg
  · exact fun e hres hdomain hg hgated => execPwrWake_awake hres rfl hdomain hg hgated
  · exact fun e hres hdomain hg hgated hwaking => execPwrWake_begins hres rfl hdomain hg hgated hwaking
  · exact fun e hres hlow hhigh hcorner => execPwrLimit_waits hres rfl hlow hhigh hcorner
  · exact fun e hres hmode => execPwrVmode_waits hres hmode
  · exact fun domain g hg hdrained hbatches hquad => execGateBatchesClosed_drains hg hdrained hbatches hquad
  · exact fun domain g hg hdrained hbatches hother => execGateBatchesClosed_gates hg hdrained hbatches hother
  · exact fun domain g hg hdrained hlate => execPwrGateTimeout_fails hg hdrained hlate
  · exact fun domain b w hw hb => execWakeReady_rejoins hw hb rfl rfl
  · exact fun railMv hfree hstage hecl htrip => execPmcEvaluation_evaluates hfree hstage hecl railMv htrip
  · exact fun quads stackT pkgW bad hfree hstage hecl => execThermalSample_samples hfree hstage hecl rfl rfl rfl rfl rfl
  · exact fun sensor htrip hrails => execThermtrip_trips sensor htrip hrails rfl

end Sys2Proof.Machine
end

section
/-! PROOFS about error logs (chapter 16): what a log keeps, the commands on the logs, scrub passes and line retirement. -/

namespace Sys2Proof.Machine

/-! ### Opening an entry (R686) -/

/-- The entry that a report opens in a log. -/
def ErrLog.newEntry (l : ErrLog) (r : Report) : LogEntry :=
  ⟨r.stamp, r.lastStamp - r.stamp, r.count, r.source, r.type, r.sev, r.level, r.injected, l.seqNext % 65536, r.info⟩

section
variable {l : ErrLog} (r : Report)

theorem ErrLog.openEntry_fixed (hroom : l.fixed.length < 2048) :
    l.openEntry r = ({ l with seqNext := (l.seqNext + 1) % 65536, fixed := l.fixed ++ [l.newEntry r] }, false) :=
  if_pos hroom

theorem ErrLog.openEntry_ring (hfull : l.fixed.length = 2048) (hroom : l.ring.length < 2048) :
    l.openEntry r = ({ l with seqNext := (l.seqNext + 1) % 65536, ring := l.ring ++ [l.newEntry r] }, false) :=
  (if_neg (Nat.not_lt.2 hfull.ge)).trans (if_pos hroom)

theorem ErrLog.openEntry_replaces (hfull : l.fixed.length = 2048) (hring : l.ring.length = 2048) :
    l.openEntry r = ({ l with seqNext := (l.seqNext + 1) % 65536, ring := l.ring.drop 1 ++ [l.newEntry r],
                              oldest := if l.oldest == 4095 then 2048 else l.oldest + 1 }, true) :=
  (if_neg (Nat.not_lt.2 hfull.ge)).trans (if_neg (Nat.not_lt.2 hring.ge))

end

/-- An entry takes reports of its kind only, and only within its millisecond (R685). -/
theorem ErrLog.openFor_some {l : ErrLog} {r : Report} {e : LogEntry} (h : l.openFor r = some e) :
    e.takes r = true ∧ e.first ≤ r.stamp ∧ r.stamp < e.first + 1000000 := by
  cases hlast : (l.entries.filter fun e => e.takes r).getLast? with
  | none => simp [ErrLog.openFor, hlast] at h
  | some k =>
    have htakes : k.takes r = true := (List.mem_filter.1 (List.mem_of_getLast? hlast)).2
    simp only [ErrLog.openFor, hlast, Option.ite_none_right_eq_some, Option.some.injEq, Bool.and_eq_true, decide_eq_true_eq] at h
    obtain ⟨hwindow, rfl⟩ := h
    exact ⟨htakes, hwindow⟩

/-- Settles O17: the halves of a log are full or not, which gives the three ways to open an entry. -/
theorem logKeepsFirstEntries : Obligations.LogKeepsFirstEntries := by
  refine ⟨fun l r hfixed hring => ?_, fun l r e h => ?_⟩
  · rcases Nat.lt_or_eq_of_le hfixed with hroom | hfull
    · rw [ErrLog.openEntry_fixed r hroom]
      simp [hring, hroom.ne, Nat.succ_le_of_lt hroom]
    · rcases Nat.lt_or_eq_of_le hring with hroom | hend
      · rw [ErrLog.openEntry_ring r hfull hroom]
        simp [hfull, hroom.ne, Nat.succ_le_of_lt hroom]
      · rw [ErrLog.openEntry_replaces r hfull hend]
        simp [hfull, hend]
  · obtain ⟨htakes, hfirst, hlast⟩ := ErrLog.openFor_some h
    simp only [LogEntry.takes, Bool.and_eq_true, beq_iff_eq] at htakes
    obtain ⟨⟨hsource, htype⟩, hinjected⟩ := htakes
    exact ⟨hsource, htype, hinjected, hfirst, hlast, rfl, rfl, rfl, rfl⟩

/-! ### Commands and intake (R688 to R691) -/

section
variable {s : State} {e : Entry}

theorem execElogRead_reads {k n : Nat} {es : List LogEntry} {d1 : Dev} (hres : e.reservedSet [(16, 2), (24, 12)] [(137, 7)] = false)
    (hk : e.f 16 1 = k) (hlog : k ≤ 4) (hes : (getAt ErrLog.reset k s.view.err.logs).entries = es) (hn : min (e.f 32 4) es.length = n)
    (hbuf : ([(e.f 24 8, 32 * n)].find? fun b => !(mappedRange s.ctx.fuses.part s.view b.1 b.2)) = none)
    (hd1 : s.view.stRecords s.ctx (e.f 24 8) 32 ((es.take n).map LogEntry.pack) = d1) :
    execElogRead e s = .next (s.commit
      (if n < es.length then d1.finish s.ctx e.cmd .DONE_PARTIAL n
       else (if bit (e.f 17 1) 0 then d1.clearLog k else d1).finish s.ctx e.cmd .DONE n)) := by
  subst hk hes hn hd1
  rw [execElogRead, State.ring_next _ hres, Dev.checked_single, if_neg (by rw [decide_eq_true_eq]; exact Nat.not_lt.2 hlog), Dev.elogRead,
    Dev.buffers_pass _ hbuf]

section
variable (hres : e.reservedSet [(16, 2), (20, 4), (24, 16)] [(240, 16)] = false)
  (hchecks : firstFail (injectChecks s.ctx s.view e) = none)
include hres hchecks

theorem execErrInject_synthetic (hmode : e.f 16 1 = 1) :
    execErrInject e s = .next (s.commit ((s.view.synthetic (e.f 20 4) (e.f 17 1) (e.f 32 8)).finish s.ctx e.cmd .DONE 0)) := by
  rw [execErrInject, State.ring_next _ hres, Dev.checked_pass _ hchecks]
  simp only [hmode]

theorem execErrInject_correctable (hmode : e.f 16 1 = 2 ∨ e.f 16 1 = 4) :
    execErrInject e s = .next (s.commit ((s.view.corrupt (e.f 24 6) false).finish s.ctx e.cmd .DONE 0)) := by
  rw [execErrInject, State.ring_next _ hres, Dev.checked_pass _ hchecks]
  rcases hmode with hmode | hmode <;> simp only [hmode]

theorem execErrInject_uncorrectable (hmode : e.f 16 1 = 3 ∨ e.f 16 1 = 5) :
    execErrInject e s = .next (s.commit ((s.view.corrupt (e.f 24 6) true).finish s.ctx e.cmd .DONE 0)) := by
  rw [execErrInject, State.ring_next _ hres, Dev.checked_pass _ hchecks]
  rcases hmode with hmode | hmode <;> simp only [hmode]

end
end

theorem execVector0Deferred_raises {s : State} {t : Ns} (hdeferred : s.view.err.vec0Deferred = true) (hlast : s.view.err.lastVec0 = some t)
    (hdue : t + 100000 ≤ s.view.now) :
    execVector0Deferred s = .next (s.commit
      (({ s.view with err := { s.view.err with vec0Deferred := false, lastVec0 := some s.view.now } } : Dev).raise 0)) := by
  refine State.run_ite _ _ ?_
  rw [hdeferred, hlast]
  exact decide_eq_true hdue

theorem execLogClear_clears {s : State} {log : Nat} (hcpl : s.view.bar0Cpl s.ctx Reg.errlogCtl = .success) (hlog : log < 5) :
    execLogClear log s = .next (s.commit ((s.view.clearLog log).setFld Reg.errlogCtl (16 + log) 1 0)) :=
  (State.run_bar0 _ hcpl).trans (by rw [if_pos hlog])

/-! ### Scrubs and line retirement (R678, R680) -/

theorem hbmScrub_goes {x : Ctx} {d : Dev} {stack : Nat} (hfitted : x.fuses.part.fittedStacks.contains stack = true)
    (hlive : d.err.deadStacks.contains stack = false) (hop : d.operational = true) (hcool : d.baseHot stack = false) :
    ¬ (!(x.fuses.part.fittedStacks.contains stack) || d.err.deadStacks.contains stack || !d.operational || d.baseHot stack) = true := by
  rw [hfitted, hlive, hop, hcool]
  exact Bool.false_ne_true

theorem sramScrub_goes {d : Dev} {q : Nat} (hq : q < 4) (hop : d.operational = true) (hup : d.quadUp q = true) :
    ¬ (q == 4 && 2 ≤ d.stage && !d.held && !d.eclipse) = true ∧ ¬ (4 ≤ q || !d.operational || !(d.quadUp q)) = true := by
  simp only [beq_eq_false_iff_ne.2 hq.ne, decide_eq_false (Nat.not_le.2 hq), hop, hup, Bool.false_and, Bool.not_true, Bool.or_self,
    Bool.false_eq_true, not_false_eq_true, and_self]

theorem execSramScrubPass_control {s : State} (found : List (Nat × Bool)) (hstage : 2 ≤ s.view.stage) (hfree : s.view.held = false)
    (hecl : s.view.eclipse = false) : execSramScrubPass 4 found s = .next (s.commit (s.view.controlScrub s.ctx found)) :=
  State.run_ite _ _ (by rw [decide_eq_true hstage, hfree, hecl]; rfl)

/-- A line that has an uncorrectable word or reaches its limit, and is not retired, is retired. -/
theorem lineRetire_goes {d : Dev} {q line a : Nat} (hq : q < 4) (hline : line < 98304)
    (hfails : (d.err.bad.any fun b => b.uncorrectable && !b.held && b.addr / 4096 == a / 4096) = true ∨
      d.fld Reg.errlogSramCtl 0 8 ≤ (tblGet (a / 4096) d.err.lineCe).getD 0)
    (hnew : d.err.retiredLines.contains (a / 4096) = false) :
    ¬ (4 ≤ q || 98304 ≤ line || !((d.err.bad.any fun b => b.uncorrectable && !b.held && b.addr / 4096 == a / 4096) ||
      d.fld Reg.errlogSramCtl 0 8 ≤ (tblGet (a / 4096) d.err.lineCe).getD 0) || d.err.retiredLines.contains (a / 4096)) = true := by
  have hbad : ((d.err.bad.any fun b => b.uncorrectable && !b.held && b.addr / 4096 == a / 4096) ||
      decide (d.fld Reg.errlogSramCtl 0 8 ≤ (tblGet (a / 4096) d.err.lineCe).getD 0)) = true := by
    rw [Bool.or_eq_true, decide_eq_true_eq]
    exact hfails
  rw [decide_eq_false (Nat.not_le.2 hq), decide_eq_false (Nat.not_le.2 hline), hbad, hnew]
  exact Bool.false_ne_true

/-- Settles O43: the checks of a command pass, and each event finds the log, the stack, the quadrant or the line that it is about. -/
theorem errorCommandsComplete : Obligations.ErrorCommandsComplete := by
  intro s
  refine ⟨?_, ?_, ?_, ?_, ?_, ?_, ?_, ?_, ?_, ?_, ?_, ?_⟩
  · exact fun e hres hlog hbuf => execElogRead_reads hres rfl hlog rfl rfl hbuf rfl
  · exact fun e hres hchecks hmode => execErrInject_synthetic hres hchecks hmode
  · exact fun e hres hchecks hmode => execErrInject_correctable hres hchecks hmode
  · exact fun e hres hchecks hmode => execErrInject_uncorrectable hres hchecks hmode
  · exact fun r => State.run_next s _
  · exact fun log hlog => State.run_ite _ _ hlog
  · exact fun t hdeferred hlast hdue => execVector0Deferred_raises hdeferred hlast hdue
  · exact fun log hcpl hlog => execLogClear_clears hcpl hlog
  · exact fun stack found hfitted hlive hop hcool => State.run_ite_not _ _ (hbmScrub_goes hfitted hlive hop hcool)
  · exact fun q found hq hop hup =>
      State.run_eq ((if_neg (sramScrub_goes hq hop hup).1).trans (if_neg (sramScrub_goes hq hop hup).2))
  · exact fun found hstage hfree hecl => execSramScrubPass_control found hstage hfree hecl
  · exact fun q line hq hline hfails hnew => State.run_ite_not _ _ (lineRetire_goes hq hline hfails hnew)

end Sys2Proof.Machine
end
